-- ==== Sys2Proof/Word.lean ====
section
/-! DEFINITION. The word types and the plainest arithmetic on them. -/

namespace Sys2Proof

/-- A 64-bit register word. -/
abbrev Word := BitVec 64

/-- A byte of memory. -/
abbrev Byte := BitVec 8

/-- A 512-bit vector register, or one 64 B record. -/
abbrev Vec := BitVec 512

end Sys2Proof
end

