-- ==== Sys2Proof/Syntax.lean ====
section
/-! DEFINITION. The commands the block takes: one constructor per row of spec/opcode_table.json, with its operands. -/

namespace Sys2Proof

/-- Who makes a register access (R478, DETAIL byte 52). A gallery context is named by its site, core and context. -/
inductive Src where
  | bedrock
  | flowstone
  | gallery (site core ctx : Nat)
  | host
  | lantern
deriving DecidableEq, Repr

/-- The hardware context that executes a Leriq instruction: a context of a gallery site's logical core, or a context of
the management core or of Lantern, which run Leriq-M (R209). -/
inductive Hart where
  | gal (site core ctx : Nat)
  | mgmt (ctx : Nat)
  | lantern (ctx : Nat)
deriving DecidableEq, Repr

/-- A reset domain that can be held by R379. -/
inductive ResetDom where
  | core (site core : Nat)
  | gallery (site : Nat)
  | chamber (c : Nat)
  | compute
deriving DecidableEq, Repr

/-- The fields of a class V instruction word (Table 9.1). -/
structure VOp where
  vd : Nat
  a : Nat
  b : Nat
  ge : Nat
  gp : Nat
  fmt : Nat
  ctl : Nat
deriving DecidableEq, Repr

/-- The fields of a class X instruction (Table 9.1): `per` is bits [8:0] of the word at PC, `w1` the word at PC + 4. -/
structure XOp where
  d : Nat
  a : Nat
  b : Nat
  cls : Nat
  per : Nat
  w1 : Nat
deriving DecidableEq, Repr

/-- One witness checksum as the array delivers it (R125): which one, the output sum, the witness checksum and the
magnitude sum, as FP32 codes. -/
structure WitSum where
  isRow : Bool
  index : Nat
  sum : Nat
  wit : Nat
  mag : Nat
deriving DecidableEq, Repr

/-- A ring that a runtime binds for a task that it installs: the completion ring of entry `t`, or receive ring `r`, with
word 0 of its MU entry (Tables 11.11 and 11.15). -/
inductive RingPlan where
  | cq (t w : Nat)
  | ring (r w : Nat)
deriving DecidableEq, Repr

/-- An output element that a faulty cell of an array delivers otherwise than R96: row, column, FP32 code. -/
structure CellDev where
  row : Nat
  col : Nat
  code : Nat
deriving DecidableEq, Repr

/-- The start of a tile: which of the two engines starts it, and the output elements that faulty cells deliver otherwise. -/
structure ArrayStart where
  j : Nat
  dev : List CellDev
deriving DecidableEq, Repr

/-- An installation by a runtime: its logical gallery, and the rings that it binds for the tasks installed (R179). -/
structure InstallPlan where
  lg : Nat
  binds : List RingPlan
deriving DecidableEq, Repr

/-- The end of a drain that has lasted too long (R78): the slice, and the operations and contexts (core * 128 + context) of the
gallery whose writes the array has not committed. -/
structure DrainCut where
  slice : Nat
  late : List Nat
  ctxs : List Nat
deriving DecidableEq, Repr

/-- A step of a chamber reset (Table 20.3): the chamber, and the sites whose scrub finds a word that is not zero. -/
structure ChamberStep where
  c : Nat
  bad : List Nat
deriving DecidableEq, Repr

/-- A control message (Table 16.5): its 128 bytes, and the path it came by (none: the management port; a port and flow
for an SFT CTRL frame). -/
structure CtrlMsg where
  raw : List Byte
  path : Option (Nat × Nat)
deriving DecidableEq, Repr


/-- A frame as a port receives it, at the level of its transport: the bytes from the transport header to the end of the
payload, and whether the frame carried ECN-CE. -/
structure Frame where
  raw : List Byte
  ce : Bool
deriving DecidableEq, Repr

/-- A RoCEv2 message as the transport has assembled it (Table 15.8): the queue pair, first PSN, virtual address, key,
length, payload, immediate, ECN-CE and the outcome of the ICRC check; `syn` is the syndrome of an ACK (0 ACK, 1 RNR NAK,
2 PSN sequence NAK, 3 other NAK). -/
structure Roce where
  qp : Nat
  psn : Nat
  va : Nat
  rkey : Nat
  len : Nat
  payload : List Byte
  imm : Option Nat
  ce : Bool
  icrcOk : Bool
  syn : Nat
deriving DecidableEq, Repr

/-- A PTP message on a link (R326), with the time stamps it gives, in ns. -/
inductive Ptp where
  /-- Domain, and the priority vector of the master as one number, smaller is better. -/
  | announce (domain rank : Nat)
  /-- One-step: origin and receipt; two-step: the origin follows. -/
  | sync (domain : Nat) (t1 : Option Int) (t2 : Int)
  | followUp (domain : Nat) (t1 : Int)
  /-- Departure of our request and receipt of it at the master. -/
  | delayResp (domain : Nat) (t3 t4 : Int)
  | other
deriving DecidableEq, Repr

/-- What Lantern finds at its inputs in one sample period: 16 raw samples, the hottest junction, KILL_N asserted. -/
structure Inputs where
  raw : List Nat
  tj : Nat
  kill : Bool
deriving DecidableEq, Repr

/-- What a bring-up step found (Table 18.1, R372): whether its verification or link test failed, the stacks that failed
to train, the sites that are not usable, and spare rows each stack reports. -/
structure StepRes where
  verifyOk : Bool
  linkOk : Bool
  badStacks : List Nat
  badSites : List Nat
  spareRows : List Nat
deriving DecidableEq, Repr

/-- The commands, one per row of spec/opcode_table.json, each with the rule the table names. -/
inductive Instr where
  /-- REGISTER_WRITE (R6). -/
  | registerWrite (src : Src) (addr : Nat) (size : Nat) (value : Nat)
  /-- DRIP_OPEN (R20). -/
  | dripOpen
  /-- SEAL_START (R22). -/
  | sealStart
  /-- DRIP_ENABLE_WRITE (R481). -/
  | dripEnableWrite (src : Src) (v : Word)
  /-- DRIP_SRC_WRITE (R26). -/
  | dripSrcWrite (src : Src) (v : Word)
  /-- RESYNC (R27). -/
  | resync (src : Src) (v : Word)
  /-- DRIP_APPLY_AT_WRITE (R21). -/
  | dripApplyAtWrite (src : Src) (v : Word)
  /-- PTP_OFFSET_MEASURED (R26). -/
  | ptpOffsetMeasured (ns : Int)
  /-- SOURCE_LOST (R28). -/
  | sourceLost
  /-- HOLDOVER_SYNC_TIMEOUT (R28). -/
  | holdoverSyncTimeout
  /-- PPS_IN_EDGE (R25). -/
  | ppsInEdge (ns : Int)
  /-- MSTR_FREEZE (R34). -/
  | mstrFreeze (src : Src) (mb : Nat) (i : Nat) (v : Word)
  /-- MSTR_THAW (R36). -/
  | mstrThaw (src : Src) (mb : Nat) (i : Nat) (v : Word)
  /-- ICACHE_FILL_RETURN (R50). -/
  | icacheFillReturn (site : Nat) (core : Nat) (line : Nat) (bad : Bool)
  /-- NARROW_LOAD_RETURN (R165). -/
  | narrowLoadReturn (h : Hart)
  /-- MODULE_STORE_ACK (R167). -/
  | moduleStoreAck (h : Hart)
  /-- ICINV (R51). -/
  | icinv (src : Src) (site : Nat) (core : Nat) (v : Word)
  /-- ICINV_COMPLETE (R51). -/
  | icinvComplete (site : Nat) (core : Nat)
  /-- CORE_RESET (R380). -/
  | coreReset (src : Src) (site : Nat) (core : Nat) (v : Word)
  /-- CORE_RESET_COMPLETE (R58). -/
  | coreResetComplete (site : Nat) (core : Nat)
  /-- GALLERY_RESET (R381). -/
  | galleryReset (src : Src) (site : Nat) (v : Word)
  /-- GALLERY_RESET_DRAIN_END (R381). -/
  | galleryResetDrainEnd (site : Nat)
  /-- RESET_HOLD_EXPIRY (R379). -/
  | resetHoldExpiry (dom : ResetDom)
  /-- MESSAGE_DISPATCH (R240). -/
  | messageDispatch (site : Nat) (ring : Nat)
  /-- GM_GROUP_ILV_WRITE (R61). -/
  | gmGroupIlvWrite (src : Src) (site : Nat) (v : Word)
  /-- SLICE_OFF_REQUEST (R78). -/
  | sliceOffRequest (src : Src) (site : Nat) (v : Word)
  /-- SLICE_ON_REQUEST (R78). -/
  | sliceOnRequest (src : Src) (site : Nat) (v : Word)
  /-- SLICE_DRAIN_COMPLETE (R79). -/
  | sliceDrainComplete (site : Nat) (slice : Nat)
  /-- SLICE_DRAIN_TIMEOUT (R78). -/
  | sliceDrainTimeout (site : Nat) (slice : DrainCut)
  /-- SLICE_WAKE_COMPLETE (R78). -/
  | sliceWakeComplete (site : Nat) (slice : Nat)
  /-- CACHE_INVALIDATE (R76). -/
  | cacheInvalidate (src : Src) (site : Nat) (v : Word)
  /-- CACHE_INVALIDATE_COMPLETE (R76). -/
  | cacheInvalidateComplete (site : Nat)
  /-- SB_MOVE_SUSPEND (R68). -/
  | sbMoveSuspend (src : Src) (site : Nat) (v : Word)
  /-- SB_MOVE_REBASE (R68). -/
  | sbMoveRebase (src : Src) (site : Nat) (v : Word)
  /-- CLAIM_RETIRE (R74). -/
  | claimRetire (site : Nat) (e : Nat) (err : Bool)
  /-- SCRUB_GO (R80). -/
  | scrubGo (src : Src) (site : Nat) (v : Word)
  /-- SCRUB_COMPLETE (R81). -/
  | scrubComplete (site : Nat) (clean : Bool)
  /-- TILE_START (R123). -/
  | tileStart (site : Nat) (j : ArrayStart)
  /-- TILE_OUTPUT_COMPLETE (R123). -/
  | tileOutputComplete (site : Nat) (j : Nat) (chk : List WitSum)
  /-- TILE_ERROR (R124). -/
  | tileError (site : Nat) (j : Nat) (status : Nat)
  /-- MXE_RELEASE_AS_COMPUTED (R127). -/
  | mxeReleaseAsComputed (src : Src) (site : Nat) (j : Nat) (v : Word)
  /-- MXE_RELEASE_REWRITE (R127). -/
  | mxeReleaseRewrite (src : Src) (site : Nat) (j : Nat) (v : Word)
  /-- MXE_RELEASE_ERROR (R127). -/
  | mxeReleaseError (src : Src) (site : Nat) (j : Nat) (v : Word)
  /-- HOLD_EXPIRY (R127). -/
  | holdExpiry (site : Nat) (j : Nat)
  /-- PATROL_TILE (R129). -/
  | patrolTile (site : Nat) (j : Nat)
  /-- CURTAIN_ITEM_START (R143). -/
  | curtainItemStart (site : Nat)
  /-- CURTAIN_ITEM_END (R142). -/
  | curtainItemEnd (site : Nat)
  /-- SKEW_HALT (R150). -/
  | skewHalt (site : Nat)
  /-- CURTAIN_LOAD_WAIT_EXPIRY (R152). -/
  | curtainLoadWaitExpiry (site : Nat)
  /-- CURTAIN_LOAD_COMPLETE (R152). -/
  | curtainLoadComplete (site : Nat)
  /-- CURTAIN_PATROL (R155). -/
  | curtainPatrol (site : Nat)
  /-- STRAW_MOV (R138). -/
  | strawMov (site : Nat) (x : Nat) (y : Nat) (e : Nat) (bad : Bool)
  /-- STRAW_ADD (R138). -/
  | strawAdd (site : Nat) (x : Nat) (y : Nat) (e : Nat) (bad : Bool)
  /-- STRAW_SUB (R138). -/
  | strawSub (site : Nat) (x : Nat) (y : Nat) (e : Nat) (bad : Bool)
  /-- STRAW_MUL (R138). -/
  | strawMul (site : Nat) (x : Nat) (y : Nat) (e : Nat) (bad : Bool)
  /-- STRAW_FMA (R138). -/
  | strawFma (site : Nat) (x : Nat) (y : Nat) (e : Nat) (bad : Bool)
  /-- STRAW_MAX (R138). -/
  | strawMax (site : Nat) (x : Nat) (y : Nat) (e : Nat) (bad : Bool)
  /-- STRAW_MIN (R138). -/
  | strawMin (site : Nat) (x : Nat) (y : Nat) (e : Nat) (bad : Bool)
  /-- STRAW_SEL (R138). -/
  | strawSel (site : Nat) (x : Nat) (y : Nat) (e : Nat) (bad : Bool)
  /-- STRAW_CMPLT (R138). -/
  | strawCmplt (site : Nat) (x : Nat) (y : Nat) (e : Nat) (bad : Bool)
  /-- STRAW_CMPLE (R138). -/
  | strawCmple (site : Nat) (x : Nat) (y : Nat) (e : Nat) (bad : Bool)
  /-- STRAW_CMPEQ (R138). -/
  | strawCmpeq (site : Nat) (x : Nat) (y : Nat) (e : Nat) (bad : Bool)
  /-- STRAW_SWZ (R138). -/
  | strawSwz (site : Nat) (x : Nat) (y : Nat) (e : Nat) (bad : Bool)
  /-- STRAW_HMAX (R138). -/
  | strawHmax (site : Nat) (x : Nat) (y : Nat) (e : Nat) (bad : Bool)
  /-- STRAW_HSUM (R138). -/
  | strawHsum (site : Nat) (x : Nat) (y : Nat) (e : Nat) (bad : Bool)
  /-- STRAW_ABS (R138). -/
  | strawAbs (site : Nat) (x : Nat) (y : Nat) (e : Nat) (bad : Bool)
  /-- STRAW_NEG (R138). -/
  | strawNeg (site : Nat) (x : Nat) (y : Nat) (e : Nat) (bad : Bool)
  /-- STRAW_EXP2 (R104). -/
  | strawExp2 (site : Nat) (x : Nat) (y : Nat) (e : Nat) (bad : Bool)
  /-- STRAW_LOG2 (R104). -/
  | strawLog2 (site : Nat) (x : Nat) (y : Nat) (e : Nat) (bad : Bool)
  /-- STRAW_RCP (R104). -/
  | strawRcp (site : Nat) (x : Nat) (y : Nat) (e : Nat) (bad : Bool)
  /-- STRAW_RSQ (R104). -/
  | strawRsq (site : Nat) (x : Nat) (y : Nat) (e : Nat) (bad : Bool)
  /-- ADD (R186). -/
  | opAdd (h : Hart) (d : Nat) (a : Nat) (b : Nat)
  /-- SUB (R186). -/
  | opSub (h : Hart) (d : Nat) (a : Nat) (b : Nat)
  /-- AND (R186). -/
  | opAnd (h : Hart) (d : Nat) (a : Nat) (b : Nat)
  /-- OR (R186). -/
  | opOr (h : Hart) (d : Nat) (a : Nat) (b : Nat)
  /-- XOR (R186). -/
  | opXor (h : Hart) (d : Nat) (a : Nat) (b : Nat)
  /-- SLL (R186). -/
  | opSll (h : Hart) (d : Nat) (a : Nat) (b : Nat)
  /-- SRL (R186). -/
  | opSrl (h : Hart) (d : Nat) (a : Nat) (b : Nat)
  /-- SRA (R186). -/
  | opSra (h : Hart) (d : Nat) (a : Nat) (b : Nat)
  /-- SLT (R186). -/
  | opSlt (h : Hart) (d : Nat) (a : Nat) (b : Nat)
  /-- SLTU (R186). -/
  | opSltu (h : Hart) (d : Nat) (a : Nat) (b : Nat)
  /-- MUL (R186). -/
  | opMul (h : Hart) (d : Nat) (a : Nat) (b : Nat)
  /-- MULH (R186). -/
  | opMulh (h : Hart) (d : Nat) (a : Nat) (b : Nat)
  /-- MULHU (R186). -/
  | opMulhu (h : Hart) (d : Nat) (a : Nat) (b : Nat)
  /-- MIN (R186). -/
  | opMin (h : Hart) (d : Nat) (a : Nat) (b : Nat)
  /-- MAX (R186). -/
  | opMax (h : Hart) (d : Nat) (a : Nat) (b : Nat)
  /-- MINU (R186). -/
  | opMinu (h : Hart) (d : Nat) (a : Nat) (b : Nat)
  /-- MAXU (R186). -/
  | opMaxu (h : Hart) (d : Nat) (a : Nat) (b : Nat)
  /-- CLZ (R186). -/
  | opClz (h : Hart) (d : Nat) (a : Nat)
  /-- POPC (R186). -/
  | opPopc (h : Hart) (d : Nat) (a : Nat)
  /-- RDSR (R187). -/
  | opRdsr (h : Hart) (d : Nat) (b : Nat)
  /-- WRSR (R187). -/
  | opWrsr (h : Hart) (d : Nat) (a : Nat)
  /-- MOVPS (R186). -/
  | opMovps (h : Hart) (d : Nat) (b : Nat)
  /-- MOVSP (R186). -/
  | opMovsp (h : Hart) (d : Nat) (a : Nat)
  /-- WFE (R210). -/
  | opWfe (h : Hart) (d : Nat) (a : Nat)
  /-- BCALL (R210). -/
  | opBcall (h : Hart) (d : Nat) (a : Nat) (b : Nat)
  /-- ADDI (R188). -/
  | opAddi (h : Hart) (d : Nat) (a : Nat) (imm : Nat)
  /-- ANDI (R188). -/
  | opAndi (h : Hart) (d : Nat) (a : Nat) (imm : Nat)
  /-- ORI (R188). -/
  | opOri (h : Hart) (d : Nat) (a : Nat) (imm : Nat)
  /-- XORI (R188). -/
  | opXori (h : Hart) (d : Nat) (a : Nat) (imm : Nat)
  /-- SLLI (R188). -/
  | opSlli (h : Hart) (d : Nat) (a : Nat) (imm : Nat)
  /-- SRLI (R188). -/
  | opSrli (h : Hart) (d : Nat) (a : Nat) (imm : Nat)
  /-- SRAI (R188). -/
  | opSrai (h : Hart) (d : Nat) (a : Nat) (imm : Nat)
  /-- SLTI (R188). -/
  | opSlti (h : Hart) (d : Nat) (a : Nat) (imm : Nat)
  /-- SLTIU (R188). -/
  | opSltiu (h : Hart) (d : Nat) (a : Nat) (imm : Nat)
  /-- SHIN (R188). -/
  | opShin (h : Hart) (d : Nat) (a : Nat) (imm : Nat)
  /-- LD8 (R190). -/
  | opLd8 (h : Hart) (d : Nat) (a : Nat) (disp : Nat)
  /-- LD16 (R190). -/
  | opLd16 (h : Hart) (d : Nat) (a : Nat) (disp : Nat)
  /-- LD32 (R190). -/
  | opLd32 (h : Hart) (d : Nat) (a : Nat) (disp : Nat)
  /-- LD64 (R190). -/
  | opLd64 (h : Hart) (d : Nat) (a : Nat) (disp : Nat)
  /-- LDU8 (R190). -/
  | opLdu8 (h : Hart) (d : Nat) (a : Nat) (disp : Nat)
  /-- LDU16 (R190). -/
  | opLdu16 (h : Hart) (d : Nat) (a : Nat) (disp : Nat)
  /-- LDU32 (R190). -/
  | opLdu32 (h : Hart) (d : Nat) (a : Nat) (disp : Nat)
  /-- ST8 (R190). -/
  | opSt8 (h : Hart) (d : Nat) (a : Nat) (disp : Nat)
  /-- ST16 (R190). -/
  | opSt16 (h : Hart) (d : Nat) (a : Nat) (disp : Nat)
  /-- ST32 (R190). -/
  | opSt32 (h : Hart) (d : Nat) (a : Nat) (disp : Nat)
  /-- ST64 (R190). -/
  | opSt64 (h : Hart) (d : Nat) (a : Nat) (disp : Nat)
  /-- VLD (R191). -/
  | opVld (h : Hart) (d : Nat) (a : Nat) (disp : Nat)
  /-- VST (R191). -/
  | opVst (h : Hart) (d : Nat) (a : Nat) (disp : Nat)
  /-- AADD (R192). -/
  | opAadd (h : Hart) (d : Nat) (a : Nat) (b : Nat) (disp : Nat)
  /-- ASWAP (R192). -/
  | opAswap (h : Hart) (d : Nat) (a : Nat) (b : Nat) (disp : Nat)
  /-- ACAS (R192). -/
  | opAcas (h : Hart) (d : Nat) (a : Nat) (b : Nat) (disp : Nat)
  /-- BEQ (R193). -/
  | opBeq (h : Hart) (a : Nat) (b : Nat) (off : Nat)
  /-- BNE (R193). -/
  | opBne (h : Hart) (a : Nat) (b : Nat) (off : Nat)
  /-- BLT (R193). -/
  | opBlt (h : Hart) (a : Nat) (b : Nat) (off : Nat)
  /-- BGE (R193). -/
  | opBge (h : Hart) (a : Nat) (b : Nat) (off : Nat)
  /-- BLTU (R193). -/
  | opBltu (h : Hart) (a : Nat) (b : Nat) (off : Nat)
  /-- BGEU (R193). -/
  | opBgeu (h : Hart) (a : Nat) (b : Nat) (off : Nat)
  /-- JAL (R193). -/
  | opJal (h : Hart) (d : Nat) (off : Nat)
  /-- JALR (R193). -/
  | opJalr (h : Hart) (d : Nat) (a : Nat) (off : Nat)
  /-- BPANY (R193). -/
  | opBpany (h : Hart) (a : Nat) (off : Nat)
  /-- BPALL (R193). -/
  | opBpall (h : Hart) (a : Nat) (off : Nat)
  /-- BPNONE (R193). -/
  | opBpnone (h : Hart) (a : Nat) (off : Nat)
  /-- VADD (R194). -/
  | opVadd (h : Hart) (x : VOp)
  /-- VSUB (R194). -/
  | opVsub (h : Hart) (x : VOp)
  /-- VMUL (R194). -/
  | opVmul (h : Hart) (x : VOp)
  /-- VFMA (R194). -/
  | opVfma (h : Hart) (x : VOp)
  /-- VMAX (R194). -/
  | opVmax (h : Hart) (x : VOp)
  /-- VMIN (R194). -/
  | opVmin (h : Hart) (x : VOp)
  /-- VABS (R194). -/
  | opVabs (h : Hart) (x : VOp)
  /-- VNEG (R194). -/
  | opVneg (h : Hart) (x : VOp)
  /-- VCMPLT (R194). -/
  | opVcmplt (h : Hart) (x : VOp)
  /-- VCMPLE (R194). -/
  | opVcmple (h : Hart) (x : VOp)
  /-- VCMPEQ (R194). -/
  | opVcmpeq (h : Hart) (x : VOp)
  /-- VSEL (R194). -/
  | opVsel (h : Hart) (x : VOp)
  /-- VCVT (R195). -/
  | opVcvt (h : Hart) (x : VOp)
  /-- VRCP (R104). -/
  | opVrcp (h : Hart) (x : VOp)
  /-- VRSQ (R104). -/
  | opVrsq (h : Hart) (x : VOp)
  /-- VEXP2 (R104). -/
  | opVexp2 (h : Hart) (x : VOp)
  /-- VLOG2 (R104). -/
  | opVlog2 (h : Hart) (x : VOp)
  /-- VHSUM (R194). -/
  | opVhsum (h : Hart) (x : VOp)
  /-- VHMAX (R194). -/
  | opVhmax (h : Hart) (x : VOp)
  /-- VPERM (R195). -/
  | opVperm (h : Hart) (x : VOp)
  /-- VBCAST (R194). -/
  | opVbcast (h : Hart) (x : VOp)
  /-- VEXT (R195). -/
  | opVext (h : Hart) (x : VOp)
  /-- VINS (R194). -/
  | opVins (h : Hart) (x : VOp)
  /-- VIADD (R194). -/
  | opViadd (h : Hart) (x : VOp)
  /-- VISUB (R194). -/
  | opVisub (h : Hart) (x : VOp)
  /-- VIMUL (R194). -/
  | opVimul (h : Hart) (x : VOp)
  /-- VAND (R194). -/
  | opVand (h : Hart) (x : VOp)
  /-- VOR (R194). -/
  | opVor (h : Hart) (x : VOp)
  /-- VXOR (R194). -/
  | opVxor (h : Hart) (x : VOp)
  /-- VSHL (R194). -/
  | opVshl (h : Hart) (x : VOp)
  /-- VSRA (R194). -/
  | opVsra (h : Hart) (x : VOp)
  /-- VICMPLT (R194). -/
  | opVicmplt (h : Hart) (x : VOp)
  /-- PAND (R195). -/
  | opPand (h : Hart) (x : VOp)
  /-- POR (R195). -/
  | opPor (h : Hart) (x : VOp)
  /-- PXOR (R195). -/
  | opPxor (h : Hart) (x : VOp)
  /-- PANDN (R195). -/
  | opPandn (h : Hart) (x : VOp)
  /-- MX_ISSUE (R199). -/
  | mxIssue (h : Hart) (x : XOp)
  /-- TF_ISSUE (R200). -/
  | tfIssue (h : Hart) (x : XOp)
  /-- MSG_SEND (R202). -/
  | msgSend (h : Hart) (x : XOp)
  /-- MSG_RET (R203). -/
  | msgRet (h : Hart) (x : XOp)
  /-- DRIP_WAIT (R204). -/
  | dripWait (h : Hart) (x : XOp)
  /-- DRIP_BUDGET (R205). -/
  | dripBudget (h : Hart) (x : XOp)
  /-- CUR_LOAD (R151). -/
  | curLoad (h : Hart) (x : XOp)
  /-- CUR_GO (R201). -/
  | curGo (h : Hart) (x : XOp)
  /-- SB_CLAIM (R206). -/
  | sbClaim (h : Hart) (x : XOp)
  /-- SB_RETIRE (R207). -/
  | sbRetire (h : Hart) (x : XOp)
  /-- FENCE_WIN (R208). -/
  | fenceWin (h : Hart) (x : XOp)
  /-- CTXBLK_WRITE (R55). -/
  | ctxblkWrite (src : Src) (site : Nat) (b : Nat) (v : Word)
  /-- HQ_DOORBELL (R345). -/
  | hqDoorbell (src : Src) (q : Nat) (prod : Nat)
  /-- HQ_BIND (R345). -/
  | hqBind (src : Src) (q : Nat) (v : Word)
  /-- HQ_UNBIND (R345). -/
  | hqUnbind (src : Src) (q : Nat) (v : Word)
  /-- COMMAND_FETCH (R176). -/
  | commandFetch (q : Nat)
  /-- LOAD_PROGRAM (R179). -/
  | loadProgram (lg : Nat)
  /-- LOAD_PROGRAM_INSTALL (R179). -/
  | loadProgramInstall (lg : InstallPlan)
  /-- END_TASKS (R180). -/
  | endTasks (lg : Nat)
  /-- MOVE (R175). -/
  | move (lg : Nat)
  /-- TASK_CTRL_FREEZE (R175). -/
  | taskCtrlFreeze (lg : Nat)
  /-- TASK_CTRL_THAW (R175). -/
  | taskCtrlThaw (lg : Nat)
  /-- TASK_CTRL_KILL (R175). -/
  | taskCtrlKill (lg : Nat)
  /-- SURVEY_REQ (R281). -/
  | surveyReq (lg : Nat)
  /-- TEST_REQ (R408). -/
  | testReq (lg : Nat)
  /-- ON_DEMAND_TEST_RUN (R409). -/
  | onDemandTestRun (k : Nat) (lg : Nat) (t : Nat) (pass : Bool)
  /-- UPD_APPLY (R308). -/
  | updApply (lg : Nat)
  /-- UPD_COMMIT (R312). -/
  | updCommit (lg : Nat)
  /-- UPD_ABORT (R312). -/
  | updAbort (lg : Nat)
  /-- REFRESH_STAGE (R315). -/
  | refreshStage (lg : Nat)
  /-- STAGING_COMPLETE (R312). -/
  | stagingComplete (lg : Nat)
  /-- COMMIT_COPY_COMPLETE (R313). -/
  | commitCopyComplete (lg : Nat)
  /-- ROLL_FORWARD (R314). -/
  | rollForward (lg : Nat)
  /-- RING_BIND (R234). -/
  | ringBind (src : Src) (site : Nat) (r : Nat) (v : Word)
  /-- RING_UNBIND (R244). -/
  | ringUnbind (src : Src) (site : Nat) (r : Nat) (v : Word)
  /-- LINE_BIND (R235). -/
  | lineBind (src : Src) (site : Nat) (l : Nat) (v : Word)
  /-- LINE_UNBIND (R244). -/
  | lineUnbind (src : Src) (site : Nat) (l : Nat) (v : Word)
  /-- CQ_BIND (R242). -/
  | cqBind (src : Src) (site : Nat) (t : Nat) (v : Word)
  /-- CQ_UNBIND (R244). -/
  | cqUnbind (src : Src) (site : Nat) (t : Nat) (v : Word)
  /-- RECORD_ARRIVAL (R238). -/
  | recordArrival (k : Nat)
  /-- RECORD_ANSWER (R243). -/
  | recordAnswer (k : Nat)
  /-- RECORD_TIMEOUT (R243). -/
  | recordTimeout (site : Nat) (l : Nat) (seq : Nat)
  /-- CREDIT_RETURN_TIMER (R239). -/
  | creditReturnTimer (site : Nat) (r : Nat)
  /-- CREDIT_RETURN_RECEIVE (R239). -/
  | creditReturnReceive (k : Nat)
  /-- TFE_DESCRIPTOR_START (R245). -/
  | tfeDescriptorStart (site : Nat)
  /-- COPY (R248). -/
  | tfeCopy (site : Nat) (op : Nat)
  /-- BCAST (R250). -/
  | tfeBcast (site : Nat) (op : Nat)
  /-- GATHER (R249). -/
  | tfeGather (site : Nat) (op : Nat)
  /-- PUT (R251). -/
  | tfePut (site : Nat) (op : Nat)
  /-- COMBINE_FP32 (R225). -/
  | combineFp32 (site : Nat)
  /-- COMBINE_ADD (R225). -/
  | combineAdd (site : Nat)
  /-- COMBINE_FINISH (R225). -/
  | combineFinish (site : Nat)
  /-- TFE_DESCRIPTOR_COMPLETE (R247). -/
  | tfeDescriptorComplete (site : Nat) (op : Nat)
  /-- BCAST_TIMEOUT (R274). -/
  | bcastTimeout (site : Nat) (op : Nat)
  /-- PACKET_ARRIVAL (R262). -/
  | packetArrival (k : Nat) (bad : Bool)
  /-- LINK_CRC_RETRY (R258). -/
  | linkCrcRetry (node : Nat) (dir : Nat)
  /-- NO_PROGRESS_TIMEOUT (R419). -/
  | noProgressTimeout (k : Nat)
  /-- ROPE_TIMEOUT (R286). -/
  | ropeTimeout (h : Hart) (store : Bool)
  /-- ROUTER_DRAIN_COMPLETE (R275). -/
  | routerDrainComplete (node : Nat)
  /-- ROUTER_DRAIN_TIMEOUT (R275). -/
  | routerDrainTimeout (node : Nat)
  /-- LOAD_DONE (R277). -/
  | loadDone (src : Src) (v : Word)
  /-- SURVEY_LOAD_COMPLETE (R277). -/
  | surveyLoadComplete
  /-- FLIP (R280). -/
  | flip (src : Src) (v : Word)
  /-- FORCE_FREE (R277). -/
  | forceFree (src : Src) (v : Word)
  /-- INFLIGHT_COUNT_REPORT (R278). -/
  | inflightCountReport
  /-- SURVEY_DRAIN_COMPLETE (R277). -/
  | surveyDrainComplete
  /-- SURVEY_DRAIN_LATE (R277). -/
  | surveyDrainLate
  /-- STACK_REQUEST (R291). -/
  | stackRequest (x : Nat) (write : Bool) (en : Nat) (data : List Byte) (chk : Nat)
  /-- STACK_SCRUB_READ (R297). -/
  | stackScrubRead (k : Nat) (chk : Nat)
  /-- STACK_TEMP_READ (R299). -/
  | stackTempRead (k : Nat) (temp : Nat)
  /-- LAMP_INSERT (R318). -/
  | lampInsert (k : Nat) (rated : Nat)
  /-- LAMP_WARMED (R318). -/
  | lampWarmed (k : Nat) (power : Nat)
  /-- LAMP_WARM_TIMEOUT (R318). -/
  | lampWarmTimeout (k : Nat)
  /-- LAMP_POWER_LOW (R319). -/
  | lampPowerLow (k : Nat) (power : Nat)
  /-- LAMP_POWER_LOSS (R320). -/
  | lampPowerLoss (k : Nat) (power : Nat) (removed : Bool)
  /-- LAMP_REMOVE (R318). -/
  | lampRemove (k : Nat)
  /-- LAMP_FAULT (R318). -/
  | lampFault (k : Nat)
  /-- REPLACE (R319). -/
  | replace (src : Src) (k : Nat) (v : Word)
  /-- RETRAIN (R321). -/
  | retrain (src : Src) (p : Nat) (v : Word)
  /-- LINK_DOWN (R338). -/
  | linkDown (p : Nat) (l : Nat)
  /-- LINK_UP (R320). -/
  | linkUp (p : Nat) (l : Nat)
  /-- SFT_WRITE (R332). -/
  | sftWrite (p : Nat) (l : Nat) (q : Nat)
  /-- SFT_COMMAND (R331). -/
  | sftCommand (p : Nat) (l : Nat) (q : Nat)
  /-- ROCE_SEND (R330). -/
  | roceSend (p : Nat) (l : Nat) (q : Nat)
  /-- RDMA_WRITE (R330). -/
  | rdmaWrite (p : Nat) (l : Nat) (q : Nat)
  /-- RDMA_READ (R330). -/
  | rdmaRead (p : Nat) (l : Nat) (q : Nat)
  /-- SQ_POST_TIMEOUT (R327). -/
  | sqPostTimeout (site : Nat) (op : Nat)
  /-- PORT_COMPLETION_DROP (R328). -/
  | portCompletionDrop (p : Nat)
  /-- SFT_DATA (R333). -/
  | sftData (p : Nat) (l : Nat) (f : Frame)
  /-- SFT_ACK (R335). -/
  | sftAck (p : Nat) (l : Nat) (f : Frame)
  /-- SFT_NACK (R337). -/
  | sftNack (p : Nat) (l : Nat) (f : Frame)
  /-- SFT_COMPLETE (R337). -/
  | sftComplete (p : Nat) (l : Nat) (f : Frame)
  /-- SFT_CMD (R331). -/
  | sftCmd (p : Nat) (l : Nat) (f : Frame)
  /-- SFT_CTRL (R331). -/
  | sftCtrl (p : Nat) (l : Nat) (f : Frame)
  /-- SFT_ACK_TIMER (R334). -/
  | sftAckTimer (p : Nat) (fl : Nat)
  /-- SFT_RTO_EXPIRY (R335). -/
  | sftRtoExpiry (p : Nat) (fl : Nat) (psn : Nat)
  /-- ROCE_SEND_RECEIVE (R330). -/
  | roceSendReceive (p : Nat) (l : Nat) (m : Roce)
  /-- RDMA_WRITE_RECEIVE (R330). -/
  | rdmaWriteReceive (p : Nat) (l : Nat) (m : Roce)
  /-- RDMA_READ_REQUEST_RECEIVE (R330). -/
  | rdmaReadRequestReceive (p : Nat) (l : Nat) (m : Roce)
  /-- RDMA_READ_RESPONSE_RECEIVE (R330). -/
  | rdmaReadResponseReceive (p : Nat) (l : Nat) (m : Roce)
  /-- ROCE_ACK_RECEIVE (R330). -/
  | roceAckReceive (p : Nat) (l : Nat) (m : Roce)
  /-- ROCE_ACK_TIMEOUT (R330). -/
  | roceAckTimeout (p : Nat) (qp : Nat)
  /-- CNP_RECEIVE (R330). -/
  | cnpReceive (p : Nat) (qp : Nat)
  /-- ROCE_RATE_INCREASE (R330). -/
  | roceRateIncrease (p : Nat) (qp : Nat)
  /-- PFC_FRAME (R325). -/
  | pfcFrame (p : Nat) (l : Nat) (prio : Nat) (pause : Bool)
  /-- CONTROL_PATH_FRAME (R322). -/
  | controlPathFrame (p : Nat) (l : Nat) (raw : List Byte)
  /-- PTP_MESSAGE (R326). -/
  | ptpMessage (p : Nat) (l : Nat) (m : Ptp)
  /-- PTP_ANNOUNCE_TIMEOUT (R326). -/
  | ptpAnnounceTimeout
  /-- QBV_GATE_CHANGE (R324). -/
  | qbvGateChange (p : Nat) (l : Nat)
  /-- BAR2_READ (R342). -/
  | bar2Read (off : Nat) (len : Nat)
  /-- BAR2_WRITE (R342). -/
  | bar2Write (off : Nat) (data : List Byte)
  /-- SURPRISE_DOWN (R348). -/
  | surpriseDown
  /-- PERST_N_ASSERT (R348). -/
  | perstNAssert
  /-- PERST_N_DEASSERT (R469). -/
  | perstNDeassert
  /-- D3HOT_ENTRY (R348). -/
  | d3hotEntry
  /-- MSIX_COALESCE_EXPIRY (R347). -/
  | msixCoalesceExpiry (vec : Nat)
  /-- MSIX_UNMASK (R347). -/
  | msixUnmask (vec : Nat)
  /-- RECORD_SEND (R352). -/
  | recordSend
  /-- FOLD_WINDOW_EXPIRY (R352). -/
  | foldWindowExpiry (k : Nat)
  /-- MGMT_LINK_UP (R479). -/
  | mgmtLinkUp
  /-- LEASE_GRANT (R430). -/
  | leaseGrant (m : CtrlMsg)
  /-- FENCE_ORDER (R430). -/
  | fenceOrder (m : CtrlMsg)
  /-- SET_PROFILE (R369). -/
  | setProfile (m : CtrlMsg)
  /-- STANDBY (R16). -/
  | standby (m : CtrlMsg)
  /-- RESTART (R450). -/
  | restart (m : CtrlMsg)
  /-- BIND_NETQ (R349). -/
  | bindNetq (m : CtrlMsg)
  /-- RESEND (R352). -/
  | resend (m : CtrlMsg)
  /-- COLLECTOR (R349). -/
  | collector (m : CtrlMsg)
  /-- REDFISH_GET (R355). -/
  | redfishGet (r : Nat)
  /-- REDFISH_SET_PROFILE (R369). -/
  | redfishSetProfile (prof : Nat) (now : Bool)
  /-- EVENT_SUBSCRIPTION_CREATE (R355). -/
  | eventSubscriptionCreate (dest : Nat)
  /-- EVENT_SUBSCRIPTION_DELETE (R355). -/
  | eventSubscriptionDelete (id : Nat)
  /-- SET_ENDPOINT_ID (R356). -/
  | setEndpointId (eid : Nat)
  /-- GET_ENDPOINT_ID (R356). -/
  | getEndpointId
  /-- GET_MESSAGE_TYPE_SUPPORT (R356). -/
  | getMessageTypeSupport
  /-- PLDM_FIRMWARE_UPDATE (R356). -/
  | pldmFirmwareUpdate (comp : Nat) (image : List Byte)
  /-- PLDM_EVENT_ACKNOWLEDGE (R356). -/
  | pldmEventAcknowledge
  /-- GET_VERSION (R356). -/
  | getVersion
  /-- GET_CAPABILITIES (R356). -/
  | getCapabilities
  /-- NEGOTIATE_ALGORITHMS (R356). -/
  | negotiateAlgorithms (ecdsaP384 : Bool) (sha384 : Bool)
  /-- GET_DIGESTS (R356). -/
  | getDigests
  /-- GET_CERTIFICATE (R356). -/
  | getCertificate (off : Nat) (len : Nat)
  /-- CHALLENGE (R356). -/
  | challenge (nonce : List Byte)
  /-- GET_MEASUREMENTS (R362). -/
  | getMeasurements (i : Nat)
  /-- FENCE (R359). -/
  | fence (kind : Nat) (id : Nat) (sub : Nat) (on : Bool)
  /-- BYPASS (R275). -/
  | bypass (node : Nat) (on : Bool)
  /-- CORE_MAP (R56). -/
  | coreMap (site : Nat) (w0 : Word) (w1 : Word) (w2 : Word) (w3 : Word)
  /-- MXE_COLMAP (R130). -/
  | mxeColmap (site : Nat) (j : Nat) (v : Word)
  /-- GAL_STEP (R404). -/
  | galStep (site : Nat) (volt : Nat) (clk : Nat)
  /-- CHAMBER_RESET (R421). -/
  | chamberReset (c : Nat)
  /-- CHAMBER_RESET_STEP (R421). -/
  | chamberResetStep (c : ChamberStep)
  /-- ASSIGN (R366). -/
  | assign (site : Nat) (ch : Option Nat)
  /-- REGION (R290). -/
  | region (n : Nat) (v : Word)
  /-- BIST_RUN (R410). -/
  | bistRun (site : Nat) (unit : Nat) (idx : Nat) (bad : List Nat)
  /-- FUSE_REPAIR (R395). -/
  | fuseRepair (die : Nat) (entry : Nat)
  /-- KEY_LOAD (R363). -/
  | keyLoad (addr : Nat)
  /-- PROFILE_WRITE (R367). -/
  | profileWrite (slot : Nat) (addr : Nat)
  /-- BCALL_SET_PROFILE (R369). -/
  | bcallSetProfile (prof : Nat) (now : Bool)
  /-- LC_TRANSITION (R365). -/
  | lcTransition (addr : Nat)
  /-- INSERTION (R454). -/
  | insertion (i : Inputs) (pins : Nat)
  /-- INSERTION_CHECK_RETRY (R454). -/
  | insertionCheckRetry (i : Inputs) (pins : Nat)
  /-- INPUT_IN_RANGE (R16). -/
  | inputInRange (i : Inputs)
  /-- BRINGUP_STEP_COMPLETE (R370). -/
  | bringupStepComplete (r : StepRes)
  /-- BRINGUP_STEP_TIMEOUT (R372). -/
  | bringupStepTimeout
  /-- HOST_CMD_POWER_ON (R374). -/
  | hostCmdPowerOn (src : Src) (v : Word)
  /-- HOST_CMD_TRAIN (R374). -/
  | hostCmdTrain (src : Src) (v : Word)
  /-- HOST_CMD_RELEASE (R374). -/
  | hostCmdRelease (src : Src) (v : Word)
  /-- HOST_CMD_MARK_FAILED (R374). -/
  | hostCmdMarkFailed (src : Src) (v : Word)
  /-- HOST_CMD_COMPLETE (R374). -/
  | hostCmdComplete (ok : Bool) (detail : Nat)
  /-- RAW_ACCESS (R387). -/
  | rawAccess (src : Src) (off : Nat) (w : Option Nat)
  /-- MCR (R384). -/
  | mcr (src : Src) (v : Word)
  /-- FIRMWARE_BLOCK_RECEIVE (R375). -/
  | firmwareBlockReceive (site : Nat) (img : Nat) (blk : Nat) (total : Nat) (data : List Byte) (crc : Nat)
  /-- END_MARKER (R376). -/
  | endMarker
  /-- BOOT_HASH_COMPLETE (R377). -/
  | bootHashComplete (site : Nat)
  /-- PATROL_READ (R397). -/
  | patrolRead (site : Nat) (slice : Nat) (chk : Nat)
  /-- KNOWN_ANSWER_RERUN (R398). -/
  | knownAnswerRerun (site : Nat) (u : Nat) (pass : Bool)
  /-- LINK_RETRY_CHECK (R399). -/
  | linkRetryCheck
  /-- WATCH_EXPIRY (R403). -/
  | watchExpiry (site : Nat)
  /-- ARB_RUN1_COMPLETE (R406). -/
  | arbRun1Complete (site : Nat) (j : Nat) (chk : List WitSum)
  /-- ARB_COPY_COMPLETE (R406). -/
  | arbCopyComplete (site : Nat) (j : Nat) (spare : Nat)
  /-- ARB_RUN2_COMPLETE (R406). -/
  | arbRun2Complete (site : Nat) (j : Nat) (chk : List WitSum)
  /-- ARB_RUN3_COMPLETE (R406). -/
  | arbRun3Complete (site : Nat) (j : Nat)
  /-- TRM_MOVE_GO (R412). -/
  | trmMoveGo (src : Src) (v : Word)
  /-- MOVE_COMPLETE (R413). -/
  | moveComplete (outcome : Nat)
  /-- CONTEXT_WATCHDOG_EXPIRY (R417). -/
  | contextWatchdogExpiry (site : Nat) (core : Nat) (ctx : Nat)
  /-- KICK (R418). -/
  | kick (src : Src) (v : Word)
  /-- FLOWSTONE_WATCHDOG_EXPIRY (R418). -/
  | flowstoneWatchdogExpiry
  /-- BEDROCK_HEARTBEAT (R418). -/
  | bedrockHeartbeat
  /-- ECHO_GO (R426). -/
  | echoGo (src : Src) (v : Word)
  /-- ECHO_REPLAY_END (R427). -/
  | echoReplayEnd (abort : Bool)
  /-- HEALTH_SCORE_UPDATE (R428). -/
  | healthScoreUpdate
  /-- LEASE_EXPIRY (R430). -/
  | leaseExpiry
  /-- GOVERNOR_TICK (R438). -/
  | governorTick (dies : List Nat)
  /-- DIE_THERMAL_THROTTLE (R442). -/
  | dieThermalThrottle (d : Nat) (tj : Nat)
  /-- DIE_THERMAL_RECOVER (R442). -/
  | dieThermalRecover (d : Nat) (tj : Nat)
  /-- LANTERN_SAMPLE (R448). -/
  | lanternSample (i : Inputs)
  /-- COMPARATOR_TRIP (R448). -/
  | comparatorTrip (e : Nat)
  /-- TRIP_CLEAR (R448). -/
  | tripClear (e : Nat)
  /-- LEAK (R448). -/
  | leak (src : Src) (v : Word)
  /-- WAKE_N_EDGE (R453). -/
  | wakeNEdge (pins : Nat)
  /-- WAKE_PACKET (R453). -/
  | wakePacket (mac : Nat) (pins : Nat)
  /-- EJECT_REQUEST (R455). -/
  | ejectRequest
  /-- EJECT (R455). -/
  | eject (src : Src) (v : Word)
  /-- REMOVAL_DRAIN_END (R455). -/
  | removalDrainEnd
  /-- SURPRISE_REMOVAL (R456). -/
  | surpriseRemoval
  /-- KILL_N_DEASSERT (R457). -/
  | killNDeassert (i : Inputs)
  /-- MGMT_LINK_DOWN (R479). -/
  | mgmtLinkDown
  /-- PCIE_LINK_UP (R348). -/
  | pcieLinkUp (speed : Nat) (width : Nat)
  /-- UNCLAIMED_FRAME (R322). -/
  | unclaimedFrame (p : Nat) (l : Nat)
  /-- KNOWN_ANSWER_COMPLETE (R398). -/
  | knownAnswerComplete (site : Nat) (u : Nat) (pass : Bool)
deriving DecidableEq, Repr

end Sys2Proof
end

