-- ==== Sys2Proof/Decode.lean ====
section
/-! DEFINITION. The command that a word spells. No row of spec/opcode_table.json gives bits: the commands are register
accesses, instructions of a context, and events, and none of them is told apart by a word of the table. -/

namespace Sys2Proof

/-- The command spelled by a word whose bits the table numbers: none, as no row has bits. -/
def decodeTableWord (_nbits _w : Nat) : Option Instr := none

end Sys2Proof
end

