-- ==== Sys2Proof/Config.lean ====
section
/-! DEFINITION. The free values: what the manual leaves open, as constants with no body. Nothing in Lean can say which
value one of them has, so a statement that mentions one holds for every value of it. -/

namespace Sys2Proof.Config

/-- A fresh free value: applied to the counter that State holds and that each use advances. Log entry 3. -/
opaque freeValue : Nat → Nat

/-- The FP32 code that the special-function units give for exp2 of an FP32 code, where the manual bounds the error
only (R104). Log entry 4. -/
opaque exp2Free : Nat → Nat

/-- As `exp2Free`, for log2 (R104). Log entry 4. -/
opaque log2Free : Nat → Nat

/-- Which of the codes within one unit in the last place the reciprocal of an FP32 code takes (R104). Log entry 4. -/
opaque rcpFree : Nat → Nat

/-- Which of the codes within one unit in the last place the reciprocal square root takes (R104). Log entry 4. -/
opaque rsqFree : Nat → Nat

/-- Verification of an ECDSA P-384 signature: key, digest, signature (R360, R364). Log entry 5. -/
opaque ecdsaVerify : Nat → Nat → Nat → Bool

/-- The ECDSA P-384 signature that a private key gives a digest (R356, R362). Log entry 5. -/
opaque ecdsaSign : Nat → Nat → Nat

/-- The P-384 public key of a private key (R422). Log entry 5. -/
opaque p384Public : Nat → Nat

/-- The shared secret of a P-384 private key and a public key (R422). Log entry 5. -/
opaque p384Ecdh : Nat → Nat → Nat

/-- AES-256-GCM encryption: key, nonce, plain text as a number; the cipher text as a number. Log entry 5. -/
opaque gcmEncrypt : Nat → Nat → Nat → Nat

/-- AES-256-GCM tag: key, nonce, plain text. Log entry 5. -/
opaque gcmTag : Nat → Nat → Nat → Nat

/-- AES-256-GCM decryption: key, nonce, cipher text, tag; none where the tag fails. Log entry 5. -/
opaque gcmDecrypt : Nat → Nat → Nat → Nat → Option Nat

/-- SHA-384 of a byte string (FIPS 180-4), read as a number. Log entry 5. -/
opaque sha384 : List Byte → Nat

/-- HMAC-SHA-256 of a key and a byte string (FIPS 198-1), read as a number. Log entry 5. -/
opaque hmacSha256 : Nat → List Byte → Nat

/-- The factory profile record in a profile slot of flash. Log entry 10. -/
opaque factoryProfile : Nat → List Byte

/-- The factory image of a firmware component in flash slot 0 or 1. Log entry 10. -/
opaque factoryImage : Nat → Nat → List Byte

/-- The Keapel public key of a key slot, and whether the slot is revoked in OTP. Log entry 10. -/
opaque keapelKey : Nat → Nat
opaque keapelRevoked : Nat → Bool

/-- What a key blob opens to under the module's key-agreement key: kind, slot, MODULE_ID, counter, key bytes, and the
signature of the owner key with the digest it signs; none where it does not decrypt. Log entry 10. -/
opaque openBlob : List Byte → Option (Nat × Nat × Nat × Nat × List Byte × Nat × Nat)

/-- The fields of a life-cycle token: target state, MODULE_ID, transition counter, digest signed, signature. Log
entry 10. -/
opaque tokenFields : List Byte → Nat × Nat × Nat × Nat × Nat

/-- The module's management MAC address. Log entry 10. -/
opaque mgmtMac : Nat

/-- Rows of the boot ROM, OTP and device certificate that measurement and SPDM serve. Log entry 10. -/
opaque bootRomDigest : Nat
opaque deviceCert : List Byte

/-- The device private key, which never leaves the security engine. Log entry 10. -/
opaque deviceKey : Nat

/-- The SHA-384 that Bedrock gives with the broadcast of a firmware image (R375). Log entry 10. -/
opaque imageHash : Nat → Nat

/-- The set of a cache slice in which a stack line is placed; the manual gives 16 ways and no index (R76). Log
entry 14. -/
opaque cacheSet : Nat → Nat

/-- The set of an instruction cache in which a line is placed; the manual gives 4 ways of 32 sets and no index (R50). Log
entry 14. -/
opaque icacheSet : Nat → Nat

/-- THREAD of a Leriq-M context, whose layout the manual does not give (Table 9.11): by core, 0 management core, 1
Lantern, and context. Log entry 38. -/
opaque mgmtThread : Nat → Nat → Nat

end Sys2Proof.Config
end

