-- ==== Sys2Proof/Machine/RegTable.lean ====
section
/-! DEFINITION. Every register of the module, from the register tables of spec/ (chapters 02 to 21) and the bases of
Tables 22.2 to 22.5: the row of each register (offset, how it repeats, which bits take which access code, reset value)
and the name of each of its fields. -/

namespace Sys2Proof.Machine

/-- A field of a register: the register's module address, its lowest bit and its width. -/
structure Fld where
  addr : Nat
  lo : Nat
  width : Nat
deriving DecidableEq, Repr

/-- The register blocks of Tables 22.3 to 22.5. -/
inductive Blk where
  | DRIP
  | ROPE
  | MSMAP
  | HIF
  | MGMT
  | LCP
  | TRM
  | FR
  | HLT
  | PWR
  | OPT
  | MS
  | LNT
  | BRG
  | SV
  | PORT
  | GAL
  | MXE
  | CUR
  | TFE
  | TR
  | GM
  | MU
  | MSTR
  | RTR
  | SEC
deriving DecidableEq, Repr

/-- Every register of the manual, one name per register or register word. -/
inductive Reg where
  | DRIP_CTRL | DRIP_PERIOD | DRIP_APPLY_AT | DRIP_NUMBER | DRIP_STATUS | CLASSA_COND
  | ROPE_CTRL | ROPE_STATUS
  | MSMAP_CONTAIN | MSMAP_REGION
  | HIF_CTRL | HIF_STATUS | HIF_BAR2 | HIF_CSRWIN | HIF_ERRQ0 | HIF_ERRQ1 | HQ0 | HQ1 | HQ2 | HQ3
  | MGMT_CTRL | MGMT_COLLECT | MGMT_STATUS | MGMT_CNT
  | LCP_STATUS | PROF_STATUS
  | TRM_CTRL | TRM_MOVE | TRM_MOVE_STATUS | TRM_FUSE
  | FR_CTRL | FR_LEASE | FR_ECHO | FR_ECHO_IMG | FR_ECHO_STATUS | FR_CHAMBER
  | HLT_MODULE | HLT_SCORE | HLT_SITE_CNT
  | PWR_CTRL | PWR_STATUS | PWR_CNT | PWR_DIE
  | LAMP_CTRL | LAMP_STATUS
  | MS_CTRL | MS_STATUS | MS_ECC_CNT | MS_UE_ADDR
  | LNT_STATUS | LNT_CLR | LNT_CH | LNT_TRIP | LNT_BIQ0 | LNT_BIQ1 | LNT_BIQ2
  | BRG_CTRL | BRG_STATUS | BRG_HOLD | BRG_HOST_CMD | BRG_HOST_RESULT | BRG_FW | BRG_CLK | BRG_RESET | BRG_RAW_SEL | BRG_CLK1
  | SV_CTRL | SV_STATUS | SV_FLIP_AT | SV_INFLIGHT | SV_MAP | SV_GROUP | SV_PASSAGE0 | SV_PASSAGE1 | SV_PASSAGE2 | SV_PASSAGE3
  | PORT_CTRL | PORT_STATUS | PORT_MAC | PORT_CLASS | PORT_SFT | PORT_PFC | PORT_QBV | PORT_RX_CNT | PORT_TX_CNT | PORT_FEC_CNT | PORT_SFT_CNT | PORT_SQ | SFT_FLOW0 | SFT_FLOW1 | SFT_FLOW2 | SFT_FLOW3
  | GAL_ID | GAL_CTRL | GAL_STATUS | GAL_CORE_FAULT | GAL_BOOT | GAL_WDOG | GAL_CORE_MAP | CTXBLK | CORE_CTRL | CORE_STATUS | CORE_LIVE | CORE_ISSUE_CNT | CORE_DUAL_CNT | CORE_ICMISS_CNT
  | MXE_CTRL | MXE_STATUS | MXE_COL_MAP | MXE_COL_FAULT | MXE_WIT_CTRL | MXE_WIT_STATUS | MXE_ARB | MXE_TILE_CNT | MXE_BUSY_CLKS | MXE_STALL_LOAD | MXE_STALL_CUR | MXE_WIT_CNT
  | CUR_CTRL | CUR_STATUS | CUR_LOAD | CUR_SKEW_STALLS | CUR_STALE_TOKENS | CUR_IO_STALLS | CUR_ITEM_CNT | CUR_FIRE_CNT
  | TFE_CTRL | TFE_STATUS | TFE_BYTES | TFE_STACK_REQ | TFE_ERR_CNT
  | TR_LADDER | TR_OFFENCE | TR_ARB | TR_PATROL_CNT
  | GM_GROUP_ILV | GM_PWR_OFF_REQ | GM_PWR_ON_REQ | GM_SLICE_STATE | GM_CACHE_NEXT | GM_CACHE_STATUS | GM_CACHE_CTRL | GM_SB_STATUS | GM_SCRUB | GM_ERR_STATUS | GM_NACK_CNT | GM_ECC_CNT | GM_CACHE_CNT | GM_SB_MOVE0 | GM_SB_MOVE1 | GM_SB_ENTRY | WIN_BASE | WIN_LIM
  | MU_CTRL | MU_STATUS | MSG_DEAD | MU_DROP_CNT | MU_MSG_CNT | MU_CQ0 | MU_CQ1 | MU_RING0 | MU_RING1 | MU_LINE0 | MU_LINE1 | MU_LINE2 | MU_LINE3
  | MSTR_BUDGET0 | MSTR_BUDGET1 | MSTR_USED0 | MSTR_USED1 | MSTR_CTRL | MSTR_STATUS
  | RTR_CTRL | RTR_STATUS | RTR_DROP_CNT | RTR_RETRY_CNT | RTR_CLASSA_CNT | RTR_FLIT_CNT
deriving DecidableEq, Repr

/-- One register row: its offset in the block, how it repeats (count and stride, widest stride first), the bits with
access code RW, W1C and WO (R6), the bits accepted from Bedrock only (R477), and the reset value. -/
structure RegRow where
  reg : Reg
  off : Nat
  dims : List (Nat × Nat)
  rw : Nat
  w1c : Nat
  wo : Nat
  bed : Nat
  reset : Nat
deriving DecidableEq, Repr

/-- The rows of the DRIP block (spec/02_drip_budgets_class_a.md). -/
def rowsDRIP : List RegRow := [
  ⟨.DRIP_CTRL, 0x0, [], 0xf80f, 0x0, 0x10, 0x0, 0x0⟩,
  ⟨.DRIP_PERIOD, 0x8, [], 0xffff0000, 0x0, 0x0, 0x0, 0x3e803e8⟩,
  ⟨.DRIP_APPLY_AT, 0x10, [], 0xffffffffffff, 0x0, 0x0, 0x0, 0x0⟩,
  ⟨.DRIP_NUMBER, 0x18, [], 0x0, 0x0, 0x0, 0x0, 0x0⟩,
  ⟨.DRIP_STATUS, 0x20, [], 0x0, 0x10, 0x0, 0x0, 0x0⟩,
  ⟨.CLASSA_COND, 0x28, [], 0x0, 0x0, 0x0, 0x0, 0xf⟩]

/-- The rows of the ROPE block (spec/12_fabric_rings_survey_rope.md). -/
def rowsROPE : List RegRow := [
  ⟨.ROPE_CTRL, 0x0, [], 0xffff, 0x0, 0x0, 0x0, 0x14⟩,
  ⟨.ROPE_STATUS, 0x8, [], 0x0, 0x0, 0x0, 0x0, 0x0⟩]

/-- The rows of the MSMAP block (spec/13_memory_stacks.md). -/
def rowsMSMAP : List RegRow := [
  ⟨.MSMAP_CONTAIN, 0x0, [], 0xffff, 0x0, 0x0, 0x0, 0x0⟩,
  ⟨.MSMAP_REGION, 0x1000, [(512, 0x8)], 0xfff00000000001ff, 0x0, 0x0, 0x0, 0x0⟩]

/-- The rows of the HIF block (spec/16_host_and_management.md). -/
def rowsHIF : List RegRow := [
  ⟨.HIF_CTRL, 0x0, [], 0xe, 0x0, 0x0, 0xc, 0x0⟩,
  ⟨.HIF_STATUS, 0x8, [], 0x0, 0x800000, 0x0, 0x0, 0x400000000⟩,
  ⟨.HIF_BAR2, 0x10, [], 0xf800fff000000000, 0x0, 0x0, 0x0, 0x0⟩,
  ⟨.HIF_CSRWIN, 0x18, [], 0xfffffe000000, 0x0, 0x0, 0x0, 0x200000000000⟩,
  ⟨.HIF_ERRQ0, 0x20, [], 0xf87ffffffffff000, 0x0, 0x0, 0x0, 0x0⟩,
  ⟨.HIF_ERRQ1, 0x28, [], 0xffff00000000, 0x0, 0x0, 0x0, 0x0⟩,
  ⟨.HQ0, 0x1000, [(64, 0x20)], 0xfffffffffffff000, 0x0, 0x0, 0x0, 0x0⟩,
  ⟨.HQ1, 0x1008, [(64, 0x20)], 0x780ffffffffff000, 0x0, 0x0, 0x0, 0x0⟩,
  ⟨.HQ2, 0x1010, [(64, 0x20)], 0xffffffff00000000, 0x0, 0x0, 0x0, 0x0⟩,
  ⟨.HQ3, 0x1018, [(64, 0x20)], 0x0, 0x0, 0x0, 0x0, 0x0⟩]

/-- The rows of the MGMT block (spec/16_host_and_management.md). -/
def rowsMGMT : List RegRow := [
  ⟨.MGMT_CTRL, 0x0, [], 0xffffffff0001, 0x0, 0x0, 0x0, 0xb6a3b6a20001⟩,
  ⟨.MGMT_COLLECT, 0x8, [(2, 0x8)], 0xffffffffffffffff, 0x0, 0x0, 0x0, 0x0⟩,
  ⟨.MGMT_STATUS, 0x18, [], 0x0, 0x0, 0x0, 0x0, 0x0⟩,
  ⟨.MGMT_CNT, 0x20, [], 0x0, 0x0, 0x0, 0x0, 0x0⟩]

/-- The rows of the LCP block (spec/17_bedrock_flowstone_profiles.md). -/
def rowsLCP : List RegRow := [
  ⟨.LCP_STATUS, 0x0, [], 0x0, 0x0, 0x0, 0x0, 0x0⟩,
  ⟨.PROF_STATUS, 0x8, [], 0x0, 0x0, 0x0, 0x0, 0x0⟩]

/-- The rows of the TRM block (spec/19_continual_test_and_repair.md). -/
def rowsTRM : List RegRow := [
  ⟨.TRM_CTRL, 0x0, [], 0xffffffffffffff03, 0x0, 0x0, 0x1, 0xea6064104003⟩,
  ⟨.TRM_MOVE, 0x8, [], 0xffffc0000000000, 0x0, 0x8000000000000000, 0x0, 0x0⟩,
  ⟨.TRM_MOVE_STATUS, 0x10, [], 0x0, 0x0, 0x0, 0x0, 0x0⟩,
  ⟨.TRM_FUSE, 0x18, [(2, 0x8)], 0x0, 0x0, 0x0, 0x0, 0x81020408102040⟩]

/-- The rows of the FR block (spec/20_faults_recovery_health.md). -/
def rowsFR : List RegRow := [
  ⟨.FR_CTRL, 0x0, [], 0xffff00ff, 0x0, 0x100, 0x0, 0x640032⟩,
  ⟨.FR_LEASE, 0x8, [], 0x0, 0x0, 0x0, 0x0, 0x0⟩,
  ⟨.FR_ECHO, 0x10, [], 0x7fffffffffff0000, 0x0, 0x8000000000000000, 0x0, 0x0⟩,
  ⟨.FR_ECHO_IMG, 0x18, [], 0xffffffffffff, 0x0, 0x0, 0x0, 0x0⟩,
  ⟨.FR_ECHO_STATUS, 0x20, [], 0x0, 0x0, 0x0, 0x0, 0x0⟩,
  ⟨.FR_CHAMBER, 0x100, [(16, 0x8)], 0xffffffff0001, 0x200000000000000, 0x0, 0x0, 0x0⟩]

/-- The rows of the HLT block (spec/20_faults_recovery_health.md). -/
def rowsHLT : List RegRow := [
  ⟨.HLT_MODULE, 0x0, [], 0xffffffc00000, 0x0, 0x0, 0x0, 0x0⟩,
  ⟨.HLT_SCORE, 0x100, [(123, 0x8)], 0xc3ffc3ffc3ffc3ff, 0x0, 0x0, 0x0, 0x0⟩,
  ⟨.HLT_SITE_CNT, 0x1000, [(448, 0x8)], 0x0, 0x0, 0x0, 0x0, 0x0⟩]

/-- The rows of the PWR block (spec/21_power_cooling_lantern_hotplug.md). -/
def rowsPWR : List RegRow := [
  ⟨.PWR_CTRL, 0x0, [], 0xffff000007ff0000, 0x0, 0x1, 0x0, 0x3e8000004b00000⟩,
  ⟨.PWR_STATUS, 0x8, [], 0x0, 0x0, 0x0, 0x0, 0x4b00000⟩,
  ⟨.PWR_CNT, 0x10, [], 0x0, 0x0, 0x0, 0x0, 0x0⟩,
  ⟨.PWR_DIE, 0x100, [(16, 0x8)], 0x0, 0x0, 0x0, 0x0, 0x0⟩]

/-- The rows of the OPT block (spec/15_optical_ports_network.md). -/
def rowsOPT : List RegRow := [
  ⟨.LAMP_CTRL, 0x0, [(10, 0x10)], 0x5, 0x0, 0x2, 0x0, 0x4⟩,
  ⟨.LAMP_STATUS, 0x8, [(10, 0x10)], 0x0, 0x1, 0x0, 0x0, 0xf00⟩]

/-- The rows of the MS block (spec/13_memory_stacks.md). -/
def rowsMS : List RegRow := [
  ⟨.MS_CTRL, 0x0, [], 0x7, 0x0, 0x0, 0x4, 0x2⟩,
  ⟨.MS_STATUS, 0x8, [], 0x0, 0x0, 0x0, 0x0, 0x0⟩,
  ⟨.MS_ECC_CNT, 0x10, [], 0x0, 0x0, 0x0, 0x0, 0x0⟩,
  ⟨.MS_UE_ADDR, 0x18, [], 0x0, 0x8000000000000000, 0x0, 0x0, 0x0⟩]

/-- The rows of the LNT block (spec/21_power_cooling_lantern_hotplug.md). -/
def rowsLNT : List RegRow := [
  ⟨.LNT_STATUS, 0x0, [], 0x0, 0x0, 0x0, 0x0, 0x0⟩,
  ⟨.LNT_CLR, 0x8, [], 0x0, 0x0, 0x1, 0x0, 0x0⟩,
  ⟨.LNT_CH, 0x100, [(16, 0x8)], 0xff00, 0x0, 0x0, 0x0, 0x0⟩,
  ⟨.LNT_TRIP, 0x200, [(24, 0x8)], 0xbff0ffffffffffff, 0x0, 0x0, 0x0, 0x0⟩,
  ⟨.LNT_BIQ0, 0x318, [(8, 0x18)], 0xffffffffffffffff, 0x0, 0x0, 0x0, 0x0⟩,
  ⟨.LNT_BIQ1, 0x320, [(8, 0x18)], 0xffffffffffffffff, 0x0, 0x0, 0x0, 0x0⟩,
  ⟨.LNT_BIQ2, 0x328, [(8, 0x18)], 0xffffffff00000000, 0x0, 0x0, 0x0, 0x0⟩]

/-- The rows of the BRG block (spec/18_bringup_reset_crossings.md). -/
def rowsBRG : List RegRow := [
  ⟨.BRG_CTRL, 0x0, [], 0x0, 0x0, 0x1, 0x0, 0x0⟩,
  ⟨.BRG_STATUS, 0x8, [], 0x0, 0x0, 0x0, 0x0, 0x0⟩,
  ⟨.BRG_HOLD, 0x10, [], 0x0, 0x0, 0x0, 0x0, 0x0⟩,
  ⟨.BRG_HOST_CMD, 0x18, [], 0x0, 0x0, 0xfe07, 0x0, 0x0⟩,
  ⟨.BRG_HOST_RESULT, 0x20, [], 0x0, 0x0, 0x0, 0x0, 0x0⟩,
  ⟨.BRG_FW, 0x28, [], 0x0, 0x0, 0x0, 0x0, 0x0⟩,
  ⟨.BRG_CLK, 0x30, [], 0x0, 0x0, 0x0, 0x0, 0x0⟩,
  ⟨.BRG_RESET, 0x38, [], 0x0, 0x0, 0x0, 0x0, 0x0⟩,
  ⟨.BRG_RAW_SEL, 0x40, [], 0xfe00, 0x0, 0x0, 0x0, 0x0⟩,
  ⟨.BRG_CLK1, 0x48, [], 0x0, 0x0, 0x0, 0x0, 0x0⟩]

/-- The rows of the SV block (spec/12_fabric_rings_survey_rope.md). -/
def rowsSV : List RegRow := [
  ⟨.SV_CTRL, 0x0, [], 0xffff0000, 0x0, 0xe, 0x0, 0xc80000⟩,
  ⟨.SV_STATUS, 0x8, [], 0x0, 0x38, 0x0, 0x0, 0x200⟩,
  ⟨.SV_FLIP_AT, 0x10, [], 0xffffffffffff, 0x0, 0x0, 0x0, 0x0⟩,
  ⟨.SV_INFLIGHT, 0x18, [], 0x0, 0x0, 0x0, 0x0, 0x0⟩,
  ⟨.SV_MAP, 0x100000, [(2, 0x100000), (384, 0x8)], 0x8000000000003fe0, 0x0, 0x0, 0x0, 0x0⟩,
  ⟨.SV_GROUP, 0x101000, [(2, 0x100000), (1024, 0x8)], 0xffffffffffffffff, 0x0, 0x0, 0x0, 0x0⟩,
  ⟨.SV_PASSAGE0, 0x104000, [(2, 0x100000), (4096, 0x20)], 0xfffffe000000003f, 0x0, 0x0, 0x0, 0x0⟩,
  ⟨.SV_PASSAGE1, 0x104008, [(2, 0x100000), (4096, 0x20)], 0xffffffffffffffff, 0x0, 0x0, 0x0, 0x0⟩,
  ⟨.SV_PASSAGE2, 0x104010, [(2, 0x100000), (4096, 0x20)], 0xffffffffffffffff, 0x0, 0x0, 0x0, 0x0⟩,
  ⟨.SV_PASSAGE3, 0x104018, [(2, 0x100000), (4096, 0x20)], 0x0, 0x0, 0x0, 0x0, 0x0⟩]

/-- The rows of the PORT block (spec/15_optical_ports_network.md). -/
def rowsPORT : List RegRow := [
  ⟨.PORT_CTRL, 0x0, [], 0xf, 0x0, 0x40, 0x0, 0x0⟩,
  ⟨.PORT_STATUS, 0x8, [], 0x0, 0x0, 0x0, 0x0, 0x0⟩,
  ⟨.PORT_MAC, 0x10, [], 0x0, 0x0, 0x0, 0x0, 0x0⟩,
  ⟨.PORT_CLASS, 0x18, [], 0xffffc0000000fff, 0x0, 0x0, 0x0, 0xb9a200000000000⟩,
  ⟨.PORT_SFT, 0x20, [], 0xffffffffffffffff, 0x0, 0x0, 0x0, 0xb6a103e800640014⟩,
  ⟨.PORT_PFC, 0x28, [], 0xff, 0x0, 0x0, 0x0, 0x0⟩,
  ⟨.PORT_QBV, 0x40, [(4, 0x40), (8, 0x8)], 0x80000007ffffffff, 0x0, 0x0, 0x0, 0x0⟩,
  ⟨.PORT_RX_CNT, 0x200, [], 0x0, 0x0, 0x0, 0x0, 0x0⟩,
  ⟨.PORT_TX_CNT, 0x208, [], 0x0, 0x0, 0x0, 0x0, 0x0⟩,
  ⟨.PORT_FEC_CNT, 0x210, [], 0x0, 0x0, 0x0, 0x0, 0x0⟩,
  ⟨.PORT_SFT_CNT, 0x218, [], 0x0, 0x0, 0x0, 0x0, 0x0⟩,
  ⟨.PORT_SQ, 0x1000, [(4, 0x200), (64, 0x8)], 0x8f00000000000000, 0x0, 0x0, 0x0, 0x0⟩,
  ⟨.SFT_FLOW0, 0x40000, [(2048, 0x20)], 0xff00fffffffc07ff, 0x0, 0x0, 0x0, 0x40⟩,
  ⟨.SFT_FLOW1, 0x40008, [(2048, 0x20)], 0xffffffffffff, 0x0, 0x0, 0x0, 0x0⟩,
  ⟨.SFT_FLOW2, 0x40010, [(2048, 0x20)], 0xffffffffffffffff, 0x0, 0x0, 0x0, 0x0⟩,
  ⟨.SFT_FLOW3, 0x40018, [(2048, 0x20)], 0xffffffffffffffff, 0x0, 0x0, 0x0, 0x0⟩]

/-- The rows of the GAL block (spec/03_galleries_and_leriq_cores.md). -/
def rowsGAL : List RegRow := [
  ⟨.GAL_ID, 0x0, [], 0x0, 0x0, 0x0, 0x0, 0x1ff⟩,
  ⟨.GAL_CTRL, 0x8, [], 0x9, 0x0, 0x4, 0x8, 0x0⟩,
  ⟨.GAL_STATUS, 0x10, [], 0x0, 0x0, 0x0, 0x0, 0x0⟩,
  ⟨.GAL_CORE_FAULT, 0x18, [], 0x0, 0x0, 0x0, 0x0, 0x0⟩,
  ⟨.GAL_BOOT, 0x20, [], 0x0, 0x0, 0x0, 0x0, 0x0⟩,
  ⟨.GAL_WDOG, 0x28, [], 0xffffff, 0x0, 0x0, 0x0, 0x2710⟩,
  ⟨.GAL_CORE_MAP, 0x40, [(4, 0x8)], 0xbfbfbfbfbfbfbfbf, 0x0, 0x0, 0xbfbfbfbfbfbfbfbf, 0x8080808080808080⟩,
  ⟨.CTXBLK, 0x1000, [(512, 0x8)], 0xe03f, 0x0, 0x0, 0x0, 0x0⟩,
  ⟨.CORE_CTRL, 0x2000, [(32, 0x40)], 0x2, 0x0, 0xc, 0x2, 0x0⟩,
  ⟨.CORE_STATUS, 0x2008, [(32, 0x40)], 0x0, 0x0, 0x0, 0x0, 0x0⟩,
  ⟨.CORE_LIVE, 0x2010, [(32, 0x40), (2, 0x8)], 0x0, 0x0, 0x0, 0x0, 0x0⟩,
  ⟨.CORE_ISSUE_CNT, 0x2020, [(32, 0x40)], 0x0, 0x0, 0x0, 0x0, 0x0⟩,
  ⟨.CORE_DUAL_CNT, 0x2028, [(32, 0x40)], 0x0, 0x0, 0x0, 0x0, 0x0⟩,
  ⟨.CORE_ICMISS_CNT, 0x2030, [(32, 0x40)], 0x0, 0x0, 0x0, 0x0, 0x0⟩]

/-- The rows of the MXE block (spec/06_matrix_engine.md). -/
def rowsMXE : List RegRow := [
  ⟨.MXE_CTRL, 0x0, [], 0xfe0d, 0x0, 0x0, 0xfe04, 0x8⟩,
  ⟨.MXE_STATUS, 0x8, [], 0x0, 0x0, 0x0, 0x0, 0x0⟩,
  ⟨.MXE_COL_MAP, 0x10, [], 0x807f807f, 0x0, 0x0, 0x807f807f, 0x0⟩,
  ⟨.MXE_COL_FAULT, 0x18, [(3, 0x8)], 0x0, 0x0, 0x0, 0x0, 0x0⟩,
  ⟨.MXE_WIT_CTRL, 0x30, [], 0xffffffff0001, 0x0, 0x0, 0x1, 0x32deee0001⟩,
  ⟨.MXE_WIT_STATUS, 0x38, [], 0x0, 0x0, 0x0, 0x0, 0x0⟩,
  ⟨.MXE_ARB, 0x40, [], 0x6, 0x0, 0x1, 0x0, 0x0⟩,
  ⟨.MXE_TILE_CNT, 0x48, [], 0x0, 0x0, 0x0, 0x0, 0x0⟩,
  ⟨.MXE_BUSY_CLKS, 0x50, [], 0x0, 0x0, 0x0, 0x0, 0x0⟩,
  ⟨.MXE_STALL_LOAD, 0x58, [], 0x0, 0x0, 0x0, 0x0, 0x0⟩,
  ⟨.MXE_STALL_CUR, 0x60, [], 0x0, 0x0, 0x0, 0x0, 0x0⟩,
  ⟨.MXE_WIT_CNT, 0x68, [], 0x0, 0x0, 0x0, 0x0, 0x0⟩]

/-- The rows of the CUR block (spec/07_curtain_array.md). -/
def rowsCUR : List RegRow := [
  ⟨.CUR_CTRL, 0x0, [], 0x3, 0x0, 0x0, 0x0, 0x2⟩,
  ⟨.CUR_STATUS, 0x8, [], 0x0, 0x3, 0x0, 0x0, 0x0⟩,
  ⟨.CUR_LOAD, 0x10, [], 0x0, 0x0, 0x0, 0x0, 0x0⟩,
  ⟨.CUR_SKEW_STALLS, 0x18, [], 0x0, 0x0, 0x0, 0x0, 0x0⟩,
  ⟨.CUR_STALE_TOKENS, 0x20, [], 0x0, 0x8000000000000000, 0x0, 0x0, 0x0⟩,
  ⟨.CUR_IO_STALLS, 0x28, [], 0x0, 0x0, 0x0, 0x0, 0x0⟩,
  ⟨.CUR_ITEM_CNT, 0x30, [], 0x0, 0x0, 0x0, 0x0, 0x0⟩,
  ⟨.CUR_FIRE_CNT, 0x38, [], 0x0, 0x0, 0x0, 0x0, 0x0⟩]

/-- The rows of the TFE block (spec/11_messages_and_data_movement.md). -/
def rowsTFE : List RegRow := [
  ⟨.TFE_CTRL, 0x0, [], 0x1, 0x0, 0x0, 0x0, 0x0⟩,
  ⟨.TFE_STATUS, 0x8, [], 0x0, 0x0, 0x0, 0x0, 0x0⟩,
  ⟨.TFE_BYTES, 0x10, [], 0x0, 0x0, 0x0, 0x0, 0x0⟩,
  ⟨.TFE_STACK_REQ, 0x18, [], 0x0, 0x0, 0x0, 0x0, 0x0⟩,
  ⟨.TFE_ERR_CNT, 0x20, [], 0x0, 0x0, 0x0, 0x0, 0x0⟩]

/-- The rows of the TR block (spec/19_continual_test_and_repair.md). -/
def rowsTR : List RegRow := [
  ⟨.TR_LADDER, 0x0, [], 0x0, 0x0, 0x0, 0x0, 0x0⟩,
  ⟨.TR_OFFENCE, 0x8, [], 0x0, 0xffff, 0x0, 0x0, 0x0⟩,
  ⟨.TR_ARB, 0x10, [], 0x0, 0x0, 0x0, 0x0, 0x0⟩,
  ⟨.TR_PATROL_CNT, 0x18, [], 0x0, 0x0, 0x0, 0x0, 0x0⟩]

/-- The rows of the GM block (spec/04_gallery_memory.md). -/
def rowsGM : List RegRow := [
  ⟨.GM_GROUP_ILV, 0x0, [], 0xff, 0x0, 0x0, 0x0, 0x0⟩,
  ⟨.GM_PWR_OFF_REQ, 0x8, [], 0x0, 0x0, 0xffffffff, 0x0, 0x0⟩,
  ⟨.GM_PWR_ON_REQ, 0x10, [], 0x0, 0x0, 0xffffffff, 0x0, 0x0⟩,
  ⟨.GM_SLICE_STATE, 0x18, [(2, 0x8)], 0x0, 0x0, 0x0, 0x0, 0x0⟩,
  ⟨.GM_CACHE_NEXT, 0x28, [], 0xffffffff, 0x0, 0x0, 0x0, 0x0⟩,
  ⟨.GM_CACHE_STATUS, 0x30, [], 0x0, 0x0, 0x0, 0x0, 0x0⟩,
  ⟨.GM_CACHE_CTRL, 0x38, [], 0x0, 0x0, 0x1, 0x0, 0x0⟩,
  ⟨.GM_SB_STATUS, 0x40, [], 0x0, 0x0, 0x0, 0x0, 0x0⟩,
  ⟨.GM_SCRUB, 0x48, [], 0x0, 0x0, 0x4, 0x4, 0x0⟩,
  ⟨.GM_ERR_STATUS, 0x50, [], 0x0, 0x7, 0x0, 0x0, 0x0⟩,
  ⟨.GM_NACK_CNT, 0x58, [], 0x0, 0x0, 0x0, 0x0, 0x0⟩,
  ⟨.GM_ECC_CNT, 0x60, [], 0x0, 0x0, 0x0, 0x0, 0x0⟩,
  ⟨.GM_CACHE_CNT, 0x68, [], 0x0, 0x0, 0x0, 0x0, 0x0⟩,
  ⟨.GM_SB_MOVE0, 0x70, [], 0x3fffffffff, 0x0, 0x0, 0x0, 0x0⟩,
  ⟨.GM_SB_MOVE1, 0x78, [], 0x7f0000000007ffff, 0x0, 0x8000000000000000, 0x0, 0x0⟩,
  ⟨.GM_SB_ENTRY, 0x400, [(64, 0x8)], 0x0, 0x0, 0x0, 0x0, 0x0⟩,
  ⟨.WIN_BASE, 0x4000, [(32, 0x800), (16, 0x80), (8, 0x10)], 0xf00000000007ffff, 0x0, 0x0, 0x0, 0x0⟩,
  ⟨.WIN_LIM, 0x4008, [(32, 0x800), (16, 0x80), (8, 0x10)], 0x7ffff, 0x0, 0x0, 0x0, 0x0⟩]

/-- The rows of the MU block (spec/11_messages_and_data_movement.md). -/
def rowsMU : List RegRow := [
  ⟨.MU_CTRL, 0x0, [], 0x1, 0x0, 0x0, 0x0, 0x0⟩,
  ⟨.MU_STATUS, 0x8, [], 0x0, 0x0, 0x0, 0x0, 0x0⟩,
  ⟨.MSG_DEAD, 0x10, [], 0x0, 0x0, 0x0, 0x0, 0x0⟩,
  ⟨.MU_DROP_CNT, 0x18, [], 0x0, 0x0, 0x0, 0x0, 0x0⟩,
  ⟨.MU_MSG_CNT, 0x20, [], 0x0, 0x0, 0x0, 0x0, 0x0⟩,
  ⟨.MU_CQ0, 0x100, [(48, 0x10)], 0xf0ffffffff000000, 0x0, 0x0, 0x0, 0x0⟩,
  ⟨.MU_CQ1, 0x108, [(48, 0x10)], 0x0, 0x0, 0x0, 0x0, 0x0⟩,
  ⟨.MU_RING0, 0x10000, [(1024, 0x10)], 0xf0ffffffffffbf00, 0x0, 0x0, 0x0, 0x0⟩,
  ⟨.MU_RING1, 0x10008, [(1024, 0x10)], 0x0, 0x0, 0x0, 0x0, 0x0⟩,
  ⟨.MU_LINE0, 0x20000, [(1024, 0x20)], 0x9fffffffffffe000, 0x0, 0x0, 0x0, 0x0⟩,
  ⟨.MU_LINE1, 0x20008, [(1024, 0x20)], 0xfffffc03fffc0000, 0x0, 0x0, 0x0, 0x0⟩,
  ⟨.MU_LINE2, 0x20010, [(1024, 0x20)], 0x0, 0x0, 0x0, 0x0, 0x0⟩,
  ⟨.MU_LINE3, 0x20018, [(1024, 0x20)], 0x0, 0x0, 0x0, 0x0, 0x0⟩]

/-- The rows of the MSTR block (spec/02_drip_budgets_class_a.md). -/
def rowsMSTR : List RegRow := [
  ⟨.MSTR_BUDGET0, 0x100, [(64, 0x40)], 0xffffffffffffffff, 0x0, 0x0, 0x0, 0x0⟩,
  ⟨.MSTR_BUDGET1, 0x108, [(64, 0x40)], 0xffffffffffffffff, 0x0, 0x0, 0x0, 0x0⟩,
  ⟨.MSTR_USED0, 0x110, [(64, 0x40)], 0x0, 0x0, 0x0, 0x0, 0x0⟩,
  ⟨.MSTR_USED1, 0x118, [(64, 0x40)], 0x0, 0x0, 0x0, 0x0, 0x0⟩,
  ⟨.MSTR_CTRL, 0x120, [(64, 0x40)], 0xd, 0x0, 0x30, 0x0, 0x0⟩,
  ⟨.MSTR_STATUS, 0x128, [(64, 0x40)], 0x0, 0x0, 0x0, 0x0, 0x0⟩]

/-- The rows of the RTR block (spec/12_fabric_rings_survey_rope.md). -/
def rowsRTR : List RegRow := [
  ⟨.RTR_CTRL, 0x0, [], 0x1, 0x0, 0x0, 0x1, 0x0⟩,
  ⟨.RTR_STATUS, 0x8, [], 0x0, 0x0, 0x0, 0x0, 0x0⟩,
  ⟨.RTR_DROP_CNT, 0x10, [], 0x0, 0x0, 0x0, 0x0, 0x0⟩,
  ⟨.RTR_RETRY_CNT, 0x18, [], 0x0, 0x0, 0x0, 0x0, 0x0⟩,
  ⟨.RTR_CLASSA_CNT, 0x20, [], 0x0, 0x0, 0x0, 0x0, 0x0⟩,
  ⟨.RTR_FLIT_CNT, 0x28, [], 0x0, 0x0, 0x0, 0x0, 0x0⟩]

namespace R

/-- The address of DRIP_CTRL. -/
def DRIP_CTRL : Nat := 0x200000000000 + 0x0
def DRIP_CTRL_PTP_PORT : Fld := ⟨DRIP_CTRL, 11, 5⟩
def DRIP_CTRL_RESYNC : Fld := ⟨DRIP_CTRL, 4, 1⟩
def DRIP_CTRL_AUTO_STEP : Fld := ⟨DRIP_CTRL, 3, 1⟩
def DRIP_CTRL_SRC : Fld := ⟨DRIP_CTRL, 1, 2⟩
def DRIP_CTRL_ENABLE : Fld := ⟨DRIP_CTRL, 0, 1⟩
/-- The address of DRIP_PERIOD. -/
def DRIP_PERIOD : Nat := 0x200000000000 + 0x8
def DRIP_PERIOD_NEXT_US : Fld := ⟨DRIP_PERIOD, 16, 16⟩
def DRIP_PERIOD_CUR_US : Fld := ⟨DRIP_PERIOD, 0, 16⟩
/-- The address of DRIP_APPLY_AT. -/
def DRIP_APPLY_AT : Nat := 0x200000000000 + 0x10
def DRIP_APPLY_AT_DRIP_NO : Fld := ⟨DRIP_APPLY_AT, 0, 48⟩
/-- The address of DRIP_NUMBER. -/
def DRIP_NUMBER : Nat := 0x200000000000 + 0x18
def DRIP_NUMBER_OFFSET : Fld := ⟨DRIP_NUMBER, 48, 16⟩
def DRIP_NUMBER_NUMBER : Fld := ⟨DRIP_NUMBER, 0, 48⟩
/-- The address of DRIP_STATUS. -/
def DRIP_STATUS : Nat := 0x200000000000 + 0x20
def DRIP_STATUS_OFFSET_NS : Fld := ⟨DRIP_STATUS, 32, 32⟩
def DRIP_STATUS_APPLY_PEND : Fld := ⟨DRIP_STATUS, 5, 1⟩
def DRIP_STATUS_APPLY_LATE : Fld := ⟨DRIP_STATUS, 4, 1⟩
def DRIP_STATUS_STEP_NEEDED : Fld := ⟨DRIP_STATUS, 3, 1⟩
def DRIP_STATUS_HOLDOVER : Fld := ⟨DRIP_STATUS, 2, 1⟩
def DRIP_STATUS_SYNC : Fld := ⟨DRIP_STATUS, 1, 1⟩
def DRIP_STATUS_PHASE_SEAL : Fld := ⟨DRIP_STATUS, 0, 1⟩
/-- The address of CLASSA_COND. -/
def CLASSA_COND : Nat := 0x200000000000 + 0x28
def CLASSA_COND_ALL : Fld := ⟨CLASSA_COND, 5, 1⟩
def CLASSA_COND_NORMAL : Fld := ⟨CLASSA_COND, 4, 1⟩
def CLASSA_COND_SURVEY_STABLE : Fld := ⟨CLASSA_COND, 3, 1⟩
def CLASSA_COND_NO_CH_RESET : Fld := ⟨CLASSA_COND, 2, 1⟩
def CLASSA_COND_FLOOR_OK : Fld := ⟨CLASSA_COND, 1, 1⟩
def CLASSA_COND_RESV_OK : Fld := ⟨CLASSA_COND, 0, 1⟩
/-- The address of ROPE_CTRL. -/
def ROPE_CTRL : Nat := 0x200000001000 + 0x0
def ROPE_CTRL_TIMEOUT_US : Fld := ⟨ROPE_CTRL, 0, 16⟩
/-- The address of ROPE_STATUS. -/
def ROPE_STATUS : Nat := 0x200000001000 + 0x8
def ROPE_STATUS_TIMEOUTS : Fld := ⟨ROPE_STATUS, 32, 32⟩
def ROPE_STATUS_A_MSGS : Fld := ⟨ROPE_STATUS, 0, 32⟩
/-- The address of MSMAP_CONTAIN. -/
def MSMAP_CONTAIN : Nat := 0x200000002000 + 0x0
def MSMAP_CONTAIN_T6 : Fld := ⟨MSMAP_CONTAIN, 0, 16⟩
/-- The address of MSMAP_REGION. -/
def MSMAP_REGION (n : Nat) : Nat := 0x200000002000 + 0x1000 + 0x8 * n
def MSMAP_REGION_VALID (n : Nat) : Fld := ⟨MSMAP_REGION n, 63, 1⟩
def MSMAP_REGION_MODE (n : Nat) : Fld := ⟨MSMAP_REGION n, 61, 2⟩
def MSMAP_REGION_STACK (n : Nat) : Fld := ⟨MSMAP_REGION n, 56, 5⟩
def MSMAP_REGION_CHAMBER (n : Nat) : Fld := ⟨MSMAP_REGION n, 52, 4⟩
def MSMAP_REGION_STACK_BASE (n : Nat) : Fld := ⟨MSMAP_REGION n, 0, 9⟩
/-- The address of HIF_CTRL. -/
def HIF_CTRL : Nat := 0x200000004000 + 0x0
def HIF_CTRL_HOST_CSR_WR : Fld := ⟨HIF_CTRL, 3, 1⟩
def HIF_CTRL_HOST_BIND : Fld := ⟨HIF_CTRL, 2, 1⟩
def HIF_CTRL_BAR2_EN : Fld := ⟨HIF_CTRL, 1, 1⟩
/-- The address of HIF_STATUS. -/
def HIF_STATUS : Nat := 0x200000004000 + 0x8
def HIF_STATUS_MODSTATE : Fld := ⟨HIF_STATUS, 33, 3⟩
def HIF_STATUS_SPEED : Fld := ⟨HIF_STATUS, 30, 3⟩
def HIF_STATUS_WIDTH : Fld := ⟨HIF_STATUS, 25, 5⟩
def HIF_STATUS_DEGRADED : Fld := ⟨HIF_STATUS, 24, 1⟩
def HIF_STATUS_SURPRISE_DOWN : Fld := ⟨HIF_STATUS, 23, 1⟩
/-- The address of HIF_BAR2. -/
def HIF_BAR2 : Nat := 0x200000004000 + 0x10
def HIF_BAR2_VALID : Fld := ⟨HIF_BAR2, 63, 1⟩
def HIF_BAR2_CHAMBER : Fld := ⟨HIF_BAR2, 59, 4⟩
def HIF_BAR2_BASE : Fld := ⟨HIF_BAR2, 36, 12⟩
/-- The address of HIF_CSRWIN. -/
def HIF_CSRWIN : Nat := 0x200000004000 + 0x18
def HIF_CSRWIN_BASE : Fld := ⟨HIF_CSRWIN, 25, 23⟩
/-- The address of HIF_ERRQ0. -/
def HIF_ERRQ0 : Nat := 0x200000004000 + 0x20
def HIF_ERRQ0_VALID : Fld := ⟨HIF_ERRQ0, 63, 1⟩
def HIF_ERRQ0_SIZE_LOG2 : Fld := ⟨HIF_ERRQ0, 59, 4⟩
def HIF_ERRQ0_VECTOR : Fld := ⟨HIF_ERRQ0, 44, 11⟩
def HIF_ERRQ0_HADDR : Fld := ⟨HIF_ERRQ0, 12, 32⟩
/-- The address of HIF_ERRQ1. -/
def HIF_ERRQ1 : Nat := 0x200000004000 + 0x28
def HIF_ERRQ1_WR : Fld := ⟨HIF_ERRQ1, 48, 16⟩
def HIF_ERRQ1_RD : Fld := ⟨HIF_ERRQ1, 32, 16⟩
def HIF_ERRQ1_DROPS : Fld := ⟨HIF_ERRQ1, 0, 32⟩
/-- The address of HQ0. -/
def HQ0 (q : Nat) : Nat := 0x200000004000 + 0x1000 + 0x20 * q
def HQ0_VALID (q : Nat) : Fld := ⟨HQ0 q, 63, 1⟩
def HQ0_SIZE_LOG2 (q : Nat) : Fld := ⟨HQ0 q, 59, 4⟩
def HQ0_CHAMBER (q : Nat) : Fld := ⟨HQ0 q, 55, 4⟩
def HQ0_VECTOR (q : Nat) : Fld := ⟨HQ0 q, 44, 11⟩
def HQ0_HADDR (q : Nat) : Fld := ⟨HQ0 q, 12, 32⟩
/-- The address of HQ1. -/
def HQ1 (q : Nat) : Nat := 0x200000004000 + 0x1008 + 0x20 * q
def HQ1_CSIZE_LOG2 (q : Nat) : Fld := ⟨HQ1 q, 59, 4⟩
def HQ1_COAL_US (q : Nat) : Fld := ⟨HQ1 q, 44, 8⟩
def HQ1_CADDR (q : Nat) : Fld := ⟨HQ1 q, 12, 32⟩
/-- The address of HQ2. -/
def HQ2 (q : Nat) : Nat := 0x200000004000 + 0x1010 + 0x20 * q
def HQ2_PROD (q : Nat) : Fld := ⟨HQ2 q, 48, 16⟩
def HQ2_CRD (q : Nat) : Fld := ⟨HQ2 q, 32, 16⟩
/-- The address of HQ3. -/
def HQ3 (q : Nat) : Nat := 0x200000004000 + 0x1018 + 0x20 * q
def HQ3_CONS (q : Nat) : Fld := ⟨HQ3 q, 48, 16⟩
def HQ3_CWR (q : Nat) : Fld := ⟨HQ3 q, 32, 16⟩
def HQ3_INFLIGHT (q : Nat) : Fld := ⟨HQ3 q, 16, 16⟩
def HQ3_STATE (q : Nat) : Fld := ⟨HQ3 q, 0, 2⟩
/-- The address of MGMT_CTRL. -/
def MGMT_CTRL : Nat := 0x200000006000 + 0x0
def MGMT_CTRL_CTRL_PORT : Fld := ⟨MGMT_CTRL, 32, 16⟩
def MGMT_CTRL_REC_PORT : Fld := ⟨MGMT_CTRL, 16, 16⟩
def MGMT_CTRL_ENABLE : Fld := ⟨MGMT_CTRL, 0, 1⟩
/-- The address of MGMT_COLLECT. -/
def MGMT_COLLECT (h : Nat) : Nat := 0x200000006000 + 0x8 + 0x8 * h
def MGMT_COLLECT_ADDR (h : Nat) : Fld := ⟨MGMT_COLLECT h, 0, 64⟩
/-- The address of MGMT_STATUS. -/
def MGMT_STATUS : Nat := 0x200000006000 + 0x18
def MGMT_STATUS_SEQ : Fld := ⟨MGMT_STATUS, 32, 32⟩
def MGMT_STATUS_HELD : Fld := ⟨MGMT_STATUS, 16, 16⟩
def MGMT_STATUS_LINK_UP : Fld := ⟨MGMT_STATUS, 0, 1⟩
/-- The address of MGMT_CNT. -/
def MGMT_CNT : Nat := 0x200000006000 + 0x20
def MGMT_CNT_LOST : Fld := ⟨MGMT_CNT, 32, 32⟩
def MGMT_CNT_CTRL_REJ : Fld := ⟨MGMT_CNT, 0, 32⟩
/-- The address of LCP_STATUS. -/
def LCP_STATUS : Nat := 0x200000007000 + 0x0
def LCP_STATUS_LC_COUNT : Fld := ⟨LCP_STATUS, 16, 8⟩
def LCP_STATUS_BCALL_DEPTH : Fld := ⟨LCP_STATUS, 6, 5⟩
def LCP_STATUS_OWNER_KEY : Fld := ⟨LCP_STATUS, 5, 1⟩
def LCP_STATUS_KEY1 : Fld := ⟨LCP_STATUS, 4, 1⟩
def LCP_STATUS_KEY0 : Fld := ⟨LCP_STATUS, 3, 1⟩
def LCP_STATUS_LC_STATE : Fld := ⟨LCP_STATUS, 0, 3⟩
/-- The address of PROF_STATUS. -/
def PROF_STATUS : Nat := 0x200000007000 + 0x8
def PROF_STATUS_PINS : Fld := ⟨PROF_STATUS, 10, 2⟩
def PROF_STATUS_FALLBACK : Fld := ⟨PROF_STATUS, 9, 1⟩
def PROF_STATUS_CH_PEND : Fld := ⟨PROF_STATUS, 8, 1⟩
def PROF_STATUS_CH_SRC : Fld := ⟨PROF_STATUS, 6, 2⟩
def PROF_STATUS_PEND_VALID : Fld := ⟨PROF_STATUS, 5, 1⟩
def PROF_STATUS_PENDING : Fld := ⟨PROF_STATUS, 3, 2⟩
def PROF_STATUS_IN_FORCE : Fld := ⟨PROF_STATUS, 0, 2⟩
/-- The address of TRM_CTRL. -/
def TRM_CTRL : Nat := 0x200000008000 + 0x0
def TRM_CTRL_WATCH_DRIPS : Fld := ⟨TRM_CTRL, 32, 32⟩
def TRM_CTRL_SCRUB_DRIPS : Fld := ⟨TRM_CTRL, 24, 8⟩
def TRM_CTRL_CE_LIMIT : Fld := ⟨TRM_CTRL, 16, 8⟩
def TRM_CTRL_LINK_RETRY : Fld := ⟨TRM_CTRL, 8, 8⟩
def TRM_CTRL_PATROL_EN : Fld := ⟨TRM_CTRL, 1, 1⟩
def TRM_CTRL_ARB_EN : Fld := ⟨TRM_CTRL, 0, 1⟩
/-- The address of TRM_MOVE. -/
def TRM_MOVE : Nat := 0x200000008000 + 0x8
def TRM_MOVE_GO : Fld := ⟨TRM_MOVE, 63, 1⟩
def TRM_MOVE_SRC_COL : Fld := ⟨TRM_MOVE, 54, 6⟩
def TRM_MOVE_SRC_ROW : Fld := ⟨TRM_MOVE, 51, 3⟩
def TRM_MOVE_DST_COL : Fld := ⟨TRM_MOVE, 45, 6⟩
def TRM_MOVE_DST_ROW : Fld := ⟨TRM_MOVE, 42, 3⟩
/-- The address of TRM_MOVE_STATUS. -/
def TRM_MOVE_STATUS : Nat := 0x200000008000 + 0x10
def TRM_MOVE_STATUS_STATE : Fld := ⟨TRM_MOVE_STATUS, 60, 4⟩
def TRM_MOVE_STATUS_LINES_DONE : Fld := ⟨TRM_MOVE_STATUS, 0, 32⟩
/-- The address of TRM_FUSE. -/
def TRM_FUSE (h : Nat) : Nat := 0x200000008000 + 0x18 + 0x8 * h
def TRM_FUSE_LEFT (h : Nat) : Fld := ⟨TRM_FUSE h, 0, 56⟩
/-- The address of FR_CTRL. -/
def FR_CTRL : Nat := 0x200000009000 + 0x0
def FR_CTRL_FW_WDOG_MS : Fld := ⟨FR_CTRL, 16, 16⟩
def FR_CTRL_KICK : Fld := ⟨FR_CTRL, 8, 1⟩
def FR_CTRL_NOPROG_US : Fld := ⟨FR_CTRL, 0, 8⟩
/-- The address of FR_LEASE. -/
def FR_LEASE : Nat := 0x200000009000 + 0x8
def FR_LEASE_LATCH : Fld := ⟨FR_LEASE, 63, 1⟩
def FR_LEASE_STATE : Fld := ⟨FR_LEASE, 60, 3⟩
def FR_LEASE_EXPIRY : Fld := ⟨FR_LEASE, 0, 48⟩
/-- The address of FR_ECHO. -/
def FR_ECHO : Nat := 0x200000009000 + 0x10
def FR_ECHO_GO : Fld := ⟨FR_ECHO, 63, 1⟩
def FR_ECHO_SITE_COL : Fld := ⟨FR_ECHO, 57, 6⟩
def FR_ECHO_SITE_ROW : Fld := ⟨FR_ECHO, 54, 3⟩
def FR_ECHO_CHAMBER : Fld := ⟨FR_ECHO, 50, 4⟩
def FR_ECHO_RECORD : Fld := ⟨FR_ECHO, 44, 6⟩
def FR_ECHO_DRIPS : Fld := ⟨FR_ECHO, 40, 4⟩
def FR_ECHO_SRC : Fld := ⟨FR_ECHO, 32, 8⟩
def FR_ECHO_CODE : Fld := ⟨FR_ECHO, 16, 16⟩
/-- The address of FR_ECHO_IMG. -/
def FR_ECHO_IMG : Nat := 0x200000009000 + 0x18
def FR_ECHO_IMG_ADDR : Fld := ⟨FR_ECHO_IMG, 0, 48⟩
/-- The address of FR_ECHO_STATUS. -/
def FR_ECHO_STATUS : Nat := 0x200000009000 + 0x20
def FR_ECHO_STATUS_STATE : Fld := ⟨FR_ECHO_STATUS, 60, 4⟩
def FR_ECHO_STATUS_RESULT : Fld := ⟨FR_ECHO_STATUS, 58, 2⟩
def FR_ECHO_STATUS_DRIP : Fld := ⟨FR_ECHO_STATUS, 0, 48⟩
/-- The address of FR_CHAMBER. -/
def FR_CHAMBER (c : Nat) : Nat := 0x200000009000 + 0x100 + 0x8 * c
def FR_CHAMBER_STATE (c : Nat) : Fld := ⟨FR_CHAMBER c, 62, 2⟩
def FR_CHAMBER_STEP (c : Nat) : Fld := ⟨FR_CHAMBER c, 58, 4⟩
def FR_CHAMBER_LOST_SEEN (c : Nat) : Fld := ⟨FR_CHAMBER c, 57, 1⟩
def FR_CHAMBER_PEARL_OK (c : Nat) : Fld := ⟨FR_CHAMBER c, 56, 1⟩
def FR_CHAMBER_RESETS (c : Nat) : Fld := ⟨FR_CHAMBER c, 48, 8⟩
def FR_CHAMBER_PEARL_BASE (c : Nat) : Fld := ⟨FR_CHAMBER c, 16, 32⟩
def FR_CHAMBER_PEARL_EN (c : Nat) : Fld := ⟨FR_CHAMBER c, 0, 1⟩
/-- The address of HLT_MODULE. -/
def HLT_MODULE : Nat := 0x20000000a000 + 0x0
def HLT_MODULE_SCORE : Fld := ⟨HLT_MODULE, 38, 10⟩
def HLT_MODULE_MEAN : Fld := ⟨HLT_MODULE, 28, 10⟩
def HLT_MODULE_SPARES : Fld := ⟨HLT_MODULE, 22, 6⟩
/-- The address of HLT_SCORE. -/
def HLT_SCORE (k : Nat) : Nat := 0x20000000a000 + 0x100 + 0x8 * k
def HLT_SCORE_VALID (k j : Nat) : Fld := ⟨HLT_SCORE k, 15 + 16 * j, 1⟩
def HLT_SCORE_DOWN (k j : Nat) : Fld := ⟨HLT_SCORE k, 14 + 16 * j, 1⟩
def HLT_SCORE_SCORE (k j : Nat) : Fld := ⟨HLT_SCORE k, 0 + 16 * j, 10⟩
/-- The address of HLT_SITE_CNT. -/
def HLT_SITE_CNT (s : Nat) : Nat := 0x20000000a000 + 0x1000 + 0x8 * s
def HLT_SITE_CNT_CE (s : Nat) : Fld := ⟨HLT_SITE_CNT s, 48, 16⟩
def HLT_SITE_CNT_RETRY (s : Nat) : Fld := ⟨HLT_SITE_CNT s, 32, 16⟩
def HLT_SITE_CNT_PATROL (s : Nat) : Fld := ⟨HLT_SITE_CNT s, 16, 16⟩
def HLT_SITE_CNT_OFFENCE (s : Nat) : Fld := ⟨HLT_SITE_CNT s, 0, 16⟩
/-- The address of PWR_CTRL. -/
def PWR_CTRL : Nat := 0x20000000c000 + 0x0
def PWR_CTRL_DRAIN_MS : Fld := ⟨PWR_CTRL, 48, 16⟩
def PWR_CTRL_CAP : Fld := ⟨PWR_CTRL, 16, 11⟩
def PWR_CTRL_EJECT : Fld := ⟨PWR_CTRL, 0, 1⟩
/-- The address of PWR_STATUS. -/
def PWR_STATUS : Nat := 0x20000000c000 + 0x8
def PWR_STATUS_W10 : Fld := ⟨PWR_STATUS, 48, 16⟩
def PWR_STATUS_P1 : Fld := ⟨PWR_STATUS, 32, 16⟩
def PWR_STATUS_LEVEL : Fld := ⟨PWR_STATUS, 29, 3⟩
def PWR_STATUS_CAP_IN_FORCE : Fld := ⟨PWR_STATUS, 16, 13⟩
def PWR_STATUS_FAST : Fld := ⟨PWR_STATUS, 15, 1⟩
def PWR_STATUS_SURGE_MS : Fld := ⟨PWR_STATUS, 0, 12⟩
/-- The address of PWR_CNT. -/
def PWR_CNT : Nat := 0x20000000c000 + 0x10
def PWR_CNT_FAST : Fld := ⟨PWR_CNT, 32, 32⟩
def PWR_CNT_LEVEL_MS : Fld := ⟨PWR_CNT, 0, 32⟩
/-- The address of PWR_DIE. -/
def PWR_DIE (d : Nat) : Nat := 0x20000000c000 + 0x100 + 0x8 * d
def PWR_DIE_POWER (d : Nat) : Fld := ⟨PWR_DIE d, 48, 16⟩
def PWR_DIE_WEAR_S (d : Nat) : Fld := ⟨PWR_DIE d, 32, 16⟩
def PWR_DIE_TJ (d : Nat) : Fld := ⟨PWR_DIE d, 24, 8⟩
def PWR_DIE_STEP (d : Nat) : Fld := ⟨PWR_DIE d, 22, 2⟩
def PWR_DIE_WEAR_OUT (d : Nat) : Fld := ⟨PWR_DIE d, 21, 1⟩
/-- The address of LAMP_CTRL. -/
def LAMP_CTRL (k : Nat) : Nat := 0x20000000d000 + 0x0 + 0x10 * k
def LAMP_CTRL_AUTO_RETURN (k : Nat) : Fld := ⟨LAMP_CTRL k, 2, 1⟩
def LAMP_CTRL_REPLACE (k : Nat) : Fld := ⟨LAMP_CTRL k, 1, 1⟩
def LAMP_CTRL_ENABLE (k : Nat) : Fld := ⟨LAMP_CTRL k, 0, 1⟩
/-- The address of LAMP_STATUS. -/
def LAMP_STATUS (k : Nat) : Nat := 0x20000000d000 + 0x8 + 0x10 * k
def LAMP_STATUS_POWER (k : Nat) : Fld := ⟨LAMP_STATUS k, 16, 16⟩
def LAMP_STATUS_STATE (k : Nat) : Fld := ⟨LAMP_STATUS k, 12, 4⟩
def LAMP_STATUS_FEEDS (k : Nat) : Fld := ⟨LAMP_STATUS k, 8, 4⟩
def LAMP_STATUS_REFUSED (k : Nat) : Fld := ⟨LAMP_STATUS k, 0, 1⟩
/-- The address of MS_CTRL. -/
def MS_CTRL (m : Nat) : Nat := 0x200000010000 + 0x1000 * m + 0x0
def MS_CTRL_RETAIN (m : Nat) : Fld := ⟨MS_CTRL m, 2, 1⟩
def MS_CTRL_SCRUB_EN (m : Nat) : Fld := ⟨MS_CTRL m, 1, 1⟩
def MS_CTRL_ENABLE (m : Nat) : Fld := ⟨MS_CTRL m, 0, 1⟩
/-- The address of MS_STATUS. -/
def MS_STATUS (m : Nat) : Nat := 0x200000010000 + 0x1000 * m + 0x8
def MS_STATUS_STATE (m : Nat) : Fld := ⟨MS_STATUS m, 28, 4⟩
def MS_STATUS_REFRESH_2X (m : Nat) : Fld := ⟨MS_STATUS m, 27, 1⟩
def MS_STATUS_TEMP (m : Nat) : Fld := ⟨MS_STATUS m, 16, 8⟩
def MS_STATUS_PPR_LEFT (m : Nat) : Fld := ⟨MS_STATUS m, 8, 8⟩
def MS_STATUS_SCRUB_PASS (m : Nat) : Fld := ⟨MS_STATUS m, 0, 8⟩
/-- The address of MS_ECC_CNT. -/
def MS_ECC_CNT (m : Nat) : Nat := 0x200000010000 + 0x1000 * m + 0x10
def MS_ECC_CNT_UE (m : Nat) : Fld := ⟨MS_ECC_CNT m, 32, 32⟩
def MS_ECC_CNT_CE (m : Nat) : Fld := ⟨MS_ECC_CNT m, 0, 32⟩
/-- The address of MS_UE_ADDR. -/
def MS_UE_ADDR (m : Nat) : Nat := 0x200000010000 + 0x1000 * m + 0x18
def MS_UE_ADDR_VALID (m : Nat) : Fld := ⟨MS_UE_ADDR m, 63, 1⟩
def MS_UE_ADDR_LOCAL (m : Nat) : Fld := ⟨MS_UE_ADDR m, 0, 36⟩
/-- The address of LNT_STATUS. -/
def LNT_STATUS : Nat := 0x200000040000 + 0x0
def LNT_STATUS_ACTIVE : Fld := ⟨LNT_STATUS, 16, 24⟩
def LNT_STATUS_LEAK_LATCH : Fld := ⟨LNT_STATUS, 15, 1⟩
def LNT_STATUS_VALVE : Fld := ⟨LNT_STATUS, 14, 1⟩
def LNT_STATUS_OK2RM : Fld := ⟨LNT_STATUS, 13, 1⟩
def LNT_STATUS_EJECT : Fld := ⟨LNT_STATUS, 12, 1⟩
def LNT_STATUS_HB_AGE : Fld := ⟨LNT_STATUS, 0, 8⟩
/-- The address of LNT_CLR. -/
def LNT_CLR : Nat := 0x200000040000 + 0x8
def LNT_CLR_LEAK : Fld := ⟨LNT_CLR, 0, 1⟩
/-- The address of LNT_CH. -/
def LNT_CH (n : Nat) : Nat := 0x200000040000 + 0x100 + 0x8 * n
def LNT_CH_VALUE (n : Nat) : Fld := ⟨LNT_CH n, 48, 16⟩
def LNT_CH_RAW (n : Nat) : Fld := ⟨LNT_CH n, 32, 16⟩
def LNT_CH_BIQ (n : Nat) : Fld := ⟨LNT_CH n, 12, 4⟩
def LNT_CH_MEDIAN (n : Nat) : Fld := ⟨LNT_CH n, 8, 4⟩
/-- The address of LNT_TRIP. -/
def LNT_TRIP (e : Nat) : Nat := 0x200000040000 + 0x200 + 0x8 * e
def LNT_TRIP_VALID (e : Nat) : Fld := ⟨LNT_TRIP e, 63, 1⟩
def LNT_TRIP_FIXED (e : Nat) : Fld := ⟨LNT_TRIP e, 62, 1⟩
def LNT_TRIP_SRC (e : Nat) : Fld := ⟨LNT_TRIP e, 56, 6⟩
def LNT_TRIP_DIR (e : Nat) : Fld := ⟨LNT_TRIP e, 55, 1⟩
def LNT_TRIP_ACTION (e : Nat) : Fld := ⟨LNT_TRIP e, 52, 3⟩
def LNT_TRIP_THRESH (e : Nat) : Fld := ⟨LNT_TRIP e, 32, 16⟩
def LNT_TRIP_HYST (e : Nat) : Fld := ⟨LNT_TRIP e, 16, 16⟩
def LNT_TRIP_PERSIST (e : Nat) : Fld := ⟨LNT_TRIP e, 0, 16⟩
/-- The address of LNT_BIQ0. -/
def LNT_BIQ0 (s : Nat) : Nat := 0x200000040000 + 0x318 + 0x18 * s
def LNT_BIQ0_B0 (s : Nat) : Fld := ⟨LNT_BIQ0 s, 32, 32⟩
def LNT_BIQ0_B1 (s : Nat) : Fld := ⟨LNT_BIQ0 s, 0, 32⟩
/-- The address of LNT_BIQ1. -/
def LNT_BIQ1 (s : Nat) : Nat := 0x200000040000 + 0x320 + 0x18 * s
def LNT_BIQ1_B2 (s : Nat) : Fld := ⟨LNT_BIQ1 s, 32, 32⟩
def LNT_BIQ1_A1 (s : Nat) : Fld := ⟨LNT_BIQ1 s, 0, 32⟩
/-- The address of LNT_BIQ2. -/
def LNT_BIQ2 (s : Nat) : Nat := 0x200000040000 + 0x328 + 0x18 * s
def LNT_BIQ2_A2 (s : Nat) : Fld := ⟨LNT_BIQ2 s, 32, 32⟩
/-- The address of BRG_CTRL. -/
def BRG_CTRL : Nat := 0x200000100000 + 0x0
def BRG_CTRL_MCR : Fld := ⟨BRG_CTRL, 0, 1⟩
/-- The address of BRG_STATUS. -/
def BRG_STATUS : Nat := 0x200000100000 + 0x8
def BRG_STATUS_FAIL_CODE : Fld := ⟨BRG_STATUS, 48, 8⟩
def BRG_STATUS_FAIL_STEP : Fld := ⟨BRG_STATUS, 44, 4⟩
def BRG_STATUS_STEP : Fld := ⟨BRG_STATUS, 40, 4⟩
def BRG_STATUS_DIAG : Fld := ⟨BRG_STATUS, 39, 1⟩
def BRG_STATUS_READY : Fld := ⟨BRG_STATUS, 38, 1⟩
def BRG_STATUS_ELAPSED_MS : Fld := ⟨BRG_STATUS, 0, 32⟩
/-- The address of BRG_HOLD. -/
def BRG_HOLD : Nat := 0x200000100000 + 0x10
def BRG_HOLD_LAMP : Fld := ⟨BRG_HOLD, 40, 10⟩
def BRG_HOLD_OE : Fld := ⟨BRG_HOLD, 32, 8⟩
def BRG_HOLD_STACK : Fld := ⟨BRG_HOLD, 0, 32⟩
/-- The address of BRG_HOST_CMD. -/
def BRG_HOST_CMD : Nat := 0x200000100000 + 0x18
def BRG_HOST_CMD_UNIT : Fld := ⟨BRG_HOST_CMD, 14, 2⟩
def BRG_HOST_CMD_INDEX : Fld := ⟨BRG_HOST_CMD, 9, 5⟩
def BRG_HOST_CMD_ACTION : Fld := ⟨BRG_HOST_CMD, 0, 3⟩
/-- The address of BRG_HOST_RESULT. -/
def BRG_HOST_RESULT : Nat := 0x200000100000 + 0x20
def BRG_HOST_RESULT_DETAIL : Fld := ⟨BRG_HOST_RESULT, 16, 16⟩
def BRG_HOST_RESULT_UNIT : Fld := ⟨BRG_HOST_RESULT, 14, 2⟩
def BRG_HOST_RESULT_INDEX : Fld := ⟨BRG_HOST_RESULT, 9, 5⟩
def BRG_HOST_RESULT_RESULT : Fld := ⟨BRG_HOST_RESULT, 0, 4⟩
/-- The address of BRG_FW. -/
def BRG_FW : Nat := 0x200000100000 + 0x28
def BRG_FW_IMAGE_ID : Fld := ⟨BRG_FW, 48, 16⟩
def BRG_FW_BLOCKS : Fld := ⟨BRG_FW, 32, 16⟩
def BRG_FW_DONE : Fld := ⟨BRG_FW, 23, 9⟩
def BRG_FW_FAILED : Fld := ⟨BRG_FW, 14, 9⟩
def BRG_FW_ATTEMPT : Fld := ⟨BRG_FW, 12, 2⟩
/-- The address of BRG_CLK. -/
def BRG_CLK : Nat := 0x200000100000 + 0x30
def BRG_CLK_OE : Fld := ⟨BRG_CLK, 56, 8⟩
def BRG_CLK_STACK : Fld := ⟨BRG_CLK, 24, 32⟩
def BRG_CLK_DIE : Fld := ⟨BRG_CLK, 8, 16⟩
def BRG_CLK_FABRIC : Fld := ⟨BRG_CLK, 0, 1⟩
/-- The address of BRG_RESET. -/
def BRG_RESET : Nat := 0x200000100000 + 0x38
def BRG_RESET_CH_IN_RESET : Fld := ⟨BRG_RESET, 48, 16⟩
def BRG_RESET_MCR_COUNT : Fld := ⟨BRG_RESET, 40, 8⟩
/-- The address of BRG_RAW_SEL. -/
def BRG_RAW_SEL : Nat := 0x200000100000 + 0x40
def BRG_RAW_SEL_UNIT : Fld := ⟨BRG_RAW_SEL, 14, 2⟩
def BRG_RAW_SEL_INDEX : Fld := ⟨BRG_RAW_SEL, 9, 5⟩
/-- The address of BRG_CLK1. -/
def BRG_CLK1 : Nat := 0x200000100000 + 0x48
def BRG_CLK1_LAMP : Fld := ⟨BRG_CLK1, 0, 10⟩
/-- The address of SV_CTRL. -/
def SV_CTRL : Nat := 0x200000400000 + 0x0
def SV_CTRL_DRAIN_LIMIT_US : Fld := ⟨SV_CTRL, 16, 16⟩
def SV_CTRL_FORCE_FREE : Fld := ⟨SV_CTRL, 3, 1⟩
def SV_CTRL_FLIP : Fld := ⟨SV_CTRL, 2, 1⟩
def SV_CTRL_LOAD_DONE : Fld := ⟨SV_CTRL, 1, 1⟩
/-- The address of SV_STATUS. -/
def SV_STATUS : Nat := 0x200000400000 + 0x8
def SV_STATUS_LOAD_ERR : Fld := ⟨SV_STATUS, 12, 4⟩
def SV_STATUS_BANK1 : Fld := ⟨SV_STATUS, 10, 2⟩
def SV_STATUS_BANK0 : Fld := ⟨SV_STATUS, 8, 2⟩
def SV_STATUS_FLIP_LATE : Fld := ⟨SV_STATUS, 5, 1⟩
def SV_STATUS_DRAIN_LATE : Fld := ⟨SV_STATUS, 4, 1⟩
def SV_STATUS_LOAD_REJ : Fld := ⟨SV_STATUS, 3, 1⟩
def SV_STATUS_FLIP_PEND : Fld := ⟨SV_STATUS, 2, 1⟩
def SV_STATUS_LOADING : Fld := ⟨SV_STATUS, 1, 1⟩
def SV_STATUS_EPOCH : Fld := ⟨SV_STATUS, 0, 1⟩
/-- The address of SV_FLIP_AT. -/
def SV_FLIP_AT : Nat := 0x200000400000 + 0x10
def SV_FLIP_AT_DRIP_NO : Fld := ⟨SV_FLIP_AT, 0, 48⟩
/-- The address of SV_INFLIGHT. -/
def SV_INFLIGHT : Nat := 0x200000400000 + 0x18
def SV_INFLIGHT_OLD : Fld := ⟨SV_INFLIGHT, 0, 48⟩
/-- The address of SV_MAP. -/
def SV_MAP (b n : Nat) : Nat := 0x200000400000 + 0x100000 + 0x100000 * b + 0x8 * n
def SV_MAP_VALID (b n : Nat) : Fld := ⟨SV_MAP b n, 63, 1⟩
def SV_MAP_COL (b n : Nat) : Fld := ⟨SV_MAP b n, 8, 6⟩
def SV_MAP_ROW (b n : Nat) : Fld := ⟨SV_MAP b n, 5, 3⟩
/-- The address of SV_GROUP. -/
def SV_GROUP (b g : Nat) : Nat := 0x200000400000 + 0x101000 + 0x100000 * b + 0x8 * g
def SV_GROUP_VALID (b g : Nat) : Fld := ⟨SV_GROUP b g, 63, 1⟩
def SV_GROUP_AXIS (b g : Nat) : Fld := ⟨SV_GROUP b g, 62, 1⟩
def SV_GROUP_RING (b g : Nat) : Fld := ⟨SV_GROUP b g, 56, 6⟩
def SV_GROUP_MASK (b g : Nat) : Fld := ⟨SV_GROUP b g, 0, 56⟩
/-- The address of SV_PASSAGE0. -/
def SV_PASSAGE0 (b p : Nat) : Nat := 0x200000400000 + 0x104000 + 0x100000 * b + 0x20 * p
def SV_PASSAGE0_VALID (b p : Nat) : Fld := ⟨SV_PASSAGE0 b p, 63, 1⟩
def SV_PASSAGE0_ENTRY_SP (b p : Nat) : Fld := ⟨SV_PASSAGE0 b p, 62, 1⟩
def SV_PASSAGE0_ENTRY_COL (b p : Nat) : Fld := ⟨SV_PASSAGE0 b p, 56, 6⟩
def SV_PASSAGE0_ENTRY_ROW (b p : Nat) : Fld := ⟨SV_PASSAGE0 b p, 53, 3⟩
def SV_PASSAGE0_EXIT_SP (b p : Nat) : Fld := ⟨SV_PASSAGE0 b p, 52, 1⟩
def SV_PASSAGE0_EXIT_COL (b p : Nat) : Fld := ⟨SV_PASSAGE0 b p, 46, 6⟩
def SV_PASSAGE0_EXIT_ROW (b p : Nat) : Fld := ⟨SV_PASSAGE0 b p, 43, 3⟩
def SV_PASSAGE0_ROWDIR (b p : Nat) : Fld := ⟨SV_PASSAGE0 b p, 42, 1⟩
def SV_PASSAGE0_COLDIR (b p : Nat) : Fld := ⟨SV_PASSAGE0 b p, 41, 1⟩
def SV_PASSAGE0_MASTER (b p : Nat) : Fld := ⟨SV_PASSAGE0 b p, 0, 6⟩
/-- The address of SV_PASSAGE1. -/
def SV_PASSAGE1 (b p : Nat) : Nat := 0x200000400000 + 0x104008 + 0x100000 * b + 0x20 * p
def SV_PASSAGE1_SLOTS (b p : Nat) : Fld := ⟨SV_PASSAGE1 b p, 0, 64⟩
/-- The address of SV_PASSAGE2. -/
def SV_PASSAGE2 (b p : Nat) : Nat := 0x200000400000 + 0x104010 + 0x100000 * b + 0x20 * p
def SV_PASSAGE2_ASLOTS (b p : Nat) : Fld := ⟨SV_PASSAGE2 b p, 0, 64⟩
/-- The address of SV_PASSAGE3. -/
def SV_PASSAGE3 (b p : Nat) : Nat := 0x200000400000 + 0x104018 + 0x100000 * b + 0x20 * p
/-- The address of PORT_CTRL. -/
def PORT_CTRL (k : Nat) : Nat := 0x200002000000 + 0x400000 * k + 0x0
def PORT_CTRL_RETRAIN (k : Nat) : Fld := ⟨PORT_CTRL k, 6, 1⟩
def PORT_CTRL_MODE (k : Nat) : Fld := ⟨PORT_CTRL k, 4, 2⟩
def PORT_CTRL_LINK_EN (k : Nat) : Fld := ⟨PORT_CTRL k, 0, 4⟩
/-- The address of PORT_STATUS. -/
def PORT_STATUS (k : Nat) : Nat := 0x200002000000 + 0x400000 * k + 0x8
def PORT_STATUS_LINK_UP (k : Nat) : Fld := ⟨PORT_STATUS k, 8, 4⟩
def PORT_STATUS_LIGHT (k : Nat) : Fld := ⟨PORT_STATUS k, 6, 2⟩
def PORT_STATUS_SILENT (k : Nat) : Fld := ⟨PORT_STATUS k, 5, 1⟩
/-- The address of PORT_MAC. -/
def PORT_MAC (k : Nat) : Nat := 0x200002000000 + 0x400000 * k + 0x10
def PORT_MAC_MAC (k : Nat) : Fld := ⟨PORT_MAC k, 0, 48⟩
/-- The address of PORT_CLASS. -/
def PORT_CLASS (k : Nat) : Nat := 0x200002000000 + 0x400000 * k + 0x18
def PORT_CLASS_DSCP_A (k : Nat) : Fld := ⟨PORT_CLASS k, 54, 6⟩
def PORT_CLASS_DSCP_B (k : Nat) : Fld := ⟨PORT_CLASS k, 48, 6⟩
def PORT_CLASS_DSCP_C (k : Nat) : Fld := ⟨PORT_CLASS k, 42, 6⟩
def PORT_CLASS_VID (k : Nat) : Fld := ⟨PORT_CLASS k, 0, 12⟩
/-- The address of PORT_SFT. -/
def PORT_SFT (k : Nat) : Nat := 0x200002000000 + 0x400000 * k + 0x20
def PORT_SFT_UDP_PORT (k : Nat) : Fld := ⟨PORT_SFT k, 48, 16⟩
def PORT_SFT_RTO_C_US (k : Nat) : Fld := ⟨PORT_SFT k, 32, 16⟩
def PORT_SFT_RTO_B_US (k : Nat) : Fld := ⟨PORT_SFT k, 16, 16⟩
def PORT_SFT_RTO_A_US (k : Nat) : Fld := ⟨PORT_SFT k, 0, 16⟩
/-- The address of PORT_PFC. -/
def PORT_PFC (k : Nat) : Nat := 0x200002000000 + 0x400000 * k + 0x28
def PORT_PFC_P4 (k : Nat) : Fld := ⟨PORT_PFC k, 4, 4⟩
def PORT_PFC_P1 (k : Nat) : Fld := ⟨PORT_PFC k, 0, 4⟩
/-- The address of PORT_QBV. -/
def PORT_QBV (k l e : Nat) : Nat := 0x200002000000 + 0x400000 * k + 0x40 + 0x40 * l + 0x8 * e
def PORT_QBV_VALID (k l e : Nat) : Fld := ⟨PORT_QBV k l e, 63, 1⟩
def PORT_QBV_GATES (k l e : Nat) : Fld := ⟨PORT_QBV k l e, 32, 3⟩
def PORT_QBV_OFFSET_US (k l e : Nat) : Fld := ⟨PORT_QBV k l e, 16, 16⟩
def PORT_QBV_LEN_US (k l e : Nat) : Fld := ⟨PORT_QBV k l e, 0, 16⟩
/-- The address of PORT_RX_CNT. -/
def PORT_RX_CNT (k : Nat) : Nat := 0x200002000000 + 0x400000 * k + 0x200
def PORT_RX_CNT_DROP (k : Nat) : Fld := ⟨PORT_RX_CNT k, 32, 32⟩
def PORT_RX_CNT_FRAMES (k : Nat) : Fld := ⟨PORT_RX_CNT k, 0, 32⟩
/-- The address of PORT_TX_CNT. -/
def PORT_TX_CNT (k : Nat) : Nat := 0x200002000000 + 0x400000 * k + 0x208
def PORT_TX_CNT_CPL_DROP (k : Nat) : Fld := ⟨PORT_TX_CNT k, 48, 16⟩
def PORT_TX_CNT_FRAMES (k : Nat) : Fld := ⟨PORT_TX_CNT k, 0, 48⟩
/-- The address of PORT_FEC_CNT. -/
def PORT_FEC_CNT (k : Nat) : Nat := 0x200002000000 + 0x400000 * k + 0x210
def PORT_FEC_CNT_UNCORR (k : Nat) : Fld := ⟨PORT_FEC_CNT k, 32, 32⟩
def PORT_FEC_CNT_CORR (k : Nat) : Fld := ⟨PORT_FEC_CNT k, 0, 32⟩
/-- The address of PORT_SFT_CNT. -/
def PORT_SFT_CNT (k : Nat) : Nat := 0x200002000000 + 0x400000 * k + 0x218
def PORT_SFT_CNT_RETX (k : Nat) : Fld := ⟨PORT_SFT_CNT k, 32, 32⟩
def PORT_SFT_CNT_NACK (k : Nat) : Fld := ⟨PORT_SFT_CNT k, 0, 32⟩
/-- The address of PORT_SQ. -/
def PORT_SQ (k l q : Nat) : Nat := 0x200002000000 + 0x400000 * k + 0x1000 + 0x200 * l + 0x8 * q
def PORT_SQ_VALID (k l q : Nat) : Fld := ⟨PORT_SQ k l q, 63, 1⟩
def PORT_SQ_CHAMBER (k l q : Nat) : Fld := ⟨PORT_SQ k l q, 56, 4⟩
def PORT_SQ_DEPTH (k l q : Nat) : Fld := ⟨PORT_SQ k l q, 24, 9⟩
/-- The address of SFT_FLOW0. -/
def SFT_FLOW0 (k f : Nat) : Nat := 0x200002000000 + 0x400000 * k + 0x40000 + 0x20 * f
def SFT_FLOW0_VALID (k f : Nat) : Fld := ⟨SFT_FLOW0 k f, 63, 1⟩
def SFT_FLOW0_DIR (k f : Nat) : Fld := ⟨SFT_FLOW0 k f, 62, 1⟩
def SFT_FLOW0_CLS (k f : Nat) : Fld := ⟨SFT_FLOW0 k f, 60, 2⟩
def SFT_FLOW0_CHAMBER (k f : Nat) : Fld := ⟨SFT_FLOW0 k f, 56, 4⟩
def SFT_FLOW0_GEN (k f : Nat) : Fld := ⟨SFT_FLOW0 k f, 48, 8⟩
def SFT_FLOW0_PEER_FLOW (k f : Nat) : Fld := ⟨SFT_FLOW0 k f, 32, 16⟩
def SFT_FLOW0_PEER_GEN (k f : Nat) : Fld := ⟨SFT_FLOW0 k f, 24, 8⟩
def SFT_FLOW0_LINK (k f : Nat) : Fld := ⟨SFT_FLOW0 k f, 22, 2⟩
def SFT_FLOW0_RXQ (k f : Nat) : Fld := ⟨SFT_FLOW0 k f, 18, 4⟩
def SFT_FLOW0_STATE (k f : Nat) : Fld := ⟨SFT_FLOW0 k f, 16, 2⟩
def SFT_FLOW0_WINDOW (k f : Nat) : Fld := ⟨SFT_FLOW0 k f, 0, 11⟩
/-- The address of SFT_FLOW1. -/
def SFT_FLOW1 (k f : Nat) : Nat := 0x200002000000 + 0x400000 * k + 0x40008 + 0x20 * f
def SFT_FLOW1_BASE (k f : Nat) : Fld := ⟨SFT_FLOW1 k f, 0, 48⟩
/-- The address of SFT_FLOW2. -/
def SFT_FLOW2 (k f : Nat) : Nat := 0x200002000000 + 0x400000 * k + 0x40010 + 0x20 * f
def SFT_FLOW2_TARGET (k f : Nat) : Fld := ⟨SFT_FLOW2 k f, 0, 64⟩
/-- The address of SFT_FLOW3. -/
def SFT_FLOW3 (k f : Nat) : Nat := 0x200002000000 + 0x400000 * k + 0x40018 + 0x20 * f
def SFT_FLOW3_PEER_IP_LO (k f : Nat) : Fld := ⟨SFT_FLOW3 k f, 0, 64⟩
/-- The address of GAL_ID. -/
def GAL_ID (s : Nat) : Nat := 0x200010000000 + 0x100000 * s + 0x0
def GAL_ID_DIE (s : Nat) : Fld := ⟨GAL_ID s, 28, 4⟩
def GAL_ID_SITE (s : Nat) : Fld := ⟨GAL_ID s, 23, 5⟩
def GAL_ID_COL (s : Nat) : Fld := ⟨GAL_ID s, 17, 6⟩
def GAL_ID_ROW (s : Nat) : Fld := ⟨GAL_ID s, 14, 3⟩
def GAL_ID_LG (s : Nat) : Fld := ⟨GAL_ID s, 0, 9⟩
/-- The address of GAL_CTRL. -/
def GAL_CTRL (s : Nat) : Nat := 0x200010000000 + 0x100000 * s + 0x8
def GAL_CTRL_FENCE (s : Nat) : Fld := ⟨GAL_CTRL s, 3, 1⟩
def GAL_CTRL_RESET (s : Nat) : Fld := ⟨GAL_CTRL s, 2, 1⟩
def GAL_CTRL_ENABLE (s : Nat) : Fld := ⟨GAL_CTRL s, 0, 1⟩
/-- The address of GAL_STATUS. -/
def GAL_STATUS (s : Nat) : Nat := 0x200010000000 + 0x100000 * s + 0x10
def GAL_STATUS_GEN (s : Nat) : Fld := ⟨GAL_STATUS s, 40, 8⟩
def GAL_STATUS_STATE (s : Nat) : Fld := ⟨GAL_STATUS s, 28, 4⟩
def GAL_STATUS_CLK_STEP (s : Nat) : Fld := ⟨GAL_STATUS s, 26, 2⟩
def GAL_STATUS_VOLT_STEP (s : Nat) : Fld := ⟨GAL_STATUS s, 24, 2⟩
def GAL_STATUS_CORES_OK (s : Nat) : Fld := ⟨GAL_STATUS s, 18, 6⟩
def GAL_STATUS_SPARES_LEFT (s : Nat) : Fld := ⟨GAL_STATUS s, 16, 2⟩
/-- The address of GAL_CORE_FAULT. -/
def GAL_CORE_FAULT (s : Nat) : Nat := 0x200010000000 + 0x100000 * s + 0x18
def GAL_CORE_FAULT_FAULT (s : Nat) : Fld := ⟨GAL_CORE_FAULT s, 0, 34⟩
/-- The address of GAL_BOOT. -/
def GAL_BOOT (s : Nat) : Nat := 0x200010000000 + 0x100000 * s + 0x20
def GAL_BOOT_MISSING (s : Nat) : Fld := ⟨GAL_BOOT s, 48, 16⟩
def GAL_BOOT_IMAGE_ID (s : Nat) : Fld := ⟨GAL_BOOT s, 32, 16⟩
def GAL_BOOT_ATTEMPT (s : Nat) : Fld := ⟨GAL_BOOT s, 30, 2⟩
def GAL_BOOT_STATE (s : Nat) : Fld := ⟨GAL_BOOT s, 28, 2⟩
/-- The address of GAL_WDOG. -/
def GAL_WDOG (s : Nat) : Nat := 0x200010000000 + 0x100000 * s + 0x28
def GAL_WDOG_TRIPS (s : Nat) : Fld := ⟨GAL_WDOG s, 24, 24⟩
def GAL_WDOG_LIMIT_US (s : Nat) : Fld := ⟨GAL_WDOG s, 0, 24⟩
/-- The address of GAL_CORE_MAP. -/
def GAL_CORE_MAP (s m : Nat) : Nat := 0x200010000000 + 0x100000 * s + 0x40 + 0x8 * m
def GAL_CORE_MAP_VALID (s m k : Nat) : Fld := ⟨GAL_CORE_MAP s m, 7 + 8 * k, 1⟩
def GAL_CORE_MAP_PHYS (s m k : Nat) : Fld := ⟨GAL_CORE_MAP s m, 0 + 8 * k, 6⟩
/-- The address of CTXBLK. -/
def CTXBLK (s b : Nat) : Nat := 0x200010000000 + 0x100000 * s + 0x1000 + 0x8 * b
def CTXBLK_VALID (s b : Nat) : Fld := ⟨CTXBLK s b, 15, 1⟩
def CTXBLK_HANDLER (s b : Nat) : Fld := ⟨CTXBLK s b, 14, 1⟩
def CTXBLK_HIPRI (s b : Nat) : Fld := ⟨CTXBLK s b, 13, 1⟩
def CTXBLK_TASK (s b : Nat) : Fld := ⟨CTXBLK s b, 0, 6⟩
/-- The address of CORE_CTRL. -/
def CORE_CTRL (s n : Nat) : Nat := 0x200010000000 + 0x100000 * s + 0x2000 + 0x40 * n
def CORE_CTRL_ICINV (s n : Nat) : Fld := ⟨CORE_CTRL s n, 3, 1⟩
def CORE_CTRL_RESET (s n : Nat) : Fld := ⟨CORE_CTRL s n, 2, 1⟩
def CORE_CTRL_FENCE (s n : Nat) : Fld := ⟨CORE_CTRL s n, 1, 1⟩
/-- The address of CORE_STATUS. -/
def CORE_STATUS (s n : Nat) : Nat := 0x200010000000 + 0x100000 * s + 0x2008 + 0x40 * n
def CORE_STATUS_GEN (s n : Nat) : Fld := ⟨CORE_STATUS s n, 40, 8⟩
def CORE_STATUS_PHYS (s n : Nat) : Fld := ⟨CORE_STATUS s n, 32, 6⟩
def CORE_STATUS_READY (s n : Nat) : Fld := ⟨CORE_STATUS s n, 24, 8⟩
def CORE_STATUS_PARKED (s n : Nat) : Fld := ⟨CORE_STATUS s n, 16, 8⟩
def CORE_STATUS_ICINV_BUSY (s n : Nat) : Fld := ⟨CORE_STATUS s n, 2, 1⟩
def CORE_STATUS_FENCED (s n : Nat) : Fld := ⟨CORE_STATUS s n, 1, 1⟩
def CORE_STATUS_RESETTING (s n : Nat) : Fld := ⟨CORE_STATUS s n, 0, 1⟩
/-- The address of CORE_LIVE. -/
def CORE_LIVE (s n h : Nat) : Nat := 0x200010000000 + 0x100000 * s + 0x2010 + 0x40 * n + 0x8 * h
def CORE_LIVE_LIVE (s n h : Nat) : Fld := ⟨CORE_LIVE s n h, 0, 64⟩
/-- The address of CORE_ISSUE_CNT. -/
def CORE_ISSUE_CNT (s n : Nat) : Nat := 0x200010000000 + 0x100000 * s + 0x2020 + 0x40 * n
def CORE_ISSUE_CNT_COUNT (s n : Nat) : Fld := ⟨CORE_ISSUE_CNT s n, 0, 48⟩
/-- The address of CORE_DUAL_CNT. -/
def CORE_DUAL_CNT (s n : Nat) : Nat := 0x200010000000 + 0x100000 * s + 0x2028 + 0x40 * n
def CORE_DUAL_CNT_COUNT (s n : Nat) : Fld := ⟨CORE_DUAL_CNT s n, 0, 48⟩
/-- The address of CORE_ICMISS_CNT. -/
def CORE_ICMISS_CNT (s n : Nat) : Nat := 0x200010000000 + 0x100000 * s + 0x2030 + 0x40 * n
def CORE_ICMISS_CNT_COUNT (s n : Nat) : Fld := ⟨CORE_ICMISS_CNT s n, 0, 48⟩
/-- The address of MXE_CTRL. -/
def MXE_CTRL (s j : Nat) : Nat := 0x200010006000 + 0x100000 * s + 0x100 * j + 0x0
def MXE_CTRL_ROT (s j : Nat) : Fld := ⟨MXE_CTRL s j, 9, 7⟩
def MXE_CTRL_PATROL_EN (s j : Nat) : Fld := ⟨MXE_CTRL s j, 3, 1⟩
def MXE_CTRL_FENCE (s j : Nat) : Fld := ⟨MXE_CTRL s j, 2, 1⟩
def MXE_CTRL_ENABLE (s j : Nat) : Fld := ⟨MXE_CTRL s j, 0, 1⟩
/-- The address of MXE_STATUS. -/
def MXE_STATUS (s j : Nat) : Nat := 0x200010006000 + 0x100000 * s + 0x100 * j + 0x8
def MXE_STATUS_STATE (s j : Nat) : Fld := ⟨MXE_STATUS s j, 28, 4⟩
def MXE_STATUS_QDEPTH (s j : Nat) : Fld := ⟨MXE_STATUS s j, 25, 3⟩
def MXE_STATUS_PATROL (s j : Nat) : Fld := ⟨MXE_STATUS s j, 24, 1⟩
def MXE_STATUS_LAST_STATUS (s j : Nat) : Fld := ⟨MXE_STATUS s j, 12, 4⟩
def MXE_STATUS_LAST_TASK (s j : Nat) : Fld := ⟨MXE_STATUS s j, 6, 6⟩
/-- The address of MXE_COL_MAP. -/
def MXE_COL_MAP (s j : Nat) : Nat := 0x200010006000 + 0x100000 * s + 0x100 * j + 0x10
def MXE_COL_MAP_VALID1 (s j : Nat) : Fld := ⟨MXE_COL_MAP s j, 31, 1⟩
def MXE_COL_MAP_FUSED1 (s j : Nat) : Fld := ⟨MXE_COL_MAP s j, 30, 1⟩
def MXE_COL_MAP_COL1 (s j : Nat) : Fld := ⟨MXE_COL_MAP s j, 16, 7⟩
def MXE_COL_MAP_VALID0 (s j : Nat) : Fld := ⟨MXE_COL_MAP s j, 15, 1⟩
def MXE_COL_MAP_FUSED0 (s j : Nat) : Fld := ⟨MXE_COL_MAP s j, 14, 1⟩
def MXE_COL_MAP_COL0 (s j : Nat) : Fld := ⟨MXE_COL_MAP s j, 0, 7⟩
/-- The address of MXE_COL_FAULT. -/
def MXE_COL_FAULT (s j h : Nat) : Nat := 0x200010006000 + 0x100000 * s + 0x100 * j + 0x18 + 0x8 * h
def MXE_COL_FAULT_FAULT (s j h : Nat) : Fld := ⟨MXE_COL_FAULT s j h, 0, 64⟩
/-- The address of MXE_WIT_CTRL. -/
def MXE_WIT_CTRL (s j : Nat) : Nat := 0x200010006000 + 0x100000 * s + 0x100 * j + 0x30
def MXE_WIT_CTRL_HOLD_US (s j : Nat) : Fld := ⟨MXE_WIT_CTRL s j, 32, 16⟩
def MXE_WIT_CTRL_TOL_B16 (s j : Nat) : Fld := ⟨MXE_WIT_CTRL s j, 28, 4⟩
def MXE_WIT_CTRL_TOL_BSI (s j : Nat) : Fld := ⟨MXE_WIT_CTRL s j, 24, 4⟩
def MXE_WIT_CTRL_TOL_4 (s j : Nat) : Fld := ⟨MXE_WIT_CTRL s j, 20, 4⟩
def MXE_WIT_CTRL_TOL_8 (s j : Nat) : Fld := ⟨MXE_WIT_CTRL s j, 16, 4⟩
def MXE_WIT_CTRL_ENABLE (s j : Nat) : Fld := ⟨MXE_WIT_CTRL s j, 0, 1⟩
/-- The address of MXE_WIT_STATUS. -/
def MXE_WIT_STATUS (s j : Nat) : Nat := 0x200010006000 + 0x100000 * s + 0x100 * j + 0x38
def MXE_WIT_STATUS_HELD (s j : Nat) : Fld := ⟨MXE_WIT_STATUS s j, 63, 1⟩
def MXE_WIT_STATUS_ROWSUM_FAIL (s j : Nat) : Fld := ⟨MXE_WIT_STATUS s j, 62, 1⟩
def MXE_WIT_STATUS_COLSUM_FAIL (s j : Nat) : Fld := ⟨MXE_WIT_STATUS s j, 61, 1⟩
def MXE_WIT_STATUS_FIRST_ROW (s j : Nat) : Fld := ⟨MXE_WIT_STATUS s j, 48, 7⟩
def MXE_WIT_STATUS_FIRST_COL (s j : Nat) : Fld := ⟨MXE_WIT_STATUS s j, 40, 7⟩
def MXE_WIT_STATUS_TASK (s j : Nat) : Fld := ⟨MXE_WIT_STATUS s j, 32, 6⟩
def MXE_WIT_STATUS_DIFF (s j : Nat) : Fld := ⟨MXE_WIT_STATUS s j, 0, 32⟩
/-- The address of MXE_ARB. -/
def MXE_ARB (s j : Nat) : Nat := 0x200010006000 + 0x100000 * s + 0x100 * j + 0x40
def MXE_ARB_OUTCOME (s j : Nat) : Fld := ⟨MXE_ARB s j, 1, 2⟩
def MXE_ARB_RELEASE (s j : Nat) : Fld := ⟨MXE_ARB s j, 0, 1⟩
/-- The address of MXE_TILE_CNT. -/
def MXE_TILE_CNT (s j : Nat) : Nat := 0x200010006000 + 0x100000 * s + 0x100 * j + 0x48
def MXE_TILE_CNT_ERR (s j : Nat) : Fld := ⟨MXE_TILE_CNT s j, 32, 32⟩
def MXE_TILE_CNT_OK (s j : Nat) : Fld := ⟨MXE_TILE_CNT s j, 0, 32⟩
/-- The address of MXE_BUSY_CLKS. -/
def MXE_BUSY_CLKS (s j : Nat) : Nat := 0x200010006000 + 0x100000 * s + 0x100 * j + 0x50
def MXE_BUSY_CLKS_COUNT (s j : Nat) : Fld := ⟨MXE_BUSY_CLKS s j, 0, 48⟩
/-- The address of MXE_STALL_LOAD. -/
def MXE_STALL_LOAD (s j : Nat) : Nat := 0x200010006000 + 0x100000 * s + 0x100 * j + 0x58
def MXE_STALL_LOAD_COUNT (s j : Nat) : Fld := ⟨MXE_STALL_LOAD s j, 0, 48⟩
/-- The address of MXE_STALL_CUR. -/
def MXE_STALL_CUR (s j : Nat) : Nat := 0x200010006000 + 0x100000 * s + 0x100 * j + 0x60
def MXE_STALL_CUR_COUNT (s j : Nat) : Fld := ⟨MXE_STALL_CUR s j, 0, 48⟩
/-- The address of MXE_WIT_CNT. -/
def MXE_WIT_CNT (s j : Nat) : Nat := 0x200010006000 + 0x100000 * s + 0x100 * j + 0x68
def MXE_WIT_CNT_SKIP (s j : Nat) : Fld := ⟨MXE_WIT_CNT s j, 32, 32⟩
def MXE_WIT_CNT_FAIL (s j : Nat) : Fld := ⟨MXE_WIT_CNT s j, 0, 32⟩
/-- The address of CUR_CTRL. -/
def CUR_CTRL (s : Nat) : Nat := 0x200010007000 + 0x100000 * s + 0x0
def CUR_CTRL_PATROL_EN (s : Nat) : Fld := ⟨CUR_CTRL s, 1, 1⟩
def CUR_CTRL_ENABLE (s : Nat) : Fld := ⟨CUR_CTRL s, 0, 1⟩
/-- The address of CUR_STATUS. -/
def CUR_STATUS (s : Nat) : Nat := 0x200010007000 + 0x100000 * s + 0x8
def CUR_STATUS_STATE (s : Nat) : Fld := ⟨CUR_STATUS s, 28, 4⟩
def CUR_STATUS_GEN (s : Nat) : Fld := ⟨CUR_STATUS s, 24, 4⟩
def CUR_STATUS_PROG (s : Nat) : Fld := ⟨CUR_STATUS s, 20, 4⟩
def CUR_STATUS_RUNQ (s : Nat) : Fld := ⟨CUR_STATUS s, 17, 3⟩
def CUR_STATUS_ITEM_KIND (s : Nat) : Fld := ⟨CUR_STATUS s, 16, 1⟩
def CUR_STATUS_LOAD_ERR (s : Nat) : Fld := ⟨CUR_STATUS s, 12, 4⟩
def CUR_STATUS_RUN_SUSP (s : Nat) : Fld := ⟨CUR_STATUS s, 3, 1⟩
def CUR_STATUS_LOAD_PEND (s : Nat) : Fld := ⟨CUR_STATUS s, 2, 1⟩
def CUR_STATUS_LOAD_REJ (s : Nat) : Fld := ⟨CUR_STATUS s, 1, 1⟩
def CUR_STATUS_SKEW_HALT (s : Nat) : Fld := ⟨CUR_STATUS s, 0, 1⟩
/-- The address of CUR_LOAD. -/
def CUR_LOAD (s : Nat) : Nat := 0x200010007000 + 0x100000 * s + 0x10
def CUR_LOAD_OFS (s : Nat) : Fld := ⟨CUR_LOAD s, 0, 28⟩
/-- The address of CUR_SKEW_STALLS. -/
def CUR_SKEW_STALLS (s : Nat) : Nat := 0x200010007000 + 0x100000 * s + 0x18
def CUR_SKEW_STALLS_TOTAL (s : Nat) : Fld := ⟨CUR_SKEW_STALLS s, 32, 32⟩
def CUR_SKEW_STALLS_DRIP (s : Nat) : Fld := ⟨CUR_SKEW_STALLS s, 0, 11⟩
/-- The address of CUR_STALE_TOKENS. -/
def CUR_STALE_TOKENS (s : Nat) : Nat := 0x200010007000 + 0x100000 * s + 0x20
def CUR_STALE_TOKENS_SEEN (s : Nat) : Fld := ⟨CUR_STALE_TOKENS s, 63, 1⟩
def CUR_STALE_TOKENS_COUNT (s : Nat) : Fld := ⟨CUR_STALE_TOKENS s, 0, 32⟩
/-- The address of CUR_IO_STALLS. -/
def CUR_IO_STALLS (s : Nat) : Nat := 0x200010007000 + 0x100000 * s + 0x28
def CUR_IO_STALLS_COUNT (s : Nat) : Fld := ⟨CUR_IO_STALLS s, 0, 48⟩
/-- The address of CUR_ITEM_CNT. -/
def CUR_ITEM_CNT (s : Nat) : Nat := 0x200010007000 + 0x100000 * s + 0x30
def CUR_ITEM_CNT_RUNS (s : Nat) : Fld := ⟨CUR_ITEM_CNT s, 32, 32⟩
def CUR_ITEM_CNT_EPILOGUES (s : Nat) : Fld := ⟨CUR_ITEM_CNT s, 0, 32⟩
/-- The address of CUR_FIRE_CNT. -/
def CUR_FIRE_CNT (s : Nat) : Nat := 0x200010007000 + 0x100000 * s + 0x38
def CUR_FIRE_CNT_COUNT (s : Nat) : Fld := ⟨CUR_FIRE_CNT s, 0, 48⟩
/-- The address of TFE_CTRL. -/
def TFE_CTRL (s : Nat) : Nat := 0x200010008000 + 0x100000 * s + 0x0
def TFE_CTRL_ENABLE (s : Nat) : Fld := ⟨TFE_CTRL s, 0, 1⟩
/-- The address of TFE_STATUS. -/
def TFE_STATUS (s : Nat) : Nat := 0x200010008000 + 0x100000 * s + 0x8
def TFE_STATUS_STATE (s : Nat) : Fld := ⟨TFE_STATUS s, 28, 4⟩
def TFE_STATUS_QDEPTH (s : Nat) : Fld := ⟨TFE_STATUS s, 23, 5⟩
def TFE_STATUS_ACTIVE (s : Nat) : Fld := ⟨TFE_STATUS s, 20, 3⟩
def TFE_STATUS_LAST_STATUS (s : Nat) : Fld := ⟨TFE_STATUS s, 16, 4⟩
def TFE_STATUS_LAST_TASK (s : Nat) : Fld := ⟨TFE_STATUS s, 10, 6⟩
/-- The address of TFE_BYTES. -/
def TFE_BYTES (s : Nat) : Nat := 0x200010008000 + 0x100000 * s + 0x10
def TFE_BYTES_COUNT (s : Nat) : Fld := ⟨TFE_BYTES s, 0, 64⟩
/-- The address of TFE_STACK_REQ. -/
def TFE_STACK_REQ (s : Nat) : Nat := 0x200010008000 + 0x100000 * s + 0x18
def TFE_STACK_REQ_COUNT (s : Nat) : Fld := ⟨TFE_STACK_REQ s, 0, 48⟩
/-- The address of TFE_ERR_CNT. -/
def TFE_ERR_CNT (s : Nat) : Nat := 0x200010008000 + 0x100000 * s + 0x20
def TFE_ERR_CNT_COUNT (s : Nat) : Fld := ⟨TFE_ERR_CNT s, 0, 32⟩
/-- The address of TR_LADDER. -/
def TR_LADDER (s : Nat) : Nat := 0x200010009000 + 0x100000 * s + 0x0
def TR_LADDER_WATCH_LEFT (s : Nat) : Fld := ⟨TR_LADDER s, 16, 32⟩
def TR_LADDER_RUNG (s : Nat) : Fld := ⟨TR_LADDER s, 8, 3⟩
def TR_LADDER_TOP (s : Nat) : Fld := ⟨TR_LADDER s, 5, 3⟩
def TR_LADDER_SUSPECT (s : Nat) : Fld := ⟨TR_LADDER s, 4, 1⟩
def TR_LADDER_LAST (s : Nat) : Fld := ⟨TR_LADDER s, 0, 4⟩
/-- The address of TR_OFFENCE. -/
def TR_OFFENCE (s : Nat) : Nat := 0x200010009000 + 0x100000 * s + 0x8
def TR_OFFENCE_TOTAL (s : Nat) : Fld := ⟨TR_OFFENCE s, 32, 32⟩
def TR_OFFENCE_KINDS (s : Nat) : Fld := ⟨TR_OFFENCE s, 0, 16⟩
/-- The address of TR_ARB. -/
def TR_ARB (s : Nat) : Nat := 0x200010009000 + 0x100000 * s + 0x10
def TR_ARB_STAGE (s : Nat) : Fld := ⟨TR_ARB s, 61, 3⟩
def TR_ARB_RESULT (s : Nat) : Fld := ⟨TR_ARB s, 58, 3⟩
def TR_ARB_DIRTY (s : Nat) : Fld := ⟨TR_ARB s, 57, 1⟩
def TR_ARB_MXE (s : Nat) : Fld := ⟨TR_ARB s, 56, 1⟩
def TR_ARB_FAULT_COL0 (s : Nat) : Fld := ⟨TR_ARB s, 49, 7⟩
def TR_ARB_FAULT_COL1 (s : Nat) : Fld := ⟨TR_ARB s, 42, 7⟩
def TR_ARB_SPARE_COL (s : Nat) : Fld := ⟨TR_ARB s, 36, 6⟩
def TR_ARB_SPARE_ROW (s : Nat) : Fld := ⟨TR_ARB s, 33, 3⟩
/-- The address of TR_PATROL_CNT. -/
def TR_PATROL_CNT (s : Nat) : Nat := 0x200010009000 + 0x100000 * s + 0x18
def TR_PATROL_CNT_MXE_FAIL (s : Nat) : Fld := ⟨TR_PATROL_CNT s, 48, 16⟩
def TR_PATROL_CNT_CUR_FAIL (s : Nat) : Fld := ⟨TR_PATROL_CNT s, 32, 16⟩
def TR_PATROL_CNT_RUNS (s : Nat) : Fld := ⟨TR_PATROL_CNT s, 0, 32⟩
/-- The address of GM_GROUP_ILV. -/
def GM_GROUP_ILV (s : Nat) : Nat := 0x200010020000 + 0x100000 * s + 0x0
def GM_GROUP_ILV_ILV (s : Nat) : Fld := ⟨GM_GROUP_ILV s, 0, 8⟩
/-- The address of GM_PWR_OFF_REQ. -/
def GM_PWR_OFF_REQ (s : Nat) : Nat := 0x200010020000 + 0x100000 * s + 0x8
def GM_PWR_OFF_REQ_SLICES (s : Nat) : Fld := ⟨GM_PWR_OFF_REQ s, 0, 32⟩
/-- The address of GM_PWR_ON_REQ. -/
def GM_PWR_ON_REQ (s : Nat) : Nat := 0x200010020000 + 0x100000 * s + 0x10
def GM_PWR_ON_REQ_SLICES (s : Nat) : Fld := ⟨GM_PWR_ON_REQ s, 0, 32⟩
/-- The address of GM_SLICE_STATE. -/
def GM_SLICE_STATE (s m : Nat) : Nat := 0x200010020000 + 0x100000 * s + 0x18 + 0x8 * m
def GM_SLICE_STATE_STATE (s m k : Nat) : Fld := ⟨GM_SLICE_STATE s m, 0 + 4 * k, 4⟩
/-- The address of GM_CACHE_NEXT. -/
def GM_CACHE_NEXT (s : Nat) : Nat := 0x200010020000 + 0x100000 * s + 0x28
def GM_CACHE_NEXT_SLICES (s : Nat) : Fld := ⟨GM_CACHE_NEXT s, 0, 32⟩
/-- The address of GM_CACHE_STATUS. -/
def GM_CACHE_STATUS (s : Nat) : Nat := 0x200010020000 + 0x100000 * s + 0x30
def GM_CACHE_STATUS_PEND (s : Nat) : Fld := ⟨GM_CACHE_STATUS s, 32, 32⟩
def GM_CACHE_STATUS_CUR (s : Nat) : Fld := ⟨GM_CACHE_STATUS s, 0, 32⟩
/-- The address of GM_CACHE_CTRL. -/
def GM_CACHE_CTRL (s : Nat) : Nat := 0x200010020000 + 0x100000 * s + 0x38
def GM_CACHE_CTRL_INV_BUSY (s : Nat) : Fld := ⟨GM_CACHE_CTRL s, 1, 1⟩
def GM_CACHE_CTRL_INV (s : Nat) : Fld := ⟨GM_CACHE_CTRL s, 0, 1⟩
/-- The address of GM_SB_STATUS. -/
def GM_SB_STATUS (s : Nat) : Nat := 0x200010020000 + 0x100000 * s + 0x40
def GM_SB_STATUS_STALL_CLKS (s : Nat) : Fld := ⟨GM_SB_STATUS s, 32, 32⟩
def GM_SB_STATUS_HIGH_WATER (s : Nat) : Fld := ⟨GM_SB_STATUS s, 8, 8⟩
def GM_SB_STATUS_FULL (s : Nat) : Fld := ⟨GM_SB_STATUS s, 7, 1⟩
def GM_SB_STATUS_IN_USE (s : Nat) : Fld := ⟨GM_SB_STATUS s, 0, 7⟩
/-- The address of GM_SCRUB. -/
def GM_SCRUB (s : Nat) : Nat := 0x200010020000 + 0x100000 * s + 0x48
def GM_SCRUB_PROGRESS (s : Nat) : Fld := ⟨GM_SCRUB s, 16, 16⟩
def GM_SCRUB_VERIFY_FAIL (s : Nat) : Fld := ⟨GM_SCRUB s, 7, 1⟩
def GM_SCRUB_GO (s : Nat) : Fld := ⟨GM_SCRUB s, 2, 1⟩
def GM_SCRUB_STATE (s : Nat) : Fld := ⟨GM_SCRUB s, 0, 2⟩
/-- The address of GM_ERR_STATUS. -/
def GM_ERR_STATUS (s : Nat) : Nat := 0x200010020000 + 0x100000 * s + 0x50
def GM_ERR_STATUS_DRAIN_TIMEOUT (s : Nat) : Fld := ⟨GM_ERR_STATUS s, 2, 1⟩
def GM_ERR_STATUS_UE_SEEN (s : Nat) : Fld := ⟨GM_ERR_STATUS s, 1, 1⟩
def GM_ERR_STATUS_CE_SEEN (s : Nat) : Fld := ⟨GM_ERR_STATUS s, 0, 1⟩
/-- The address of GM_NACK_CNT. -/
def GM_NACK_CNT (s : Nat) : Nat := 0x200010020000 + 0x100000 * s + 0x58
def GM_NACK_CNT_SCRUB (s : Nat) : Fld := ⟨GM_NACK_CNT s, 32, 32⟩
def GM_NACK_CNT_CLOSED (s : Nat) : Fld := ⟨GM_NACK_CNT s, 0, 32⟩
/-- The address of GM_ECC_CNT. -/
def GM_ECC_CNT (s : Nat) : Nat := 0x200010020000 + 0x100000 * s + 0x60
def GM_ECC_CNT_UE (s : Nat) : Fld := ⟨GM_ECC_CNT s, 32, 32⟩
def GM_ECC_CNT_CE (s : Nat) : Fld := ⟨GM_ECC_CNT s, 0, 32⟩
/-- The address of GM_CACHE_CNT. -/
def GM_CACHE_CNT (s : Nat) : Nat := 0x200010020000 + 0x100000 * s + 0x68
def GM_CACHE_CNT_MISSES (s : Nat) : Fld := ⟨GM_CACHE_CNT s, 32, 32⟩
def GM_CACHE_CNT_HITS (s : Nat) : Fld := ⟨GM_CACHE_CNT s, 0, 32⟩
/-- The address of GM_SB_MOVE0. -/
def GM_SB_MOVE0 (s : Nat) : Nat := 0x200010020000 + 0x100000 * s + 0x70
def GM_SB_MOVE0_FROM (s : Nat) : Fld := ⟨GM_SB_MOVE0 s, 19, 19⟩
def GM_SB_MOVE0_LEN (s : Nat) : Fld := ⟨GM_SB_MOVE0 s, 0, 19⟩
/-- The address of GM_SB_MOVE1. -/
def GM_SB_MOVE1 (s : Nat) : Nat := 0x200010020000 + 0x100000 * s + 0x78
def GM_SB_MOVE1_GO (s : Nat) : Fld := ⟨GM_SB_MOVE1 s, 63, 1⟩
def GM_SB_MOVE1_OP (s : Nat) : Fld := ⟨GM_SB_MOVE1 s, 62, 1⟩
def GM_SB_MOVE1_TASK (s : Nat) : Fld := ⟨GM_SB_MOVE1 s, 56, 6⟩
def GM_SB_MOVE1_TO (s : Nat) : Fld := ⟨GM_SB_MOVE1 s, 0, 19⟩
/-- The address of GM_SB_ENTRY. -/
def GM_SB_ENTRY (s e : Nat) : Nat := 0x200010020000 + 0x100000 * s + 0x400 + 0x8 * e
def GM_SB_ENTRY_VALID (s e : Nat) : Fld := ⟨GM_SB_ENTRY s e, 63, 1⟩
def GM_SB_ENTRY_KIND (s e : Nat) : Fld := ⟨GM_SB_ENTRY s e, 62, 1⟩
def GM_SB_ENTRY_ERROR (s e : Nat) : Fld := ⟨GM_SB_ENTRY s e, 61, 1⟩
def GM_SB_ENTRY_SW (s e : Nat) : Fld := ⟨GM_SB_ENTRY s e, 60, 1⟩
def GM_SB_ENTRY_TASK (s e : Nat) : Fld := ⟨GM_SB_ENTRY s e, 54, 6⟩
def GM_SB_ENTRY_LEN (s e : Nat) : Fld := ⟨GM_SB_ENTRY s e, 32, 22⟩
def GM_SB_ENTRY_SUSP (s e : Nat) : Fld := ⟨GM_SB_ENTRY s e, 22, 1⟩
def GM_SB_ENTRY_BASE (s e : Nat) : Fld := ⟨GM_SB_ENTRY s e, 0, 22⟩
/-- The address of WIN_BASE. -/
def WIN_BASE (s n t w : Nat) : Nat := 0x200010020000 + 0x100000 * s + 0x4000 + 0x800 * n + 0x80 * t + 0x10 * w
def WIN_BASE_VALID (s n t w : Nat) : Fld := ⟨WIN_BASE s n t w, 63, 1⟩
def WIN_BASE_R (s n t w : Nat) : Fld := ⟨WIN_BASE s n t w, 62, 1⟩
def WIN_BASE_W (s n t w : Nat) : Fld := ⟨WIN_BASE s n t w, 61, 1⟩
def WIN_BASE_X (s n t w : Nat) : Fld := ⟨WIN_BASE s n t w, 60, 1⟩
def WIN_BASE_BASE (s n t w : Nat) : Fld := ⟨WIN_BASE s n t w, 0, 19⟩
/-- The address of WIN_LIM. -/
def WIN_LIM (s n t w : Nat) : Nat := 0x200010020000 + 0x100000 * s + 0x4008 + 0x800 * n + 0x80 * t + 0x10 * w
def WIN_LIM_SIZE (s n t w : Nat) : Fld := ⟨WIN_LIM s n t w, 0, 19⟩
/-- The address of MU_CTRL. -/
def MU_CTRL (s : Nat) : Nat := 0x200010040000 + 0x100000 * s + 0x0
def MU_CTRL_ENABLE (s : Nat) : Fld := ⟨MU_CTRL s, 0, 1⟩
/-- The address of MU_STATUS. -/
def MU_STATUS (s : Nat) : Nat := 0x200010040000 + 0x100000 * s + 0x8
def MU_STATUS_PRESENT (s : Nat) : Fld := ⟨MU_STATUS s, 16, 16⟩
def MU_STATUS_STUCK (s : Nat) : Fld := ⟨MU_STATUS s, 0, 11⟩
/-- The address of MSG_DEAD. -/
def MSG_DEAD (s : Nat) : Nat := 0x200010040000 + 0x100000 * s + 0x10
def MSG_DEAD_COUNT (s : Nat) : Fld := ⟨MSG_DEAD s, 0, 32⟩
/-- The address of MU_DROP_CNT. -/
def MU_DROP_CNT (s : Nat) : Nat := 0x200010040000 + 0x100000 * s + 0x18
def MU_DROP_CNT_LATE (s : Nat) : Fld := ⟨MU_DROP_CNT s, 32, 32⟩
def MU_DROP_CNT_VOID (s : Nat) : Fld := ⟨MU_DROP_CNT s, 0, 32⟩
/-- The address of MU_MSG_CNT. -/
def MU_MSG_CNT (s : Nat) : Nat := 0x200010040000 + 0x100000 * s + 0x20
def MU_MSG_CNT_RX (s : Nat) : Fld := ⟨MU_MSG_CNT s, 32, 32⟩
def MU_MSG_CNT_TX (s : Nat) : Fld := ⟨MU_MSG_CNT s, 0, 32⟩
/-- The address of MU_CQ0. -/
def MU_CQ0 (s t : Nat) : Nat := 0x200010040000 + 0x100000 * s + 0x100 + 0x10 * t
def MU_CQ0_VALID (s t : Nat) : Fld := ⟨MU_CQ0 s t, 63, 1⟩
def MU_CQ0_WIN (s t : Nat) : Fld := ⟨MU_CQ0 s t, 60, 3⟩
def MU_CQ0_OFS (s t : Nat) : Fld := ⟨MU_CQ0 s t, 28, 28⟩
def MU_CQ0_SIZE_LOG2 (s t : Nat) : Fld := ⟨MU_CQ0 s t, 24, 4⟩
/-- The address of MU_CQ1. -/
def MU_CQ1 (s t : Nat) : Nat := 0x200010040000 + 0x100000 * s + 0x108 + 0x10 * t
def MU_CQ1_RD (s t : Nat) : Fld := ⟨MU_CQ1 s t, 48, 16⟩
def MU_CQ1_WR (s t : Nat) : Fld := ⟨MU_CQ1 s t, 32, 16⟩
def MU_CQ1_RESV (s t : Nat) : Fld := ⟨MU_CQ1 s t, 16, 16⟩
/-- The address of MU_RING0. -/
def MU_RING0 (s r : Nat) : Nat := 0x200010040000 + 0x100000 * s + 0x10000 + 0x10 * r
def MU_RING0_VALID (s r : Nat) : Fld := ⟨MU_RING0 s r, 63, 1⟩
def MU_RING0_WIN (s r : Nat) : Fld := ⟨MU_RING0 s r, 60, 3⟩
def MU_RING0_OFS (s r : Nat) : Fld := ⟨MU_RING0 s r, 28, 28⟩
def MU_RING0_SIZE_LOG2 (s r : Nat) : Fld := ⟨MU_RING0 s r, 24, 4⟩
def MU_RING0_SRC_LG (s r : Nat) : Fld := ⟨MU_RING0 s r, 15, 9⟩
def MU_RING0_TASK (s r : Nat) : Fld := ⟨MU_RING0 s r, 8, 6⟩
def MU_RING0_GEN (s r : Nat) : Fld := ⟨MU_RING0 s r, 0, 8⟩
/-- The address of MU_RING1. -/
def MU_RING1 (s r : Nat) : Nat := 0x200010040000 + 0x100000 * s + 0x10008 + 0x10 * r
def MU_RING1_RD (s r : Nat) : Fld := ⟨MU_RING1 s r, 48, 16⟩
def MU_RING1_SEQ_NEXT (s r : Nat) : Fld := ⟨MU_RING1 s r, 32, 16⟩
def MU_RING1_PRESENT (s r : Nat) : Fld := ⟨MU_RING1 s r, 16, 16⟩
def MU_RING1_INHAND (s r : Nat) : Fld := ⟨MU_RING1 s r, 0, 16⟩
/-- The address of MU_LINE0. -/
def MU_LINE0 (s l : Nat) : Nat := 0x200010040000 + 0x100000 * s + 0x20000 + 0x20 * l
def MU_LINE0_VALID (s l : Nat) : Fld := ⟨MU_LINE0 s l, 63, 1⟩
def MU_LINE0_STATE (s l : Nat) : Fld := ⟨MU_LINE0 s l, 61, 2⟩
def MU_LINE0_TASK (s l : Nat) : Fld := ⟨MU_LINE0 s l, 55, 6⟩
def MU_LINE0_LO (s l : Nat) : Fld := ⟨MU_LINE0 s l, 34, 21⟩
def MU_LINE0_HI (s l : Nat) : Fld := ⟨MU_LINE0 s l, 13, 21⟩
/-- The address of MU_LINE1. -/
def MU_LINE1 (s l : Nat) : Nat := 0x200010040000 + 0x100000 * s + 0x20008 + 0x20 * l
def MU_LINE1_RING (s l : Nat) : Fld := ⟨MU_LINE1 s l, 54, 10⟩
def MU_LINE1_SIZE_LOG2 (s l : Nat) : Fld := ⟨MU_LINE1 s l, 50, 4⟩
def MU_LINE1_RGEN (s l : Nat) : Fld := ⟨MU_LINE1 s l, 42, 8⟩
def MU_LINE1_LGEN (s l : Nat) : Fld := ⟨MU_LINE1 s l, 34, 8⟩
def MU_LINE1_ERR_TAG (s l : Nat) : Fld := ⟨MU_LINE1 s l, 18, 16⟩
/-- The address of MU_LINE2. -/
def MU_LINE2 (s l : Nat) : Nat := 0x200010040000 + 0x100000 * s + 0x20010 + 0x20 * l
def MU_LINE2_WR (s l : Nat) : Fld := ⟨MU_LINE2 s l, 48, 16⟩
def MU_LINE2_RDK (s l : Nat) : Fld := ⟨MU_LINE2 s l, 32, 16⟩
def MU_LINE2_SEQ (s l : Nat) : Fld := ⟨MU_LINE2 s l, 16, 16⟩
def MU_LINE2_SEQK (s l : Nat) : Fld := ⟨MU_LINE2 s l, 0, 16⟩
/-- The address of MU_LINE3. -/
def MU_LINE3 (s l : Nat) : Nat := 0x200010040000 + 0x100000 * s + 0x20018 + 0x20 * l
def MU_LINE3_INFLIGHT (s l : Nat) : Fld := ⟨MU_LINE3 s l, 48, 16⟩
/-- The address of MSTR_BUDGET0. -/
def MSTR_BUDGET0 (mb i : Nat) : Nat := mb + 0x100 + 0x40 * i
def MSTR_BUDGET0_STACK_4K (mb i : Nat) : Fld := ⟨MSTR_BUDGET0 mb i, 32, 32⟩
def MSTR_BUDGET0_CYCLES (mb i : Nat) : Fld := ⟨MSTR_BUDGET0 mb i, 0, 32⟩
/-- The address of MSTR_BUDGET1. -/
def MSTR_BUDGET1 (mb i : Nat) : Nat := mb + 0x108 + 0x40 * i
def MSTR_BUDGET1_CLASSA_SLOTS (mb i : Nat) : Fld := ⟨MSTR_BUDGET1 mb i, 32, 32⟩
def MSTR_BUDGET1_PASSAGE_SLOTS (mb i : Nat) : Fld := ⟨MSTR_BUDGET1 mb i, 0, 32⟩
/-- The address of MSTR_USED0. -/
def MSTR_USED0 (mb i : Nat) : Nat := mb + 0x110 + 0x40 * i
def MSTR_USED0_STACK_64 (mb i : Nat) : Fld := ⟨MSTR_USED0 mb i, 32, 32⟩
def MSTR_USED0_CYCLES (mb i : Nat) : Fld := ⟨MSTR_USED0 mb i, 0, 32⟩
/-- The address of MSTR_USED1. -/
def MSTR_USED1 (mb i : Nat) : Nat := mb + 0x118 + 0x40 * i
def MSTR_USED1_CLASSA_SLOTS (mb i : Nat) : Fld := ⟨MSTR_USED1 mb i, 32, 32⟩
def MSTR_USED1_PASSAGE_SLOTS (mb i : Nat) : Fld := ⟨MSTR_USED1 mb i, 0, 32⟩
/-- The address of MSTR_CTRL. -/
def MSTR_CTRL (mb i : Nat) : Nat := mb + 0x120 + 0x40 * i
def MSTR_CTRL_THAW (mb i : Nat) : Fld := ⟨MSTR_CTRL mb i, 5, 1⟩
def MSTR_CTRL_FREEZE (mb i : Nat) : Fld := ⟨MSTR_CTRL mb i, 4, 1⟩
def MSTR_CTRL_CONT (mb i : Nat) : Fld := ⟨MSTR_CTRL mb i, 3, 1⟩
def MSTR_CTRL_AUTO_THAW (mb i : Nat) : Fld := ⟨MSTR_CTRL mb i, 2, 1⟩
def MSTR_CTRL_VALID (mb i : Nat) : Fld := ⟨MSTR_CTRL mb i, 0, 1⟩
/-- The address of MSTR_STATUS. -/
def MSTR_STATUS (mb i : Nat) : Nat := mb + 0x128 + 0x40 * i
def MSTR_STATUS_DROPS (mb i : Nat) : Fld := ⟨MSTR_STATUS mb i, 32, 32⟩
def MSTR_STATUS_GEN (mb i : Nat) : Fld := ⟨MSTR_STATUS mb i, 8, 8⟩
def MSTR_STATUS_CAUSE (mb i : Nat) : Fld := ⟨MSTR_STATUS mb i, 4, 4⟩
def MSTR_STATUS_FREEZE_RUN (mb i : Nat) : Fld := ⟨MSTR_STATUS mb i, 2, 2⟩
def MSTR_STATUS_SUSPECT (mb i : Nat) : Fld := ⟨MSTR_STATUS mb i, 1, 1⟩
def MSTR_STATUS_FROZEN (mb i : Nat) : Fld := ⟨MSTR_STATUS mb i, 0, 1⟩
/-- The address of RTR_CTRL. -/
def RTR_CTRL (rb : Nat) : Nat := rb + 0x0
def RTR_CTRL_BYPASS (rb : Nat) : Fld := ⟨RTR_CTRL rb, 0, 1⟩
/-- The address of RTR_STATUS. -/
def RTR_STATUS (rb : Nat) : Nat := rb + 0x8
def RTR_STATUS_STATE (rb : Nat) : Fld := ⟨RTR_STATUS rb, 30, 2⟩
def RTR_STATUS_KIND (rb : Nat) : Fld := ⟨RTR_STATUS rb, 28, 2⟩
def RTR_STATUS_EPOCH (rb : Nat) : Fld := ⟨RTR_STATUS rb, 27, 1⟩
/-- The address of RTR_DROP_CNT. -/
def RTR_DROP_CNT (rb : Nat) : Nat := rb + 0x10
def RTR_DROP_CNT_OVERRUN (rb : Nat) : Fld := ⟨RTR_DROP_CNT rb, 32, 32⟩
def RTR_DROP_CNT_GEN (rb : Nat) : Fld := ⟨RTR_DROP_CNT rb, 0, 32⟩
/-- The address of RTR_RETRY_CNT. -/
def RTR_RETRY_CNT (rb : Nat) : Nat := rb + 0x18
def RTR_RETRY_CNT_ROW_E (rb : Nat) : Fld := ⟨RTR_RETRY_CNT rb, 48, 16⟩
def RTR_RETRY_CNT_ROW_W (rb : Nat) : Fld := ⟨RTR_RETRY_CNT rb, 32, 16⟩
def RTR_RETRY_CNT_COL_S (rb : Nat) : Fld := ⟨RTR_RETRY_CNT rb, 16, 16⟩
def RTR_RETRY_CNT_COL_N (rb : Nat) : Fld := ⟨RTR_RETRY_CNT rb, 0, 16⟩
/-- The address of RTR_CLASSA_CNT. -/
def RTR_CLASSA_CNT (rb : Nat) : Nat := rb + 0x20
def RTR_CLASSA_CNT_DEMOTED (rb : Nat) : Fld := ⟨RTR_CLASSA_CNT rb, 32, 32⟩
def RTR_CLASSA_CNT_AFLITS (rb : Nat) : Fld := ⟨RTR_CLASSA_CNT rb, 0, 32⟩
/-- The address of RTR_FLIT_CNT. -/
def RTR_FLIT_CNT (rb : Nat) : Nat := rb + 0x28
def RTR_FLIT_CNT_EJECT (rb : Nat) : Fld := ⟨RTR_FLIT_CNT rb, 32, 32⟩
def RTR_FLIT_CNT_INJECT (rb : Nat) : Fld := ⟨RTR_FLIT_CNT rb, 0, 32⟩

end R

end Sys2Proof.Machine
end

