-- ==== Sys2Proof/Machine/Bits.lean ====
section
/-! DEFINITION. Bit fields, sign extension, byte order, CRC-32 and the one sparse map in canonical form that holds
registers, memory and every numbered group of units. -/

namespace Sys2Proof.Machine

/-- Field of `w` bits of a word, from bit `lo` up. -/
def getBits (v : Word) (lo w : Nat) : Nat := (v.toNat >>> lo) % 2 ^ w

/-- The word with the field of `w` bits from bit `lo` up replaced by the low `w` bits of `n`. -/
def putBits (v : Word) (lo w n : Nat) : Word :=
  (v &&& ~~~(BitVec.ofNat 64 ((2 ^ w - 1) <<< lo))) ||| BitVec.ofNat 64 ((n % 2 ^ w) <<< lo)

/-- Bit `i` of a natural number as 0 or 1. -/
def bitN (n i : Nat) : Nat := (n >>> i) % 2

/-- Field [hi:lo] of a natural number. -/
def fldN (n hi lo : Nat) : Nat := (n >>> lo) % 2 ^ (hi - lo + 1)

/-- `n` with bit `i` set. -/
def setBitN (n i : Nat) : Nat := n ||| (1 <<< i)

/-- `n` with bit `i` cleared. -/
def clrBitN (n i : Nat) : Nat := if bitN n i = 1 then n - (1 <<< i) else n

/-- The low `w` bits of `n` read as two's complement. -/
def sextN (w n : Nat) : Int :=
  if n % 2 ^ w < 2 ^ (w - 1) then (n % 2 ^ w : Nat) else (n % 2 ^ w : Nat) - (2 ^ w : Nat)

/-- The low `w` bits of an integer, as a natural number. -/
def toBits (w : Nat) (i : Int) : Nat := (i % (2 ^ w : Nat)).toNat

/-- 1 for true and 0 for false. -/
def b2n (b : Bool) : Nat := if b then 1 else 0

/-- Saturating count: `n + k`, at most `2^w - 1` (R6's counts "saturate"). -/
def satAdd (w n k : Nat) : Nat := min (n + k) (2 ^ w - 1)

/-- The `k` low bytes of `n`, least significant first (R5). -/
def leBytes : Nat → Nat → List Byte
  | 0, _ => []
  | k + 1, n => BitVec.ofNat 8 n :: leBytes k (n / 256)

/-- The number a little-endian byte list spells (R5). -/
def leNat : List Byte → Nat
  | [] => 0
  | b :: bs => b.toNat + 256 * leNat bs

/-- The number a big-endian byte list spells (network order, R5). -/
def beNat (bs : List Byte) : Nat := bs.foldl (fun a b => a * 256 + b.toNat) 0

/-- Bytes `[lo, lo+n)` of a byte list as a little-endian number. -/
def leAt (bs : List Byte) (lo n : Nat) : Nat := leNat ((bs.drop lo).take n)

/-- One bit-step of the reflected CRC-32 of IEEE 802.3. -/
def crcBit (c : Nat) : Nat := if c % 2 = 1 then (c / 2) ^^^ 0xEDB88320 else c / 2

/-- One byte of the reflected CRC-32 of IEEE 802.3. -/
def crcByte (c : Nat) (b : Byte) : Nat :=
  crcBit (crcBit (crcBit (crcBit (crcBit (crcBit (crcBit (crcBit (c ^^^ b.toNat))))))))

/-- CRC-32 with the IEEE 802.3 polynomial over a byte list. -/
def crc32 (bs : List Byte) : Nat := (bs.foldl crcByte 0xFFFFFFFF) ^^^ 0xFFFFFFFF

/-- A sparse map from numbers to values: keys strictly rising, and no entry that holds the value an absent key has. -/
abbrev SMap (α : Type) := List (Nat × α)

namespace SMap

/-- The entry of a key, if listed. -/
def find? {α : Type} : SMap α → Nat → Option α
  | [], _ => none
  | (j, v) :: m, k => if j = k then some v else find? m k

/-- The value of a key, `d` where it is not listed. -/
def get {α : Type} (m : SMap α) (k : Nat) (d : α) : α := (find? m k).getD d

/-- The map without a key, however often a list that is not canonical holds it. -/
def erase {α : Type} : SMap α → Nat → SMap α
  | [], _ => []
  | (j, v) :: m, k => if j = k then erase m k else (j, v) :: erase m k

/-- The map with a key listed with a value, in key order. -/
def ins {α : Type} : SMap α → Nat → α → SMap α
  | [], k, v => [(k, v)]
  | (j, w) :: m, k, v =>
    if k < j then (k, v) :: (j, w) :: m
    else if k = j then (k, v) :: m
    else (j, w) :: ins m k v

/-- The map with a key set to `v`, where an absent key has the value `d`: canonical form is kept. -/
def put {α : Type} [DecidableEq α] (m : SMap α) (k : Nat) (v d : α) : SMap α :=
  if v = d then erase m k else ins m k v

/-- Every key of the map is above `k`. -/
def above {α : Type} (k : Nat) : SMap α → Bool
  | [] => true
  | (j, _) :: m => decide (k < j) && above k m

/-- Canonical form: keys strictly rising and no entry equal to what an absent key reads as. -/
def wf {α : Type} [DecidableEq α] (d : Nat → α) : SMap α → Bool
  | [] => true
  | (j, v) :: m => above j m && decide (v ≠ d j) && wf d m

end SMap

end Sys2Proof.Machine
end

