-- ==== Sys2Proof/Machine/State.lean ====
section
/-! DEFINITION. The state of the module as plain data, the faults, the refusals, and the state after reset. Registers
that the manual numbers live in one register file, keyed by module address; what a unit holds beside its registers
lives in a record of its own, keyed by the unit's number. -/

namespace Sys2Proof.Machine

/-- No command of this block stops in a fault: where the manual names a fault, it is the task that ends (R173), and the
block goes on. The one constructor is for a command whose operands are outside the ranges of the opcode table's row
(Sys2Proof.Instr.wf); it is raised by no meaning and is safe. -/
inductive Fault where
  | operandOutOfRange
deriving DecidableEq, Repr

/-- The block refuses a command only by name. -/
inductive Refusal where
  /-- A command that has no meaning in the model yet. Raised by Dispatch only; safe. -/
  | notModelled (mnemonic : String)
deriving DecidableEq, Repr

/-! ## Chapter 1: module states -/

/-- The six module states (Table 1.4). -/
inductive ModState where
  | off | standby | boot | normal | quiesce | refuge
deriving DecidableEq, Repr

/-- The number of a state in records and registers (Table 16.7). -/
def ModState.code : ModState → Nat
  | .off => 0
  | .standby => 1
  | .boot => 2
  | .normal => 3
  | .quiesce => 4
  | .refuge => 5

/-! ## Chapter 2: the drip -/

/-- A master's budgets and control bits in force in this drip (R31). -/
structure Budget where
  cycles : Nat
  stack4k : Nat
  passage : Nat
  classA : Nat
  cont : Bool
  autoThaw : Bool
  valid : Bool
  /-- Froze in this drip (Table 2.8, the row of Close). -/
  frozeNow : Bool
  /-- A unit is held at issue by the governor's scaling in this drip (R440). -/
  govHold : Bool
  /-- Components that DRIP.BUDGET has lowered below the budget in force, one bit each: what it wrote is in force and is not
  scaled again (R205, R439). -/
  lowered : Nat
deriving DecidableEq, Repr

def Budget.none : Budget := ⟨0, 0, 0, 0, false, false, false, false, false, 0⟩

/-- What the drip sequencer holds beside the DRIP block. -/
structure DripSt where
  /-- Time-base instant (ns) that counts as T = 0; none before the first enable of the cold boot (R20, R481). -/
  epoch : Option Int
  /-- The full offset of R20 and R21. -/
  offset : Int
  /-- Instant of the current drip's Open and of its Close, in ns of the local clock. -/
  openAt : Nat
  closeAt : Nat
  /-- A drip is open (the drip has been enabled and an Open has happened since). -/
  running : Bool
  /-- A drip has been opened since the cold boot. -/
  opened : Bool
  /-- Drip that an armed period change lengthens (R21). -/
  armed : Option Nat
  /-- New period (µs) of a committed change, while the lengthened drip runs. -/
  committed : Option Nat
  /-- RESYNC has been written; the next boundary steps (R27). The drip in progress is being lengthened by a step. -/
  stepReq : Bool
  stepping : Bool
  /-- The measured offset of schedule from time base, ns (R26), and that the selected source has been measured since its
  selection. -/
  offsetNs : Int
  located : Bool
  /-- The selected source is lost, since when, and its holdover has timed out (R28). -/
  lostAt : Option Nat
  timedOut : Bool
  /-- Consecutive PPS_IN edges more than 1 ms off (Table 22.7). -/
  ppsBad : Nat
  /-- Drip in which a higher event was acted on, and its precedence (R17). -/
  lastEvent : Option (Nat × Nat)
deriving DecidableEq, Repr

def DripSt.init : DripSt := ⟨none, 0, 0, 0, false, false, none, none, false, false, 0, false, none, false, 0, none⟩

/-! ## Chapters 3, 8 and 9: contexts, cores, tasks -/

/-- Why a context is STALLED. -/
inductive Stall where
  /-- The instruction cache missed the line (R50). -/
  | icache (line : Nat)
  /-- A narrow module-form load waits for its data: destination, bytes, signed, module address, survey epoch at injection
  (R165, R260). -/
  | load (d bytes : Nat) (signed : Bool) (addr epoch : Nat)
  /-- The issue waits: own accesses, scoreboard, queue, credit or entries (Table 9.9 steps 3 and 7, R71). -/
  | issue
  /-- Held at issue by Seal (Table 9.9 step 5, R23). -/
  | seal
  /-- Leriq-M: waits for Bedrock's answer to the call in `d` (R210). -/
  | bcall (d : Nat)
deriving DecidableEq, Repr

/-- The states of Table 3.5; FROZEN is the FROZEN bit of the task's master entry, held over any of these. A Leriq-M
context that took a fault is `stopped`. -/
inductive CtxState where
  | free
  | ready
  | stalled (why : Stall)
  | parkedWait (wake d : Nat)
  | parkedDispatch
  | stopped
  /-- Leriq-M: parked by WFE until an event of the mask occurs; `d` receives the events (R210). -/
  | parkedEvent (mask d : Nat)
deriving DecidableEq, Repr

/-- One hardware thread context (Table 3.6) and what the core keeps about it. -/
structure Ctx where
  st : CtxState
  s : SMap Word
  v : SMap Vec
  p : SMap (BitVec 16)
  pc : Nat
  flags : Nat
  rnd : Nat
  rng : Nat
  win : Nat
  priv : Nat
  /-- Marked to take a SCOREBOARD fault at its next selection (R74). -/
  sbFault : Bool
  /-- Module-form stores issued and not yet acknowledged (R167), oldest first: core generation, module address, bytes,
  value. They are performed when they are acknowledged. -/
  stores : List (Nat × Nat × Nat × Nat)
  /-- The record its handler is handling: ring and slot (R203). -/
  inHand : Option (Nat × Nat)
  /-- The Open of its wake drip fell while it was frozen: that Open's number. -/
  wokeAt : Option Nat
  /-- Scoreboard entries that its stalled issue waits on, bit e = entry e (R74). -/
  waitsOn : Nat
deriving DecidableEq, Repr

def Ctx.init : Ctx := ⟨.free, [], [], [], 0, 0, 0, 0, 0, 0, false, [], none, none, 0⟩

/-- The classes of an instruction as its pairing sees them (Table 3.3): B and X never pair. -/
inductive Lane where
  | ai | m | v | alone
deriving DecidableEq, Repr

/-- What pairing asks of an instruction (R45): its class and the registers it reads and writes. Registers: `s`n is n, `v`n
16 + n, `p`n 24 + n, and special register n of Table 9.3 is 32 + n. -/
structure Use where
  lane : Lane
  reads : List Nat
  writes : List Nat
deriving DecidableEq, Repr

/-- A group of one instruction: its context (thread key), the program counter behind it, the instant of its issue, and what
the instruction uses. -/
structure Group where
  ctx : Nat
  pc : Nat
  at_ : Nat
  use : Use
deriving DecidableEq, Repr

/-- What a logical core holds beside its registers: cached lines (line number = offset / 512, and the bytes that its fill
read), fills in flight, whether
an invalidation is in progress, the instant of its last reset and a reset held (R51, R379). -/
structure CoreSt where
  lines : List (Nat × List Byte)
  fills : List Nat
  lastReset : Option Nat
  held : Bool
  /-- Loads discarded by a core reset whose answers are still to come (R385). -/
  stale : Nat
  /-- The group that issued last, where it holds one instruction that a second may still join in its clock (R43, R45). -/
  group : Option Group
deriving DecidableEq, Repr

def CoreSt.init : CoreSt := ⟨[], [], none, false, 0, none⟩

/-- What the gallery runtime keeps of a resident task (R160 to R162). -/
structure TaskSt where
  hcount : Nat
  hwin : Nat
  hofs : Nat
  entry : Nat
  seed : Nat
  rnd : Nat
  priv : Nat
  /-- CONT requested by DRIP.BUDGET for this drip (R205). -/
  contNow : Bool
deriving DecidableEq, Repr

def TaskSt.init : TaskSt := ⟨0, 0, 0, 0, 0, 0, 0, false⟩

/-- A command packet a runtime has been handed, and the queue and slot it came by (R175). -/
structure Cmd where
  raw : List Byte
  /-- 0-63 host queue; 64 + n: network queue n. -/
  queue : Nat
  chamber : Nat
deriving DecidableEq, Repr

/-- A program load accepted by a runtime, waiting for drip START - 1 (R179). -/
structure Load where
  cmd : Cmd
  start : Nat
  endMask : Nat
  image : Nat
  fit : Nat
  entries : List Nat
  /-- Blocks assigned: block, 32 * entry + window slot. Bases of windows: 8 * entry + window, base / 512. -/
  blocks : List (Nat × Nat)
  bases : List (Nat × Nat)
  /-- The task records of `entries`, and their indices in the image. -/
  recs : List (List Byte)
  idxs : List Nat
  /-- Installed in drip START - 1. -/
  inst : Bool
deriving DecidableEq, Repr

/-- A parameter-update command in progress (chapter 14): its record, the record's KIND, the phase (0 staging, 1 waiting
for the Open of AT, 2 copying), AT, rows updated and skipped, whether the source CRC passed, claims held. -/
structure Upd where
  cmd : Cmd
  recAt : Nat
  kind : Nat
  phase : Nat
  opensAt : Nat
  updated : Nat
  skipped : Nat
  crcOk : Bool
  claims : List Nat
deriving DecidableEq, Repr

/-- What outlives a runtime: the address of its commit directory, which Flowstone passes it (R311); it has restarted and
has not read its directory yet; its gallery's memory has been scrubbed since it last did (R314). -/
structure DirSt where
  base : Nat
  restart : Bool
  scrubbed : Bool
deriving DecidableEq, Repr

def DirSt.init : DirSt := ⟨0, false, false⟩

/-- What one unit draws: cycles, 64 B units of stack bytes, passage flits, Class A units. -/
structure Charge where
  cycles : Nat
  stack : Nat
  passage : Nat
  classA : Nat
deriving DecidableEq, Repr

def Charge.none : Charge := ⟨0, 0, 0, 0⟩

/-- What a gallery's runtime holds: parameter-update commands in progress too; commands handed to it, loads accepted, drips at which it ends tasks. -/
structure RtSt where
  cmds : List Cmd
  loads : List Load
  ends : List (Nat × Nat × Cmd)
  upds : List Upd
  /-- Image address and record index of each task started, by master entry (R425). -/
  kept : SMap (Nat × Nat)
deriving DecidableEq, Repr

def RtSt.init : RtSt := ⟨[], [], [], [], []⟩

/-! ## Chapter 4: gallery memory -/

/-- A claim's bookkeeping beside its GM_SB_ENTRY: serial, owner context (thread key), and the operation it serves. -/
structure ClaimSt where
  serial : Nat
  op : Nat
deriving DecidableEq, Repr

/-- What a gallery's memory holds beside its registers. -/
structure GmSt where
  /-- Slices whose on request, and whose off request, waits for OFF, and for ON (Table 4.3), bit k = slice k. -/
  heldOn : Nat
  heldOff : Nat
  /-- Requests that arrived during a hand-over, in order: on, and slices (R78). -/
  held : List (Bool × Nat)
  /-- Slice: instant its DRAIN began. -/
  drainAt : SMap Nat
  claims : SMap ClaimSt
  /-- Cached stack lines: line address, and the bytes of the line. -/
  cache : List (Nat × List Byte)
  /-- Identity of the gallery's next operation (tile, descriptor or run): claims name the operation they serve. -/
  nextOp : Nat
deriving DecidableEq, Repr

def GmSt.init : GmSt := ⟨0, 0, [], [], [], [], 1⟩

/-! ## Chapters 6, 7 and 10: the matrix engines and the curtain -/

/-- A window range of a descriptor, translated to a gallery-local offset at issue (R67), with its stride. -/
structure Rng where
  base : Nat
  stride : Nat
deriving DecidableEq, Repr

/-- A tile as issued (Table 10.1): formats, dataflow, bounds, translated ranges, masks, arguments. -/
structure Tile where
  op : Nat
  task : Nat
  ctx : Nat
  coreGen : Nat
  cls : Nat
  either : Bool
  fmtA : Nat
  fmtW : Nat
  fmtD : Nat
  os : Bool
  rnd : Nat
  seed : Nat
  sparse : Bool
  acc : Bool
  pad : Bool
  epi : Nat
  m : Nat
  n : Nat
  k : Nat
  aR : Rng
  wR : Rng
  dR : Rng
  asc : Nat
  wsc : Nat
  metaBase : Nat
  start : Nat
  dsc : Nat
  rowMask : Nat
  colMask : Nat
  arg0 : Nat
  arg1 : Nat
deriving DecidableEq, Repr

/-- A tile past its start (Table 6.4): the curtain generation it captured, the flags gathered so far, whether it read a
poisoned word, whether the curtain has done its writes, and the instant it entered HELD. -/
structure RunTile where
  t : Tile
  gen : Nat
  flags : Nat
  poison : Bool
  written : Bool
  since : Nat
  /-- Its source ranges (R405). -/
  srcs : List (Nat × Nat)
  /-- MXE_CTRL.ROT and MXE_COL_MAP as they stood at its start (R106). -/
  rot : Nat
  colMap : Word
  /-- Its checksums, as the array and the witnesses form them (R125). -/
  sums : List WitSum
deriving DecidableEq, Repr

/-- The activation block that an MXE keeps (R114): its range, the range of its MX scales, format, M, K, and its bytes. -/
structure ActBuf where
  base : Nat
  len : Nat
  scBase : Nat
  scLen : Nat
  fmt : Nat
  m : Nat
  k : Nat
  bytes : List Byte
  scBytes : List Byte
deriving DecidableEq, Repr

/-- What one MXE holds beside its registers (Table 6.4). -/
structure MxeSt where
  /-- Queued tiles, oldest first. -/
  queue : List Tile
  /-- RUNNING tiles, oldest first: the array accumulates one while the one before drains (R109). -/
  run : List RunTile
  /-- Output rows of tiles, by operation, until the curtain has written them. -/
  rows : SMap (List (List Nat))
  /-- Tiles whose check has passed and whose curtain writes are not done yet. -/
  draining : List RunTile
  /-- The tile in HELD. -/
  held : Option RunTile
  actBuf : Option ActBuf
  patrol : Bool
deriving DecidableEq, Repr

def MxeSt.init : MxeSt := ⟨[], [], [], [], none, none, false⟩

/-- A token of a straw's input queue (R132): word, lanes that set flags, generation and parity of the word, and the clock of
the item at which it arrives (R140). -/
structure Token where
  word : BitVec 128
  en : Nat
  gen : Nat
  parity : Bool
  at_ : Nat
deriving DecidableEq, Repr

/-- A run as accepted (Table 7.6), ranges translated. -/
structure CRun where
  op : Nat
  task : Nat
  ctx : Nat
  coreGen : Nat
  cls : Nat
  prog : Nat
  rnd : Nat
  seed : Nat
  cols : Nat
  rows : Nat
  inA : Option (Nat × Rng)
  inB : Option (Nat × Rng)
  out : Option (Nat × Rng)
  arg0 : Nat
  arg1 : Nat
  msg : Option (Nat × Nat)
  scale : Nat
deriving DecidableEq, Repr

/-- A combine as accepted (Table 10.5), ranges translated. -/
structure Combine where
  op : Nat
  task : Nat
  ctx : Nat
  coreGen : Nat
  cls : Nat
  long : Bool
  first : Bool
  final : Bool
  rnd : Nat
  seed : Nat
  epi : Nat
  fmtD : Nat
  anchor : Int
  m : Nat
  n : Nat
  npart : Nat
  p : Rng
  la : Nat
  d : Rng
  dsc : Nat
  arg0 : Nat
  arg1 : Nat
  msg : Option (Nat × Nat)
deriving DecidableEq, Repr

/-- Where an item's rows come from. -/
inductive ItemKind where
  | tile (j : Nat) (t : Tile)
  | run (r : CRun)
  | combine (c : Combine)
deriving DecidableEq, Repr

/-- The item in progress (R142): its program, how many rows, the iterations done before it began (R148), how often each
instruction has fired (key 32*straw + entry), words popped per straw from STR, RA and RB, words delivered per bottom column, aux
words, rows written, draws made, flags gathered. -/
structure Item where
  kind : ItemKind
  prog : Nat
  rows : Nat
  skip : Nat
  fired : SMap Nat
  popS : SMap Nat
  popA : SMap Nat
  popB : SMap Nat
  memw : List (Nat × List (BitVec 128 × Nat))
  aux : Nat
  written : Nat
  rng : Nat
  flags : Nat
  status : Nat
  /-- A poisoned word was read: its output rows take the poison syndrome (R295). -/
  poison : Bool
  /-- Stall clocks so far, and the clock of R142 whose firings have begun (R149). -/
  stalls : Nat
  due : Option Nat
deriving DecidableEq, Repr

/-- One straw's registers and input queues (Table 7.1); the lanes of each register that hold a masked element (R133), and the
clock of the item from which a written register is usable: `g0` to `g15` by their numbers, `q1` to `q3` as 17 to 19 (R140). -/
structure Straw where
  imem : SMap Word
  g : SMap (BitVec 128)
  gm : SMap Nat
  q : SMap Nat
  busy : SMap Nat
  qN : List Token
  qE : List Token
  qS : List Token
  qW : List Token
deriving DecidableEq, Repr

def Straw.init : Straw := ⟨[], [], [], [], [], [], [], [], []⟩

/-- What a Curtain array holds beside its registers. -/
structure CurSt where
  straws : SMap Straw
  /-- Program table of the configuration in force (Table 7.5), by id. -/
  progs : SMap Word
  /-- Initial register values of the last loaded image, key 16*straw + k. -/
  ginit : SMap (BitVec 128)
  runs : List CRun
  combines : List Combine
  /-- The rows a combine feeds to its program through STR (R228). -/
  combRows : List (List Nat)
  item : Option Item
  /-- A run suspended by a freeze (R148). -/
  susp : Option Item
  /-- Operations whose items wait or are in progress, in the order in which they began to wait. -/
  waiting : List Nat
  patrol : Bool
  /-- Instant of the Open whose load is in progress (Table 7.11). -/
  loadAt : Option Nat
  /-- The image of the load in progress; CUR.LOAD has named another one meanwhile. -/
  loadOfs : Nat
  loadNext : Bool
deriving DecidableEq, Repr

def CurSt.init : CurSt := ⟨[], [], [], [], [], [], none, none, [], false, none, 0, false⟩

/-! ## Chapter 11: messages and data movement -/

/-- A record (Table 11.1) on its way, or in a ring. Addresses of sender: line and its LGEN, core generation. -/
structure Rec where
  kind : Nat
  cls : Nat
  slots : Nat
  dst : Nat
  src : Nat
  tag : Nat
  seq : Nat
  gen : Nat
  status : Nat
  ring : Nat
  data : Nat
  info : Nat
  payload : List Byte
  /-- Sending site, line, LGEN, gallery generation of the sender at issue; destination site by the map at issue. -/
  site : Nat
  line : Nat
  lgen : Nat
  ggen : Nat
  /-- The slot of the ring it starts at. -/
  slot : Nat
  /-- The site of its destination by the map at issue, and the core whose generation it carries (R385). -/
  dsite : Option Nat
  /-- Its survey epoch (R285). -/
  epoch : Nat
  core : Option Nat
  /-- Switch outputs of the Rope that it has passed (R282). -/
  hop : Nat
deriving DecidableEq, Repr

/-- A record of a line not yet answered: SEQ, slots drawn, what to complete (R243), when it was issued. -/
structure Unans where
  seq : Nat
  slots : Nat
  isPad : Bool
  cpl : Bool
  tag : Nat
  dst : Nat
  reserved : Bool
  /-- The PUT descriptor it serves. -/
  op : Option Nat
  at_ : Nat
  /-- Not sent yet: the credit that the completion of an engine operation has taken at issue (R242). -/
  resv : Bool
  /-- Class and sending thread: CLS and DST of its completion record (Table 11.1). -/
  cls : Nat
  thread : Nat
deriving DecidableEq, Repr

/-- A record the receiver keeps account of, in SEQ order: 0 present, 1 voided or pad, 2 in a handler, 3 returned. -/
structure RingRec where
  seq : Nat
  slots : Nat
  st : Nat
  src : Nat
  dst : Nat
  tag : Nat
  slot : Nat
deriving DecidableEq, Repr

/-- What a receive ring keeps beside MU_RING: records not yet passed by RD, RD as last reported, and the instant of the
first unreported advance; the sender's line and LGEN as the last record gave them. -/
structure RingSt where
  recs : List RingRec
  rdSent : Nat
  since : Option Nat
  line : Nat
  lgen : Nat
  site : Nat
  ggen : Nat
  /-- Class of the last record. -/
  cls : Nat
deriving DecidableEq, Repr

def RingSt.init : RingSt := ⟨[], 0, none, 0, 0, 0, 0, 0⟩

/-- An answer to a record on its way to the sender: status for line, LGEN and SEQ. -/
structure Ans where
  site : Nat
  line : Nat
  lgen : Nat
  ggen : Nat
  seq : Nat
  status : Nat
  slots : Nat
  core : Option Nat
  /-- The node that answers, the class of the record answered, and the switch outputs passed (R239, R282). -/
  src : Nat
  cls : Nat
  hop : Nat
deriving DecidableEq, Repr

/-- A credit return on its way (R239). -/
structure Cret where
  site : Nat
  line : Nat
  lgen : Nat
  ggen : Nat
  rd : Nat
  seqNext : Nat
  /-- As for an answer. -/
  src : Nat
  cls : Nat
  hop : Nat
deriving DecidableEq, Repr

/-- A TFE descriptor as accepted (Table 11.5), addresses resolved at issue (R67, R247). An address is a module address;
one in the issuing gallery is 2^48 plus its gallery-local offset. -/
structure Desc where
  op : Nat
  task : Nat
  ctx : Nat
  coreGen : Nat
  cls : Nat
  kind : Nat
  cache : Bool
  msg : Bool
  padz : Bool
  rows : Nat
  rbytes : Nat
  src : Nat
  dst : Nat
  sstride : Nat
  dstride : Nat
  vrows : Nat
  vbytes : Nat
  thread : Nat
  tag : Nat
  xtra : Nat
  /-- S-mode issue: host memory and CSR addresses are open to it. -/
  priv : Nat
  /-- Pieces started, bytes written, status so far. -/
  done : Nat
  bytes : Nat
  status : Nat
  /-- BCAST: members by mask bit index, pieces that each has ejected, answers given (member, status). -/
  members : List Nat
  got : SMap Nat
  answers : List (Nat × Nat)
  /-- GATHER: the 64 B unit of the page table read last, plus one, and what it held. -/
  pte : Nat
  pteData : List Byte
  /-- PUT: line, its LGEN, and SEQ and slot drawn at issue. -/
  put : Option (Nat × Nat × Nat × Nat)
  ended : Bool
  startAt : Nat
  /-- A command of the runtime that the descriptor serves, by queue and packet (MOVE, image copies). -/
  cmd : Option Cmd
deriving DecidableEq, Repr

/-- What a TFE holds beside its registers. -/
structure TfeSt where
  queue : List Desc
  active : List Desc
  /-- What the command that a runtime executes now asks of the TFE, and the class of that command. -/
  need : Charge
  needCls : Nat
  /-- What has been charged for commands that a runtime has not been able to finish in the drips so far, by work. -/
  paid : SMap Charge
deriving DecidableEq, Repr

def TfeSt.init : TfeSt := ⟨[], [], .none, 0, []⟩

/-- A completion ring's records not yet passed by RD: 0 reserved, 1 written (present), 2 in a handler, 3 passed. -/
structure CqRec where
  slot : Nat
  st : Nat
  tag : Nat
  src : Nat
  dst : Nat
  seq : Nat
deriving DecidableEq, Repr

/-! ## Chapter 12: fabric and survey -/

/-- Where a bulk packet is: it waits at its source's router, stands in a ring's input buffer of a router, or is on a
neighbour link. Ring directions: 0 east, 1 west, 2 south, 3 north. -/
inductive PktAt where
  | source
  | ring (node dir : Nat)
  | neighbour
deriving DecidableEq, Repr

/-- A bulk packet (R259) with the data it carries. Nodes are numbered 0-447 by grid, 448-479 ports, 480-483 service
dies. -/
structure Pkt where
  loc : PktAt
  src : Nat
  /-- Destination logical gallery, until it is translated at injection (R260). -/
  lg : Option Nat
  dst : Nat
  cls : Nat
  epoch : Nat
  budget : Nat
  /-- Physical byte address it is written to. -/
  addr : Nat
  data : List Byte
  /-- The data carries poison (Table 13.3). -/
  poison : Bool
  /-- The issuing gallery, descriptor and generation that are answered, and the master charged. -/
  site : Nat
  op : Nat
  gen : Nat
  master : Nat
  /-- Multicast: axis and ring of the group, and the members still to be delivered, by mask bit index. -/
  group : Option (Nat × Nat)
  members : List Nat
  since : Nat
  /-- The passage of its epoch's bank that it travels in (R268). -/
  passage : Option Nat
  /-- The put record that it carries a part of (R237), and whether every packet of it has come through so far. -/
  put : Option (Rec × Bool)
  /-- Where data of a stack or of another gallery go on from the issuing gallery: logical gallery, node, address. -/
  onward : Option (Option Nat × Nat × Nat)
deriving DecidableEq, Repr

/-- What a router keeps beside its registers: packets injected and ended per survey bank, DRAINING since, and per
direction the retry count last read, the consecutive drips above the limit, and the last drip with a no-progress record. -/
structure RtrSt where
  injected : SMap Nat
  ended : SMap Nat
  drainAt : Option Nat
  last : SMap Nat
  exceed : SMap Nat
  noProg : SMap Nat
deriving DecidableEq, Repr

def RtrSt.init : RtrSt := ⟨[], [], none, [], [], []⟩

/-- What the survey keeps beside its registers: instants at which the load and the drain in progress began, and masters
recorded as demoted in this drip (R271). -/
structure SvSt where
  loadAt : Option Nat
  drainAt : Option Nat
  demoted : List Nat
  /-- Survey requests that Flowstone has granted and whose bank is not ACTIVE yet (R281). -/
  reqs : List Cmd
  /-- The drain in progress has had its DRAIN_LATE record (Table 12.5). -/
  lateRec : Bool
deriving DecidableEq, Repr

/-! ## Chapter 13: stacks -/

/-- What a stack controller keeps beside its registers: the next unit of the scrub, instants of single-bit errors per
row, rows that wait for soft repair, rows repaired softly and permanently, spare rows used per bank, pages retired. -/
structure MsSt where
  scrubAt : Nat
  rowCe : SMap (List Nat)
  toRepair : List Nat
  soft : List Nat
  hard : List Nat
  used : SMap Nat
  retired : List Nat
deriving DecidableEq, Repr

def MsSt.init : MsSt := ⟨0, [], [], [], [], [], []⟩

/-! ## Chapter 15: ports -/

/-- A work request (Table 15.7) and the gallery that holds its THREAD. -/
structure Wr where
  opc : Nat
  cls : Nat
  flow : Nat
  len : Nat
  src : Nat
  remote : Nat
  rkey : Nat
  thread : Nat
  tag : Nat
  link : Nat
  chamber : Nat
deriving DecidableEq, Repr

/-- A fragment that has been sent and not acknowledged. -/
structure Frag where
  psn : Nat
  xfer : Nat
  index : Nat
  sentAt : Nat
  attempts : Nat
  rto : Nat
  /-- Shown as received by a SACK bit. -/
  sacked : Bool
deriving DecidableEq, Repr

/-- An SFT transfer in flight at the sender, with the fragments not sent yet. -/
structure Xfer where
  id : Nat
  wr : Wr
  total : Nat
  firstPsn : Nat
  sent : Nat
deriving DecidableEq, Repr

/-- A transfer at the receiver. -/
structure RxXfer where
  id : Nat
  total : Nat
  count : Nat
  bytes : Nat
deriving DecidableEq, Repr

/-- What an SFT flow keeps beside its register (R331 to R337). -/
structure FlowSt where
  psn : Nat
  nextXfer : Nat
  frags : List Frag
  xfers : List Xfer
  cwnd : Nat
  acked : Nat
  lastRtx : Nat
  lastHalf : Nat
  expect : Nat
  got : List Nat
  rx : List RxXfer
  since : Option Nat
  unacked : Nat
  ece : Bool
deriving DecidableEq, Repr

def FlowSt.init : FlowSt := ⟨0, 0, [], [], 0, 0, 0, 0, 0, [], [], none, 0, false⟩

/-- A request of a queue pair that is not acknowledged. -/
structure QpReq where
  psn : Nat
  npkt : Nat
  wr : Wr
  /-- Packets sent; of an RDMA READ, whose request is one packet, all or none. -/
  sent : Nat
deriving DecidableEq, Repr

/-- A RoCEv2 queue pair (Table 15.8). The manual gives no register or command that binds one: the table is filled from
outside the model. -/
structure QpSt where
  chamber : Nat
  link : Nat
  cls : Nat
  rxq : Nat
  peer : Nat
  mtu : Nat
  timeout : Nat
  retryMax : Nat
  rnrMax : Nat
  psn : Nat
  expect : Nat
  reqs : List QpReq
  tries : Nat
  rnrTries : Nat
  failed : Bool
  ringBase : Nat
  ringSlots : Nat
  ringWr : Nat
  thread : Nat
  tag : Nat
  /-- Rate in units of 1/2^20 of the link rate. -/
  rate : Nat
  cnpAt : Option Nat
  /-- Instants of the last send or progress, and of the last change of the rate. -/
  sentAt : Nat
  rateAt : Nat
deriving DecidableEq, Repr

/-- A memory region: an R_Key maps to a module-address range of one chamber. -/
structure MrSt where
  chamber : Nat
  base : Nat
  len : Nat
  va : Nat
deriving DecidableEq, Repr

/-- A completion record that a port holds for want of room in a ring (R328). -/
structure HeldCpl where
  thread : Nat
  tag : Nat
  status : Nat
  info : Nat
  at_ : Nat
deriving DecidableEq, Repr

/-- An arrival that a receive queue takes: an SFT DATA frame on a link, or a RoCEv2 message. -/
inductive Arrival where
  | sftData (link : Nat) (f : Frame)
  | roceSend (m : Roce)
  | rdmaWrite (m : Roce)
  | rdmaRead (m : Roce)
  | readResponse (m : Roce)
deriving DecidableEq, Repr

/-- A frame that a receive queue's buffer holds (R329): its class, its bytes, and its arrival. -/
structure RxFrame where
  cls : Nat
  size : Nat
  arrival : Arrival
deriving DecidableEq, Repr

/-- What a port keeps beside its registers: send queues by 64*link + queue, posts held, flows, queue pairs, completions
held, gates per link, gate-control entries in force (key 8*link + entry), classes paused by PFC (key 8*link + priority),
frames that wait for a gate, for PFC or for the link, frames held per receive queue, oldest first, and the classes for
which a PFC pause has been sent. -/
structure PortSt where
  sqs : SMap (List Wr)
  flows : SMap FlowSt
  qps : SMap QpSt
  held : List HeldCpl
  gates : SMap Nat
  qbv : SMap Word
  paused : SMap Nat
  egress : List (Nat × Nat × List Byte)
  rx : SMap (List RxFrame)
  pfc : SMap Nat
deriving DecidableEq, Repr

def PortSt.init : PortSt := ⟨[], [], [], [], [], [], [], [], [], []⟩

/-- A lamp's rated power and the instant its WARMING began. -/
structure LampSt where
  rated : Nat
  warmAt : Nat
deriving DecidableEq, Repr

def LampSt.init : LampSt := ⟨0, 0⟩

/-- The PTP slave of R326. -/
structure PtpSt where
  /-- The port in force (R326). -/
  port : Nat
  domain : Nat
  master : Option Nat
  t1 : Option Int
  t2 : Option Int
  t3 : Option Int
  t4 : Option Int
deriving DecidableEq, Repr

def PtpSt.init : PtpSt := ⟨0, 0, none, none, none, none, none⟩

/-! ## Chapter 16: host and management -/

/-- An error record (Table 16.7). -/
structure ErrRec where
  cls : Nat
  src : Nat
  code : Nat
  seq : Nat
  state : Nat
  drip : Nat
  time : Nat
  chamber : Option Nat
  lg : Option Nat
  site : Option Nat
  thread : Option Nat
  master : Nat
  count : Nat
  reg : Nat
  detail : List Byte
deriving DecidableEq, Repr

/-- A folding window (R352): its key is that of the record that opened it. -/
structure Fold where
  key : ErrRec
  endAt : Nat
  first : Option ErrRec
  count : Nat
deriving DecidableEq, Repr

/-- A network command queue (BIND_NETQ): its port, chamber, flow, and packets that wait. -/
structure NetQ where
  port : Nat
  chamber : Nat
  flow : Nat
  packets : List (List Byte)
deriving DecidableEq, Repr

/-- What leaves the module. -/
inductive Out where
  /-- An error record as a datagram to the collector. -/
  | record (r : ErrRec)
  /-- An answer to a control message, and the path it takes. -/
  | answer (raw : List Byte) (path : Option (Nat × Nat))
  | msix (vector : Nat)
  /-- A completion of a network command queue (TYPE 4 frame). -/
  | netCpl (port flow : Nat) (raw : List Byte)
  /-- A frame of an SFT or RoCE transport on a link. -/
  | frame (port link cls : Nat) (raw : List Byte)
  /-- The completion of a host read: data, or Completer Abort, or poisoned data. -/
  | hostRead (data : List Byte) (abort poisoned : Bool)
  /-- The answer of a stack controller to a request. -/
  | stackRead (data : Nat) (status : Nat) (poisoned : Bool)
  | redfish (code : Nat) (body : List Nat)
  | mctp (body : List Byte)
  | spdm (body : List Byte)
  /-- The status of a Bedrock call that no context waits for. -/
  | bcall (num status : Nat)
  /-- A read of a register by a source that no context waits for. -/
  | regRead (v : Nat)
  /-- Output pins: 0 OK2RM, 1 VALVE_REQ_N, 2 ALERT_N. -/
  | pin (p : Nat) (asserted : Bool)
  /-- A frame that Flowstone is handed. -/
  | control (port link : Nat) (raw : List Byte)
  /-- A PFC frame for a priority of a link: pause, or release. -/
  | pfc (port link prio : Nat) (pause : Bool)
  /-- Flowstone is handed a command of SURVEY_REQ or TEST_REQ. -/
  | relay (raw : List Byte)
deriving DecidableEq, Repr

/-- What the host and management interfaces keep beside their registers. -/
structure HostSt where
  folds : List Fold
  /-- Records in the service die's store, oldest first, and SEQs that wait to be sent. -/
  store : List ErrRec
  held : List Nat
  /-- Records kept by Lantern while the service die does not run, and its count of overwrites. -/
  lantern : List ErrRec
  lanternLost : Nat
  /-- A control record has been raised for a rejected message in this drip (R349). -/
  rejDrip : Option Nat
  /-- MSI-X: masked vectors (key: vector, value 0 = unmasked 1), pending bits, due instants of coalesced messages. -/
  unmasked : SMap Nat
  pendVec : SMap Nat
  coal : SMap Nat
  /-- Last counter accepted per fleet key, plus one. -/
  counters : SMap Nat
  netqs : SMap NetQ
  subs : List (Nat × Nat)
  nextSub : Nat
  eid : Nat
  /-- PLDM events that wait for an acknowledgement. -/
  events : List Nat
  /-- SPDM: version read, capabilities read, algorithms negotiated. -/
  spdm : Nat
  busMaster : Bool
  /-- Command completions that wait for the end of a QUIESCE in which nothing leaves the module: command, status, DETAIL. -/
  quiet : List (Cmd × Nat × Nat)
  /-- PERST_N is asserted; the management port's physical link is up. -/
  perst : Bool
  phyUp : Bool
deriving DecidableEq, Repr

def HostSt.init : HostSt := ⟨[], [], [], [], 0, none, [], [], [], [], [], [], 0, 0, [], 0, false, [], false, false⟩

/-! ## Chapter 17: Bedrock -/

/-- A call in Bedrock's queue: caller (mgmt context), destination register, number, argument block, generation. -/
structure BCall where
  ctx : Nat
  d : Nat
  num : Nat
  addr : Nat
deriving DecidableEq, Repr

/-- An entry of the repair log (R394). -/
structure LogEnt where
  kind : Nat
  site : Nat
  unit : Nat
  repl : Nat
  fuse : Bool
  drip : Nat
  count : Nat
deriving DecidableEq, Repr

/-- What Bedrock and the security engine hold. -/
structure SecSt where
  calls : List BCall
  /-- Keys by 256*kind + slot; kind 0 is the owner key. Counters of the last blob accepted, plus one. -/
  keys : SMap (List Byte)
  keyCtr : SMap Nat
  meas : SMap (List Byte)
  /-- OTP floors per component; images written to flash by key 8*component + slot; the slot that booted; components
  whose FLOOR_BUMP has been applied since the boot. -/
  floors : SMap Nat
  images : SMap (List Byte)
  booted : SMap Nat
  /-- Profile slots written; the record in force, and the record whose C fields are in force. -/
  slots : SMap (List Byte)
  profile : List Byte
  cProfile : List Byte
  /-- The chamber-scope apply armed: profile and Open. -/
  apply : Option (Nat × Nat)
  /-- Chambers that wait for their reset's end to apply C fields. -/
  applyLate : List Nat
  log : List LogEnt
  /-- Chamber of each site, plus one; sites fenced by Bedrock; chamber whose stacks a replay site may read. -/
  siteCh : SMap Nat
  /-- Hand-overs of ASSIGN that wait for their scrub: one more than the entry that `siteCh` takes (R81). -/
  toCh : SMap Nat
  moduleId : Nat
deriving DecidableEq, Repr

def SecSt.init : SecSt := ⟨[], [], [], [], [], [], [], [], [], [], none, [], [], [], [], 0⟩

/-! ## Chapter 18: bring-up -/

/-- What a site's boot unit holds. -/
structure BootUnit where
  image : Nat
  total : Nat
  blocks : List Nat
  rounds : Nat
deriving DecidableEq, Repr

/-- What bring-up keeps beside the BRG block. -/
structure BootSt where
  entryAt : Nat
  /-- The bring-up began from REFUGE or by MCR, or from insertion or wake. -/
  fromRefuge : Bool
  mcr : Bool
  /-- Instants of the module compute resets performed (R416). -/
  mcrs : List Nat
  units : SMap BootUnit
  /-- A host command in progress. -/
  hostCmd : Option (Nat × Nat × Nat)
  /-- Raw accesses that hang, oldest first: unit, index, offset, value written. -/
  hung : List (Nat × Nat × Nat × Option Nat)
  /-- The stacks' regions that were in force before this BOOT, for R384 and R300. -/
  oldRegions : SMap Word
  holdReleasedAt : Option Nat
  /-- The gallery runtime as an image of Table 8.10, whose first record entry 0 takes (R158); empty where none has been
  given to the model: Flowstone's software is no part of the manual. -/
  runtime : List Byte
deriving DecidableEq, Repr

def BootSt.init : BootSt := ⟨0, false, false, [], [], none, [], [], none, []⟩

/-! ## Chapters 19 and 20 -/

/-- Arbitration of one held tile (R406). -/
structure ArbSt where
  tile : Tile
  s0 : List WitSum
  s1 : List WitSum
  /-- The hold is over: 0 no, 1 by its limit, 2 by a release. -/
  exceed : Nat
  spare : Nat
  rot : Nat
deriving DecidableEq, Repr

/-- A test request in progress (R409): the command, tests, repeats, the accepting drip, galleries, result address, and
per gallery (tests run, tests failed) counts by key 16*lg + test. -/
structure TestSt where
  cmd : Cmd
  lg : Nat
  tests : Nat
  rep : Nat
  drip : Nat
  lgs : List Nat
  result : Nat
  runs : SMap Nat
  fails : SMap Nat
deriving DecidableEq, Repr

/-- What test and repair keep: offences in this drip, patrol counters, first known-answer failures by unit key and the
drip, corrections in this drip per slice, next patrol line per slice, spare lines used per slice, arbitrations by 2 * site + MXE, move, requests. -/
structure TstSt where
  offDrip : SMap Nat
  kaFail : SMap Nat
  corr : SMap Nat
  patrolLine : SMap Nat
  spareLines : SMap Nat
  arbs : SMap ArbSt
  moveOn : Option (Nat × Nat)
  reqs : List TestSt
  /-- Drip in which the unit last ran a known-answer tile, plus one. -/
  kaDrip : SMap Nat
deriving DecidableEq, Repr

def TstSt.init : TstSt := ⟨[], [], [], [], [], [], none, [], []⟩

/-- A chamber reset in progress. -/
structure ChSt where
  step : Nat
  seq : Nat
  startAt : Nat
  held : Option Nat
  lostAll : Bool
  pearl : List Byte
  trigDrip : Nat
deriving DecidableEq, Repr

def ChSt.init : ChSt := ⟨0, 0, 0, none, false, [], 0⟩

/-- A replay in progress: site, chamber, whether its task is loaded, drip at which it ends, whether the fault has been seen,
side effects counted. -/
structure EchoSt where
  site : Nat
  chamber : Nat
  loaded : Bool
  endDrip : Nat
  seen : Bool
  dropped : Nat
deriving DecidableEq, Repr

/-- Fault handling beside the FR and HLT blocks. -/
structure FrSt where
  chs : SMap ChSt
  kickAt : Nat
  restarts : List Nat
  hbAt : Nat
  /-- A grant returns the module to NORMAL at the next Open; a fence order sends it to QUIESCE. -/
  toNormal : Bool
  toQuiesce : Bool
  /-- QUIESCE was entered by expiry or fence (1), by removal (2). -/
  quiesceBy : Nat
  echo : Option EchoSt
  /-- Watchdog: instant of the last issue per thread key. -/
  issued : SMap Nat
  buckets : SMap (List Nat)
  sampled : SMap Nat
  /-- Events that health counts and no register does: links of port p going down at 2 * (448 + p); switches of lamp k to a
  spare at 2 * (480 + k), its failures and refused releases at 2 * (480 + k) + 1 (Table 20.6). -/
  events : SMap Nat
  sampleAt : Nat
  /-- Issuers of engines, by 4 * site + engine (0, 1 MXE, 2 curtain, 3 TFE): task bitmaps of this drip and the one
  before (R425). -/
  issuers : SMap (Nat × Nat)
  /-- MSMAP_CONTAIN as it is in force (R296). -/
  contain : Nat
deriving DecidableEq, Repr

def FrSt.init : FrSt := ⟨[], 0, [], 0, false, false, 0, none, [], [], [], [], 0, [], 0⟩

/-! ## Chapter 21: power and Lantern -/

/-- Lantern and the governor. -/
structure PwrSt where
  /-- The last raw samples per channel, newest first; biquad history x1 x2 y1 y2 per channel. -/
  hist : SMap (List Nat)
  biq : SMap (List Int)
  /-- Consecutive samples for which a trip entry's condition has held (key 100 + k: lamp k, for trip 12); the instant from
  which its value has been safe, plus one. -/
  persist : SMap Nat
  safe : SMap Nat
  samples : Nat
  tj : Nat
  kill : Bool
  leak : Bool
  /-- Removal: 0 none, else the step of Table 21.11 reached. -/
  removal : Nat
  removeArmed : Bool
  present : Bool
  waitInsert : Bool
  /-- Governor: power of the samples of this ms (10 W units), 1 ms averages newest first, flags. -/
  acc : List Nat
  p1s : List Nat
  up : Bool
  stable : Nat
  capNext : Option Nat
  /-- Per die: ms above 700 W, newest second first; thermal step wanted; ms below 95 C. -/
  wear : SMap (List Nat)
  hot : SMap Nat
  coolAt : SMap Nat
  fastDie : SMap Nat
  /-- Input above 260 V and KILL_N released: what Lantern knows when the module is OFF. -/
  inputOk : Bool
  /-- Instants of the last sample of Lantern and of the governor's last tick. -/
  sampAt : Nat
  govAt : Nat
deriving DecidableEq, Repr

def PwrSt.init : PwrSt :=
  ⟨[], [], [], [], 0, 0, false, false, 0, false, true, false, [], [], false, 0, none, [], [], [], [], true, 0, 0⟩

/-- Reset of a gallery: when the last one began, whether one is held (R379), and whether one is in progress. -/
structure GReset where
  lastAt : Option Nat
  held : Bool
  busy : Bool
deriving DecidableEq, Repr

def GReset.init : GReset := ⟨none, false, false⟩

/-! ## The whole module -/

/-- The module. Maps are sparse: an absent key reads the unit's initial record. -/
structure State where
  /-- Commands that wait, first in first out. -/
  pending : List Instr
  /-- Time base (ns): the local clock of R20. -/
  now : Nat
  /-- The model's own counter: how many free values have been taken (log entry 3). -/
  free : Nat
  out : List Out
  mode : ModState
  drip : DripSt
  /-- Every numbered register that holds a value other than its reset value, by module address. -/
  csr : SMap Word
  /-- Memory: stacks, gallery memory, host memory, local memories, flash (Machine/Mem.lean gives the keys). -/
  mem : List Host.Cell
  /-- Poison marks of stack units (key 2^30 * stack + unit) and of gallery words (key 2^25 * site + word). -/
  poison : SMap Nat
  gpoison : SMap Nat
  /-- Stack units logged as uncorrectable since their chamber's last reset, as poison keys. -/
  ueLog : List Nat
  /-- Stack units that the last reset of their chamber zeroed (R294, R314). -/
  zeroed : List Nat
  force : SMap Budget
  ctxs : SMap Ctx
  cores : SMap CoreSt
  tasks : SMap TaskSt
  /-- Runtimes by logical gallery; chamber reset hand-over instants of galleries' resets. -/
  rts : SMap RtSt
  dirs : SMap DirSt
  gms : SMap GmSt
  mxes : SMap MxeSt
  curs : SMap CurSt
  /-- Contexts of the management core (0-63) and of Lantern (64-). -/
  mctxs : SMap Ctx
  net : List Rec
  answers : List Ans
  crets : List Cret
  rings : SMap RingSt
  unans : SMap (List Unans)
  cqs : SMap (List CqRec)
  /-- The ring that each message unit has dispatched from last, plus one (R240), by site. -/
  turns : SMap Nat
  tfes : SMap TfeSt
  pkts : List Pkt
  rtrs : SMap RtrSt
  sv : SvSt
  mss : SMap MsSt
  ports : SMap PortSt
  lamps : SMap LampSt
  ptp : PtpSt
  mrs : SMap MrSt
  host : HostSt
  sec : SecSt
  boot : BootSt
  tst : TstSt
  fr : FrSt
  pwr : PwrSt
  /-- Resets of galleries: instant of the last one, and one that is held (R379), plus its step. -/
  greset : SMap GReset
deriving DecidableEq, Repr

/-! ## One update per field -/

def State.withPending (s : State) (x : List Instr) : State := { s with pending := x }
def State.withNow (s : State) (x : Nat) : State := { s with now := x }
def State.withFree (s : State) (x : Nat) : State := { s with free := x }
def State.withOut (s : State) (x : List Out) : State := { s with out := x }
def State.withMode (s : State) (x : ModState) : State := { s with mode := x }
def State.withDrip (s : State) (x : DripSt) : State := { s with drip := x }
def State.withCsr (s : State) (x : SMap Word) : State := { s with csr := x }
def State.withMem (s : State) (x : List Host.Cell) : State := { s with mem := x }
def State.withPoison (s : State) (x : SMap Nat) : State := { s with poison := x }
def State.withGpoison (s : State) (x : SMap Nat) : State := { s with gpoison := x }
def State.withUeLog (s : State) (x : List Nat) : State := { s with ueLog := x }
def State.withZeroed (s : State) (x : List Nat) : State := { s with zeroed := x }
def State.withForce (s : State) (x : SMap Budget) : State := { s with force := x }
def State.withCtxs (s : State) (x : SMap Ctx) : State := { s with ctxs := x }
def State.withCores (s : State) (x : SMap CoreSt) : State := { s with cores := x }
def State.withTasks (s : State) (x : SMap TaskSt) : State := { s with tasks := x }
def State.withRts (s : State) (x : SMap RtSt) : State := { s with rts := x }
def State.withDirs (s : State) (x : SMap DirSt) : State := { s with dirs := x }
def State.withGms (s : State) (x : SMap GmSt) : State := { s with gms := x }
def State.withMxes (s : State) (x : SMap MxeSt) : State := { s with mxes := x }
def State.withCurs (s : State) (x : SMap CurSt) : State := { s with curs := x }
def State.withMctxs (s : State) (x : SMap Ctx) : State := { s with mctxs := x }
def State.withNet (s : State) (x : List Rec) : State := { s with net := x }
def State.withAnswers (s : State) (x : List Ans) : State := { s with answers := x }
def State.withCrets (s : State) (x : List Cret) : State := { s with crets := x }
def State.withRings (s : State) (x : SMap RingSt) : State := { s with rings := x }
def State.withUnans (s : State) (x : SMap (List Unans)) : State := { s with unans := x }
def State.withCqs (s : State) (x : SMap (List CqRec)) : State := { s with cqs := x }
def State.withTurns (s : State) (x : SMap Nat) : State := { s with turns := x }
def State.withTfes (s : State) (x : SMap TfeSt) : State := { s with tfes := x }
def State.withPkts (s : State) (x : List Pkt) : State := { s with pkts := x }
def State.withRtrs (s : State) (x : SMap RtrSt) : State := { s with rtrs := x }
def State.withSv (s : State) (x : SvSt) : State := { s with sv := x }
def State.withMss (s : State) (x : SMap MsSt) : State := { s with mss := x }
def State.withPorts (s : State) (x : SMap PortSt) : State := { s with ports := x }
def State.withLamps (s : State) (x : SMap LampSt) : State := { s with lamps := x }
def State.withPtp (s : State) (x : PtpSt) : State := { s with ptp := x }
def State.withMrs (s : State) (x : SMap MrSt) : State := { s with mrs := x }
def State.withHost (s : State) (x : HostSt) : State := { s with host := x }
def State.withSec (s : State) (x : SecSt) : State := { s with sec := x }
def State.withBoot (s : State) (x : BootSt) : State := { s with boot := x }
def State.withTst (s : State) (x : TstSt) : State := { s with tst := x }
def State.withFr (s : State) (x : FrSt) : State := { s with fr := x }
def State.withPwr (s : State) (x : PwrSt) : State := { s with pwr := x }
def State.withGreset (s : State) (x : SMap GReset) : State := { s with greset := x }

/-- The module right after reset: BOOT (HIF_STATUS.MODSTATE resets to 2), every register at its reset value, nothing in
memory, nothing in flight, no command waiting. -/
def State.reset : State where
  pending := []
  now := 0
  free := 0
  out := []
  mode := .boot
  drip := DripSt.init
  csr := []
  mem := []
  poison := []
  gpoison := []
  ueLog := []
  zeroed := []
  force := []
  ctxs := []
  cores := []
  tasks := []
  rts := []
  dirs := []
  gms := []
  mxes := []
  curs := []
  mctxs := []
  net := []
  answers := []
  crets := []
  rings := []
  unans := []
  cqs := []
  turns := []
  tfes := []
  pkts := []
  rtrs := []
  sv := ⟨none, none, [], [], false⟩
  mss := []
  ports := []
  lamps := []
  ptp := PtpSt.init
  mrs := []
  host := HostSt.init
  sec := SecSt.init
  boot := BootSt.init
  tst := TstSt.init
  fr := FrSt.init
  pwr := PwrSt.init
  greset := []

end Sys2Proof.Machine
end

