-- ==== Sys2Proof/Machine/Csr.lean ====
section
/-! DEFINITION. Where each register lives (Tables 22.2 to 22.5), what it resets to, and the one read and write of the
register file. -/

namespace Sys2Proof.Machine

/-! ## Places on the module (R13 to R15) -/

/-- Column of a grid index. -/
def colOf (site : Nat) : Nat := site % 56

/-- Row of a grid index. -/
def rowOf (site : Nat) : Nat := site / 56

/-- Compute die of a grid index. -/
def dieOf (site : Nat) : Nat := colOf site / 7 + (if rowOf site < 4 then 0 else 8)

/-- Die-local column. -/
def locC (site : Nat) : Nat := colOf site % 7

/-- Die-local row: 0 is the outer row. -/
def locR (site : Nat) : Nat := if rowOf site < 4 then rowOf site else 7 - rowOf site

/-- Die-local site index, c + 7 r (Table 3.8). -/
def locIdx (site : Nat) : Nat := locC site + 7 * locR site

/-- The grid index of die-local (d, c, r) (R13). -/
def siteOf (d c r : Nat) : Nat := if d < 8 then 7 * d + c + 56 * r else 7 * (d - 8) + c + 56 * (7 - r)

/-- The node is a stack controller (R14). -/
def isStackSite (site : Nat) : Bool := decide (site < 448) && locR site == 0 && (locC site == 1 || locC site == 5)

/-- The node is a gallery site. -/
def isGallerySite (site : Nat) : Bool := decide (site < 448) && !isStackSite site

/-- The stack whose controller sits at a stack node (R14). -/
def stackOfSite (site : Nat) : Nat := 2 * dieOf site + (if locC site == 1 then 0 else 1)

/-- The node of a stack's controller (R14). -/
def siteOfStack (k : Nat) : Nat := siteOf (k / 2) (if k % 2 == 0 then 1 else 5) 0

/-- Column of the spine node of a port (R15). -/
def portCol (p : Nat) : Nat :=
  7 * (p / 4) + (if p % 4 == 0 then 1 else if p % 4 == 1 then 2 else if p % 4 == 2 then 4 else 5)

/-- Column of a service-die node (R15). -/
def svcCol (i : Nat) : Nat := if i == 0 then 24 else if i == 1 then 27 else if i == 2 then 28 else 31

/-- Column of any fabric node: 0-447 grid, 448-479 ports, 480-483 service dies. -/
def nodeCol (n : Nat) : Nat := if n < 448 then colOf n else if n < 480 then portCol (n - 448) else svcCol (n - 480)

/-- The spine node of a column, if it has one (R15). -/
def spineOf (c : Nat) : Option Nat :=
  let i := c / 7
  if c % 7 == 1 then some (448 + 4 * i)
  else if c % 7 == 2 then some (449 + 4 * i)
  else if c == 24 then some 480
  else if c == 27 then some 481
  else if c == 28 then some 482
  else if c == 31 then some 483
  else if c % 7 == 4 then some (450 + 4 * i)
  else if c % 7 == 5 then some (451 + 4 * i)
  else none

/-! ## Block bases (Tables 22.2 to 22.5) -/

/-- Start of CSR space. -/
def csrBase : Nat := 0x200000000000

/-- The base of a site frame. -/
def siteFrame (site : Nat) : Nat := 0x200010000000 + 0x100000 * site

/-- The base of the MSTR block of a site, of the host queues, and of a port. -/
def mstrSite (site : Nat) : Nat := siteFrame site + 0x4000
def mstrHost : Nat := 0x20000000E000
def mstrPort (p : Nat) : Nat := 0x200002000000 + 0x400000 * p + 0x200000

/-- The base of a node's RTR block. -/
def rtrBase (n : Nat) : Nat := if n < 448 then siteFrame n + 0xA000 else 0x200000030000 + 0x100 * nodeCol n

/-- Rows of a block. -/
def rowsOf : Blk → List RegRow
  | .DRIP => rowsDRIP
  | .ROPE => rowsROPE
  | .MSMAP => rowsMSMAP
  | .HIF => rowsHIF
  | .MGMT => rowsMGMT
  | .LCP => rowsLCP
  | .TRM => rowsTRM
  | .FR => rowsFR
  | .HLT => rowsHLT
  | .PWR => rowsPWR
  | .OPT => rowsOPT
  | .MS => rowsMS
  | .LNT => rowsLNT
  | .BRG => rowsBRG
  | .SV => rowsSV
  | .PORT => rowsPORT
  | .GAL => rowsGAL
  | .MXE => rowsMXE
  | .CUR => rowsCUR
  | .TFE => rowsTFE
  | .TR => rowsTR
  | .GM => rowsGM
  | .MU => rowsMU
  | .MSTR => rowsMSTR
  | .RTR => rowsRTR
  | .SEC => []

/-- The single blocks of Table 22.3: first and last offset in CSR space. -/
def svcBlocks : List (Blk × Nat × Nat) := [
  (.DRIP, 0x0, 0xFFF), (.ROPE, 0x1000, 0x1FFF), (.MSMAP, 0x2000, 0x3FFF), (.HIF, 0x4000, 0x5FFF),
  (.MGMT, 0x6000, 0x6FFF), (.LCP, 0x7000, 0x7FFF), (.TRM, 0x8000, 0x8FFF), (.FR, 0x9000, 0x9FFF),
  (.HLT, 0xA000, 0xBFFF), (.PWR, 0xC000, 0xCFFF), (.OPT, 0xD000, 0xDFFF), (.MSTR, 0xE000, 0xFFFF),
  (.LNT, 0x40000, 0x40FFF), (.SEC, 0x50000, 0x5FFFF), (.BRG, 0x100000, 0x1FFFFF), (.SV, 0x400000, 0x7FFFFF)]

/-- The blocks of a gallery's site frame (Table 22.5); MXE1 lies at MXE0 + 0x100. -/
def siteBlocks : List (Blk × Nat × Nat) := [
  (.GAL, 0x0, 0x3FFF), (.MSTR, 0x4000, 0x5FFF), (.MXE, 0x6000, 0x60FF), (.MXE, 0x6100, 0x61FF), (.CUR, 0x7000, 0x7FFF),
  (.TFE, 0x8000, 0x8FFF), (.TR, 0x9000, 0x9FFF), (.RTR, 0xA000, 0xA0FF), (.GM, 0x20000, 0x3FFFF),
  (.MU, 0x40000, 0x7FFFF)]

/-- The block of a list that an offset falls in, and its first offset. -/
def blockIn : List (Blk × Nat × Nat) → Nat → Option (Blk × Nat)
  | [], _ => none
  | (b, lo, hi) :: r, o => if lo ≤ o ∧ o ≤ hi then some (b, lo) else blockIn r o

/-- The block that a module address falls in, and the block's base address (Tables 22.2 to 22.5). -/
def blockAt (a : Nat) : Option (Blk × Nat) :=
  if a < csrBase ∨ a ≥ csrBase + 0x100000000 then none
  else
    let o := a - csrBase
    if o < 0x2000000 then
      if 0x10000 ≤ o ∧ o < 0x30000 then some (.MS, a - o % 0x1000)
      else if 0x30000 ≤ o ∧ o < 0x33800 then
        if (spineOf ((o - 0x30000) / 0x100)).isSome then some (.RTR, a - o % 0x100) else none
      else (blockIn svcBlocks o).map (fun p => (p.1, csrBase + p.2))
    else if o < 0xA000000 then
      let f := (o - 0x2000000) % 0x400000
      if f < 0x200000 then some (.PORT, a - f)
      else if f < 0x202000 then some (.MSTR, a - f + 0x200000)
      else none
    else if 0x10000000 ≤ o ∧ o < 0x2C000000 then
      let site := (o - 0x10000000) / 0x100000
      let f := o % 0x100000
      match blockIn siteBlocks f with
      | some (b, lo) => if isStackSite site ∧ b ≠ .RTR then none else some (b, a - f + lo)
      | none => none
    else none

/-- An offset lies at one of a row's registers: nested repetitions, widest stride first. -/
def hitDims : List (Nat × Nat) → Nat → Bool
  | [], o => o == 0
  | (n, st) :: r, o => decide (o / st < n) && hitDims r (o % st)

/-- The row of a block that holds the register at an offset. -/
def rowAt : List RegRow → Nat → Option RegRow
  | [], _ => none
  | r :: rs, o => if r.off ≤ o && hitDims r.dims (o - r.off) then some r else rowAt rs o

/-- A register as found: its block, the block's base, its row. -/
structure Found where
  blk : Blk
  base : Nat
  row : RegRow
deriving DecidableEq, Repr

/-- How many entries of MSTR a block populates: 64 host queues, 16 receive queues of a port, 50 entries of a site
(Tables 22.3 to 22.5, Table 2.4). -/
def mstrCount (base : Nat) : Nat := if base = mstrHost then 64 else if base < 0x200010000000 then 16 else 50

/-- The register at a module address (a multiple of 8). -/
def regAt (a : Nat) : Option Found :=
  match blockAt a with
  | none => none
  | some (b, base) =>
    match rowAt (rowsOf b) (a - base) with
    | none => none
    | some r =>
      if b = .MSTR ∧ mstrCount base ≤ (a - base - 0x100) / 0x40 then none else some ⟨b, base, r⟩

/-- The site of a site frame's address. -/
def siteAt (a : Nat) : Nat := (a - 0x200010000000) / 0x100000

/-- The fixed trips (Table 21.7): source, DIR, action, threshold in the source's unit, samples of 100 us; the clearing
margins are not stated (log entry 6). -/
def fixedTrip (e : Nat) : Nat × Nat × Nat × Nat × Nat :=
  match e with
  | 0 => (0, 1, 6, 26000, 10)
  | 1 => (0, 0, 6, 43000, 1)
  | 2 => (0, 0, 4, 41000, 100)
  | 3 => (1, 0, 4, 6200, 10)
  | 4 => (2, 0, 4, 5000, 10000)
  | 5 => (2, 0, 1, 4500, 10000)
  | 6 => (3, 0, 4, 6000, 10000)
  | 7 => (4, 1, 4, 1200, 5000)
  | 8 => (4, 1, 2, 1600, 20000)
  | 9 => (5, 1, 5, 100, 500)
  | 10 => (16, 0, 4, 105, 10)
  | 11 => (17, 0, 4, 95, 100)
  | 12 => (6, 0, 3, 0, 100)
  | 13 => (18, 0, 4, 1000, 1)
  | 14 => (19, 0, 6, 0, 1)
  | _ => (2, 1, 0, 1500, 65535)

/-- The reset value of LNT_TRIP entry `e` (Table 21.17). -/
def tripReset (e : Nat) : Nat :=
  if e < 16 then
    let (src, dir, act, th, per) := fixedTrip e
    2 ^ 63 + 2 ^ 62 + src * 2 ^ 56 + dir * 2 ^ 55 + act * 2 ^ 52 + th * 2 ^ 32 + per
  else 0

/-- The reset value of a register whose value depends on where it stands (Tables 3.8, 3.10, 3.12, 3.14, 12.15, 21.17). -/
def placeReset (f : Found) (a : Nat) : Nat :=
  let site := siteAt f.base
  match f.row.reg with
  | .GAL_ID =>
    dieOf site * 2 ^ 28 + locIdx site * 2 ^ 23 + colOf site * 2 ^ 17 + rowOf site * 2 ^ 14 + 0x1FF
  | .GAL_STATUS => 34 * 2 ^ 18 + 2 * 2 ^ 16
  | .GAL_CORE_MAP => 0x8080808080808080 + 0x0706050403020100 + 0x0808080808080808 * ((a - f.base - 0x40) / 8)
  | .CORE_STATUS => (a - f.base - 0x2000) / 0x40 * 2 ^ 32
  | .RTR_STATUS =>
    if f.base < 0x200010000000 then
      match spineOf ((f.base - 0x200000030000) / 0x100) with
      | some n => if n < 480 then 2 * 2 ^ 28 else 3 * 2 ^ 28
      | none => 0
    else if isStackSite site then 2 ^ 28 else 0
  | .LNT_TRIP => tripReset ((a - f.base - 0x200) / 8)
  | _ => f.row.reset

/-- What a register holds right after reset; 0 where there is no register. -/
def resetOf (a : Nat) : Word :=
  match regAt a with
  | some f => BitVec.ofNat 64 (placeReset f a)
  | none => 0

/-! ## The register file -/

/-- The value a register holds. -/
def State.reg (s : State) (a : Nat) : Word := s.csr.get a (resetOf a)

/-- The state with a register set. -/
def State.setReg (s : State) (a : Nat) (w : Word) : State := s.withCsr (s.csr.put a w (resetOf a))

/-- A field of a register. -/
def State.fld (s : State) (f : Fld) : Nat := getBits (s.reg f.addr) f.lo f.width

/-- The state with a field set. -/
def State.setFld (s : State) (f : Fld) (n : Nat) : State := s.setReg f.addr (putBits (s.reg f.addr) f.lo f.width n)

/-- The state with a saturating count raised by `k` (R6's tables: each count saturates). -/
def State.addFld (s : State) (f : Fld) (k : Nat) : State := s.setFld f (satAdd f.width (s.fld f) k)

/-- The state with a wrapping count raised by `k`. -/
def State.bumpFld (s : State) (f : Fld) (k : Nat) : State := s.setFld f (s.fld f + k)

/-- Field `k` of a register that repeats a field of `w` bits. -/
def State.sub (s : State) (a w k : Nat) : Nat := getBits (s.reg a) (w * k) w

/-- The state with such a field set. -/
def State.setSub (s : State) (a w k n : Nat) : State := s.setReg a (putBits (s.reg a) (w * k) w n)

/-- The state with every register of a list back at its reset value. -/
def State.clearRegs (s : State) : List Nat → State
  | [] => s
  | a :: r => (s.setReg a (resetOf a)).clearRegs r

/-- The state with every register of an address range back at its reset value. -/
def State.clearRange (s : State) (lo hi : Nat) : State :=
  s.withCsr (s.csr.filter (fun p => decide (p.1 < lo) || decide (hi ≤ p.1)))

end Sys2Proof.Machine
end

