-- ==== Sys2Proof/Machine/Access.lean ====
section
/-! DEFINITION. Reading and writing the record of one numbered unit: one pair of operations per kind of unit. -/

namespace Sys2Proof.Machine

/-- The record of a budget in force of a master entry, by its MSTR entry address. -/
def State.bud (s : State) (k : Nat) : Budget := s.force.get k Budget.none

/-- The state with that record set. -/
def State.setBud (s : State) (k : Nat) (x : Budget) : State := s.withForce (s.force.put k x Budget.none)

/-- The record of a context of a gallery, by (site * 32 + core) * 128 + context. -/
def State.ctx (s : State) (k : Nat) : Ctx := s.ctxs.get k Ctx.init

/-- The state with that record set. -/
def State.setCtx (s : State) (k : Nat) (x : Ctx) : State := s.withCtxs (s.ctxs.put k x Ctx.init)

/-- The record of a core, by site * 32 + core. -/
def State.core (s : State) (k : Nat) : CoreSt := s.cores.get k CoreSt.init

/-- The state with that record set. -/
def State.setCore (s : State) (k : Nat) (x : CoreSt) : State := s.withCores (s.cores.put k x CoreSt.init)

/-- The record of a resident task, by site * 64 + entry. -/
def State.task (s : State) (k : Nat) : TaskSt := s.tasks.get k TaskSt.init

/-- The state with that record set. -/
def State.setTask (s : State) (k : Nat) (x : TaskSt) : State := s.withTasks (s.tasks.put k x TaskSt.init)

/-- The record of a runtime, by logical gallery. -/
def State.rt (s : State) (k : Nat) : RtSt := s.rts.get k RtSt.init

/-- The state with that record set. -/
def State.setRt (s : State) (k : Nat) (x : RtSt) : State := s.withRts (s.rts.put k x RtSt.init)

/-- What outlives a runtime, by logical gallery. -/
def State.dir (s : State) (k : Nat) : DirSt := s.dirs.get k DirSt.init

/-- The state with that record set. -/
def State.setDir (s : State) (k : Nat) (x : DirSt) : State := s.withDirs (s.dirs.put k x DirSt.init)

/-- The record of a gallery memory, by site. -/
def State.gm (s : State) (k : Nat) : GmSt := s.gms.get k GmSt.init

/-- The state with that record set. -/
def State.setGm (s : State) (k : Nat) (x : GmSt) : State := s.withGms (s.gms.put k x GmSt.init)

/-- The record of a matrix engine, by 2 * site + engine. -/
def State.mxe (s : State) (k : Nat) : MxeSt := s.mxes.get k MxeSt.init

/-- The state with that record set. -/
def State.setMxe (s : State) (k : Nat) (x : MxeSt) : State := s.withMxes (s.mxes.put k x MxeSt.init)

/-- The record of a Curtain array, by site. -/
def State.cur (s : State) (k : Nat) : CurSt := s.curs.get k CurSt.init

/-- The state with that record set. -/
def State.setCur (s : State) (k : Nat) (x : CurSt) : State := s.withCurs (s.curs.put k x CurSt.init)

/-- The record of a context of the management core (0-63) or of Lantern (64-). -/
def State.mctx (s : State) (k : Nat) : Ctx := s.mctxs.get k Ctx.init

/-- The state with that record set. -/
def State.setMctx (s : State) (k : Nat) (x : Ctx) : State := s.withMctxs (s.mctxs.put k x Ctx.init)

/-- The record of a receive ring, by site * 1024 + ring. -/
def State.ring (s : State) (k : Nat) : RingSt := s.rings.get k RingSt.init

/-- The state with that record set. -/
def State.setRing (s : State) (k : Nat) (x : RingSt) : State := s.withRings (s.rings.put k x RingSt.init)

/-- The record of a unanswered records of a credit line, by site * 1024 + line. -/
def State.una (s : State) (k : Nat) : List Unans := s.unans.get k []

/-- The state with that record set. -/
def State.setUna (s : State) (k : Nat) (x : List Unans) : State := s.withUnans (s.unans.put k x [])

/-- The record of a records of a completion ring, by site * 64 + task. -/
def State.cq (s : State) (k : Nat) : List CqRec := s.cqs.get k []

/-- The state with that record set. -/
def State.setCq (s : State) (k : Nat) (x : List CqRec) : State := s.withCqs (s.cqs.put k x [])

/-- The record of a TFE, by site. -/
def State.tfe (s : State) (k : Nat) : TfeSt := s.tfes.get k TfeSt.init

/-- The state with that record set. -/
def State.setTfe (s : State) (k : Nat) (x : TfeSt) : State := s.withTfes (s.tfes.put k x TfeSt.init)

/-- The record of a router, by node. -/
def State.rtr (s : State) (k : Nat) : RtrSt := s.rtrs.get k RtrSt.init

/-- The state with that record set. -/
def State.setRtr (s : State) (k : Nat) (x : RtrSt) : State := s.withRtrs (s.rtrs.put k x RtrSt.init)

/-- The record of a stack controller, by stack. -/
def State.ms (s : State) (k : Nat) : MsSt := s.mss.get k MsSt.init

/-- The state with that record set. -/
def State.setMs (s : State) (k : Nat) (x : MsSt) : State := s.withMss (s.mss.put k x MsSt.init)

/-- The record of a port, by number. -/
def State.port (s : State) (k : Nat) : PortSt := s.ports.get k PortSt.init

/-- The state with that record set. -/
def State.setPort (s : State) (k : Nat) (x : PortSt) : State := s.withPorts (s.ports.put k x PortSt.init)

/-- The record of a resets of a gallery, by site. -/
def State.gr (s : State) (k : Nat) : GReset := s.greset.get k GReset.init

/-- The state with that record set. -/
def State.setGr (s : State) (k : Nat) (x : GReset) : State := s.withGreset (s.greset.put k x GReset.init)

/-- The record of a lamp, by number. -/
def State.lamp (s : State) (k : Nat) : LampSt := s.lamps.get k LampSt.init

/-- The state with that record set. -/
def State.setLamp (s : State) (k : Nat) (x : LampSt) : State := s.withLamps (s.lamps.put k x LampSt.init)

end Sys2Proof.Machine
end

