-- ==== Sys2Proof/Machine/Mem.lean ====
section
/-! DEFINITION. Memory: one list of cells in canonical form for every byte memory of the module and the host, and the
places of each in it. -/

namespace Sys2Proof.Machine

/-- What a byte that nothing has written reads as. DESIGN CHOICE, unsafe, log entry 8: the manual gives no contents. -/
def unlisted : Byte := 0

/-- The form memory is kept in: addresses strictly rising, no entry equal to `unlisted`. -/
def Memory.wf (m : List Host.Cell) : Bool := SMap.wf (fun _ => unlisted) m

/-! Keys of the cells. -/

/-- A byte of stack `k` at a stack-local address. -/
def stackKey (k loc : Nat) : Nat := k * 0x1000000000 + loc

/-- A byte of a gallery's memory at a gallery-local offset. -/
def galKey (site off : Nat) : Nat := 0x100000000000 + site * 0x10000000 + off

/-- A byte of host physical memory. -/
def hostKey (h : Nat) : Nat := 0x300000000000 + h

/-- A byte of the management core's local memory (R358), of Lantern's, of flash. -/
def mgmtKey (o : Nat) : Nat := 0x400000000000 + o
def lanternKey (o : Nat) : Nat := 0x410000000000 + o
def flashKey (o : Nat) : Nat := 0x500000000000 + o

/-- A byte of the internal memory behind the raw window of unit kind `u`, index `i` (R387). -/
def rawKey (u i o : Nat) : Nat := 0x600000000000 + (u * 32 + i) * 0x100000 + o

/-- One byte of memory. -/
def State.rdByte (s : State) (k : Nat) : Byte := SMap.get s.mem k unlisted

/-- The state with one byte written; the canonical form is kept. -/
def State.wrByte (s : State) (k : Nat) (b : Byte) : State := s.withMem (SMap.put s.mem k b unlisted)

/-- `n` bytes from key `k` up. -/
def State.rdBytes (s : State) : Nat → Nat → List Byte
  | _, 0 => []
  | k, n + 1 => s.rdByte k :: s.rdBytes (k + 1) n

/-- The state with bytes written from key `k` up. -/
def State.wrBytes (s : State) : Nat → List Byte → State
  | _, [] => s
  | k, b :: bs => (s.wrByte k b).wrBytes (k + 1) bs

/-- `n` bytes from key `k` up as a little-endian number (R5). -/
def State.rdNat (s : State) (k n : Nat) : Nat := leNat (s.rdBytes k n)

/-- The state with a little-endian number of `n` bytes written. -/
def State.wrNat (s : State) (k n v : Nat) : State := s.wrBytes k (leBytes n v)

/-- The state with every byte of `[lo, hi)` zero: the entries of the range go, as an unlisted byte reads zero. -/
def State.zeroRange (s : State) (lo hi : Nat) : State :=
  s.withMem (s.mem.filter (fun c => decide (c.1 < lo) || decide (hi ≤ c.1)))

/-! ## Stacks (R289) -/

/-- A module stack address: region, stack, stack-local address. -/
structure StackAt where
  region : Nat
  stack : Nat
  loc : Nat
deriving DecidableEq, Repr

/-- Where a module address below 2 TiB lies (R289), whatever the region's VALID bit. -/
def State.stackAt (s : State) (x : Nat) : StackAt :=
  let n := x / 0x100000000
  let o := x % 0x100000000
  let b := s.fld (R.MSMAP_REGION_STACK_BASE n) * 0x8000000
  match s.fld (R.MSMAP_REGION_MODE n) with
  | 0 => ⟨n, (o / 0x1000) % 32, b + o / 0x20000 * 0x1000 + o % 0x1000⟩
  | 1 => ⟨n, (o / 0x10000) % 32, b + o / 0x200000 * 0x10000 + o % 0x10000⟩
  | _ => ⟨n, s.fld (R.MSMAP_REGION_STACK n), b + o⟩

/-- The region of a stack address may be accessed: valid, and its stack READY (R290). -/
def State.stackOpen (s : State) (x : Nat) : Bool :=
  decide (x < 0x20000000000) && s.fld (R.MSMAP_REGION_VALID (x / 0x100000000)) == 1 &&
    s.fld (R.MS_STATUS_STATE (s.stackAt x).stack) == 2

/-- The chamber that owns a stack address (R69, R366). -/
def State.stackChamber (s : State) (x : Nat) : Nat := s.fld (R.MSMAP_REGION_CHAMBER (x / 0x100000000))

/-- The poison key of a stack unit, and of a gallery word. -/
def unitKey (k loc : Nat) : Nat := k * 0x40000000 + loc / 64
def wordKey (site off : Nat) : Nat := site * 0x2000000 + off / 8

/-- The key of the byte at a stack module address. -/
def State.stackByteKey (s : State) (x : Nat) : Nat := let p := s.stackAt x; stackKey p.stack p.loc

/-- `n` bytes from a stack module address up, each translated. -/
def State.rdStack (s : State) : Nat → Nat → List Byte
  | _, 0 => []
  | x, n + 1 => s.rdByte (s.stackByteKey x) :: s.rdStack (x + 1) n

/-- The state with bytes written from a stack module address up. A full unit clears its poison mark (R293). -/
def State.wrStack (s : State) : Nat → List Byte → State
  | _, [] => s
  | x, b :: bs => (s.wrByte (s.stackByteKey x) b).wrStack (x + 1) bs

/-- A unit of a stack address is marked poisoned. -/
def State.stackPoisoned (s : State) (x : Nat) : Bool :=
  let p := s.stackAt x
  s.poison.get (unitKey p.stack p.loc) 0 == 1

/-- The state with the poison mark of a unit set or cleared. -/
def State.markUnit (s : State) (x : Nat) (on : Bool) : State :=
  let p := s.stackAt x
  s.withPoison (s.poison.put (unitKey p.stack p.loc) (b2n on) 0)

/-- The state with the poison syndrome of a gallery word set or cleared (R295). -/
def State.markWord (s : State) (site off : Nat) (on : Bool) : State :=
  s.withGpoison (s.gpoison.put (wordKey site off) (b2n on) 0)

/-- What the check bits of a gallery word tell (R62, R295): 0 nothing, 1 the poison syndrome, 2 one flipped bit, 3 an
uncorrectable error that no read has met. -/
def State.wordMark (s : State) (site off : Nat) : Nat := s.gpoison.get (wordKey site off) 0

/-- A gallery word holds the poison syndrome. -/
def State.wordPoisoned (s : State) (site off : Nat) : Bool := s.wordMark site off == 1

/-! ## Free values -/

/-- A free value, and the state that has taken it (log entry 3). -/
def State.takeFree (s : State) : Nat × State := (Config.freeValue s.free, (s.withFree (s.free + 1)))

/-- The state after something left the module. -/
def State.emit (s : State) (o : Out) : State := s.withOut (s.out ++ [o])

end Sys2Proof.Machine
end

