-- ==== Sys2Proof/Machine/Records.lean ====
section
/-! DEFINITION. Error records (R351 to R354, R478, R479): what a record holds, folding, the two stores, the host error
queue; and the survey look-ups that a record needs. -/

namespace Sys2Proof.Machine

/-- Number of the current drip. -/
def State.dripNo (s : State) : Nat := s.fld R.DRIP_NUMBER_NUMBER

/-- Nanoseconds from the time-base epoch; 0 before the drip is first enabled (Table 16.7, R481). -/
def State.timeNs (s : State) : Nat :=
  match s.drip.epoch with
  | some e => ((s.now : Int) - e).toNat
  | none => 0

/-! ## Placement -/

/-- The injection epoch, which is the number of the ACTIVE bank (R276, R277). -/
def State.epoch (s : State) : Nat := s.fld R.SV_STATUS_EPOCH

/-- The site that a bank gives a logical gallery. -/
def State.siteOfLgIn (s : State) (b lg : Nat) : Option Nat :=
  if lg < 384 && s.fld (R.SV_MAP_VALID b lg) == 1 then
    some (s.fld (R.SV_MAP_COL b lg) + 56 * s.fld (R.SV_MAP_ROW b lg))
  else none

/-- The site of a logical gallery under the survey in force. -/
def State.siteOfLg (s : State) (lg : Nat) : Option Nat := s.siteOfLgIn s.epoch lg

/-- The logical gallery that a site holds under the survey in force (Table 3.8). -/
def State.lgOfSite (s : State) (site : Nat) : Option Nat :=
  let lo := R.SV_MAP s.epoch 0
  (List.find? (fun p => decide (lo ≤ p.1) && decide (p.1 < lo + 8 * 384) && getBits p.2 63 1 == 1 &&
    getBits p.2 8 6 + 56 * getBits p.2 5 3 == site) s.csr).map (fun p => (p.1 - lo) / 8)

/-- The chamber of a gallery site (R366). -/
def State.chamberOf (s : State) (site : Nat) : Option Nat :=
  match s.sec.siteCh.get site 0 with
  | 0 => none
  | c + 1 => some c

/-- A replay runs on the site: its outward accesses are sandboxed (R426). -/
def State.sandboxed (s : State) (site : Nat) : Bool :=
  match s.fr.echo with
  | some e => e.site == site
  | none => false

/-- An outward access of a replay is discarded and counted. -/
def State.sandDrop (s : State) : State :=
  s.withFr { s.fr with echo := s.fr.echo.map (fun e => { e with dropped := e.dropped + 1 }) }

/-- The chamber against which a site's stack accesses are checked (R366, R426). -/
def State.chamberFor (s : State) (site : Nat) : Option Nat :=
  match s.fr.echo with
  | some e => if e.site = site then some e.chamber else s.chamberOf site
  | none => s.chamberOf site

/-- The containment mode in force of a chamber: T6-compatibility (Table 13.6, R296). -/
def State.t6 (s : State) (ch : Nat) : Bool := bitN s.fr.contain ch == 1

/-! ## Records -/

/-- Classes of records (Table 16.7). -/
def CE : Nat := 0
def UETASK : Nat := 1
def UECHAMBER : Nat := 2
def FATAL : Nat := 3

/-- A record detected now, of a class, source and code. -/
def State.mkRec (s : State) (cls src code : Nat) : ErrRec :=
  { cls := cls, src := src, code := code, seq := 0, state := s.mode.code, drip := s.dripNo, time := s.timeNs,
    chamber := none, lg := none, site := none, thread := none, master := 0, count := 1, reg := 0, detail := [] }

/-- The record with a physical site, and the logical gallery and chamber it holds. -/
def State.recAt (s : State) (r : ErrRec) (site : Nat) : ErrRec :=
  { r with site := some site, lg := s.lgOfSite site, chamber := s.chamberOf site }

/-- The record with a thread address and a master entry. -/
def ErrRec.thr (r : ErrRec) (thread master : Nat) : ErrRec := { r with thread := some thread, master := master }

/-- Two records fold into one: same CLASS, SRC, CODE, LG and site (R352). -/
def ErrRec.sameKey (a b : ErrRec) : Bool :=
  a.cls == b.cls && a.src == b.src && a.code == b.code && a.lg == b.lg && a.site == b.site

/-- The 64 bytes of a record (Table 16.7). -/
def ErrRec.bytes (r : ErrRec) : List Byte :=
  let site := r.site.getD 0
  let b : List Byte :=
    leBytes 1 (1 * 16 + r.cls * 4) ++ leBytes 1 r.src ++ leBytes 2 r.code ++ leBytes 4 r.seq ++
    leBytes 8 (r.state * 2 ^ 61 + r.drip % 2 ^ 48) ++ leBytes 8 r.time ++
    leBytes 2 ((r.chamber.getD 0) * 2 ^ 12 + b2n r.chamber.isSome * 2 ^ 11 + r.lg.getD 0x1FF) ++
    leBytes 2 (colOf site * 2 ^ 10 + rowOf site * 2 ^ 7 + b2n r.site.isSome * 2 ^ 6) ++
    leBytes 4 (r.thread.getD 0 * 2 ^ 11 + r.master * 2 ^ 5 + b2n r.thread.isSome * 2 ^ 4) ++
    leBytes 4 r.count ++ leBytes 8 (r.reg % 2 ^ 48) ++ (r.detail ++ List.replicate 12 0).take 12 ++ leBytes 4 0
  b ++ leBytes 4 (crc32 b)

/-- The service die runs: in every state but OFF and STANDBY, and in BOOT from step 3 on (R479). -/
def State.svcUp (s : State) : Bool :=
  match s.mode with
  | .off => false
  | .standby => false
  | .boot => s.fld R.BRG_STATUS_STEP == 0 || decide (3 ≤ s.fld R.BRG_STATUS_STEP)
  | _ => true

/-- The PCI Express link is up. -/
def State.pcieUp (s : State) : Bool := s.fld R.HIF_STATUS_SPEED != 0

/-- The module may write host memory: link up, bus master, and not silenced by the lease (R344, R431). -/
def State.hostWrOk (s : State) : Bool :=
  s.pcieUp && s.host.busMaster && !(s.mode == .quiesce && s.fr.quiesceBy == 1)

/-- A vector fires: at once with `coal` = 0, else `coal` microseconds later; a message that is already due covers it
(R347). -/
def State.fireVector (s : State) (vec coalUs : Nat) : State :=
  if coalUs = 0 then
    if s.host.unmasked.get vec 0 = 1 then s.emit (.msix vec)
    else s.withHost { s.host with pendVec := s.host.pendVec.put vec 1 0 }
  else if s.host.coal.get vec 0 = 0 then
    s.withHost { s.host with coal := s.host.coal.put vec (s.now + 1000 * coalUs + 1) 0 }
  else s

/-- The record is written to the host error queue, or counted as dropped when the ring is full (R354). -/
def State.hostErr (s : State) (r : ErrRec) : State :=
  if s.fld R.HIF_ERRQ0_VALID = 1 && s.pcieUp && s.hostWrOk then
    let size := 2 ^ s.fld R.HIF_ERRQ0_SIZE_LOG2
    let wr := s.fld R.HIF_ERRQ1_WR
    let rd := s.fld R.HIF_ERRQ1_RD
    if (wr + 0x10000 - rd) % 0x10000 ≥ size then s.addFld R.HIF_ERRQ1_DROPS 1
    else
      ((s.wrBytes (hostKey (s.fld R.HIF_ERRQ0_HADDR * 4096 + 64 * (wr % size))) r.bytes).bumpFld R.HIF_ERRQ1_WR 1).fireVector
        (s.fld R.HIF_ERRQ0_VECTOR) 0
  else s

/-- A list of records without its oldest CE record, or without its oldest of any class (R353). -/
def dropOldest (l : List ErrRec) : List ErrRec :=
  match l.find? (fun r => r.cls == CE) with
  | some r => l.erase r
  | none => l.tail

/-- The store takes a record, in place of the oldest where it is full, and it waits to be sent (R353). -/
def State.keepRec (s : State) (r : ErrRec) : State :=
  let full := decide (s.host.store.length ≥ 4096)
  let kept := if full then dropOldest s.host.store else s.host.store
  let held := (s.host.held.filter (fun q => kept.any (fun x => x.seq == q))) ++ [r.seq]
  let s := if full then s.addFld R.MGMT_CNT_LOST 1 else s
  (s.withHost { s.host with store := kept ++ [r], held := held }).setFld R.MGMT_STATUS_HELD (min held.length 0xFFFF)

/-- A record of class UE-chamber or FATAL is a PLDM event too, which holds ALERT_N low (R356, Table 22.7). -/
def State.recEvent (s : State) (r : ErrRec) : State :=
  if r.cls < 2 then s
  else
    let first := s.host.events.isEmpty
    let s := (s.withHost { s.host with events := s.host.events ++ [r.seq] }).emit (.mctp r.bytes)
    if first then s.emit (.pin 2 true) else s

/-- The record takes its SEQ, enters the store and waits to be sent (R351 to R354). -/
def State.queueRec (s : State) (r : ErrRec) : State :=
  let r := { r with seq := s.fld R.MGMT_STATUS_SEQ }
  (((s.bumpFld R.MGMT_STATUS_SEQ 1).keepRec r).hostErr r).recEvent r

/-- Lantern keeps the record while the service die does not run (R353, R479). -/
def State.lanternKeep (s : State) (r : ErrRec) : State :=
  let full := decide (s.host.lantern.length ≥ 64)
  let kept := if full then dropOldest s.host.lantern else s.host.lantern
  s.withHost { s.host with lantern := kept ++ [r], lanternLost := s.host.lanternLost + b2n full }

/-- The end of a folding window: the folded record, if any, is queued with its COUNT (R352). -/
def State.endFold (s : State) (w : Fold) : State :=
  let s := s.withHost { s.host with folds := s.host.folds.filter (fun x => !(x.key.sameKey w.key)) }
  match w.first with
  | some r => s.queueRec { r with count := w.count }
  | none => s

/-- A replay sees the record it looks for (R427). -/
def State.echoSees (s : State) (r : ErrRec) : State :=
  match s.fr.echo with
  | some e =>
    if r.site = some e.site ∧ r.src = s.fld R.FR_ECHO_SRC ∧ r.code = s.fld R.FR_ECHO_CODE then
      s.withFr { s.fr with echo := some { e with seen := true } }
    else s
  | none => s

/-- A record is raised: folded into the open window of its key, or queued alone and a window of 1 ms opened (R352);
kept by Lantern while the service die does not run. -/
def State.raise (s : State) (r : ErrRec) : State :=
  let s := s.echoSees r
  if !s.svcUp then s.lanternKeep r
  else
    let openNew (s : State) : State :=
      let s := s.queueRec r
      s.withHost { s.host with folds := s.host.folds ++ [⟨r, s.now + 1000000, none, 0⟩] }
    match s.host.folds.find? (fun w => w.key.sameKey r) with
    | none => openNew s
    | some w =>
      if s.now < w.endAt then
        let w' : Fold := { w with first := some (w.first.getD r), count := w.count + 1 }
        s.withHost { s.host with folds := s.host.folds.map (fun x => if x.key.sameKey r then w' else x) }
      else openNew (s.endFold w)

/-- A record of class CE with nothing but a source. -/
def State.ce (s : State) (src : Nat) : State := s.raise (s.mkRec CE src 0)

/-- A record of class CE about a site. -/
def State.ceAt (s : State) (src site : Nat) : State := s.raise (s.recAt (s.mkRec CE src 0) site)

/-- Byte 52 of DETAIL (R478). -/
def srcCode : Src → Nat
  | .bedrock => 0
  | .flowstone => 1
  | .gallery _ _ _ => 2
  | .host => 3
  | .lantern => 4

/-- The thread address of a gallery context (R53): LG [20:12], core [11:7], context [6:0]. -/
def State.threadAddr (s : State) (site core ctx : Nat) : Nat :=
  (s.lgOfSite site).getD 0x1FF * 4096 + core * 128 + ctx

/-- The record of a refused register access (R478). -/
def State.refuse (s : State) (src : Src) (code addr value : Nat) : State :=
  let r := s.mkRec CE 7 code
  let r := { r with reg := addr, detail := leBytes 8 value ++ leBytes 1 (srcCode src) ++ leBytes 3 0 }
  let r := match src with
    | .gallery site core ctx => r.thr (s.threadAddr site core ctx) 0
    | _ => r
  let r := if 0x200010000000 ≤ addr ∧ addr < 0x20002C000000 then s.recAt r (siteAt addr) else r
  s.raise r

/-! ## Counts of the fabric (R261, R278, R285) -/

/-- A packet or Rope request of an epoch enters at a node, or ends there (R278, R285). -/
def State.noteInj (s : State) (node b : Nat) : State :=
  let r := s.rtr node
  s.setRtr node { r with injected := r.injected.put b (r.injected.get b 0 + 1) 0 }
def State.noteEnd (s : State) (node b : Nat) : State :=
  let r := s.rtr node
  s.setRtr node { r with ended := r.ended.put b (r.ended.get b 0 + 1) 0 }

/-- The service die as an injection point, beside the 484 nodes. -/
def svcNode : Nat := 484

/-- A drop at a node's router is counted; the service die has no router block (Table 12.15). -/
def State.overrun (s : State) (n : Nat) : State :=
  if n < 484 then s.addFld (R.RTR_DROP_CNT_OVERRUN (rtrBase n)) 1 else s

/-- An access to a gallery window passes from a node to a site, from injection to its end. -/
def State.windowPass (s : State) (n d : Nat) : State := (s.noteInj n s.epoch).noteEnd d s.epoch

/-! ## Fields of a profile record (Tables 17.8 and 17.9) -/

def prPeriod (r : List Byte) : Nat := leAt r 0x10 2
def prCap (r : List Byte) : Nat := leAt r 0x12 2
def prClk (r : List Byte) : Nat := leAt r 0x14 1
def prFlags (r : List Byte) : Nat := leAt r 0x15 1
def prLease (r : List Byte) : Nat := leAt r 0x16 4
def prVolt (r : List Byte) (d : Nat) : Int := sextN 8 (leAt r (0x20 + d) 1)
def prPort (r : List Byte) (p : Nat) : Nat := leAt r 0x30 8 / 4 ^ p % 4
def prCh (r : List Byte) (c : Nat) : Nat := leAt r (0x200 + 64 * c) 8
def prChValid (r : List Byte) (c : Nat) : Bool := bitN (prCh r c) 63 == 1
def prT6 (r : List Byte) (c : Nat) : Nat := bitN (prCh r c) 62
def prMaxC (r : List Byte) (c : Nat) : Nat := fldN (prCh r c) 60 59
def prMaxV (r : List Byte) (c : Nat) : Nat := fldN (prCh r c) 58 57
def prMap (r : List Byte) (c : Nat) : Nat := leAt r (0x208 + 64 * c) 48
def prSram (r : List Byte) (lg : Nat) : Nat := leAt r (0x600 + 4 * lg) 4
def prRegion (r : List Byte) (n : Nat) : Nat := leAt r (0xC00 + 8 * n) 8

/-- The chamber that a record gives a logical gallery. -/
def prChOf (r : List Byte) (lg : Nat) : Option Nat :=
  (List.range 16).find? (fun c => prChValid r c && bitN (prMap r c) lg == 1)

end Sys2Proof.Machine
end

