-- ==== Sys2Proof/Machine/Drip.lean ====
section
/-! DEFINITION. Masters and the drip's rules (chapter 2): master entries, charging, freezing and thawing; the module
state and the Class A condition. -/

namespace Sys2Proof.Machine

/-! ## Master entries. A master is named by the address of its entry, MSTR + 0x100 + 0x40 i. -/

/-- The entry `i` of an MSTR block. -/
def mstr (mb i : Nat) : Nat := mb + 0x100 + 0x40 * i

/-- The entry of a gallery's task, of its TFE (48), of its Curtain array (49); of a host queue; of a receive queue. -/
def taskM (site t : Nat) : Nat := mstr (mstrSite site) t
def tfeM (site : Nat) : Nat := taskM site 48
def curM (site : Nat) : Nat := taskM site 49
def hqM (q : Nat) : Nat := mstr mstrHost q
def rxM (p q : Nat) : Nat := mstr (mstrPort p) q

/-- The site of a gallery's master. -/
def siteOfM (m : Nat) : Option Nat := if 0x200010000000 ≤ m then some (siteAt m) else none

/-- The port of a receive queue's master. -/
def portOfM (m : Nat) : Nat := (m - 0x200002000000) / 0x400000

/-- The number of an entry in its block. -/
def idxOfM (m : Nat) : Nat :=
  match siteOfM m with
  | some site => (m - mstrSite site - 0x100) / 0x40
  | none => if m < 0x200002000000 then (m - mstrHost - 0x100) / 0x40 else (m % 0x400000 - 0x200100) / 0x40

/-! Registers of the entry (Tables 2.19 to 2.24). -/

def mBudget0 (m : Nat) : Nat := m
def mBudget1 (m : Nat) : Nat := m + 8
def mUsedCycles (m : Nat) : Fld := ⟨m + 0x10, 0, 32⟩
def mUsedStack (m : Nat) : Fld := ⟨m + 0x10, 32, 32⟩
def mUsedPassage (m : Nat) : Fld := ⟨m + 0x18, 0, 32⟩
def mUsedClassA (m : Nat) : Fld := ⟨m + 0x18, 32, 32⟩
def mCtrl (m : Nat) : Nat := m + 0x20
def mCont (m : Nat) : Fld := ⟨m + 0x20, 3, 1⟩
def mAutoThaw (m : Nat) : Fld := ⟨m + 0x20, 2, 1⟩
def mValid (m : Nat) : Fld := ⟨m + 0x20, 0, 1⟩
def mStatus (m : Nat) : Nat := m + 0x28
def mDrops (m : Nat) : Fld := ⟨m + 0x28, 32, 32⟩
def mGen (m : Nat) : Fld := ⟨m + 0x28, 8, 8⟩
def mCause (m : Nat) : Fld := ⟨m + 0x28, 4, 4⟩
def mRun (m : Nat) : Fld := ⟨m + 0x28, 2, 2⟩
def mSuspect (m : Nat) : Fld := ⟨m + 0x28, 1, 1⟩
def mFrozen (m : Nat) : Fld := ⟨m + 0x28, 0, 1⟩

/-- The master is FROZEN (Table 2.8). -/
def State.frozen (s : State) (m : Nat) : Bool := s.fld (mFrozen m) == 1

/-- A record about a master: its entry, and its site where it has one. -/
def State.recM (s : State) (cls code m : Nat) : ErrRec :=
  let r := { s.mkRec cls 1 code with master := idxOfM m, reg := mStatus m }
  match siteOfM m with
  | some site => s.recAt r site
  | none => r

/-- A command queue follows the freeze of its master (Table 16.2): STATE `from` becomes `to`. -/
def State.hqFollow (s : State) (m old new : Nat) : State :=
  if 0x20000000E000 ≤ m ∧ m < 0x200000010000 then
    let q := idxOfM m
    if s.fld (R.HQ3_STATE q) = old then s.setFld (R.HQ3_STATE q) new else s
  else s

/-- The master freezes for a cause; `causes` is the bitmap of the causes present (R34, R35). A FROZEN master keeps its
cause (Table 2.8). -/
def State.freeze (s : State) (m cause causes : Nat) : State :=
  if s.frozen m then s
  else
    let s := (s.setFld (mFrozen m) 1).setFld (mCause m) cause
    let s := s.setBud m { s.bud m with frozeNow := true }
    let s := s.hqFollow m 1 2
    s.raise { s.recM CE cause m with detail := leBytes 4 causes }

/-- The FROZEN bit of a master is cleared; its contexts and queues follow (Machine/Tasks.lean). -/
def State.unfreeze (s : State) (m : Nat) : State :=
  if s.frozen m then (s.setFld (mFrozen m) 0).hqFollow m 2 1 else s

/-! ## Charging (R29, R30, R439, R440) -/

/-- The outcome of a charge: the unit issues; it is held by the governor's scaling until the next Open; or it is a
violation of the given cause. -/
inductive ChargeRes where
  | ok (s : State)
  | held (s : State)
  | violation (cause causes : Nat)

/-- The governor's factor F of a level, in sixteenths (Table 21.3). -/
def govFactor (level : Nat) : Nat :=
  match level with
  | 0 => 16
  | 1 => 12
  | 2 => 8
  | 3 => 8
  | 4 => 6
  | _ => 4

/-- A charge of `c` on top of `used` exceeds a policed component. -/
def exceeds (c used limit : Nat) : Bool := decide (0 < c) && decide (used + c > limit)

/-- A component of a budget (R205): 0 cycles, 1 stack bytes in 4 KiB, 2 passage slots, 3 Class A slots. -/
def Budget.comp (b : Budget) (i : Nat) : Nat :=
  match i with
  | 0 => b.cycles
  | 1 => b.stack4k
  | 2 => b.passage
  | _ => b.classA

/-- The budget in force of a component: scaled by the governor (R439), but for an unpoliced component, a master whose entry
has Class A slots, and a value that DRIP.BUDGET has lowered (R205). -/
def State.inForce (s : State) (b : Budget) (i : Nat) : Nat :=
  let f := b.comp i
  if 3 ≤ i ∨ f = 0xFFFFFFFF ∨ b.classA ≠ 0 ∨ bitN b.lowered 3 = 1 ∨ bitN b.lowered i = 1 then f
  else f * govFactor (s.fld R.PWR_STATUS_LEVEL) / 16

/-- The components that a charge overruns, given each component's limit; bit c - 1 for cause c. -/
def State.overruns (s : State) (m : Nat) (b : Budget) (c : Charge) (lim : Nat → Nat) : Nat :=
  let policed (field : Nat) : Bool := field != 0xFFFFFFFF
  b2n (policed b.cycles && exceeds c.cycles (s.fld (mUsedCycles m)) (lim 0)) +
  2 * b2n (policed b.stack4k && exceeds c.stack (s.fld (mUsedStack m)) (lim 1 * 64)) +
  4 * b2n (policed b.passage && exceeds c.passage (s.fld (mUsedPassage m)) (lim 2))

/-- The lowest cause of a bitmap of causes. -/
def lowCause (n : Nat) : Nat := if bitN n 0 = 1 then 1 else if bitN n 1 = 1 then 2 else if bitN n 2 = 1 then 3 else 4

/-- A master is charged for one unit. An entry whose VALID is not in force describes no live master and is not policed
(log entry 11). -/
def State.charge (s : State) (m : Nat) (c : Charge) : ChargeRes :=
  let b := s.bud m
  let add (s : State) : State :=
    (((s.addFld (mUsedCycles m) c.cycles).addFld (mUsedStack m) c.stack).addFld (mUsedPassage m) c.passage).addFld
      (mUsedClassA m) c.classA
  if !b.valid then .ok (add s)
  else
    let exceed := s.overruns m b c b.comp + 8 * b2n (exceeds c.classA (s.fld (mUsedClassA m)) b.classA)
    if exceed ≠ 0 then .violation (lowCause exceed) exceed
    else if s.overruns m b c (s.inForce b) ≠ 0 then .held (s.setBud m { b with govHold := true })
    else .ok (add s)

/-- Charges taken together, and what is left of one. -/
def Charge.add (a b : Charge) : Charge := ⟨a.cycles + b.cycles, a.stack + b.stack, a.passage + b.passage, a.classA + b.classA⟩
def Charge.sub (a b : Charge) : Charge := ⟨a.cycles - b.cycles, a.stack - b.stack, a.passage - b.passage, a.classA - b.classA⟩

/-- One unit of each component that a charge draws on. -/
def Charge.unit (c : Charge) : Charge := ⟨min 1 c.cycles, min 1 c.stack, min 1 c.passage, min 1 c.classA⟩

/-- The part of a charge that the remaining budgets of a master allow in this drip. -/
def State.part (s : State) (m : Nat) (c : Charge) : Charge :=
  let b := s.bud m
  if !b.valid then c
  else
    let lim (i unit used n : Nat) : Nat :=
      if b.comp i = 0xFFFFFFFF then n else min n (s.inForce b i * unit - used)
    ⟨lim 0 1 (s.fld (mUsedCycles m)) c.cycles, lim 1 64 (s.fld (mUsedStack m)) c.stack,
      lim 2 1 (s.fld (mUsedPassage m)) c.passage, min c.classA (b.classA - s.fld (mUsedClassA m))⟩

/-! ## Classes and Seal -/

/-- Work of class B or C is held in Seal (R23). -/
def State.sealHolds (s : State) (cls : Nat) : Bool := decide (cls ≠ 0) && s.fld R.DRIP_STATUS_PHASE_SEAL == 1

/-! ## Module state (R16, R17, R39) -/

/-- CLASSA_COND.ALL follows the five condition bits; each change raises a record (R39). -/
def State.syncCond (s : State) : State :=
  let all := b2n (s.fld R.CLASSA_COND_NORMAL == 1 && s.fld R.CLASSA_COND_SURVEY_STABLE == 1 &&
    s.fld R.CLASSA_COND_NO_CH_RESET == 1 && s.fld R.CLASSA_COND_FLOOR_OK == 1 && s.fld R.CLASSA_COND_RESV_OK == 1)
  if s.fld R.CLASSA_COND_ALL = all then s
  else
    let s := s.setFld R.CLASSA_COND_ALL all
    s.raise (s.mkRec CE 15 (s.reg R.CLASSA_COND).toNat)

/-- The module enters a state: HIF_STATUS and the Class A condition follow, and a record of source 15 carries the new
state (Table 16.8, log entry 12). -/
def State.enter (s : State) (m : ModState) : State :=
  if s.mode = m then s
  else
    let s := s.withMode m
    let s := (s.setFld R.HIF_STATUS_MODSTATE m.code).setFld R.CLASSA_COND_NORMAL (b2n (m == .normal))
    (s.raise (s.mkRec CE 15 m.code)).syncCond

/-- May an event of precedence `p` (1 highest, R17) be acted on: not if a higher one was acted on in this drip. -/
def State.mayAct (s : State) (p : Nat) : Bool :=
  match s.drip.lastEvent with
  | some (d, q) => !(d == s.dripNo && decide (q < p) && s.drip.running)
  | none => true

/-- The event of precedence `p` is acted on in this drip: the highest of the drip is kept. -/
def State.actOn (s : State) (p : Nat) : State :=
  let top := match s.drip.lastEvent with
    | some (d, q) => if d = s.dripNo ∧ s.drip.running then min p q else p
    | none => p
  s.withDrip { s.drip with lastEvent := some (s.dripNo, top) }

/-- A request for a transition that Table 1.4 does not name, or an event lower than one acted on in its drip, is recorded
with class CE and not acted on (R16, R17). DESIGN CHOICE (log entry 12): the record has source 15 and code 0; Table 16.8
gives that source codes for changes only. -/
def State.reject (s : State) : State := s.ce 15

/-- An event of precedence `p` asks for `f`: acted on unless a higher one was in this drip, and then recorded (R17). -/
def State.event (s : State) (p : Nat) (f : State → State) : State := if s.mayAct p then f (s.actOn p) else s.reject

end Sys2Proof.Machine
end

