-- ==== Sys2Proof/Machine/Score.lean ====
section
/-! DEFINITION. Gallery memory (chapter 4): slices, windows, the gate of an access, the range scoreboard. -/

namespace Sys2Proof.Machine

/-- Offsets from here up hold no cells (R60). -/
def cellsEnd : Nat := 0xA000000

/-- The slice of an offset (R60). -/
def State.sliceOf (s : State) (site x : Nat) : Nat :=
  let g := x / 0x1400000
  if bitN (s.fld (R.GM_GROUP_ILV_ILV site)) g = 0 then x / 0x500000 else 4 * g + (x % 0x1400000 / 512) % 4

/-- A slice's state (Table 4.11): 0 OFF, 1 WAKE, 2 ON, 3 CLOSE, 4 DRAIN, 5 CACHE. -/
def State.slice (s : State) (site k : Nat) : Nat := s.fld (R.GM_SLICE_STATE_STATE site (k / 16) (k % 16))
def State.setSlice (s : State) (site k n : Nat) : State := s.setFld (R.GM_SLICE_STATE_STATE site (k / 16) (k % 16)) n

/-- The slice holds a byte of `[lo, lo + n)` under the map in force. -/
def State.sliceHit (s : State) (site k lo n : Nat) : Bool :=
  let g := k / 4
  let a := max lo (g * 0x1400000)
  let b := min (lo + n) ((g + 1) * 0x1400000)
  if b ≤ a then false
  else if bitN (s.fld (R.GM_GROUP_ILV_ILV site)) g = 0 then
    decide (lo < k * 0x500000 + 0x500000) && decide (k * 0x500000 < lo + n)
  else decide (a / 512 + (k % 4 + 4 - a / 512 % 4) % 4 ≤ (b - 1) / 512)

/-- How gallery memory answers an access (Table 4.4, R69, R80). -/
inductive Gate where
  | ok | closed | scrubbing | noCell
deriving DecidableEq, Repr

/-- The gate of the bytes `[lo, lo + n)`. -/
def State.gate (s : State) (site lo n : Nat) : Gate :=
  if cellsEnd < lo + n then .noCell
  else if s.fld (R.GM_SCRUB_STATE site) ≠ 0 then .scrubbing
  else if (List.range 32).any (fun k => s.sliceHit site k lo n && s.slice site k != 2) then .closed
  else .ok

/-- Status of Table 11.3 that a gate gives. -/
def Gate.status : Gate → Nat
  | .ok => 0
  | .closed => 4
  | .scrubbing => 5
  | .noCell => 8

/-- A rejected access is counted (R79, R80). -/
def State.nack (s : State) (site : Nat) : Gate → State
  | .closed => s.addFld (R.GM_NACK_CNT_CLOSED site) 1
  | .scrubbing => s.addFld (R.GM_NACK_CNT_SCRUB site) 1
  | _ => s

/-- `n` bytes of gallery memory. -/
def State.rdGal (s : State) (site off n : Nat) : List Byte := s.rdBytes (galKey site off) n

/-- The marks of the words of `[off, off + n)`. -/
def State.marksIn (s : State) (site off n : Nat) : List (Nat × Nat) :=
  if n = 0 then []
  else s.gpoison.filter (fun p => decide (wordKey site off ≤ p.1) && decide (p.1 ≤ wordKey site (off + n - 1)))

/-- Some word of `[off, off + n)` is uncorrectable or holds the poison syndrome; one flipped bit is corrected on read. -/
def State.galPoisoned (s : State) (site off n : Nat) : Bool := (s.marksIn site off n).any (fun p => p.2 != 2)

/-- One MXE observes a write grant to `[lo, lo + n)`: its activation buffer is discarded if it holds a byte of it (R114),
and a HELD tile that reads one marks its arbitration dirty (R405). -/
def State.mxeSees (s : State) (site j lo n : Nat) : State :=
  let x := s.mxe (2 * site + j)
  let hit (r : Nat × Nat) : Bool := decide (r.1 < lo + n) && decide (lo < r.1 + r.2)
  let s := match x.actBuf with
    | some b => if hit (b.base, b.len) || hit (b.scBase, b.scLen) then s.setMxe (2 * site + j) { x with actBuf := none } else s
    | none => s
  match x.held with
  | some h => if h.srcs.any hit then s.setFld (R.TR_ARB_DIRTY site) 1 else s
  | none => s

/-- The state with bytes of gallery memory written; a word written whole loses the poison syndrome. -/
def State.wrGal (s : State) (site off : Nat) (bs : List Byte) : State :=
  let lo := wordKey site (off + 7)
  let hi := wordKey site (off + bs.length)
  let s := (s.mxeSees site 0 off bs.length).mxeSees site 1 off bs.length
  (s.wrBytes (galKey site off) bs).withGpoison (s.gpoison.filter (fun p => decide (p.1 < lo) || decide (hi ≤ p.1)))

/-- The state with every word of `[off, off + n)` given the poison syndrome (R295, Table 13.3). -/
def State.poisonGal (s : State) (site off : Nat) : Nat → State
  | 0 => s
  | n + 1 => (s.poisonGal site off n).markWord site (off + 8 * n) true

/-- The state with every line of a slice written to zero (Tables 4.3 and 4.6). -/
def State.zeroSlice (s : State) (site k : Nat) : State :=
  let lo := galKey site 0
  let w := wordKey site 0
  ((s.withMem (s.mem.filter (fun c => !(decide (lo ≤ c.1) && decide (c.1 < lo + cellsEnd) &&
      s.sliceOf site (c.1 - lo) == k)))).withGpoison (s.gpoison.filter (fun p => !(decide (w ≤ p.1) && decide (p.1 < w + cellsEnd / 8) &&
      s.sliceOf site (8 * (p.1 - w)) == k))))

/-! ## Windows and address forms (R65, R66, R163) -/

/-- Key of a context of a gallery, and of a core. -/
def ctxKey (site core c : Nat) : Nat := (site * 32 + core) * 128 + c
def coreKey (site core : Nat) : Nat := site * 32 + core

/-- A window-relative range of `n` bytes as a gallery-local offset, if the window permits it (R66). -/
def State.winAddr (s : State) (site core slot w o n : Nat) (write : Bool) : Option Nat :=
  let b := s.reg (R.WIN_BASE site core slot w)
  if getBits b 63 1 = 1 ∧ getBits b (if write then 61 else 62) 1 = 1 ∧
      o + n ≤ s.fld (R.WIN_LIM_SIZE site core slot w) * 512 then
    some (getBits b 0 19 * 512 + o)
  else none

/-- The 8 bytes at a gallery-local offset lie in a window of the set with X = 1 (R66). -/
def State.fetchOk (s : State) (site core slot pc : Nat) : Bool :=
  (List.range 8).any (fun w =>
    let b := s.reg (R.WIN_BASE site core slot w)
    let lo := getBits b 0 19 * 512
    getBits b 63 1 == 1 && getBits b 60 1 == 1 && decide (lo ≤ pc) &&
      decide (pc + 8 ≤ lo + s.fld (R.WIN_LIM_SIZE site core slot w) * 512))

/-- An address of form 0 or 1 as a gallery-local offset (R163, R66). A U context's use of form 1 is an address-form
error (log entry 13). -/
def State.localAddr (s : State) (site core : Nat) (c : Ctx) (a n : Nat) (write : Bool) : Option Nat :=
  if a / 2 ^ 62 = 0 then
    if a / 2 ^ 31 = 0 then s.winAddr site core c.win (a / 2 ^ 28) (a % 2 ^ 28) n write else none
  else if a / 2 ^ 62 = 1 ∧ c.priv ≠ 0 ∧ a % 2 ^ 62 / 2 ^ 28 = 0 ∧ a % 2 ^ 28 + n ≤ cellsEnd then some (a % 2 ^ 28)
  else none

/-! ## Context blocks (R54) -/

/-- The blocks of a task, ascending. -/
def State.blocksOf (s : State) (site t : Nat) : List Nat :=
  s.csr.filterMap (fun p =>
    if R.CTXBLK site 0 ≤ p.1 ∧ p.1 < R.CTXBLK site 512 ∧ getBits p.2 15 1 = 1 ∧ getBits p.2 0 6 = t then
      some ((p.1 - R.CTXBLK site 0) / 8)
    else none)

/-- The contexts of a block, ascending, as keys. -/
def blockCtxs (site b : Nat) : List Nat := (List.range 8).map (fun i => ctxKey site (b / 16) (8 * (b % 16) + i))

/-- The contexts of a task, ascending. -/
def State.ctxsOf (s : State) (site t : Nat) : List Nat := (s.blocksOf site t).flatMap (blockCtxs site)

/-- Core and context number of a context key. -/
def coreOfKey (k : Nat) : Nat := k / 128 % 32
def ctxOfKey (k : Nat) : Nat := k % 128
def siteOfKey (k : Nat) : Nat := k / 4096

/-- The CTXBLK entry of a context. -/
def State.blkOf (s : State) (k : Nat) : Word := s.reg (R.CTXBLK (siteOfKey k) (16 * coreOfKey k + ctxOfKey k / 8))

/-- The task that owns a context. -/
def State.taskOf (s : State) (k : Nat) : Nat := getBits (s.blkOf k) 0 6

/-- The context is of a handler block. -/
def State.isHandler (s : State) (k : Nat) : Bool := getBits (s.blkOf k) 14 1 == 1

/-- The core and slot in which a task's windows are judged: the lowest core that holds a block of it (R234). -/
def State.judgeSlot (s : State) (site t : Nat) : Option (Nat × Nat) :=
  match s.blocksOf site t with
  | [] => none
  | b :: _ => some (b / 16, (s.ctx (ctxKey site (b / 16) (8 * (b % 16)))).win)

/-- A window range of a task, judged as R234 states; no access permission is asked of a ring. -/
def State.taskWin (s : State) (site t w o n : Nat) : Option Nat :=
  match s.judgeSlot site t with
  | none => none
  | some (core, slot) =>
    let b := s.reg (R.WIN_BASE site core slot w)
    if getBits b 63 1 = 1 ∧ o + n ≤ s.fld (R.WIN_LIM_SIZE site core slot w) * 512 then some (getBits b 0 19 * 512 + o)
    else none

/-! ## The scoreboard (R70 to R74) -/

/-- A range that an issue reads or writes. -/
structure Want where
  write : Bool
  lo : Nat
  n : Nat
deriving DecidableEq, Repr

/-- The claims held, as entry number and GM_SB_ENTRY word. -/
def State.claimList (s : State) (site : Nat) : List (Nat × Word) :=
  s.csr.filterMap (fun p =>
    if R.GM_SB_ENTRY site 0 ≤ p.1 ∧ p.1 < R.GM_SB_ENTRY site 64 ∧ getBits p.2 63 1 = 1 then
      some ((p.1 - R.GM_SB_ENTRY site 0) / 8, p.2)
    else none)

/-- A claim shares a 64 B unit with a range (R71). -/
def claimHits (w : Word) (x : Want) : Bool :=
  let base := getBits w 0 22
  decide (0 < x.n) && decide (base < (x.lo + x.n + 63) / 64) && decide (x.lo / 64 < base + getBits w 32 22)

/-- A claim stalls an issue (Table 4.2); a suspended one blocks nothing (R68). -/
def claimBlocks (w : Word) (x : Want) : Bool :=
  getBits w 22 1 == 0 && getBits w 61 1 == 0 && (x.write || getBits w 62 1 == 1) && claimHits w x

/-- The claims that stall an issue of some ranges, one bit each. -/
def State.blockers (s : State) (site : Nat) (xs : List Want) : Nat :=
  (s.claimList site).foldl (fun m p => if xs.any (claimBlocks p.2) then setBitN m p.1 else m) 0

/-- Free entries. -/
def State.freeEntries (s : State) (site : Nat) : Nat := 64 - (s.claimList site).length

/-- The lowest free entry. -/
def State.lowEntry (s : State) (site : Nat) : Option Nat :=
  (List.range 64).find? (fun e => !((s.claimList site).any (fun p => p.1 == e)))

/-- One claim is made; the entry taken, if one is free. Its serial advances by one (R206). -/
def State.claim (s : State) (site task op : Nat) (sw : Bool) (x : Want) : State × Option Nat :=
  match s.lowEntry site with
  | none => (s, none)
  | some e =>
    let lo := x.lo / 64
    let w := BitVec.ofNat 64 (2 ^ 63 + b2n x.write * 2 ^ 62 + b2n sw * 2 ^ 60 + task % 64 * 2 ^ 54 +
      ((x.lo + x.n + 63) / 64 - lo) % 2 ^ 22 * 2 ^ 32 + lo % 2 ^ 22)
    let g := s.gm site
    let old := g.claims.get e ⟨0, 0⟩
    let s := s.setGm site { g with claims := g.claims.put e ⟨(old.serial + 1) % 256, op⟩ ⟨0, 0⟩ }
    let s := s.setReg (R.GM_SB_ENTRY site e) w
    (s.setFld (R.GM_SB_STATUS_HIGH_WATER site) (max (s.fld (R.GM_SB_STATUS_HIGH_WATER site)) (s.claimList site).length),
      some e)

/-- The claims of one issue; a range of no bytes makes none. -/
def State.claimAll (s : State) (site task op : Nat) (xs : List Want) : State :=
  xs.foldl (fun s x => if x.n = 0 then s else (s.claim site task op false x).1) s

/-- A context's issue that is stalled on entry `e` waits for it no longer; in ERROR it is marked to take a SCOREBOARD fault
(R74). -/
def Ctx.unblock (x : Ctx) (e : Nat) (err : Bool) : Ctx :=
  { x with waitsOn := clrBitN x.waitsOn e, sbFault := x.sbFault || err }

/-- A claim retires, and each issue stalled on it sees it (R74). The entry is free afterwards: the clock in which it reads
VALID = 1 and ERROR = 1 lies inside the command. -/
def State.retire (s : State) (site e : Nat) (err : Bool) : State :=
  (s.setReg (R.GM_SB_ENTRY site e) 0).withCtxs (s.ctxs.map (fun p =>
    if siteOfKey p.1 == site && bitN p.2.waitsOn e == 1 && p.2.st == .stalled .issue then (p.1, p.2.unblock e err) else p))

/-- Every claim of the site that meets a test retires. -/
def State.retireIf (s : State) (site : Nat) (err : Bool) (f : Nat → Word → Bool) : State :=
  ((s.claimList site).filter (fun p => f p.1 p.2)).foldl (fun s p => s.retire site p.1 err) s

/-- The operation that a claim serves; 0 for a software-owned one. -/
def State.opOf (s : State) (site e : Nat) : Nat := ((s.gm site).claims.get e ⟨0, 0⟩).op

/-- The claims of an operation retire. -/
def State.retireOp (s : State) (site op : Nat) (err : Bool) : State :=
  s.retireIf site err (fun e _ => s.opOf site e == op)

/-- The R claims of an operation, or its W claims, retire. -/
def State.retireKind (s : State) (site op : Nat) (write err : Bool) : State :=
  s.retireIf site err (fun e w => s.opOf site e == op && getBits w 62 1 == b2n write)

/-- A fresh identity for an operation of a gallery. -/
def State.newOp (s : State) (site : Nat) : Nat × State :=
  let g := s.gm site
  (g.nextOp, s.setGm site { g with nextOp := g.nextOp + 1 })

/-! ## Stack access through the cache (R76) and chamber of a context -/

/-- Cache mode is on in a gallery. -/
def State.cacheOn (s : State) (site : Nat) : Bool := (List.range 32).any (fun k => s.slice site k == 5)

/-- The bytes of a cached line. -/
def State.cached (s : State) (site line : Nat) : Option (List Byte) :=
  ((s.gm site).cache.find? (fun p => p.1 == line)).map (·.2)

/-- One lookup of a line is counted: a hit or a miss. -/
def State.cacheCount (s : State) (site line : Nat) : State :=
  if (s.cached site line).isSome then s.addFld (R.GM_CACHE_CNT_HITS site) 1 else s.addFld (R.GM_CACHE_CNT_MISSES site) 1

/-- A stack line is cached: in slice (line mod k), in one of 640 sets of 16 ways. Which line of a full set goes is open
beyond "pseudo-LRU": a free value names it (R76, log entry 14). -/
def State.cacheFill (s : State) (site line : Nat) (bs : List Byte) : State :=
  let k := ((List.range 32).filter (fun k => s.slice site k == 5)).length
  if k = 0 then s
  else
    let place (l : Nat) : Nat × Nat := (l % k, Config.cacheSet (l / k) % 640)
    let g := s.gm site
    let kept := g.cache.filter (fun p => p.1 != line)
    let same := (kept.filter (fun p => place p.1 == place line)).map (·.1)
    if same.length < 16 then s.setGm site { g with cache := kept ++ [(line, bs)] }
    else
      let (f, s) := s.takeFree
      let out := same.getD (f % same.length) line
      s.setGm site { g with cache := kept.filter (fun p => p.1 != out) ++ [(line, bs)] }

/-- Stack writes of the gallery are written through and update a line that hits (R76). -/
def State.cacheUpdate (s : State) (site x : Nat) (bs : List Byte) : State :=
  let g := s.gm site
  let upd (p : Nat × List Byte) : Nat × List Byte :=
    (p.1, p.2.mapIdx (fun i b =>
      let a := p.1 * 512 + i
      if x ≤ a ∧ a < x + bs.length then bs.getD (a - x) b else b))
  if g.cache.isEmpty then s else s.setGm site { g with cache := g.cache.map upd }

/-- A stack address lies in a region of the chamber of a site (R164, R69). -/
def State.ownStack (s : State) (site x : Nat) : Bool :=
  match s.chamberFor site with
  | some c => decide (x < 0x20000000000) && s.fld (R.MSMAP_REGION_VALID (x / 0x100000000)) == 1 && s.stackChamber x == c
  | none => false

end Sys2Proof.Machine
end

