-- ==== Sys2Proof/Machine/Msg.lean ====
section
/-! DEFINITION. The message unit (chapter 11): records, credit lines, receive rings, completion rings, dispatch. -/

namespace Sys2Proof.Machine

/-- Difference of two free-running 16-bit counters (R236). -/
def sub16 (a b : Nat) : Nat := (a % 0x10000 + 0x10000 - b % 0x10000) % 0x10000

/-- The header slot of a record (Table 11.1). -/
def Rec.head (r : Rec) : List Byte :=
  let inSlot := if r.kind = 2 then [] else r.payload
  leBytes 8 (r.kind * 2 ^ 60 + r.cls * 2 ^ 58 + inSlot.length % 64 * 2 ^ 52 + r.slots % 128 * 2 ^ 45 +
      r.dst % 2 ^ 21 * 2 ^ 21 + r.src % 2 ^ 21) ++
    leBytes 8 (r.tag % 2 ^ 16 * 2 ^ 48 + r.seq % 2 ^ 16 * 2 ^ 32 + r.gen % 256 * 2 ^ 24 + r.status % 16 * 2 ^ 20 +
      r.ring % 1024) ++
    leBytes 8 (if r.kind = 2 then r.data else r.info) ++ (inSlot ++ List.replicate 40 0).take 40

/-- Every byte of a record as it stands in its ring; of a pad only the header is written (R237). -/
def Rec.image (r : Rec) : List Byte := if r.kind = 2 then r.head ++ r.payload else r.head

/-- A record of source 6 about a gallery, with twelve bytes of detail. -/
def State.ce6 (s : State) (site code : Nat) (detail : List Byte) : State :=
  s.raise { s.recAt (s.mkRec CE 6 code) site with detail := detail }

/-! ## The handler table (R162) -/

/-- The first matching entry among `n` entries from gallery-local offset `x` up: window and offset. -/
def State.matchHandler (s : State) (site tag : Nat) : Nat → Nat → Option (Nat × Nat)
  | _, 0 => none
  | x, n + 1 =>
    let e := s.rdNat (galKey site x) 8
    if tag &&& fldN e 47 32 = fldN e 63 48 &&& fldN e 47 32 then some (fldN e 31 29, fldN e 27 0)
    else s.matchHandler site tag (x + 8) n

/-- Where a task's handler table lies. -/
def State.tableAt (s : State) (site t : Nat) : Option Nat :=
  let k := s.task (site * 64 + t)
  s.taskWin site t k.hwin k.hofs (8 * k.hcount)

/-- The gate of the handler table, which the message unit reads as any requestor does (R79, R80; what a rejection makes of the
record: log entry 58). -/
def State.tableGate (s : State) (site t : Nat) : Gate :=
  match s.tableAt site t with
  | some x => s.gate site x (8 * (s.task (site * 64 + t)).hcount)
  | none => .ok

/-- The handler of a tag in a task's handler table, as window and offset; none from a table that may not be read. -/
def State.handlerOf (s : State) (site t tag : Nat) : Option (Nat × Nat) :=
  match s.tableAt site t with
  | some x => if s.tableGate site t = .ok then s.matchHandler site tag x (s.task (site * 64 + t)).hcount else none
  | none => none

/-! ## Completion rings (R242, R243, R482) -/

/-- A task's completion ring has a free slot to reserve. -/
def State.cqFree (s : State) (site t : Nat) : Bool :=
  s.fld (R.MU_CQ0_VALID site t) == 1 &&
    decide (sub16 (s.fld (R.MU_CQ1_WR site t)) (s.fld (R.MU_CQ1_RD site t)) + s.fld (R.MU_CQ1_RESV site t) <
      2 ^ s.fld (R.MU_CQ0_SIZE_LOG2 site t))

/-- A slot is reserved, or a reservation released. -/
def State.cqReserve (s : State) (site t : Nat) : State := s.bumpFld (R.MU_CQ1_RESV site t) 1
def State.cqRelease (s : State) (site t : Nat) : State :=
  s.setFld (R.MU_CQ1_RESV site t) (s.fld (R.MU_CQ1_RESV site t) - 1)

/-- Passed records at the head of a completion ring. -/
def cqPassed : List CqRec → Nat × List CqRec
  | [] => (0, [])
  | r :: rs => if r.st = 3 then let p := cqPassed rs; (p.1 + 1, p.2) else (0, r :: rs)

/-- RD of a completion ring advances over passed records. -/
def State.cqAdvance (s : State) (site t : Nat) : State :=
  let p := cqPassed (s.cq (site * 64 + t))
  (s.setCq (site * 64 + t) p.2).bumpFld (R.MU_CQ1_RD site t) p.1

/-- A completion record is written into a task's completion ring, into a reserved slot or not; or it is discarded with
a record (R482). A tag that no handler entry matches discards it too (R162). -/
def State.cqWrite (s : State) (site t : Nat) (reserved : Bool) (r : Rec) : State :=
  let lost (s : State) : State := s.ce6 site r.status (leBytes 1 r.status ++ leBytes 2 r.tag ++ leBytes 2 r.seq)
  if s.fld (R.MU_CQ0_VALID site t) = 0 then lost s
  else
    let wr := s.fld (R.MU_CQ1_WR site t)
    let slot := wr % 2 ^ s.fld (R.MU_CQ0_SIZE_LOG2 site t)
    let off := s.taskWin site t (s.fld (R.MU_CQ0_WIN site t)) (s.fld (R.MU_CQ0_OFS site t) + 64 * slot) 64
    let s := (if reserved then s.cqRelease site t else s).bumpFld (R.MU_CQ1_WR site t) 1
    let put (s : State) (st : Nat) : State :=
      (s.setCq (site * 64 + t) (s.cq (site * 64 + t) ++ [⟨slot, st, r.tag, r.src, r.dst, r.seq⟩])).cqAdvance site t
    match off with
    | none => lost (put s 3)
    | some x =>
      match (if s.gate site x 64 = .ok then s.tableGate site t else s.gate site x 64) with
      | .ok =>
        let s := (s.wrGal site x r.head).addFld (R.MU_MSG_CNT_RX site) 1
        put s (if (s.handlerOf site t r.tag).isSome then 1 else 3)
      | g => lost (put (s.nack site g) 3)

/-- A completion record's form: SRC is the original destination. -/
def cplRec (cls dst src tag seq status info : Nat) (payload : List Byte) : Rec :=
  { kind := 3, cls := cls, slots := 1, dst := dst, src := src, tag := tag, seq := seq, gen := 0, status := status,
    ring := 0, data := 0, info := info, payload := payload, site := 0, line := 0, lgen := 0, ggen := 0, slot := 0,
    dsite := none, core := none, epoch := 0, hop := 0 }

/-! ## Credit lines (R235 to R237, Table 11.4) -/

/-- The valid line of a task whose range holds a thread (R235). -/
def State.lineOf (s : State) (site task dst : Nat) : Option Nat :=
  let lo := R.MU_LINE0 site 0
  (List.find? (fun p => decide (lo ≤ p.1) && decide (p.1 < lo + 32 * 1024) && (p.1 - lo) % 32 == 0 &&
    getBits p.2 63 1 == 1 && getBits p.2 55 6 == task && decide (getBits p.2 34 21 ≤ dst) &&
    decide (dst ≤ getBits p.2 13 21)) s.csr).map (fun p => (p.1 - lo) / 32)

/-- The pad that a record of `n` slots needs on a line, if it can issue now (R236). -/
def State.lineRoom (s : State) (site l n : Nat) : Option Nat :=
  let size := 2 ^ s.fld (R.MU_LINE1_SIZE_LOG2 site l)
  let wr := s.fld (R.MU_LINE2_WR site l)
  let tail := size - wr % size
  let p := if tail < n then tail else 0
  let resv := ((s.una (site * 1024 + l)).filter (·.resv)).length
  if p + n + resv + sub16 wr (s.fld (R.MU_LINE2_RDK site l)) ≤ size ∧
      sub16 (s.fld (R.MU_LINE2_SEQ site l)) (s.fld (R.MU_LINE2_SEQK site l)) + resv + (if p = 0 then 0 else 1) < 256 then
    some p
  else none

/-- A descriptor in progress ends with a status: its completion step reports it. -/
def State.descEnd (s : State) (site op status : Nat) : State :=
  let t := s.tfe site
  let f (d : Desc) : Desc := if d.op = op && !d.ended then { d with ended := true, status := status } else d
  s.setTfe site { t with queue := t.queue.map f, active := t.active.map f }

/-- A PUT whose line is gone ends with TIMEOUT and without a completion record (Table 11.4). -/
def State.putLost (s : State) (site op : Nat) : State :=
  let s := s.descEnd site op 7
  let t := s.tfe site
  let f (d : Desc) : Desc := if d.op = op then { d with msg := false } else d
  s.setTfe site { t with queue := t.queue.map f, active := t.active.map f }

/-- The end of an unanswered record: its descriptor, or its completion record (R243). -/
def State.unaEnd (s : State) (site l : Nat) (u : Unans) (status : Nat) : State :=
  let t := s.fld (R.MU_LINE0_TASK site l)
  if u.isPad then s
  else match u.op with
    | some op => s.descEnd site op status
    | none =>
      if !u.reserved then s
      else if u.cpl then s.cqWrite site t true (cplRec u.cls u.thread u.dst u.tag u.seq status 0 [])
      else if status = 0 then s.cqRelease site t
      else s.cqWrite site t true (cplRec u.cls u.thread u.dst (s.fld (R.MU_LINE1_ERR_TAG site l)) u.seq status 0 [])

/-- The line becomes STUCK and each record still unanswered ends with TIMEOUT (Table 11.4). -/
def State.lineStuck (s : State) (site l status : Nat) : State :=
  let us := (s.una (site * 1024 + l)).filter (fun u => !u.resv)
  let s := s.setUna (site * 1024 + l) ((s.una (site * 1024 + l)).filter (·.resv))
  let s := (s.setFld (R.MU_LINE0_STATE site l) 2).ce6 site status (leBytes 2 l ++ leBytes 2 us.length)
  us.foldl (fun s u => s.unaEnd site l u 7) s

/-- The answer to a record of a line (Tables 11.3 and 11.4). -/
def State.lineAnswer (s : State) (site l seq status : Nat) : State :=
  let k := site * 1024 + l
  match (s.una k).find? (fun u => !u.resv && u.seq == seq) with
  | none => s
  | some u =>
    let s := (s.setUna k ((s.una k).erase u)).unaEnd site l u status
    if status = 1 then
      (s.setFld (R.MU_LINE0_STATE site l) (max 1 (s.fld (R.MU_LINE0_STATE site l)))).bumpFld
        (R.MU_LINE2_RDK site l) u.slots
    else if status = 6 ∨ status = 7 then s.lineStuck site l status
    else s

/-- One record is sent on a line: it takes the next SEQ and its slots. One whose gallery is not placed is answered at
once (R261). -/
def State.linePush (s : State) (site l : Nat) (r : Rec) (u : Unans) : State :=
  let seq := s.fld (R.MU_LINE2_SEQ site l)
  let wr := s.fld (R.MU_LINE2_WR site l)
  let ggen := match r.core with
    | some c => s.fld (R.CORE_STATUS_GEN site c)
    | none => s.fld (R.GAL_STATUS_GEN site)
  let dsite := s.siteOfLg (r.dst / 4096)
  let r := { r with
    seq := seq, gen := s.fld (R.MU_LINE1_RGEN site l), ring := s.fld (R.MU_LINE1_RING site l), site := site, line := l,
    lgen := s.fld (R.MU_LINE1_LGEN site l), ggen := ggen,
    slot := wr % 2 ^ s.fld (R.MU_LINE1_SIZE_LOG2 site l), dsite := dsite, epoch := s.epoch }
  let s := (s.bumpFld (R.MU_LINE2_SEQ site l) 1).bumpFld (R.MU_LINE2_WR site l) r.slots
  let s := s.setUna (site * 1024 + l) (s.una (site * 1024 + l) ++ [{ u with seq := seq, slots := r.slots, at_ := s.now }])
  let s := s.addFld (R.MU_MSG_CNT_TX site) 1
  if s.sandboxed site then (s.sandDrop.lineAnswer site l seq 0).bumpFld (R.MU_LINE2_RDK site l) r.slots
  else match dsite with
  | none => (s.addFld (R.RTR_DROP_CNT_OVERRUN (rtrBase site)) 1).lineAnswer site l seq 1
  | some _ =>
    let s := s.noteInj site s.epoch
    s.withNet (s.net ++ [r])

/-- A record and the pad of `p` slots before it (R237); the record's SEQ. -/
def State.lineSend (s : State) (site l p : Nat) (r : Rec) (u : Unans) : State × Nat :=
  let s := if p = 0 then s
    else s.linePush site l { r with kind := 1, slots := p, payload := [], data := 0, info := 0, status := 0 }
      { u with isPad := true, cpl := false, reserved := false, op := none }
  (s.linePush site l r u, s.fld (R.MU_LINE2_SEQ site l))

/-- A send on a DEAD or STUCK line: the status it ends with at once (Table 11.4). -/
def State.lineDead (s : State) (site l : Nat) : Option Nat :=
  match s.fld (R.MU_LINE0_STATE site l) with
  | 1 => some 1
  | 2 => some 7
  | _ => none

/-- The line becomes INVALID: reservations of unanswered records are released, PUTs among them end with TIMEOUT, and one
record names the line and the number of such records (Table 11.4). -/
def State.lineInvalid (s : State) (site l : Nat) : State :=
  if s.fld (R.MU_LINE0_VALID site l) = 0 then s
  else
    let k := site * 1024 + l
    let us := (s.una k).filter (fun u => !u.isPad)
    let sent := us.filter (fun u => !u.resv)
    let t := s.fld (R.MU_LINE0_TASK site l)
    let s := us.foldl (fun s u => match u.op with
      | some op => if u.resv then s else (s.putLost site op).cqRelease site t
      | none => if u.reserved then s.cqRelease site t else s) s
    let s := ((s.setUna k []).setFld (R.MU_LINE0_VALID site l) 0).setFld (R.MU_LINE0_STATE site l) 0
    let s := s.bumpFld (R.MU_LINE1_LGEN site l) 1
    s.ce6 site 7 (leBytes 2 l ++ leBytes 2 sent.length)

/-! ## Completions of engine operations (R242) -/

/-- A thread names a context of a task of the site. -/
def State.ownThread (s : State) (site t thread : Nat) : Bool :=
  s.lgOfSite site == some (thread / 4096) && (
    let b := s.reg (R.CTXBLK site (thread % 4096 / 8))
    getBits b 15 1 == 1 && getBits b 0 6 == t)

/-- What a completion message asks at issue: nothing, a missing ring or line (ILLEGAL_OPERAND), or room that may be
lacking (a stall). -/
inductive CplRoom where
  | fault | stall | own | line (l : Nat)
deriving DecidableEq, Repr

def State.cplRoom (s : State) (site t thread : Nat) : CplRoom :=
  if s.ownThread site t thread then
    if s.fld (R.MU_CQ0_VALID site t) = 0 then .fault else if s.cqFree site t then .own else .stall
  else match s.lineOf site t thread with
    | none => .fault
    | some l => if (s.lineDead site l).isSome || (s.lineRoom site l 1).isSome then .line l else .stall

/-- The reservation of a completion message is made at issue. -/
def State.cplTake (s : State) (site t op : Nat) : CplRoom → State
  | .own => s.cqReserve site t
  | .line l => s.setUna (site * 1024 + l) (s.una (site * 1024 + l) ++ [⟨0, 1, false, false, 0, 0, false, some op, s.now, true, 1, 0⟩])
  | _ => s

/-- The completion message of an engine operation is sent. With its line gone, none is. `c` is the issuing context. -/
def State.cplSend (s : State) (site t op c cls thread tag status info : Nat) (payload : List Byte) : State :=
  let src := s.threadAddr site (coreOfKey c) (ctxOfKey c)
  let r := cplRec cls thread src tag 0 status info payload
  if s.ownThread site t thread then s.cqWrite site t true r
  else match s.lineOf site t thread with
    | none => s
    | some l =>
      let k := site * 1024 + l
      match (s.una k).find? (fun u => u.resv && u.op == some op) with
      | none => s
      | some u =>
        let s := s.setUna k ((s.una k).erase u)
        if (s.lineDead site l).isSome then s
        else (s.lineSend site l 0 r { u with resv := false, op := none, dst := thread }).1

/-- The reservation of a completion message is given back: its operation ends without one. -/
def State.cplDrop (s : State) (site t op thread : Nat) : State :=
  if s.ownThread site t thread then s.cqRelease site t
  else match s.lineOf site t thread with
    | none => s
    | some l => s.setUna (site * 1024 + l) ((s.una (site * 1024 + l)).filter (fun u => !(u.resv && u.op == some op)))

/-! ## Receive rings (R234, R238 to R241, R244) -/

/-- The gallery's endpoints are fenced or its router absorbs (R382). -/
def State.fenced (s : State) (site : Nat) : Bool := s.fld (R.GAL_CTRL_FENCE site) == 1 || (s.gr site).busy

/-- RD and SEQ_NEXT pass voided, padding and returned records at the head (R239). -/
def advRecs : List RingRec → Nat → Nat → List RingRec × Nat × Nat
  | [], rd, sq => ([], rd, sq)
  | r :: rs, rd, sq =>
    if r.seq = sq ∧ (r.st = 1 ∨ r.st = 3) then advRecs rs ((rd + r.slots) % 0x10000) ((sq + 1) % 0x10000)
    else (r :: rs, rd, sq)

/-- A credit return is sent (R239). -/
def State.cretSend (s : State) (site r : Nat) : State :=
  let k := site * 1024 + r
  let g := s.ring k
  let rd := s.fld (R.MU_RING1_RD site r)
  let c : Cret := ⟨g.site, g.line, g.lgen, g.ggen, rd, s.fld (R.MU_RING1_SEQ_NEXT site r), site, g.cls, 0⟩
  (s.setRing k { g with rdSent := rd, since := none }).withCrets (s.crets ++ [c])

/-- The read pointer advances; after max(1, S / 8) slots a credit return is sent. -/
def State.ringAdvance (s : State) (site r : Nat) : State :=
  let k := site * 1024 + r
  let g := s.ring k
  let (recs, rd, sq) := advRecs g.recs (s.fld (R.MU_RING1_RD site r)) (s.fld (R.MU_RING1_SEQ_NEXT site r))
  let s := (s.setFld (R.MU_RING1_RD site r) rd).setFld (R.MU_RING1_SEQ_NEXT site r) sq
  if rd = g.rdSent then s.setRing k { g with recs := recs }
  else
    let s := s.setRing k { g with recs := recs, since := some (g.since.getD s.now) }
    if max 1 (2 ^ s.fld (R.MU_RING0_SIZE_LOG2 site r) / 8) ≤ sub16 rd g.rdSent then s.cretSend site r else s

/-- The number that a handler holds whose ring has become invalid. -/
def noRing : Nat := 2048

/-- A ring's records in SEQ order from SEQ_NEXT, with one more. -/
def insRec (sq : Nat) (x : RingRec) : List RingRec → List RingRec
  | [] => [x]
  | r :: rs => if sub16 x.seq sq < sub16 r.seq sq then x :: r :: rs else r :: insRec sq x rs

/-- The outcome of the checks of Table 11.2 before anything is written: a status, and whether the record is dropped
(check 1) or the place it is written to. -/
def State.recCheck (s : State) (site : Nat) (r : Rec) : Nat × Option Nat :=
  let w := s.reg (R.MU_RING0 site r.ring)
  let t := getBits w 8 6
  if getBits w 63 1 = 0 ∨ getBits w 0 8 ≠ r.gen ∨ getBits w 15 9 ≠ r.src / 4096 then (1, none)
  else if !s.ownThread site t r.dst then (3, none)
  else if r.kind ≠ 1 ∧ s.tableGate site t ≠ .ok then (if s.tableGate site t = .scrubbing then 5 else 4, none)
  else if r.kind ≠ 1 ∧ (s.handlerOf site t r.tag).isNone then (2, none)
  else match s.taskWin site t (getBits w 60 3) (getBits w 28 28 + 64 * r.slot) (64 * r.slots) with
    | none => (4, none)
    | some x =>
      match s.gate site x (64 * r.slots) with
      | .ok => (0, some x)
      | .scrubbing => (5, none)
      | _ => (4, none)

/-- An answer is sent to a record's line. -/
def State.answer (s : State) (r : Rec) (status : Nat) : State :=
  s.withAnswers (s.answers ++ [⟨r.site, r.line, r.lgen, r.ggen, r.seq, status, r.slots, r.core, r.dsite.getD r.site, r.cls, 0⟩])

/-- A record arrives at the message unit of a site (R238); a unit that does not run takes nothing and answers nothing. -/
def State.recArrive (s : State) (site : Nat) (r : Rec) : State :=
  if s.fenced site then s.answer r 6
  else if s.fld (R.MU_CTRL_ENABLE site) = 0 then s
  else
    let (st, place) := s.recCheck site r
    if st = 1 then (s.addFld (R.MSG_DEAD_COUNT site) 1).answer r 1
    else
      let k := site * 1024 + r.ring
      let s := match place with
        | some x => (s.wrGal site x r.image).addFld (R.MU_MSG_CNT_RX site) 1
        | none =>
          let s := s.addFld (R.MU_DROP_CNT_VOID site) 1
          if st = 4 then s.addFld (R.GM_NACK_CNT_CLOSED site) 1
          else if st = 5 then s.addFld (R.GM_NACK_CNT_SCRUB site) 1 else s
      let g := s.ring k
      let x : RingRec := ⟨r.seq, r.slots, if place.isSome ∧ r.kind ≠ 1 then 0 else 1, r.src, r.dst, r.tag, r.slot⟩
      let s := s.setRing k { g with
        recs := insRec (s.fld (R.MU_RING1_SEQ_NEXT site r.ring)) x g.recs
        line := r.line
        lgen := r.lgen
        site := r.site
        cls := r.cls
        ggen := if r.core.isSome then s.fld (R.GAL_STATUS_GEN r.site) else r.ggen }
      (s.answer r st).ringAdvance site r.ring

/-- Handlers of a site that hold a record of a ring hold it no longer: their MSG.RET returns nothing. -/
def State.dropHand (s : State) (site r : Nat) : State :=
  s.withCtxs (s.ctxs.map (fun p => match p.2.inHand with
    | some (q, slot) => if siteOfKey p.1 = site ∧ q = r then (p.1, { p.2 with inHand := some (noRing, slot) }) else p
    | none => p))

/-- A ring becomes invalid: GEN advances, records not yet dispatched are discarded (R244). -/
def State.ringInvalid (s : State) (site r : Nat) : State :=
  if s.fld (R.MU_RING0_VALID site r) = 0 then s
  else (((s.dropHand site r).setFld (R.MU_RING0_VALID site r) 0).bumpFld (R.MU_RING0_GEN site r) 1).setRing
    (site * 1024 + r) RingSt.init

/-- A completion ring becomes invalid (R244). -/
def State.cqInvalid (s : State) (site t : Nat) : State :=
  ((s.dropHand site (1024 + t)).setFld (R.MU_CQ0_VALID site t) 0).setCq (site * 64 + t) []

/-- Numbers of the valid rings, or lines, of a site that meet a test on word 0. -/
def State.validWords (s : State) (lo stride n : Nat) (f : Word → Bool) : List Nat :=
  s.csr.filterMap (fun p =>
    if lo ≤ p.1 ∧ p.1 < lo + stride * n ∧ (p.1 - lo) % stride = 0 ∧ getBits p.2 63 1 = 1 ∧ f p.2 then
      some ((p.1 - lo) / stride)
    else none)

/-- Rings, lines and the completion ring of a task become invalid (R244, Table 11.4). -/
def State.muEndTask (s : State) (site t : Nat) : State :=
  let s := (s.validWords (R.MU_RING0 site 0) 16 1024 (fun w => getBits w 8 6 == t)).foldl (fun s r => s.ringInvalid site r) s
  let s := (s.validWords (R.MU_LINE0 site 0) 32 1024 (fun w => getBits w 55 6 == t)).foldl (fun s l => s.lineInvalid site l) s
  s.cqInvalid site t

/-- Every ring, line and completion ring of a site becomes invalid and the counts are cleared (R244, R254). -/
def State.muReset (s : State) (site : Nat) : State :=
  let s := (s.validWords (R.MU_RING0 site 0) 16 1024 (fun _ => true)).foldl (fun s r => s.ringInvalid site r) s
  let s := (s.validWords (R.MU_LINE0 site 0) 32 1024 (fun _ => true)).foldl (fun s l => s.lineInvalid site l) s
  let s := (List.range 48).foldl (fun s t => s.cqInvalid site t) s
  s.clearRegs [R.MSG_DEAD site, R.MU_DROP_CNT site, R.MU_MSG_CNT site]

/-! ## Dispatch (R233, R240, R241) -/

/-- The first dispatchable record of a list: contiguous SEQs from SEQ_NEXT, present, and no earlier record of its
channel present or in a handler; `seen` holds the channels passed, `n` the records left to scan. -/
def pickRec : List RingRec → Nat → List (Nat × Nat × Nat) → Nat → Option RingRec
  | [], _, _, _ => none
  | _, _, _, 0 => none
  | r :: rs, sq, seen, n + 1 =>
    if r.seq ≠ sq then none
    else if r.st = 0 ∧ !seen.contains (r.src, r.dst, r.tag) then some r
    else pickRec rs ((sq + 1) % 0x10000) (if r.st = 0 ∨ r.st = 2 then (r.src, r.dst, r.tag) :: seen else seen) n

/-- The first dispatchable record of a completion ring. -/
def pickCq : List CqRec → List (Nat × Nat × Nat) → Nat → Option CqRec
  | [], _, _ => none
  | _, _, 0 => none
  | r :: rs, seen, n + 1 =>
    if r.st = 1 ∧ !seen.contains (r.src, r.dst, r.tag) then some r
    else pickCq rs (if r.st = 1 ∨ r.st = 2 then (r.src, r.dst, r.tag) :: seen else seen) n

/-- The handler context of a task that is PARKED for dispatch and has the lowest thread address (R240). -/
def State.idleHandler (s : State) (site t : Nat) : Option Nat :=
  (s.ctxsOf site t).find? (fun k => s.isHandler k && (s.ctx k).st == .parkedDispatch)

/-- A context takes a record: READY at its handler, with the registers of Table 8.3. -/
def State.startHandler (s : State) (site t ring slot win ofs src seq tag : Nat) : Option State :=
  match s.handlerOf site t tag, s.idleHandler site t with
  | some (w, o), some k =>
    let c := s.ctx k
    let sr := (((c.s.put 1 (BitVec.ofNat 64 (win * 2 ^ 28 + ofs + 64 * slot)) 0).put 2 (BitVec.ofNat 64 src) 0).put 3
      (BitVec.ofNat 64 (seq * 2 ^ 16 + tag)) 0).put 4 (BitVec.ofNat 64 s.dripNo) 0
    let pc := s.fld (R.WIN_BASE_BASE site (coreOfKey k) c.win w) * 512 + o
    some (s.setCtx k { c with st := .ready, s := sr, pc := pc % 2 ^ 28, inHand := some (ring, slot) })
  | _, _ => none

/-- A ring, or the completion ring of task `r - 1024`, holds a dispatchable record, and a handler context of its task is
PARKED for dispatch. A ring whose task has no such context waits, and the turn passes over it (log entry 55). -/
def State.mayDispatch (s : State) (site r : Nat) : Bool :=
  if r < 1024 then
    let t := s.fld (R.MU_RING0_TASK site r)
    s.fld (R.MU_RING0_VALID site r) == 1 && !s.frozen (taskM site t) && (s.idleHandler site t).isSome &&
      (pickRec (s.ring (site * 1024 + r)).recs (s.fld (R.MU_RING1_SEQ_NEXT site r)) [] 256).isSome
  else
    let t := r - 1024
    s.fld (R.MU_CQ0_VALID site t) == 1 && !s.frozen (taskM site t) && (s.idleHandler site t).isSome &&
      (pickCq (s.cq (site * 64 + t)) [] 256).isSome

/-- The ring whose turn it is (R240): the first from the one after the last dispatch on, round and round, that may
dispatch. The order is that of the ring numbers, completion rings after receive rings (log entry 55). -/
def State.ringTurn (s : State) (site : Nat) : Option Nat :=
  let rs := (s.validWords (R.MU_RING0 site 0) 16 1024 (fun _ => true) ++
    ((List.range 48).filter (fun t => s.fld (R.MU_CQ0_VALID site t) == 1)).map (· + 1024)).filter (s.mayDispatch site)
  let from_ := s.turns.get site 0
  let least (l : List Nat) : Option Nat := l.foldl (fun b r => match b with
    | some x => some (min x r)
    | none => some r) none
  (least (rs.filter (fun r => decide (from_ ≤ r)))).or (least rs)

/-- A record of a receive ring, or of the completion ring of task `r - 1024`, is dispatched, where it is that ring's
turn. -/
def State.dispatch (s : State) (site r : Nat) : State :=
  if s.fld (R.MU_CTRL_ENABLE site) = 0 ∨ s.ringTurn site ≠ some r then s
  else
  let s := s.withTurns (s.turns.put site (r + 1) 0)
  if r < 1024 then
    let w := s.reg (R.MU_RING0 site r)
    let t := getBits w 8 6
    let k := site * 1024 + r
    let g := s.ring k
    if getBits w 63 1 = 0 || s.frozen (taskM site t) then s
    else match pickRec g.recs (s.fld (R.MU_RING1_SEQ_NEXT site r)) [] 256 with
      | none => s
      | some x =>
        match s.startHandler site t r x.slot (getBits w 60 3) (getBits w 28 28) x.src x.seq x.tag with
        | none => s
        | some s => s.setRing k { g with recs := g.recs.map (fun y => if y.seq = x.seq then { y with st := 2 } else y) }
  else
    let t := r - 1024
    let w := s.reg (R.MU_CQ0 site t)
    let k := site * 64 + t
    if getBits w 63 1 = 0 || s.frozen (taskM site t) then s
    else match pickCq (s.cq k) [] 256 with
      | none => s
      | some x =>
        match s.startHandler site t r x.slot (getBits w 60 3) (getBits w 28 28) x.src x.seq x.tag with
        | none => s
        | some s => s.setCq k ((s.cq k).map (fun y => if y.slot = x.slot then { y with st := 2 } else y))

/-- The record that a handler had in hand is returned (R241). -/
def State.ringReturn (s : State) (site ring slot : Nat) : State :=
  if ring < 1024 then
    let k := site * 1024 + ring
    let g := s.ring k
    (s.setRing k { g with recs := g.recs.map (fun y =>
      if y.st = 2 ∧ y.slot = slot then { y with st := 3 } else y) }).ringAdvance site ring
  else if noRing ≤ ring then s
  else
    let k := site * 64 + (ring - 1024)
    (s.setCq k ((s.cq k).map (fun y => if y.st = 2 ∧ y.slot = slot then { y with st := 3 } else y))).cqAdvance site
      (ring - 1024)

/-! ## Binding (R234, R235, R242) -/

/-- Word 0 of a ring entry may be bound. -/
def State.ringBindOk (s : State) (site r : Nat) (w : Word) : Bool :=
  let sz := getBits w 24 4
  s.fld (R.MU_RING0_VALID site r) == 0 && decide (2 ≤ sz) && decide (sz ≤ 10) && getBits w 28 28 % 64 == 0 &&
    (s.taskWin site (getBits w 8 6) (getBits w 60 3) (getBits w 28 28) (64 * 2 ^ sz)).isSome &&
    (match s.siteOfLg (getBits w 15 9) with
     | some d => s.chamberOf d == s.chamberOf site && (s.chamberOf site).isSome
     | none => false)

/-- The ring is bound: RD and SEQ_NEXT are zero and GEN advances. -/
def State.ringBind (s : State) (site r : Nat) (w : Word) : State :=
  let gen := s.fld (R.MU_RING0_GEN site r)
  let s := s.setReg (R.MU_RING0 site r) (putBits w 0 8 (gen + 1))
  (s.setReg (R.MU_RING1 site r) 0).setRing (site * 1024 + r) RingSt.init

/-- Word 0 of a line entry may be bound. -/
def State.lineBindOk (s : State) (site l : Nat) (w : Word) : Bool :=
  let lo := getBits w 34 21
  let hi := getBits w 13 21
  s.fld (R.MU_LINE0_VALID site l) == 0 && lo / 4096 == hi / 4096 && decide (lo ≤ hi) &&
    (s.validWords (R.MU_LINE0 site 0) 32 1024 (fun v => getBits v 55 6 == getBits w 55 6 &&
      decide (lo ≤ getBits v 13 21) && decide (getBits v 34 21 ≤ hi))).isEmpty

/-- The line is bound: counters zero, LGEN advances, OPEN. -/
def State.lineBind (s : State) (site l : Nat) (w : Word) : State :=
  let s := s.setReg (R.MU_LINE0 site l) (putBits w 61 2 0)
  let s := (s.bumpFld (R.MU_LINE1_LGEN site l) 1).setReg (R.MU_LINE2 site l) 0
  s.setUna (site * 1024 + l) []

/-- Word 0 of a completion-ring entry may be bound. -/
def State.cqBindOk (s : State) (site t : Nat) (w : Word) : Bool :=
  s.fld (R.MU_CQ0_VALID site t) == 0 && decide (2 ≤ getBits w 24 4) && decide (getBits w 24 4 ≤ 10) &&
    getBits w 28 28 % 64 == 0 && (s.taskWin site t (getBits w 60 3) (getBits w 28 28) (64 * 2 ^ getBits w 24 4)).isSome

/-- The completion ring is bound; its counters start from zero (log entry 16). -/
def State.cqBind (s : State) (site t : Nat) (w : Word) : State :=
  ((s.setReg (R.MU_CQ0 site t) w).setReg (R.MU_CQ1 site t) 0).setCq (site * 64 + t) []

/-- A bound ring whose window is this one, of a task with contexts that select the slot on the core, would lie outside
a window of `size` bytes, or the window would lose its VALID (R67). -/
def State.ringsOutside (s : State) (site core slot w : Nat) (valid : Bool) (size : Nat) : Bool :=
  let selects (t : Nat) : Bool :=
    (s.ctxsOf site t).any (fun k => coreOfKey k == core && (s.ctx k).win == slot)
  let bad (t win ofs sz : Nat) : Bool :=
    win == w && (!valid || decide (size < ofs + 64 * 2 ^ sz)) && selects t
  !(s.validWords (R.MU_RING0 site 0) 16 1024 (fun v =>
      bad (getBits v 8 6) (getBits v 60 3) (getBits v 28 28) (getBits v 24 4))).isEmpty ||
    (List.range 48).any (fun t => s.fld (R.MU_CQ0_VALID site t) == 1 &&
      bad t (s.fld (R.MU_CQ0_WIN site t)) (s.fld (R.MU_CQ0_OFS site t)) (s.fld (R.MU_CQ0_SIZE_LOG2 site t)))

end Sys2Proof.Machine
end

