-- ==== Sys2Proof/Machine/Num.lean ====
section
/-! DEFINITION. Number formats and arithmetic (spec/05): every value is taken exactly as a sign, a natural number and a
power of two, and rounded once by the mode in force. -/

namespace Sys2Proof.Machine

/-- A number read from a format of Table 5.1: NaN (signalling or quiet), an infinity, or the exact value
`±m * 2^e`. -/
inductive FV where
  | nan (sig : Bool)
  | inf (neg : Bool)
  | fin (neg : Bool) (m : Nat) (e : Int)
deriving DecidableEq, Repr

/-- A floating format of Table 5.1: exponent and mantissa bits, bias, largest finite code, code of infinity (if any),
canonical NaN code (if any), and whether a value beyond the largest finite saturates (Table 5.5). -/
structure FFmt where
  eb : Nat
  mb : Nat
  bias : Nat
  maxc : Nat
  inf : Option Nat
  nan : Option Nat
  sat : Bool
deriving DecidableEq, Repr

def fmtFP32 : FFmt := ⟨8, 23, 127, 0x7F7FFFFF, some 0x7F800000, some 0x7FC00000, false⟩
def fmtFP16 : FFmt := ⟨5, 10, 15, 0x7BFF, some 0x7C00, some 0x7E00, false⟩
def fmtBF16 : FFmt := ⟨8, 7, 127, 0x7F7F, some 0x7F80, some 0x7FC0, false⟩
def fmtE4M3 : FFmt := ⟨4, 3, 7, 0x7E, none, some 0x7F, true⟩
def fmtE5M2 : FFmt := ⟨5, 2, 15, 0x7B, some 0x7C, some 0x7E, true⟩
def fmtE3M2 : FFmt := ⟨3, 2, 3, 0x1F, none, none, true⟩
def fmtE2M3 : FFmt := ⟨2, 3, 1, 0x1F, none, none, true⟩
def fmtE2M1 : FFmt := ⟨2, 1, 1, 0x7, none, none, true⟩

/-- The five sticky flags of R102. -/
def flagInvalid : Nat := 16
def flagDivZero : Nat := 8
def flagOverflow : Nat := 4
def flagUnderflow : Nat := 2
def flagInexact : Nat := 1

/-- The value of a code of a floating format (R84). -/
def decodeF (f : FFmt) (code : Nat) : FV :=
  let neg := decide ((code >>> (f.eb + f.mb)) % 2 = 1)
  let mag := code % 2 ^ (f.eb + f.mb)
  let e := mag >>> f.mb
  let m := mag % 2 ^ f.mb
  if mag ≤ f.maxc then
    if e = 0 then .fin neg m (1 - (f.bias : Int) - f.mb)
    else .fin neg (m + 2 ^ f.mb) ((e : Int) - f.bias - f.mb)
  else if f.inf = some mag then .inf neg
  else .nan (decide (f.eb ≠ 4) && decide ((m >>> (f.mb - 1)) % 2 = 0))

/-- Does a significand that loses the low `k` bits `d` go up: nearest even, toward zero, stochastic (R92, R93). -/
def roundUp (mode draw sig d k : Nat) : Bool :=
  if d = 0 then false
  else if mode = 0 then decide (2 ^ k < 2 * d) || (decide (2 * d = 2 ^ k) && decide (sig % 2 = 1))
  else if mode = 2 then
    let kk := min k 32
    decide (2 ^ kk ≤ (d >>> (k - kk)) + ((draw % 2 ^ 32) >>> (32 - kk)))
  else false

/-- `m * 2^e` in units of `2^q`, rounded: the kept significand, and whether anything was lost. -/
def quantize (mode draw m : Nat) (e q : Int) : Nat × Bool :=
  if q ≤ e then (m * 2 ^ (e - q).toNat, false)
  else
    let k := (q - e).toNat
    let sig := m >>> k
    let d := m % 2 ^ k
    (if roundUp mode draw sig d k then sig + 1 else sig, decide (d ≠ 0))

/-- The code and flags, before its sign, of a result too large for a format (Table 5.5). -/
def overflowed (f : FFmt) (mode : Nat) : Nat × Nat :=
  (if f.sat || decide (mode = 1) then f.maxc else f.inf.getD f.maxc, flagOverflow ||| flagInexact)

/-- The code and flags of the non-zero exact value `m * 2^e` in a format, before its sign (R91, R102). -/
def encodeMag (f : FFmt) (mode draw m : Nat) (e : Int) : Nat × Nat :=
  let top : Int := (Nat.log2 m : Int) + e
  let emin : Int := 1 - (f.bias : Int)
  let q := max (top - f.mb) (emin - f.mb)
  let (sig, lost) := quantize mode draw m e q
  let code := if sig < 2 ^ f.mb then sig else (((q + f.mb + f.bias).toNat) <<< f.mb) + (sig - 2 ^ f.mb)
  if f.maxc < code then overflowed f mode
  else
    let tiny := decide (top < emin) &&
      decide ((quantize mode draw m e (top - f.mb)).1 < 2 ^ (emin - top + f.mb).toNat)
    (code, (if lost then flagInexact else 0) ||| (if lost && tiny then flagUnderflow else 0))

/-- The sign bit of a format, set for a negative value. -/
def signBit (f : FFmt) (neg : Bool) : Nat := if neg then 2 ^ (f.eb + f.mb) else 0

/-- Does the magnitude `m * 2^e` lie beyond the largest finite value of a format. -/
def beyond (f : FFmt) (m : Nat) (e : Int) : Bool :=
  match decodeF f f.maxc with
  | .fin _ mm em =>
    let b := min e em
    decide (mm * 2 ^ (em - b).toNat < m * 2 ^ (e - b).toNat)
  | _ => false

/-- Conversion of a value to a floating format in a rounding mode: code and flags (R91, Table 5.5). DEDUCED: Table 5.5
judges the value itself, so one beyond the largest finite overflows although rounding alone would bring it back; a result
in FP32 follows IEEE 754 and is judged as rounded (log entry 47). -/
def encodeF (f : FFmt) (mode draw : Nat) : FV → Nat × Nat
  | .nan sig => ((f.nan.getD f.maxc), if sig then flagInvalid else 0)
  | .inf neg =>
    match f.inf with
    | some c => (signBit f neg + c, 0)
    | none => (signBit f neg + f.maxc, flagOverflow ||| flagInexact)
  | .fin neg m e =>
    if m = 0 then (signBit f neg, 0)
    else
      let (c, fl) := if f ≠ fmtFP32 ∧ beyond f m e then overflowed f mode else encodeMag f mode draw m e
      (signBit f neg + c, fl)

/-- The value of an FP32 code. -/
def f32 (code : Nat) : FV := decodeF fmtFP32 (code % 2 ^ 32)

/-- A value rounded to FP32. -/
def toF32 (mode draw : Nat) (v : FV) : Nat × Nat := encodeF fmtFP32 mode draw v

/-- Integer `i * 2^e` as a value; zero has sign +. -/
def ofInt (i e : Int) : FV := .fin (decide (i < 0)) i.natAbs e

/-- The signed significand of a finite value. -/
def sgn (neg : Bool) (m : Nat) : Int := if neg then -(m : Int) else m

/-- Exact sum of two finite values; an exact zero is negative only when both operands are negative zeros or both
negative. -/
def addFin (n1 : Bool) (m1 : Nat) (e1 : Int) (n2 : Bool) (m2 : Nat) (e2 : Int) : FV :=
  let e := min e1 e2
  let t := sgn n1 m1 * 2 ^ (e1 - e).toNat + sgn n2 m2 * 2 ^ (e2 - e).toNat
  if t = 0 then .fin (n1 && n2) 0 e else ofInt t e

/-- Exact sum of two values and the flags the operands raise (R97, R102). -/
def addV : FV → FV → FV × Nat
  | .nan s1, .nan s2 => (.nan false, if s1 || s2 then flagInvalid else 0)
  | .nan s1, _ => (.nan false, if s1 then flagInvalid else 0)
  | _, .nan s2 => (.nan false, if s2 then flagInvalid else 0)
  | .inf a, .inf b => if a = b then (.inf a, 0) else (.nan false, flagInvalid)
  | .inf a, _ => (.inf a, 0)
  | _, .inf b => (.inf b, 0)
  | .fin n1 m1 e1, .fin n2 m2 e2 => (addFin n1 m1 e1 n2 m2 e2, 0)

/-- Exact product of two values and the flags the operands raise. -/
def mulV : FV → FV → FV × Nat
  | .nan s1, .nan s2 => (.nan false, if s1 || s2 then flagInvalid else 0)
  | .nan s1, _ => (.nan false, if s1 then flagInvalid else 0)
  | _, .nan s2 => (.nan false, if s2 then flagInvalid else 0)
  | .inf a, .inf b => (.inf (a ^^ b), 0)
  | .inf a, .fin n m _ => if m = 0 then (.nan false, flagInvalid) else (.inf (a ^^ n), 0)
  | .fin n m _, .inf b => if m = 0 then (.nan false, flagInvalid) else (.inf (n ^^ b), 0)
  | .fin n1 m1 e1, .fin n2 m2 e2 => (.fin (n1 ^^ n2) (m1 * m2) (e1 + e2), 0)

/-- The value with its sign turned. -/
def negV : FV → FV
  | .nan s => .nan s
  | .inf n => .inf (!n)
  | .fin n m e => .fin (!n) m e

/-- Strictly less, for values that are not NaN. -/
def ltV : FV → FV → Bool
  | .inf a, .inf b => a && !b
  | .inf a, .fin _ _ _ => a
  | .fin _ _ _, .inf b => !b
  | .fin n1 m1 e1, .fin n2 m2 e2 =>
    let e := min e1 e2
    decide (sgn n1 m1 * 2 ^ (e1 - e).toNat < sgn n2 m2 * 2 ^ (e2 - e).toNat)
  | _, _ => false

/-- Equal, for values that are not NaN (the two zeros are equal). -/
def eqV (a b : FV) : Bool := !ltV a b && !ltV b a

/-- Is the value a NaN. -/
def isNan : FV → Bool
  | .nan _ => true
  | _ => false

/-- Is the value a signalling NaN. -/
def isSNan : FV → Bool
  | .nan s => s
  | _ => false

/-- Is the value NaN or infinite. -/
def notFinite : FV → Bool
  | .fin _ _ _ => false
  | _ => true

/-- Sum of two FP32 codes, rounded once. -/
def addF32 (mode draw a b : Nat) : Nat × Nat :=
  let (v, fl) := addV (f32 a) (f32 b)
  let (c, g) := toF32 mode draw v
  (c, fl ||| g)

/-- Difference of two FP32 codes, rounded once. -/
def subF32 (mode draw a b : Nat) : Nat × Nat :=
  let (v, fl) := addV (f32 a) (negV (f32 b))
  let (c, g) := toF32 mode draw v
  (c, fl ||| g)

/-- Product of two FP32 codes, rounded once. -/
def mulF32 (mode draw a b : Nat) : Nat × Nat :=
  let (v, fl) := mulV (f32 a) (f32 b)
  let (c, g) := toF32 mode draw v
  (c, fl ||| g)

/-- `a × b + d` on FP32 codes, rounded once. -/
def fmaF32 (mode draw a b d : Nat) : Nat × Nat :=
  let (p, fl) := mulV (f32 a) (f32 b)
  let (v, fl2) := addV p (f32 d)
  let snan := if isSNan (f32 d) then flagInvalid else 0
  let (c, g) := toF32 mode draw v
  (c, fl ||| fl2 ||| snan ||| g)

/-- Canonical FP32 NaN (R91). -/
def nan32 : Nat := 0x7FC00000

/-- MAX of two FP32 codes: the larger value; a NaN operand gives the canonical NaN; of two zeros the positive one
(Table 7.4). -/
def maxF32 (a b : Nat) : Nat × Nat :=
  let x := f32 a
  let y := f32 b
  if isNan x || isNan y then (nan32, if isSNan x || isSNan y then flagInvalid else 0)
  else if ltV x y then (b % 2 ^ 32, 0)
  else if ltV y x then (a % 2 ^ 32, 0)
  else (if a / 2 ^ 31 % 2 = 0 then a % 2 ^ 32 else b % 2 ^ 32, 0)

/-- MIN of two FP32 codes: as `maxF32`, the smaller; of two zeros the negative one (Table 7.4). -/
def minF32 (a b : Nat) : Nat × Nat :=
  let x := f32 a
  let y := f32 b
  if isNan x || isNan y then (nan32, if isSNan x || isSNan y then flagInvalid else 0)
  else if ltV x y then (a % 2 ^ 32, 0)
  else if ltV y x then (b % 2 ^ 32, 0)
  else (if a / 2 ^ 31 % 2 = 1 then a % 2 ^ 32 else b % 2 ^ 32, 0)

/-- Less than; invalid on any NaN (R194). -/
def cmpLtF32 (a b : Nat) : Bool × Nat :=
  let x := f32 a
  let y := f32 b
  if isNan x || isNan y then (false, flagInvalid) else (ltV x y, 0)

/-- Less than or equal; invalid on any NaN (R194). -/
def cmpLeF32 (a b : Nat) : Bool × Nat :=
  let x := f32 a
  let y := f32 b
  if isNan x || isNan y then (false, flagInvalid) else (!ltV y x, 0)

/-- Equal; invalid on a signalling NaN only (R194). -/
def cmpEqF32 (a b : Nat) : Bool × Nat :=
  let x := f32 a
  let y := f32 b
  if isNan x || isNan y then (false, if isSNan x || isSNan y then flagInvalid else 0) else (eqV x y, 0)

/-- One draw of the generator: the new state, which is also the draw (R94). -/
def xorshift (x : Nat) : Nat :=
  let a := x % 2 ^ 32
  let b := a ^^^ (a * 2 ^ 13 % 2 ^ 32)
  let c := b ^^^ (b / 2 ^ 17)
  c ^^^ (c * 2 ^ 5 % 2 ^ 32)

/-- A generator state of zero is replaced (R94). -/
def rngSeed (x : Nat) : Nat := if x % 2 ^ 32 = 0 then 0x9E3779B9 else x % 2 ^ 32

/-- The next `n` draws from a state, in order, and the state after them. -/
def draws : Nat → Nat → List Nat × Nat
  | 0, x => ([], x)
  | n + 1, x =>
    let y := xorshift x
    let (ds, z) := draws n y
    (y :: ds, z)

/-- An FP32 code with a NaN made the canonical one (R91). -/
def canon (a : Nat) : Nat := if isNan (f32 a) then nan32 else a % 2 ^ 32

/-- The magnitude codes within one unit in the last place of a positive real given by its code rounded toward zero and
whether that is exact; the free value picks one of them (R104). -/
def withinUlp (code : Nat) (exact : Bool) (pick : Nat) : Nat :=
  if exact then code - 1 + pick % 3 else code + pick % 2

/-- The magnitude codes within two units in the last place of a positive real, given as in `withinUlp` (R104). -/
def withinUlp2 (code : Nat) (exact : Bool) (pick : Nat) : Nat :=
  if exact then code - 2 + pick % 5 else code - 1 + pick % 4

/-- Reciprocal of an FP32 code (R104, Table 5.8). DESIGN CHOICE: where the operand is so small a subnormal that the exact
reciprocal lies above FP32's largest finite value, R104's bound and Table 5.8 give no result; the free value picks the
largest finite value or infinity, and an infinity sets overflow and inexact (log entry 4). -/
def rcpF32 (a : Nat) : Nat × Nat :=
  match f32 a with
  | .nan s => (nan32, if s then flagInvalid else 0)
  | .inf n => (signBit fmtFP32 n, 0)
  | .fin n m e =>
    if m = 0 then (signBit fmtFP32 n + 0x7F800000, flagDivZero)
    else
      let q := 2 ^ 80 / m
      let exact := decide (q * m = 2 ^ 80)
      let v := if exact then 2 * q else 2 * q + 1
      let (c, fl) := encodeMag fmtFP32 1 0 v (-(81 : Int) - e)
      let r := min (withinUlp c (exact && decide (fl = 0)) (Config.rcpFree (a % 2 ^ 32))) 0x7F800000
      (signBit fmtFP32 n + r, fl ||| (if r = 0x7F800000 then flagOverflow ||| flagInexact else 0))

/-- Reciprocal square root of an FP32 code (R104, Table 5.8). -/
def rsqF32 (a : Nat) : Nat × Nat :=
  match f32 a with
  | .nan s => (nan32, if s then flagInvalid else 0)
  | .inf n => if n then (nan32, flagInvalid) else (0, 0)
  | .fin n m e =>
    if m = 0 then (signBit fmtFP32 n + 0x7F800000, flagDivZero)
    else if n then (nan32, flagInvalid)
    else
      let (m2, e2) := if e % 2 = 0 then (m, e) else (2 * m, e - 1)
      let t := 2 ^ 160 / m2
      let q := Nat.sqrt t
      let exact := decide (q * q * m2 = 2 ^ 160)
      let v := if exact then 2 * q else 2 * q + 1
      let (c, fl) := encodeMag fmtFP32 1 0 v (-(81 : Int) - e2 / 2)
      (withinUlp c (exact && decide (fl = 0)) (Config.rsqFree (a % 2 ^ 32)), fl)

/-- The integer part (toward minus infinity) of a finite value, and whether the value is that integer. -/
def floorV (neg : Bool) (m : Nat) (e : Int) : Int × Bool :=
  if 0 ≤ e then (sgn neg m * 2 ^ e.toNat, true)
  else
    let d : Int := 2 ^ (-e).toNat
    (sgn neg m / d, decide (sgn neg m % d = 0))

/-- Bits of the fixed-point fraction in which exp2 and log2 are enclosed. -/
def fxBits : Nat := 96

/-- `2 ^ 0.b₁b₂…bₙ`, in units of `2 ^ -fxBits`, rounded toward zero: the bits are folded in from the last, each by one
square root. -/
def exp2Frac : Nat → Nat → Nat
  | 0, _ => 2 ^ fxBits
  | n + 1, f =>
    let y := exp2Frac n (f % 2 ^ n)
    Nat.sqrt ((if 2 ^ n ≤ f then 2 * y else y) * 2 ^ fxBits)

/-- The first `n` bits of the fraction of log2 of `y * 2^-2·fxBits`, a number from 1 to 2: each squaring gives one bit. -/
def log2Frac : Nat → Nat → Nat → Nat
  | 0, _, acc => acc
  | n + 1, y, acc =>
    let z := y * y / 2 ^ (2 * fxBits)
    if 2 * 2 ^ (2 * fxBits) ≤ z then log2Frac n (z / 2) (2 * acc + 1) else log2Frac n z (2 * acc)

/-- exp2 of an FP32 code (R104, Table 5.8). The exact result is enclosed to more places than decide its FP32 neighbours;
the free value picks a code within two units in the last place of it. The result beyond FP32's range is +infinity with
overflow; a subnormal or +0 sets underflow if inexact. -/
def exp2F32 (a : Nat) : Nat × Nat :=
  match f32 a with
  | .nan s => (nan32, if s then flagInvalid else 0)
  | .inf n => (if n then 0 else 0x7F800000, 0)
  | .fin n m e =>
    let (k, exact) := floorV n m e
    if 128 ≤ k then (0x7F800000, flagOverflow ||| flagInexact)
    else
      let frac := if exact then 0 else ((floorV n m (e + fxBits)).1 - k * 2 ^ fxBits).toNat
      let y := exp2Frac fxBits frac
      let at_ := max k (-512)
      let (c, fl) := encodeMag fmtFP32 1 0 (if exact then 2 * y else 2 * y + 1) (at_ - fxBits - 1)
      let r := min (withinUlp2 c (decide (fl = 0)) (Config.exp2Free (a % 2 ^ 32))) 0x7F7FFFFF
      (r, if exact && decide (fl = 0) then 0 else flagInexact ||| (if r < 2 ^ 23 then flagUnderflow else 0))

/-- log2 of an FP32 code (R104, Table 5.8): as `exp2F32`. The logarithm of 1 is 0, and the codes within two units of it are
those of either sign. -/
def log2F32 (a : Nat) : Nat × Nat :=
  match f32 a with
  | .nan s => (nan32, if s then flagInvalid else 0)
  | .inf n => if n then (nan32, flagInvalid) else (0x7F800000, 0)
  | .fin n m e =>
    let pick := Config.log2Free (a % 2 ^ 32)
    if m = 0 then (0xFF800000, flagDivZero)
    else if n then (nan32, flagInvalid)
    else
      let top : Int := (Nat.log2 m : Int) + e
      let pow := decide (m = 2 ^ Nat.log2 m)
      if pow && decide (top = 0) then (if pick % 5 < 3 then pick % 5 else 2 ^ 31 + (pick % 5 - 2), 0)
      else
        let frac := if pow then 0 else log2Frac fxBits (m * 2 ^ (2 * fxBits) / 2 ^ Nat.log2 m) 0
        let v : Int := top * 2 ^ fxBits + frac
        let neg := decide (top < 0)
        let mag := if pow then 2 * v.natAbs else if neg then 2 * v.natAbs - 1 else 2 * v.natAbs + 1
        let c := (encodeMag fmtFP32 1 0 mag (-(fxBits : Int) - 1)).1
        (signBit fmtFP32 neg + withinUlp2 c pow pick, if pow then 0 else flagInexact)

/-- Rounding of `m * 2^e` to an integer by the mode; the integer's magnitude and whether anything was lost. -/
def roundInt (mode draw m : Nat) (e : Int) : Nat × Bool := quantize mode draw m e 0

/-- Is the finite value `±m * 2^e` above an integer. -/
def aboveInt (neg : Bool) (m : Nat) (e i : Int) : Bool := ltV (ofInt i 0) (.fin neg m e)

/-- Conversion to a `w`-bit two's-complement integer with saturation (Table 5.5): value and flags. As in `encodeF`, the value
itself is held to the range. -/
def toIntSat (w mode draw : Nat) : FV → Int × Nat
  | .nan _ => (0, flagInvalid)
  | .inf n => (if n then -(2 ^ (w - 1) : Nat) else (2 ^ (w - 1) - 1 : Nat), flagInvalid)
  | .fin n m e =>
    let (r, lost) := roundInt mode draw m e
    let v := sgn n r
    if aboveInt (!n) m e (2 ^ (w - 1) : Nat) then (-(2 ^ (w - 1) : Nat), flagInvalid)
    else if aboveInt n m e (2 ^ (w - 1) - 1 : Nat) then ((2 ^ (w - 1) - 1 : Nat), flagInvalid)
    else (v, if lost then flagInexact else 0)

/-- floor(log2) of the magnitude of a non-zero finite value. -/
def floorLog2 : FV → Int
  | .fin _ m e => (Nat.log2 m : Int) + e
  | _ => 0

/-- The largest magnitude of a list of finite values, as a value. -/
def amaxV (vs : List FV) : FV :=
  vs.foldl (fun a v => match v with
    | .fin _ m e => if ltV a (.fin false m e) then .fin false m e else a
    | _ => a) (.fin false 0 0)

/-- Multiplication by a power of two, exactly. -/
def scaleV (k : Int) : FV → FV
  | .fin n m e => .fin n m (e + k)
  | v => v

/-- The element formats of MX (R86): E4M3, E5M2, E3M2, E2M3, E2M1, INT8. -/
inductive MXElem where
  | e4m3 | e5m2 | e3m2 | e2m3 | e2m1 | int8
deriving DecidableEq, Repr

/-- Floating layout of an MX element; MXINT8 has none. -/
def MXElem.fmt : MXElem → Option FFmt
  | .e4m3 => some fmtE4M3
  | .e5m2 => some { fmtE5M2 with inf := some 0x7C }
  | .e3m2 => some fmtE3M2
  | .e2m3 => some fmtE2M3
  | .e2m1 => some fmtE2M1
  | .int8 => none

/-- emax of Table 5.3. -/
def MXElem.emax : MXElem → Int
  | .e4m3 => 8
  | .e5m2 => 15
  | .e3m2 => 4
  | .e2m3 => 2
  | .e2m1 => 2
  | .int8 => 0

/-- Bits of one element. -/
def MXElem.bits : MXElem → Nat
  | .e4m3 => 8
  | .e5m2 => 8
  | .e3m2 => 6
  | .e2m3 => 6
  | .e2m1 => 4
  | .int8 => 8

/-- One element of an MX block from a value already scaled (R87): a value beyond the largest finite saturates and sets
overflow. DESIGN CHOICE: an MXINT8 element never sets underflow; Table 5.5 names it for an MX element that is zero or
subnormal, and Table 5.1 gives MXINT8 no subnormals (log entry 48). -/
def mxElem (k : MXElem) (mode draw : Nat) (v : FV) : Nat × Nat :=
  match k.fmt with
  | some f => encodeF f mode draw v
  | none =>
    match v with
    | .fin n m e =>
      let (r, lost) := roundInt mode draw m (e + 6)
      if aboveInt false m (e + 6) 127 then (toBits 8 (sgn n 127), flagOverflow ||| flagInexact)
      else (toBits 8 (sgn n r), if lost then flagInexact else 0)
    | _ => (0, 0)

/-- The value of an MX element code before its scale. -/
def mxValue (k : MXElem) (code : Nat) : FV :=
  match k.fmt with
  | some f => decodeF f code
  | none => ofInt (sextN 8 code) (-6)

/-- Quantize values to one MX block: scale, element codes, flags (R87). `ds` are the draws, one per element. DESIGN CHOICE: a
signalling NaN among the values makes the block NaN and sets no flag, here and in `bsiEncode`: Table 5.5's MX and BSI12 rows
name none, where its FP16 row names invalid (log entry 48). -/
def mxQuantize (k : MXElem) (mode : Nat) (ds : List Nat) (vs : List FV) : Nat × List Nat × Nat :=
  if vs.any notFinite then (0xFF, vs.map (fun _ => 0), 0)
  else
    let am := amaxV vs
    match am with
    | .fin _ m _ =>
      if m = 0 then (0, vs.map (fun _ => 0), 0)
      else
        let s := max (-127) (min 127 (floorLog2 am - k.emax))
        let rs := (vs.zip (ds ++ List.replicate vs.length 0)).map (fun p => mxElem k mode p.2 (scaleV (-s) p.1))
        ((s + 127).toNat, rs.map (·.1), rs.foldl (fun a r => a ||| r.2) 0)
    | _ => (0xFF, [], 0)

/-- The value of an MX element under its block's scale (R86). -/
def mxRead (k : MXElem) (scale code : Nat) : FV :=
  if scale = 0xFF then .nan false else scaleV ((scale : Int) - 127) (mxValue k code)

/-- Conversion of an exactly known MX value to FP32 (R90): exact but for magnitudes of 2^128 and more. -/
def mxToF32 (k : MXElem) (scale code : Nat) : Nat × Nat :=
  match mxRead k scale code with
  | .fin n m e =>
    if m ≠ 0 && decide (128 ≤ floorLog2 (.fin n m e)) then
      (signBit fmtFP32 n + 0x7F800000, flagOverflow ||| flagInexact)
    else toF32 0 0 (.fin n m e)
  | v => toF32 0 0 v

/-- Round the 16 values of a BSI12 block for an exponent (R89). -/
def bsiRound (mode : Nat) (ds : List Nat) (e : Nat) (vs : List FV) : List (Int × Bool) :=
  (vs.zip (ds ++ List.replicate vs.length 0)).map (fun p => match p.1 with
    | .fin n m ex =>
      let (r, lost) := roundInt mode p.2 m (ex + (137 - (e : Int)))
      (sgn n r, lost)
    | _ => (0, false))

/-- The re-encoding loop of R89: the exponent rises until every magnitude fits or it is 254. -/
def bsiLoop : Nat → Nat → List Nat → Nat → List FV → Nat × List (Int × Bool)
  | 0, mode, ds, e, vs => (e, bsiRound mode ds e vs)
  | fuel + 1, mode, ds, e, vs =>
    let rs := bsiRound mode ds e vs
    if rs.all (fun r => decide (r.1.natAbs ≤ 2047)) || decide (e = 254) then (e, rs)
    else bsiLoop fuel mode ds (e + 1) vs

/-- Encode 16 values to one BSI12 block: exponent, 12-bit elements, flags (R89). -/
def bsiEncode (mode : Nat) (ds : List Nat) (vs : List FV) : Nat × List Nat × Nat :=
  if vs.any notFinite then (0xFF, vs.map (fun _ => 0), 0)
  else
    match amaxV vs with
    | .fin n m e =>
      if m = 0 then (0, vs.map (fun _ => 0), 0)
      else
        let e0 := (max 0 (min 254 (floorLog2 (.fin n m e) + 127))).toNat
        let (ex, rs) := bsiLoop 2 mode ds e0 vs
        (ex, rs.map (fun r => toBits 12 (max (-2047) (min 2047 r.1))),
          if rs.any (fun r => r.2 || decide (2047 < r.1.natAbs)) then flagInexact else 0)
    | _ => (0xFF, [], 0)

/-- The value of a BSI12 element (R88). -/
def bsiRead (e code : Nat) : FV :=
  if e = 0xFF then .nan false else ofInt (sextN 12 code) ((e : Int) - 137)

/-- Partial of a long accumulator: its fixed-point value at weight `2^(A-64)` and its status bits (0 NaN, 1 +inf,
2 -inf, 3 out of range), by R98 and R99. -/
def longPartial (anchor : Int) : FV → Int × Nat
  | .nan _ => (0, 1)
  | .inf n => (0, if n then 4 else 2)
  | .fin n m e =>
    if m ≠ 0 && decide (anchor + 48 ≤ floorLog2 (.fin n m e)) then (0, 8)
    else
      let (r, _) := quantize 0 0 m e (anchor - 64)
      (sgn n r, 0)

/-- The conversion of a partial to fixed point is inexact (R98). -/
def longInexact (anchor : Int) : FV → Bool
  | .fin _ m e => !(m ≠ 0 && decide (anchor + 48 ≤ floorLog2 (.fin false m e))) && (quantize 0 0 m e (anchor - 64)).2
  | _ => false

/-- The value a long accumulator and its status bits stand for, and the flags and LONG_RANGE mark of R99. -/
def longResult (anchor acc : Int) (status : Nat) : FV × Nat × Bool :=
  if bitN status 0 = 1 || (bitN status 1 = 1 && bitN status 2 = 1) then (.nan false, flagInvalid, false)
  else if bitN status 1 = 1 then (.inf false, 0, false)
  else if bitN status 2 = 1 then (.inf true, 0, false)
  else if bitN status 3 = 1 then (.nan false, flagInvalid, true)
  else (ofInt acc (anchor - 64), 0, false)

end Sys2Proof.Machine
end

