-- ==== Sys2Proof/Machine/Tensor.lean ====
section
/-! DEFINITION. Tensors in gallery memory: formats, layouts of operands (R85, R216, R217), the geometry of a tile
(R112, R218), its accumulation (R96, R97), and the rows that the curtain's read and write units move (R133, R135). -/

namespace Sys2Proof.Machine

/-! ## Formats (Table 7.7) -/

/-- Bits of one element of a format. -/
def fmtBits (f : Nat) : Nat :=
  match f with
  | 0 => 32
  | 1 => 16
  | 2 => 16
  | 7 => 6
  | 8 => 6
  | 9 => 4
  | 12 => 4
  | 13 => 12
  | _ => 8

/-- The MX element of a format code. -/
def mxOf (f : Nat) : Option MXElem :=
  match f with
  | 5 => some .e4m3
  | 6 => some .e5m2
  | 7 => some .e3m2
  | 8 => some .e2m3
  | 9 => some .e2m1
  | 10 => some .int8
  | _ => none

def isMx (f : Nat) : Bool := decide (5 ≤ f) && decide (f ≤ 10)
def isInt (f : Nat) : Bool := f == 11 || f == 12
def isB16 (f : Nat) : Bool := f == 1 || f == 2
def isBsi (f : Nat) : Bool := f == 13
def is4 (f : Nat) : Bool := f == 9 || f == 12

/-- The floating layout of an element format that has no block scale. -/
def fltOf (f : Nat) : Option FFmt :=
  match f with
  | 0 => some fmtFP32
  | 1 => some fmtFP16
  | 2 => some fmtBF16
  | 3 => some fmtE4M3
  | 4 => some fmtE5M2
  | _ => none

/-- Quotient rounded up. -/
def ceilDiv (a b : Nat) : Nat := (a + b - 1) / b

/-! ## Elements in memory (R85, R88, R217) -/

/-- The code at a bit offset of an array in gallery memory. -/
def State.rdBits (s : State) (site base bit w : Nat) : Nat :=
  (s.rdNat (galKey site (base + bit / 8)) ((bit % 8 + w + 7) / 8) >>> (bit % 8)) % 2 ^ w

/-- The state with a code written at a bit offset; the neighbouring bits keep their values. -/
def State.wrBits (s : State) (site base bit w v : Nat) : State :=
  let n := (bit % 8 + w + 7) / 8
  let old := s.rdNat (galKey site (base + bit / 8)) n
  s.wrGal site (base + bit / 8) (leBytes n (old - ((old >>> (bit % 8)) % 2 ^ w) <<< (bit % 8) + (v % 2 ^ w) <<< (bit % 8)))

/-- Element `i` of a packed array. -/
def State.elem (s : State) (site base f i : Nat) : Nat := s.rdBits site base (i * fmtBits f) (fmtBits f)

/-- The line of BSI12 block `b` of a segmented operand, relative to its base, and the block's slot in the line. -/
def bsiLine (b : Nat) : Nat := b / 512 * 13312 + b % 512 / 20 * 512
def bsiSlot (b : Nat) : Nat := b % 512 % 20

/-- The value of element `i` of BSI12 block `b`. -/
def State.bsiElem (s : State) (site base b i : Nat) : FV :=
  bsiRead (s.rdNat (galKey site (base + bsiLine b + 480 + bsiSlot b)) 1)
    (s.rdBits site (base + bsiLine b + 24 * bsiSlot b) (12 * i) 12)

/-- A subnormal input of the MXE's OFP8 and MX operands is zero of the same sign (Table 5.7). -/
def flushV (f : FFmt) (code : Nat) : FV :=
  let neg := decide ((code >>> (f.eb + f.mb)) % 2 = 1)
  if code % 2 ^ (f.eb + f.mb) < 2 ^ f.mb then .fin neg 0 0 else decodeF f code

/-- The value that the MXE takes from an element code without its block scale. -/
def mxeValue (f code : Nat) : FV :=
  match f with
  | 1 => decodeF fmtFP16 code
  | 2 => decodeF fmtBF16 code
  | 3 => flushV fmtE4M3 code
  | 4 => flushV fmtE5M2 code
  | 11 => ofInt (sextN 8 code) 0
  | 12 => ofInt (sextN 4 code) 0
  | _ =>
    match mxOf f with
    | some k => match k.fmt with
      | some g => flushV g code
      | none => mxValue k code
    | none => .nan false

/-- A value under an E8M0 scale code (R86). -/
def scaled (scale : Nat) (v : FV) : FV := if scale = 0xFF then .nan false else scaleV ((scale : Int) - 127) v

/-! ## The geometry of a tile -/

/-- Either operand is BF16 or FP16 (R96); either is BSI12; both are 4-bit (R112). -/
def Tile.b16 (t : Tile) : Bool := isB16 t.fmtA || isB16 t.fmtW
def Tile.bsi (t : Tile) : Bool := isBsi t.fmtA || isBsi t.fmtW
def Tile.both4 (t : Tile) : Bool := is4 t.fmtA && is4 t.fmtW

/-- Reduction positions per chunk (R112). -/
def Tile.kc (t : Tile) : Nat := (if t.both4 then 256 else 128) * (if t.sparse then 2 else 1)

/-- Chunks. -/
def Tile.chunks (t : Tile) : Nat := ceilDiv t.k t.kc

/-- Weight elements kept per column of a chunk. -/
def Tile.kept (t : Tile) : Nat := if t.sparse then t.kc / 2 else t.kc

/-- The tile is empty (R215). -/
def Tile.empty (t : Tile) : Bool := t.m == 0 || t.n == 0 || t.k == 0

/-- Reduction positions of an operand that are read: with PAD = 1 only whole blocks beyond K are left out (R218). -/
def Tile.kRead (t : Tile) (f : Nat) : Nat :=
  if !t.pad then t.chunks * t.kc
  else if isBsi f then ceilDiv t.k 16 * 16
  else if isMx f then ceilDiv t.k 32 * 32
  else t.k

/-- Activation rows and weight columns that are read. -/
def Tile.mRead (t : Tile) : Nat := if t.pad then t.m else 128
def Tile.nRead (t : Tile) : Nat := if t.pad then t.n else 128

/-- Bytes between the scale rows of MX activations. -/
def Tile.ascStride (t : Tile) : Nat := t.aR.stride * 8 / (32 * fmtBits t.fmtA)

/-- The bytes that end a BSI12 read at block `b`. -/
def bsiEnd (b : Nat) : Nat := bsiLine b + 481 + bsiSlot b

/-- Bytes of the activation range, from its base. -/
def Tile.aLen (t : Tile) : Nat :=
  if isBsi t.fmtA then bsiEnd ((t.mRead - 1) * ceilDiv t.k 16 + ceilDiv (t.kRead 13) 16 - 1)
  else (t.mRead - 1) * t.aR.stride + ceilDiv (t.kRead t.fmtA * fmtBits t.fmtA) 8

/-- Bytes of the activation scale array. -/
def Tile.ascLen (t : Tile) : Nat := (t.mRead - 1) * t.ascStride + ceilDiv (t.kRead t.fmtA) 32

/-- Reduction positions of the last chunk that are read from an operand of format `f`. -/
def Tile.lastRead (t : Tile) (f : Nat) : Nat := t.kRead f - (t.chunks - 1) * t.kc

/-- Bytes of one weight chunk of which `p` positions of the last column are read. -/
def Tile.chunkLen (t : Tile) (p : Nat) : Nat :=
  if isBsi t.fmtW then bsiEnd (8 * (t.nRead - 1) + ceilDiv p 16 - 1)
  else ceilDiv (((t.nRead - 1) * t.kept + (if t.sparse then ceilDiv p 4 * 2 else p)) * fmtBits t.fmtW) 8

/-- Bytes of the weight range. -/
def Tile.wLen (t : Tile) : Nat :=
  max ((t.chunks - 1) * t.wR.stride + t.chunkLen (t.lastRead t.fmtW))
    (if t.chunks = 1 then 0 else (t.chunks - 2) * t.wR.stride + t.chunkLen t.kc)

/-- Bytes of the weight scale array, and of the sparsity metadata. -/
def Tile.wscLen (t : Tile) : Nat :=
  (t.chunks - 1) * (t.kc / 32 * 128) + (t.nRead - 1) * (t.kc / 32) + ceilDiv (t.lastRead t.fmtW) 32
def Tile.metaLen (t : Tile) : Nat :=
  (t.chunks - 1) * (t.kc * 16) + ceilDiv ((t.nRead - 1) * (t.kc / 4) + ceilDiv (t.lastRead t.fmtW) 4) 2

/-- Bytes of the starting-value block. -/
def Tile.startLen (t : Tile) : Nat := if t.pad then (t.m - 1) * 512 + 4 * t.n else 128 * 512

/-- Bytes of an output of `m` rows and `n` columns in a format at a stride, before any `AUX` words. -/
def outLen (f m n stride : Nat) : Nat :=
  if isBsi f then bsiLine (8 * m - 1) + 512 else (m - 1) * stride + ceilDiv (n * fmtBits f) 8

/-- The source ranges of a tile, as gallery-local offset and length: activations, weights, their scale arrays, metadata,
starting values. -/
def Tile.srcs (t : Tile) : List (Nat × Nat) :=
  [(t.aR.base, t.aLen), (t.wR.base, t.wLen)] ++
  (if isMx t.fmtA then [(t.asc, t.ascLen)] else []) ++ (if isMx t.fmtW then [(t.wsc, t.wscLen)] else []) ++
  (if t.sparse then [(t.metaBase, t.metaLen)] else []) ++ (if t.acc then [(t.start, t.startLen)] else [])

/-- Two byte ranges share a byte. -/
def rangesMeet (a b : Nat × Nat) : Bool :=
  decide (a.1 < b.1 + b.2) && decide (b.1 < a.1 + a.2) && decide (0 < a.2) && decide (0 < b.2)

/-! ## Operand values (R216) -/

/-- Activation (m, p). -/
def State.actVal (s : State) (site : Nat) (t : Tile) (m p : Nat) : FV :=
  if isBsi t.fmtA then s.bsiElem site t.aR.base (m * ceilDiv t.k 16 + p / 16) (p % 16)
  else
    let v := mxeValue t.fmtA (s.elem site (t.aR.base + m * t.aR.stride) t.fmtA p)
    if isMx t.fmtA then scaled (s.rdNat (galKey site (t.asc + m * t.ascStride + p / 32)) 1) v else v

/-- The metadata entry of a group of four positions of a column (R113). -/
def State.metaOf (s : State) (site : Nat) (t : Tile) (c n g : Nat) : Nat :=
  s.rdBits site (t.metaBase + c * (t.kc * 16)) (4 * (n * (t.kc / 4) + g)) 4

/-- The element kept for a position of a column, if it is kept. -/
def State.keptIdx (s : State) (site : Nat) (t : Tile) (c n pos : Nat) : Option Nat :=
  if !t.sparse then some (n * t.kept + pos)
  else
    let e := s.metaOf site t c n (pos / 4)
    if pos % 4 = e % 4 then some (n * t.kept + 2 * (pos / 4))
    else if pos % 4 = e / 4 then some (n * t.kept + 2 * (pos / 4) + 1)
    else none

/-- Weight (p, n), if it is kept. -/
def State.wgtVal (s : State) (site : Nat) (t : Tile) (n p : Nat) : Option FV :=
  let c := p / t.kc
  let pos := p % t.kc
  let base := t.wR.base + c * t.wR.stride
  if isBsi t.fmtW then some (s.bsiElem site base (8 * n + pos / 16) (pos % 16))
  else (s.keptIdx site t c n pos).map (fun i =>
    let v := mxeValue t.fmtW (s.elem site base t.fmtW i)
    if isMx t.fmtW then
      scaled (s.rdNat (galKey site (t.wsc + c * (t.kc / 32 * 128) + n * (t.kc / 32) + pos / 32)) 1) v
    else v)

/-- Some metadata entry that the tile reads is equal or descending (R113). -/
def State.badSparse (s : State) (site : Nat) (t : Tile) : Bool :=
  t.sparse && (List.range t.n).any (fun n => (List.range (ceilDiv t.k 4)).any (fun g =>
    let e := s.metaOf site t (g / (t.kc / 4)) n (g % (t.kc / 4))
    decide (e / 4 ≤ e % 4)))

/-! ## Masks (R116) -/

/-- Reduction position `p` takes part. -/
def Tile.posOn (t : Tile) (p : Nat) : Bool :=
  t.os || decide (p / t.kc + 1 < t.chunks) || bitN t.rowMask (p % t.kc / (t.kc / 128)) == 1

/-- Output element (m, n) is enabled. -/
def Tile.outOn (t : Tile) (m n : Nat) : Bool :=
  decide (m < t.m) && decide (n < t.n) && bitN t.colMask n == 1 && (!t.os || bitN t.rowMask m == 1)

/-! ## Accumulation (R96, R97) -/

/-- An accumulator, or a group's exact sum so far, with the flags raised. -/
def addAcc (acc : Nat) (v : FV) (fl : Nat) : Nat × Nat :=
  let (w, f1) := addV (f32 acc) v
  let (c, f2) := toF32 0 0 w
  (c, fl ||| f1 ||| f2)

/-- One group's products summed exactly; none where no position of it takes part. `act` gives the activations. -/
def State.groupSum (s : State) (site : Nat) (t : Tile) (act : Nat → Nat → FV) (m n : Nat) :
    List Nat → Option FV → Nat → Option FV × Nat
  | [], g, fl => (g, fl)
  | p :: ps, g, fl =>
    if !t.posOn p then s.groupSum site t act m n ps g fl
    else match s.wgtVal site t n p with
      | none => s.groupSum site t act m n ps g fl
      | some w =>
        let (x, f1) := mulV (act m p) w
        match g with
        | none => s.groupSum site t act m n ps (some x) (fl ||| f1)
        | some g =>
          let (y, f2) := addV g x
          s.groupSum site t act m n ps (some y) (fl ||| f1 ||| f2)

/-- Products of BF16 or FP16 operands: each is rounded once as it is added. -/
def State.accEach (s : State) (site : Nat) (t : Tile) (act : Nat → Nat → FV) (m n : Nat) :
    List Nat → Nat → Nat → Nat × Nat
  | [], acc, fl => (acc, fl)
  | p :: ps, acc, fl =>
    if !t.posOn p then s.accEach site t act m n ps acc fl
    else match s.wgtVal site t n p with
      | none => s.accEach site t act m n ps acc fl
      | some w =>
        let (x, f1) := mulV (act m p) w
        let (a, f2) := addAcc acc x (fl ||| f1)
        s.accEach site t act m n ps a f2

/-- The positions of group `j` of `g`. -/
def Tile.group (t : Tile) (g j : Nat) : List Nat := ((List.range g).map (fun i => g * j + i)).filter (fun p => decide (p < t.k))

/-- Groups of `g` positions: each sum is rounded once to FP32 and added. -/
def State.accGroups (s : State) (site : Nat) (t : Tile) (act : Nat → Nat → FV) (m n g : Nat) :
    List Nat → Nat → Nat → Nat × Nat
  | [], acc, fl => (acc, fl)
  | j :: js, acc, fl =>
    match s.groupSum site t act m n (t.group g j) none fl with
    | (none, f1) => s.accGroups site t act m n g js acc f1
    | (some v, f1) =>
      let (c, f2) := toF32 0 0 v
      let (a, f3) := addAcc acc (f32 c) (f1 ||| f2)
      s.accGroups site t act m n g js a f3

/-- The starting value of an output element (R118). -/
def State.startVal (s : State) (site : Nat) (t : Tile) (m n : Nat) : Nat :=
  if t.acc then s.rdNat (galKey site (t.start + 512 * m + 4 * n)) 4 else 0

/-- Positions that are summed exactly before they are rounded (R96). -/
def Tile.groupLen (t : Tile) : Nat := if t.bsi then 16 else 32

/-- Output element (m, n) as an FP32 code, and the flags. -/
def State.tileElem (s : State) (site : Nat) (t : Tile) (act : Nat → Nat → FV) (m n : Nat) : Nat × Nat :=
  let a0 := s.startVal site t m n
  if t.b16 then s.accEach site t act m n (List.range t.k) a0 0
  else s.accGroups site t act m n t.groupLen (List.range (ceilDiv t.k t.groupLen)) a0 0

/-- Minus infinity in FP32: what a masked element arrives as (R133). -/
def negInf32 : Nat := 0xFF800000

/-- Output row `m` of a tile: 128 codes, and the flags. -/
def State.tileRow (s : State) (site : Nat) (t : Tile) (act : Nat → Nat → FV) (m : Nat) : List Nat × Nat :=
  (List.range 128).foldl (fun acc n =>
    if t.outOn m n then
      let (c, fl) := s.tileElem site t act m n
      (acc.1 ++ [c], acc.2 ||| fl)
    else (acc.1 ++ [negInf32], acc.2)) ([], 0)

/-- Every output row of a tile. -/
def State.tileRows (s : State) (site : Nat) (t : Tile) (act : Nat → Nat → FV) : List (List Nat) × Nat :=
  (List.range t.m).foldl (fun acc m =>
    let (r, fl) := s.tileRow site t act m
    (acc.1 ++ [r], acc.2 ||| fl)) ([], 0)

/-! ## The curtain's read and write units -/

/-- Element (r, n) of a run's input, widened to FP32 (R90, R146). -/
def State.runElem (s : State) (site f : Nat) (g : Rng) (r n : Nat) : Nat :=
  let code := s.elem site (g.base + r * g.stride) f n
  match fltOf f with
  | some k => if f = 0 then code else (encodeF fmtFP32 0 0 (decodeF k code)).1
  | none => (toF32 0 0 (ofInt (sextN (fmtBits f) code) 0)).1

/-- Element (r, n) of a run's input is a signalling NaN that is widened, which sets the invalid flag (R91, R102). An FP32
element reaches the straws as it is. -/
def State.runSNan (s : State) (site f : Nat) (g : Rng) (r n : Nat) : Bool :=
  match fltOf f with
  | some k => f != 0 && isSNan (decodeF k (s.elem site (g.base + r * g.stride) f n))
  | none => false

/-- Where an item's output goes: format, rounding mode, base and stride, MX scale array. -/
structure Dst where
  fmt : Nat
  mode : Nat
  base : Nat
  stride : Nat
  dsc : Nat
deriving DecidableEq, Repr

/-- One draw for each rounded output element under stochastic rounding: the draw and the generator's next state. -/
def drawIf (mode rng : Nat) (on : Bool) : Nat × Nat :=
  if mode = 2 && on then let x := xorshift rng; (x, x) else (0, rng)

/-- The draws of a list of elements: one for each that is enabled. -/
def drawList (mode : Nat) : List (Nat × Bool) → Nat → List Nat × Nat
  | [], rng => ([], rng)
  | x :: xs, rng =>
    let (d, rng) := drawIf mode rng x.2
    let (ds, rng) := drawList mode xs rng
    (d :: ds, rng)

/-- Conversion of one FP32 code to a format without blocks (R91). -/
def convOne (f mode draw code : Nat) : Nat × Nat :=
  match fltOf f with
  | some k => if f = 0 then (code, 0) else encodeF k mode draw (f32 code)
  | none =>
    let (i, fl) := toIntSat (fmtBits f) mode draw (f32 code)
    (toBits (fmtBits f) i, fl)

/-- The enabled elements of a row, from column `n` up, converted and written. -/
def State.wrElems (s : State) (site : Nat) (d : Dst) (row n : Nat) :
    List (Nat × Bool) → Nat → Nat → State × Nat × Nat
  | [], rng, fl => (s, rng, fl)
  | (c, on) :: xs, rng, fl =>
    if on then
      let (dr, rng) := drawIf d.mode rng true
      let (v, f1) := convOne d.fmt d.mode dr c
      (s.wrBits site (d.base + row * d.stride) (n * fmtBits d.fmt) (fmtBits d.fmt) v).wrElems site d row (n + 1) xs rng
        (fl ||| f1)
    else s.wrElems site d row (n + 1) xs rng fl

/-- Codes written at consecutive elements where enabled. -/
def State.wrCodes (s : State) (site base w i : Nat) : List (Nat × Bool) → State
  | [] => s
  | (v, on) :: xs => (if on then s.wrBits site base (i * w) w v else s).wrCodes site base w (i + 1) xs

/-- The values of a block: an element that is not enabled takes no part. -/
def blockVals (xs : List (Nat × Bool)) : List FV := xs.map (fun x => if x.2 then f32 x.1 else .fin false 0 0)

/-- The blocks of a row in an MX format, from block `b` up (R87); a row writes all of its scale bytes (R135). -/
def State.wrMx (s : State) (site : Nat) (k : MXElem) (d : Dst) (row b : Nat) :
    List (List (Nat × Bool)) → Nat → Nat → State × Nat × Nat
  | [], rng, fl => (s, rng, fl)
  | xs :: bs, rng, fl =>
    let (ds, rng) := drawList d.mode xs rng
    let (sc, codes, f1) := mxQuantize k d.mode ds (blockVals xs)
    let s := s.wrCodes site (d.base + row * d.stride) k.bits (32 * b) (codes.zip (xs.map (·.2)))
    (s.wrGal site (d.dsc + 4 * row + b) (leBytes 1 sc)).wrMx site k d row (b + 1) bs rng (fl ||| f1)

/-- The blocks of a row in BSI12, from block `8 row + b` of the tensor up (R88, R89, R217). -/
def State.wrBsi (s : State) (site : Nat) (d : Dst) (row b : Nat) :
    List (List (Nat × Bool)) → Nat → Nat → State × Nat × Nat
  | [], rng, fl => (s, rng, fl)
  | xs :: bs, rng, fl =>
    if xs.any (·.2) then
      let (ds, rng) := drawList d.mode xs rng
      let (e, codes, f1) := bsiEncode d.mode ds (blockVals xs)
      let k := 8 * row + b
      let line := d.base + bsiLine k
      let s := s.wrCodes site (line + 24 * bsiSlot k) 12 0 (codes.zip (xs.map (·.2)))
      let s := s.wrGal site (line + 480 + bsiSlot k) (leBytes 1 e)
      let s := s.wrGal site (line + 500) (List.replicate 12 0)
      let s := if 500 ≤ k % 512 then
          (s.wrGal site (line + 288) (List.replicate 192 0)).wrGal site (line + 492) (List.replicate 8 0)
        else s
      s.wrBsi site d row (b + 1) bs rng (fl ||| f1)
    else s.wrBsi site d row (b + 1) bs rng fl

/-- A list cut into pieces of `n`. -/
def piecesOf {α : Type} (n : Nat) : Nat → List α → List (List α)
  | 0, _ => []
  | k + 1, xs => if xs.isEmpty then [] else xs.take n :: piecesOf n k (xs.drop n)

/-- A row of 128 elements is converted and written (R135): the state, the generator, the flags. -/
def State.wrRow (s : State) (site : Nat) (d : Dst) (row : Nat) (xs : List (Nat × Bool)) (rng : Nat) :
    State × Nat × Nat :=
  if isBsi d.fmt then s.wrBsi site d row 0 (piecesOf 16 8 xs) rng 0
  else match mxOf d.fmt with
    | some k => s.wrMx site k d row 0 (piecesOf 32 4 xs) rng 0
    | none => s.wrElems site d row 0 xs rng 0

/-- The bytes that a row may write: offset and length. -/
def Dst.rowRange (d : Dst) (row : Nat) (xs : List (Nat × Bool)) : List (Nat × Nat) :=
  let n := 128 - (xs.reverse.takeWhile (fun x => !x.2)).length
  if n = 0 then (if isMx d.fmt then [(d.dsc + 4 * row, 4)] else [])
  else if isBsi d.fmt then [(d.base + bsiLine (8 * row), bsiLine (8 * row + 7) + 512 - bsiLine (8 * row))]
  else (d.base + row * d.stride, ceilDiv (n * fmtBits d.fmt) 8) ::
    (if isMx d.fmt then [(d.dsc + 4 * row, 4)] else [])

/-- The gate of every range of a list: the first that is not open. -/
def State.gates (s : State) (site : Nat) : List (Nat × Nat) → Gate
  | [] => .ok
  | r :: rs => match s.gate site r.1 r.2 with
    | .ok => s.gates site rs
    | g => g

end Sys2Proof.Machine
end

