-- ==== Sys2Proof/Machine/Engines.lean ====
section
/-! DEFINITION. What the engines of a gallery share: their records (R425), the end of a tile, a run, a combine and a
descriptor, and the end of all operations of a task (R123, R124, R147, R228, R253). -/

namespace Sys2Proof.Machine

/-! ## Issuers (R425) -/

/-- Engines of a gallery: 0, 1 the MXEs; 2 the Curtain array; 3 the TFE and the message unit. -/
def engKey (site e : Nat) : Nat := 4 * site + e

/-- Task `t` issues to an engine. -/
def State.noteIssue (s : State) (site e t : Nat) : State :=
  let p := s.fr.issuers.get (engKey site e) (0, 0)
  s.withFr { s.fr with issuers := s.fr.issuers.put (engKey site e) (setBitN p.1 t, p.2) (0, 0) }

/-- Tasks that hold an operation queued or running on an engine. -/
def State.holders (s : State) (site e : Nat) : List Nat :=
  if e < 2 then
    let x := s.mxe (2 * site + e)
    x.queue.map (·.task) ++ (x.run ++ x.draining ++ x.held.toList).map (·.t.task)
  else if e = 2 then
    let c := s.cur site
    c.runs.map (·.task) ++ c.combines.map (·.task) ++ (c.item.toList ++ c.susp.toList).map (fun i => match i.kind with
      | .tile _ t => t.task
      | .run r => r.task
      | .combine x => x.task)
  else
    let x := s.tfe site
    (x.queue ++ x.active).map (·.task)

/-- The issuer bitmap of an engine. -/
def State.issuerMap (s : State) (site e : Nat) : Nat :=
  let p := s.fr.issuers.get (engKey site e) (0, 0)
  (s.holders site e).foldl setBitN (p.1 ||| p.2)

/-- A record of an engine: source 3, 4 or 6, with the DETAIL of R425 (its bytes: log entry 15). -/
def State.engRec (s : State) (cls site e code : Nat) : State :=
  let src := if e < 2 then 3 else if e = 2 then 4 else 6
  let r := s.recAt (s.mkRec cls src code) site
  s.raise { r with detail := leBytes 6 (s.issuerMap site e) ++ leBytes 1 code ++ leBytes 1 e ++ leBytes 4 0 }

/-! ## Flags of an operation (R102) -/

/-- Flags reach the issuing context, unless it has been freed or reset since. -/
def State.giveFlags (s : State) (site c gen fl : Nat) : State :=
  let x := s.ctx c
  if fl = 0 ∨ x.st = .free ∨ s.fld (R.CORE_STATUS_GEN site (coreOfKey c)) ≠ gen then s
  else s.setCtx c { x with flags := x.flags ||| fl }

/-! ## The curtain's item ends -/

/-- Tokens in a straw's queues. -/
def Straw.tokens (w : Straw) : Nat := w.qN.length + w.qE.length + w.qS.length + w.qW.length

/-- Tokens of an array. -/
def CurSt.tokens (c : CurSt) : Nat := c.straws.foldl (fun n p => n + p.2.tokens) 0

/-- Every queue is flushed. -/
def CurSt.flush (c : CurSt) : CurSt :=
  { c with straws :=
    (c.straws.map (fun p => (p.1, { p.2 with qN := [], qE := [], qS := [], qW := [] }))).filter (fun p => p.2 ≠ Straw.init) }

/-- The operation of an item. -/
def ItemKind.op : ItemKind → Nat
  | .tile _ t => t.op
  | .run r => r.op
  | .combine c => c.op

/-- An item has an epilogue: a tile, and a combine but for an ADD. -/
def ItemKind.epilogue : ItemKind → Bool
  | .tile _ _ => true
  | .run _ => false
  | .combine c => !c.long || c.final

/-- An operation leaves the curtain: its item, its place among those that wait. An item that is cut short leaves no
token behind; an epilogue that was in progress has ended (Table 7.20). -/
def State.curDrop (s : State) (site op : Nat) (cut : Bool) : State :=
  let c := s.cur site
  let mine (i : Option Item) : Bool := match i with
    | some x => x.kind.op == op
    | none => false
  let c1 := if mine c.item then
      let c := if cut then c.flush else c
      { c with item := none, combRows := [] }
    else c
  let epi : Bool := mine c.item && (match c.item with
    | some x => x.kind.epilogue
    | none => false)
  let s := if epi then s.addFld (R.CUR_ITEM_CNT_EPILOGUES site) 1 else s
  s.setCur site { c1 with
    susp := if mine c.susp then none else c1.susp
    runs := c1.runs.filter (fun r => r.op != op)
    combines := c1.combines.filter (fun r => r.op != op)
    waiting := c1.waiting.filter (fun w => w != op) }

/-! ## Tiles (Table 6.4, R124) -/

/-- A tile leaves its MXE. -/
def State.mxeDrop (s : State) (site j op : Nat) : State :=
  let x := s.mxe (2 * site + j)
  s.setMxe (2 * site + j) { x with
    queue := x.queue.filter (fun t => t.op != op)
    run := x.run.filter (fun r => r.t.op != op)
    draining := x.draining.filter (fun r => r.t.op != op)
    held := x.held.filter (fun r => r.t.op != op)
    rows := x.rows.erase op }

/-- The last tile's status and task. -/
def State.lastTile (s : State) (site j status task : Nat) : State :=
  (s.setFld (R.MXE_STATUS_LAST_STATUS site j) status).setFld (R.MXE_STATUS_LAST_TASK site j) task

/-- A tile ends in ERROR: its claims retire in ERROR, its flags are not set, and one record carries its status, but for
KILLED (Table 6.5). -/
def State.tileErr (s : State) (site j : Nat) (t : Tile) (status : Nat) : State :=
  let s := if status = 7 then s else s.engRec UETASK site j status
  let held := match (s.mxe (2 * site + j)).held with
    | some h => h.t.op == t.op
    | none => false
  let s := if held then s.setFld (R.MXE_WIT_STATUS_HELD site j) 0 else s
  let s := ((s.mxeDrop site j t.op).curDrop site t.op true).retireOp site t.op true
  (s.lastTile site j status t.task).addFld (R.MXE_TILE_CNT_ERR site j) 1

/-- A tile ends DONE: its W claims retire, its flags are set (R74, R102). -/
def State.tileDone (s : State) (site j : Nat) (r : RunTile) : State :=
  let s := ((s.mxeDrop site j r.t.op).retireOp site r.t.op false).giveFlags site r.t.ctx r.t.coreGen r.flags
  (s.lastTile site j 0 r.t.task).addFld (R.MXE_TILE_CNT_OK site j) 1

/-- Every tile of an MXE that meets a test. -/
def State.tilesOf (s : State) (site j : Nat) (f : Tile → Bool) : List Tile :=
  let x := s.mxe (2 * site + j)
  (x.queue ++ (x.run ++ x.draining ++ x.held.toList).map (·.t)).filter f

/-- Every tile of an MXE that meets a test ends in ERROR with a status. -/
def State.tilesErr (s : State) (site j status : Nat) (f : Tile → Bool) : State :=
  (s.tilesOf site j f).foldl (fun s t => s.tileErr site j t status) s

/-- The tiles of a task that are QUEUED or RUNNING end with KILLED; one that is HELD or past its check goes on (Table 6.4). -/
def State.tilesKill (s : State) (site j t : Nat) : State :=
  let x := s.mxe (2 * site + j)
  ((x.queue ++ x.run.map (·.t)).filter (fun y => y.task == t)).foldl (fun s y => s.tileErr site j y 7) s

/-! ## Runs and combines (R147, R228) -/

/-- A run ends: claims, flags, its completion message with the status and the rows completed. A KILLED run sends none.
STATUS of the record is the code of Table 7.8 (log entry 17). -/
def State.runEnd (s : State) (site : Nat) (r : CRun) (status rows flags : Nat) (cut : Bool) : State :=
  let s := ((s.curDrop site r.op cut).retireOp site r.op (status != 0)).addFld (R.CUR_ITEM_CNT_RUNS site) 1
  let s := s.giveFlags site r.ctx r.coreGen flags
  match r.msg with
  | none => s
  | some (thread, tag) =>
    if status = 6 then s.cplDrop site r.task r.op thread
    else s.cplSend site r.task r.op r.ctx r.cls thread tag status (rows % 2 ^ 24) []

/-- A descriptor leaves the TFE. -/
def State.tfeDrop (s : State) (site op : Nat) : State :=
  let t := s.tfe site
  s.setTfe site { t with queue := t.queue.filter (fun x => x.op != op), active := t.active.filter (fun x => x.op != op) }

/-- A combine ends, and its descriptor leaves the TFE: statuses 5 to 8 retire its claims in ERROR. INFO of its record holds the code of Table 10.8; STATUS
the code of Table 11.3 of the same name, else 0 (log entry 17). -/
def State.combineEnd (s : State) (site : Nat) (c : Combine) (status flags : Nat) (cut : Bool) : State :=
  let s := ((s.tfeDrop site c.op).curDrop site c.op cut).retireOp site c.op (decide (5 ≤ status))
  let s := s.giveFlags site c.ctx c.coreGen flags
  match c.msg with
  | none => s
  | some (thread, tag) =>
    if status = 8 then s.cplDrop site c.task c.op thread
    else s.cplSend site c.task c.op c.ctx c.cls thread tag
      (if status = 5 then 4 else if status = 7 then 12 else 0) status []

/-- The item in progress ends with a status of Table 6.5, Table 7.8 and Table 10.8. -/
def State.itemStop (s : State) (site : Nat) (i : Item) (tile run comb : Nat) : State :=
  match i.kind with
  | .tile j t => s.tileErr site j t tile
  | .run r => s.runEnd site r run i.written i.flags true
  | .combine c => s.combineEnd site c comb i.flags true

/-! ## Descriptors of the TFE (R253) -/

/-- Bytes of the pieces that a descriptor moves in: 512, or 64 into a post window of CSR space (R327). -/
def Desc.step (d : Desc) : Nat := if 0x200000000000 ≤ d.dst ∧ d.dst < 0x200100000000 ∧ d.kind ≤ 2 then 64 else 512

/-- Pieces of a row, and of the descriptor. -/
def Desc.perRow (d : Desc) : Nat := (d.rbytes + d.step - 1) / d.step
def Desc.pieces (d : Desc) : Nat := if d.kind = 3 then 1 else d.rows * d.perRow

/-- Every read of the descriptor's ranges is done. -/
def Desc.readsOver (d : Desc) : Bool := d.ended || decide (d.pieces ≤ d.done)

/-- Packets of a descriptor are under way. -/
def State.pktsOut (s : State) (site op : Nat) : Bool :=
  s.pkts.any (fun p => p.site == site && p.op == op && p.gen == s.fld (R.GAL_STATUS_GEN site))

/-- The last byte of the descriptor has been written. -/
def State.descWritten (s : State) (site : Nat) (d : Desc) : Bool :=
  d.ended || (d.readsOver && !s.pktsOut site d.op)

/-- A PUT whose record is sent and not yet answered: its line's end, not its task's, ends it (Table 11.4). -/
def Desc.putOut (d : Desc) : Bool := d.kind == 3 && d.readsOver && !d.ended

/-- A descriptor ends with KILLED: no message, its local claims retire in ERROR. -/
def State.descKill (s : State) (site : Nat) (d : Desc) : State :=
  let s := ((s.tfeDrop site d.op).retireOp site d.op true).addFld (R.TFE_ERR_CNT_COUNT site) 1
  let s := (s.setFld (R.TFE_STATUS_LAST_STATUS site) 13).setFld (R.TFE_STATUS_LAST_TASK site) d.task
  if d.msg && d.kind != 3 then s.cplDrop site d.task d.op d.thread else s

/-! ## The end of all operations of a task (R173) -/

/-- Tiles, runs, combines and descriptors of a task end KILLED. -/
def State.killOps (s : State) (site t : Nat) : State :=
  let s := s.tilesKill site 0 t
  let s := s.tilesKill site 1 t
  let c := s.cur site
  let live := (c.item.toList ++ c.susp.toList).filterMap (fun i => match i.kind with
    | .run r => some (r, i.flags)
    | _ => (none : Option (CRun × Nat)))
  let s := ((c.runs.map (fun r => (r, 0)) ++ live).filter (fun (r : CRun × Nat) => r.1.task == t)).foldl
    (fun (s : State) (r : CRun × Nat) => s.runEnd site r.1 6 0 r.2 true) s
  let livec := c.item.toList.filterMap (fun i => match i.kind with
    | .combine x => some (x, i.flags)
    | _ => (none : Option (Combine × Nat)))
  let s := ((c.combines.map (fun x => (x, 0)) ++ livec).filter (fun (r : Combine × Nat) => r.1.task == t)).foldl
    (fun (s : State) (r : Combine × Nat) => s.combineEnd site r.1 8 r.2 true) s
  let x := s.tfe site
  ((x.queue ++ x.active).filter (fun d => d.task == t && !d.putOut)).foldl (fun s d => s.descKill site d) s

end Sys2Proof.Machine
end

