-- ==== Sys2Proof/Machine/Cmds.lean ====
section
/-! DEFINITION. Command packets (Table 8.7) and their completions (R345, R346). -/

namespace Sys2Proof.Machine

/-! Fields of a packet (Table 8.7). -/

def Cmd.word (c : Cmd) (i : Nat) : Nat := leAt c.raw (8 * i) 8
def Cmd.opc (c : Cmd) : Nat := fldN (c.word 0) 63 56
def Cmd.member (c : Cmd) : Nat := fldN (c.word 0) 55 48
def Cmd.lg (c : Cmd) : Nat := fldN (c.word 0) 47 39
def Cmd.cls (c : Cmd) : Nat := fldN (c.word 0) 38 37
def Cmd.fence (c : Cmd) : Bool := bitN (c.word 0) 36 == 1
def Cmd.cpl (c : Cmd) : Bool := bitN (c.word 0) 35 == 1
def Cmd.seq (c : Cmd) : Nat := fldN (c.word 0) 31 16
def Cmd.ctag (c : Cmd) : Nat := c.word 1

/-- The bytes of a completion entry (Table 16.3). -/
def cplEntry (c : Cmd) (phase status drip detail : Nat) : List Byte :=
  leBytes 8 (c.opc * 2 ^ 56 + phase * 2 ^ 55 + status % 256 * 2 ^ 47 + c.lg * 2 ^ 38 + c.seq * 2 ^ 16) ++
    leBytes 8 c.ctag ++ leBytes 8 (drip % 2 ^ 48) ++ leBytes 8 detail ++ List.replicate 32 0

/-- A command of a host queue that still runs ends: its reserved slot is used, or given back. -/
def State.hqEnd (s : State) (c : Cmd) (status detail : Nat) : State :=
  let q := c.queue
  let s := s.setFld (R.HQ3_INFLIGHT q) (s.fld (R.HQ3_INFLIGHT q) - 1)
  if status = 0 && !c.cpl then s
  else
    let size := 2 ^ s.fld (R.HQ1_CSIZE_LOG2 q)
    let wr := s.fld (R.HQ3_CWR q)
    let entry := cplEntry c ((wr / size + 1) % 2) status s.dripNo detail
    let s := s.wrBytes (hostKey (s.fld (R.HQ1_CADDR q) * 4096 + 64 * (wr % size))) entry
    (s.bumpFld (R.HQ3_CWR q) 1).fireVector (s.fld (R.HQ0_VECTOR q)) (s.fld (R.HQ1_COAL_US q))

/-- A command ends with a status of Table 8.9 or 14.2: an entry in its queue's completion ring, or a TYPE 4 frame on its
flow. A completion of a queue that does not run is dropped and counted (log entry 18). In a QUIESCE that writes nothing to
the host and sends nothing (R431) the completion waits (log entry 29). -/
def State.cmdEnd (s : State) (c : Cmd) (status detail : Nat) : State :=
  if s.mode = .quiesce ∧ s.fr.quiesceBy = 1 then
    s.withHost { s.host with quiet := s.host.quiet ++ [(c, status, detail)] }
  else if c.queue < 64 then
    let st := s.fld (R.HQ3_STATE c.queue)
    if st = 0 ∨ st = 3 then s.addFld (R.HQ3_INFLIGHT c.queue) 1 else s.hqEnd c status detail
  else if status = 0 && !c.cpl then s
  else match s.host.netqs.find? (c.queue - 64) with
    | some n => s.emit (.netCpl n.port n.flow (cplEntry c 0 status s.dripNo detail))
    | none => s

/-- The completions that waited are made. -/
def State.flushQuiet (s : State) : State :=
  s.host.quiet.foldl (fun s x => s.cmdEnd x.1 x.2.1 x.2.2) (s.withHost { s.host with quiet := [] })

/-- The commands of a runtime. -/
def RtSt.all (r : RtSt) : List Cmd := r.cmds ++ r.loads.map (·.cmd) ++ r.ends.map (·.2.2) ++ r.upds.map (·.cmd)

/-- Commands of a gallery that its runtime has handed on: the TFE's moves, requests of Flowstone's. -/
def State.movesOf (s : State) (lg : Nat) : List Cmd :=
  match s.siteOfLg lg with
  | some site => ((s.tfe site).queue ++ (s.tfe site).active).filterMap (·.cmd)
  | none => []

/-- A gallery's moves are no command's any more. -/
def State.movesOff (s : State) (lg : Nat) : State :=
  match s.siteOfLg lg with
  | some site =>
    let t := s.tfe site
    let off (d : Desc) : Desc := { d with cmd := none }
    s.setTfe site { t with queue := t.queue.map off, active := t.active.map off, paid := [] }
  | none => s

/-- Every command that a runtime holds, and its moves, end with a status. -/
def State.rtAbort (s : State) (lg status : Nat) : State :=
  let cs := (s.rt lg).all ++ s.movesOf lg
  let s := (s.movesOff lg).setRt lg { RtSt.init with kept := (s.rt lg).kept }
  cs.foldl (fun s c => s.cmdEnd c status 0) s

/-- The gallery of a runtime is reset: its commands end with RESET and what had not taken effect never does (R177). -/
def State.rtReset (s : State) (lg : Nat) : State :=
  let mine (c : Cmd) : Bool := c.lg == lg
  let cs := s.sv.reqs.filter mine ++ (s.tst.reqs.map (·.cmd)).filter mine
  let s := s.rtAbort lg 10
  let s := s.withSv { s.sv with reqs := s.sv.reqs.filter (fun c => !mine c) }
  let s := s.withTst { s.tst with reqs := s.tst.reqs.filter (fun t => !mine t.cmd) }
  let s := cs.foldl (fun s c => s.cmdEnd c 10 0) s
  (s.setRt lg RtSt.init).setDir lg { s.dir lg with restart := true }

/-- The runtime of a site's gallery runs: entry 0 is VALID in force (R158). -/
def State.rtUp (s : State) (site : Nat) : Bool := (s.bud (taskM site 0)).valid

/-- The runtime of a site has ended: until it is started again its commands end with NO_RUNTIME (R174). -/
def State.rtLost (s : State) (site : Nat) : State :=
  match s.lgOfSite site with
  | some lg => s.rtAbort lg 9
  | none => s

end Sys2Proof.Machine
end

