-- ==== Sys2Proof/Machine/Tasks.lean ====
section
/-! DEFINITION. Tasks and contexts: how a task starts, freezes, thaws, faults and ends (R35, R36, R49, R161, R173). -/

namespace Sys2Proof.Machine

/-- A context becomes FREE: its state is discarded. Module stores already issued are performed when acknowledged. -/
def State.freeCtx (s : State) (k : Nat) : State := s.setCtx k { Ctx.init with stores := (s.ctx k).stores }

/-- The window slot of a core is cleared. -/
def State.clearSlot (s : State) (site core slot : Nat) : State :=
  s.clearRange (R.WIN_BASE site core slot 0) (R.WIN_BASE site core slot 0 + 0x80)

/-- The (core, slot) pairs that the contexts of a task select. -/
def State.slotsOf (s : State) (site t : Nat) : List (Nat × Nat) :=
  (s.blocksOf site t).map (fun b => (b / 16, (s.ctx (ctxKey site (b / 16) (8 * (b % 16)))).win))

/-- Every field of a master entry returns to its reset value but GEN (Table 2.8). -/
def State.clearEntry (s : State) (m : Nat) : State :=
  let gen := s.fld (mGen m)
  let s := (s.clearRange m (m + 0x40)).withForce (s.force.erase m)
  s.setFld (mGen m) gen

/-- A task ends, whatever ends it: steps 1 to 3 of R173, and its rings, lines and completion ring (R244). With entry 0
the runtime's commands end (R174). -/
def State.endTask (s : State) (site t : Nat) : State :=
  let ctxs := s.ctxsOf site t
  let slots := s.slotsOf site t
  let blocks := s.blocksOf site t
  let s := if t = 0 then s.rtLost site else s
  let s := s.killOps site t
  let s := s.retireIf site true (fun _ w => getBits w 54 6 == t)
  let s := s.muEndTask site t
  let s := ctxs.foldl (fun s k => s.freeCtx k) s
  let s := slots.foldl (fun s p => s.clearSlot site p.1 p.2) s
  let s := blocks.foldl (fun s b => s.setReg (R.CTXBLK site b) 0) s
  (s.setTask (site * 64 + t) TaskSt.init).clearEntry (taskM site t)

/-- The record of a task fault (R173): the code, the master entry, the thread and the PC. -/
def State.taskRec (s : State) (site t code thread pc : Nat) : State :=
  let r := (s.recAt (s.mkRec UETASK 2 code) site).thr thread t
  s.raise { r with detail := leBytes 4 pc ++ leBytes 8 0 }

/-- A task ends by a fault: the record is raised with the state at the fault, then the task ends. -/
def State.faultTask (s : State) (site t code thread pc : Nat) : State :=
  (s.taskRec site t code thread pc).endTask site t

/-- A gallery context takes a synchronous fault (R172, R173). -/
def State.ctxFault (s : State) (k code : Nat) : State :=
  let site := siteOfKey k
  s.faultTask site (s.taskOf k) code (s.threadAddr site (coreOfKey k) (ctxOfKey k)) (s.ctx k).pc

/-- Tasks that own a block on a core, each once. -/
def State.tasksOnCore (s : State) (site core : Nat) : List Nat :=
  (List.range 48).filter (fun t => (s.blocksOf site t).any (fun b => b / 16 == core))

/-- Every task with a block on a core ends with CORE_LOST (R57, R58). -/
def State.loseCore (s : State) (site core : Nat) : State :=
  (s.tasksOnCore site core).foldl (fun s t =>
    let lo := ((s.ctxsOf site t).find? (fun k => coreOfKey k == core)).getD (ctxKey site core 0)
    s.faultTask site t 10 (s.threadAddr site core (ctxOfKey lo)) (s.ctx lo).pc) s

/-! ## Start (R161) -/

/-- The thread address of the gallery runtime's command handler: the lowest handler context of entry 0. -/
def State.runtimeThread (s : State) (site : Nat) : Nat :=
  match (s.ctxsOf site 0).find? (fun k => s.isHandler k) with
  | some k => s.threadAddr site (coreOfKey k) (ctxOfKey k)
  | none => s.threadAddr site 0 0

/-- One context at its task's start: `i` its seed index, `n` the number of non-handler contexts. -/
def State.startCtx (s : State) (site t k i n : Nat) : State :=
  let x := s.task (site * 64 + t)
  let c := s.ctx k
  let base : Ctx := { Ctx.init with
    rnd := x.rnd, rng := rngSeed (x.seed + i), win := c.win, priv := x.priv, pc := x.entry, stores := c.stores }
  if s.isHandler k then s.setCtx k { base with st := .parkedDispatch }
  else
    let sr := ((((SMap.put ([] : SMap Word) 1 (BitVec.ofNat 64 i) 0).put 2 (BitVec.ofNat 64 n) 0).put 3
      (BitVec.ofNat 64 (s.runtimeThread site)) 0).put 4 (BitVec.ofNat 64 s.dripNo) 0)
    s.setCtx k { base with st := .ready, s := sr }

/-- Contexts of a list started with rising seed indices. -/
def State.startCtxs (s : State) (site t n : Nat) : List Nat → Nat → State
  | [], _ => s
  | k :: ks, i => (s.startCtx site t k i n).startCtxs site t n ks (i + 1)

/-- The contexts of a task leave FREE: non-handler contexts first, each group in ascending thread address. -/
def State.startTask (s : State) (site t : Nat) : State :=
  let ks := s.ctxsOf site t
  let plain := ks.filter (fun k => !s.isHandler k)
  let hand := ks.filter (fun k => s.isHandler k)
  s.startCtxs site t plain.length (plain ++ hand) 0

/-! ## Waking, freezing, thawing (R35, R36, R204) -/

/-- A parked context wakes: READY, with the drip number of its wake in D. -/
def Ctx.wake (c : Ctx) (d n : Nat) : Ctx :=
  { c with st := .ready, wokeAt := none, s := if d = 0 then c.s else c.s.put d (BitVec.ofNat 64 n) 0 }

/-- The Open of drip `n` reaches a context: it wakes, or the Open is kept for its thaw. -/
def Ctx.open (c : Ctx) (frozen : Bool) (n : Nat) : Ctx :=
  match c.st with
  | .parkedWait w d =>
    if n < w then c
    else if frozen then { c with wokeAt := some (c.wokeAt.getD n) }
    else c.wake d n
  | .stalled .seal => if frozen then c else { c with st := .ready }
  | _ => c

/-- What a thaw applies to a context. -/
def Ctx.thaw (c : Ctx) : Ctx :=
  match c.st, c.wokeAt with
  | .parkedWait _ d, some n => c.wake d n
  | _, _ => c

/-- The contexts of a task after its thaw. -/
def State.thawCtxs (s : State) (site t : Nat) : State :=
  (s.ctxsOf site t).foldl (fun s k => s.setCtx k (s.ctx k).thaw) s

/-- A suspended claim of a task exists (R68). -/
def State.hasSuspended (s : State) (site t : Nat) : Bool :=
  (s.claimList site).any (fun p => getBits p.2 22 1 == 1 && getBits p.2 54 6 == t)

/-- The suspended claims of a task block again (R68). -/
def State.resumeClaims (s : State) (site t : Nat) : State :=
  ((s.claimList site).filter (fun p => getBits p.2 22 1 == 1 && getBits p.2 54 6 == t)).foldl
    (fun s p => s.setReg (R.GM_SB_ENTRY site p.1) (putBits p.2 22 1 0)) s

/-- A master thaws: its FROZEN bit, its queue, its contexts, and the suspended claims of its task. -/
def State.thaw (s : State) (m : Nat) : State :=
  if !s.frozen m then s
  else
    let s := s.unfreeze m
    match siteOfM m with
    | some site => if idxOfM m < 48 then (s.resumeClaims site (idxOfM m)).thawCtxs site (idxOfM m) else s
    | none => s

/-- A context's issue is over: it is READY, whatever it was STALLED on. -/
def Ctx.resume (c : Ctx) : Ctx := { c with st := .ready, waitsOn := 0 }

end Sys2Proof.Machine
end

