-- ==== Sys2Proof/Machine/Reset.lean ====
section
/-! DEFINITION. Resets of cores, galleries and chambers (R379 to R383, R420, R421, Tables 18.3, 18.4 and 20.3), and the
hand-over scrub (R80). -/

namespace Sys2Proof.Machine

/-- One millisecond in ns: the least time between two resets of one domain (R379). -/
def resetGap : Nat := 1000000

/-! ## Cores (R58, R380) -/

/-- Loads of a core in flight on the Rope. -/
def State.loadsOut (s : State) (site core : Nat) : Nat :=
  (s.ctxs.filter (fun p => p.1 / 128 == coreKey site core && (match p.2.st with
    | .stalled (.load ..) => true
    | _ => false))).length

/-- A flow, and a queue pair, without the requests that meet a test. -/
def FlowSt.kill (x : FlowSt) (f : Wr → Bool) : FlowSt :=
  let gone := (x.xfers.filter (fun t => f t.wr)).map (·.id)
  { x with xfers := x.xfers.filter (fun t => !f t.wr), frags := x.frags.filter (fun g => !gone.contains g.xfer) }
def QpSt.kill (x : QpSt) (f : Wr → Bool) : QpSt := { x with reqs := x.reqs.filter (fun r => !f r.wr) }

/-- Requests at the ports whose completion thread is a context of a task that ends are KILLED, with no record
(Table 15.13). -/
def State.portKill (s : State) (f : Wr → Bool) : State :=
  let one (x : PortSt) : PortSt := { x with
    sqs := (x.sqs.map (fun q => (q.1, q.2.filter (fun w => !f w)))).filter (fun q => !q.2.isEmpty)
    flows := (x.flows.map (fun q => (q.1, q.2.kill f))).filter (fun q => q.2 ≠ FlowSt.init)
    qps := x.qps.map (fun q => (q.1, q.2.kill f)) }
  s.withPorts ((s.ports.map (fun p => (p.1, one p.2))).filter (fun p => p.2 ≠ PortSt.init))

/-- A core reset begins. -/
def State.coreStart (s : State) (site core : Nat) : State :=
  let k := coreKey site core
  let n := s.loadsOut site core
  let ts := s.tasksOnCore site core
  let s := s.portKill (fun w => ts.any (fun t => s.ownThread site t w.thread))
  let s := s.loseCore site core
  let x := s.core k
  (s.setCore k { x with lastReset := some s.now, held := false, stale := x.stale + n, group := none }).setFld
    (R.CORE_STATUS_RESETTING site core) 1

/-- A core reset is requested: absorbed by a larger or a running one, held within 1 ms of the last one's begin, or
begun (R379). -/
def State.coreRequest (s : State) (site core : Nat) : State :=
  let k := coreKey site core
  let x := s.core k
  if (s.gr site).busy || s.fld (R.CORE_STATUS_RESETTING site core) == 1 then s
  else match x.lastReset with
    | some t => if s.now < t + resetGap then s.setCore k { x with held := true } else s.coreStart site core
    | none => s.coreStart site core

/-- The contexts of a core become FREE. -/
def State.freeCore (s : State) (site core : Nat) : State :=
  (List.range 128).foldl (fun s c => if (s.ctx (ctxKey site core c)).st = .free then s else s.freeCtx (ctxKey site core c)) s

/-- The end of a core reset: generation, contexts, counts. -/
def State.coreDone (s : State) (site core : Nat) : State :=
  let s := s.freeCore site core
  let s := s.clearRegs [R.CORE_ISSUE_CNT site core, R.CORE_DUAL_CNT site core, R.CORE_ICMISS_CNT site core]
  (s.bumpFld (R.CORE_STATUS_GEN site core) 1).setFld (R.CORE_STATUS_RESETTING site core) 0

/-! ## Galleries (R381) -/

/-- Tasks resident in a gallery: entries with VALID in force or written, or with blocks. -/
def State.residents (s : State) (site : Nat) : List Nat :=
  (List.range 48).filter (fun t => (s.bud (taskM site t)).valid || s.fld (mValid (taskM site t)) == 1 ||
    !(s.blocksOf site t).isEmpty)

/-- The boot unit of a site that is reset while it receives: its bitmap is cleared, the attempt is not counted (R377). -/
def State.bootUnitClear (s : State) (site : Nat) : State :=
  match s.boot.units.find? site with
  | some u =>
    let units := s.boot.units.ins site { u with blocks := [], rounds := 0 }
    (s.withBoot { s.boot with units := units }).setFld (R.GAL_BOOT_MISSING site) u.total
  | none => s

/-- A gallery reset begins: steps 1 and 2 of Table 18.4. -/
def State.galStart (s : State) (site : Nat) (rec : Bool) : State :=
  let s := s.setFld (R.GAL_STATUS_STATE site) 1
  let s := if s.fld (R.GAL_BOOT_STATE site) = 1 then s.bootUnitClear site else s
  let lg := s.lgOfSite site
  let s := s.portKill (fun w => lg == some (w.thread / 4096))
  let s := match lg with
    | some n => s.rtReset n
    | none => s
  let s := (s.residents site).foldl (fun s t => s.endTask site t) s
  let s := if rec then s.ceAt 14 site else s
  s.setGr site ⟨some s.now, false, true⟩

/-- A chamber that holds the site is being reset. -/
def State.inChReset (s : State) (site : Nat) : Bool :=
  match s.chamberOf site with
  | some c => s.fld (R.FR_CHAMBER_STATE c) == 2
  | none => false

/-- A gallery reset is requested (R379). -/
def State.galRequest (s : State) (site : Nat) : State :=
  let g := s.gr site
  if g.busy || s.inChReset site then s
  else match g.lastAt with
    | some t => if s.now < t + resetGap then s.setGr site { g with held := true } else s.galStart site true
    | none => s.galStart site true

/-- The curtain of a gallery as its reset leaves it (R154): program table, instructions and registers cleared, queues
flushed, the generation advanced. -/
def State.curClear (s : State) (site : Nat) : State :=
  let gen := s.fld (R.CUR_STATUS_GEN site)
  let s := s.setCur site CurSt.init
  let s := s.clearRegs [R.CUR_SKEW_STALLS site, R.CUR_STALE_TOKENS site, R.CUR_IO_STALLS site, R.CUR_ITEM_CNT site,
    R.CUR_FIRE_CNT site, R.CUR_STATUS site]
  s.setFld (R.CUR_STATUS_GEN site) (gen + 1)

/-- The arbitration of an MXE ends with its gallery's reset: RESULT 7 (R407). -/
def State.arbReset (s : State) (site j : Nat) : State :=
  match s.tst.arbs.find? (2 * site + j) with
  | some a =>
    let s := s.withTst { s.tst with arbs := s.tst.arbs.erase (2 * site + j) }
    ((s.setFld (R.TR_ARB_STAGE site) 5).setFld (R.TR_ARB_RESULT site) 7).setFld (R.MXE_CTRL_ROT site j) a.rot
  | none => s

/-- One MXE after its gallery's reset: tiles discarded, counts cleared (Table 6.4). -/
def State.mxeClear (s : State) (site j : Nat) : State :=
  ((s.arbReset site j).setMxe (2 * site + j) MxeSt.init).clearRegs [R.MXE_TILE_CNT site j, R.MXE_BUSY_CLKS site j,
    R.MXE_STALL_LOAD site j, R.MXE_STALL_CUR site j, R.MXE_WIT_CNT site j, R.MXE_WIT_STATUS site j]

/-- The cores of a gallery at its reset: contexts FREE, generations advanced, loads in flight stale. -/
def State.coresClear (s : State) (site : Nat) : State :=
  (List.range 32).foldl (fun s c =>
    let k := coreKey site c
    let x := s.core k
    (s.setCore k { x with held := false, group := none }).coreDone site c) s

/-- The scoreboard, the windows and the CTXBLK entries are cleared (Table 18.4 step 4, Table 4.6 step 4). -/
def State.boardClear (s : State) (site : Nat) : State :=
  let s := s.clearRange (R.GM_SB_ENTRY site 0) (R.GM_SB_ENTRY site 64)
  let s := s.setGm site { s.gm site with claims := [] }
  (s.clearRange (R.WIN_BASE site 0 0 0) (R.WIN_BASE site 32 0 0)).clearRange (R.CTXBLK site 0) (R.CTXBLK site 512)

/-- A master whose reset domain is reset: RUN with a new generation, its freeze and its consumption cleared (Table 2.8). -/
def State.resetMaster (s : State) (m gen : Nat) : State :=
  let s := s.setBud m { s.bud m with frozeNow := false, govHold := false }
  let s := (((s.setFld (mFrozen m) 0).setFld (mSuspect m) 0).setFld (mRun m) 0).setFld (mCause m) 0
  let s := ((s.setFld (mUsedCycles m) 0).setFld (mUsedStack m) 0).setFld (mUsedPassage m) 0
  (s.setFld (mUsedClassA m) 0).setFld (mGen m) gen

/-- The end of the outbound drain: step 4 of Table 18.4. Tiles left in HELD or draining are discarded with the rest. -/
def State.galDrained (s : State) (site : Nat) : State :=
  let s := s.coresClear site
  let s := s.bumpFld (R.GAL_STATUS_GEN site) 1
  let gen := s.fld (R.GAL_STATUS_GEN site)
  let s := (List.range 50).foldl (fun s i => s.resetMaster (taskM site i) gen) s
  let s := s.boardClear site
  let s := ((s.curClear site).mxeClear site 0).mxeClear site 1
  let s := s.muReset site
  let s := (s.setTfe site TfeSt.init).clearRegs [R.TFE_BYTES site, R.TFE_STACK_REQ site, R.TFE_ERR_CNT site,
    R.GM_NACK_CNT site, R.GM_ECC_CNT site, R.GM_CACHE_CNT site, R.GM_SB_STATUS site]
  s.withUnans (s.unans.filter (fun p => p.1 / 1024 != site))

/-- The end of a gallery reset: step 5. -/
def State.galDone (s : State) (site : Nat) : State :=
  let s := s.setGr site { s.gr site with busy := false }
  s.setFld (R.GAL_STATUS_STATE site) (if s.fld (R.GAL_CTRL_FENCE site) = 1 then 3
    else if s.fld (R.GAL_CTRL_ENABLE site) = 1 then 2 else 1)

/-! ## Chambers (R383, R420 to R424) -/

/-- The engines and the message unit of a site run: their ENABLE bits are set, as Flowstone sets them (Tables 6.7, 7.15
and 11.8). -/
def State.unitsOn (s : State) (site : Nat) : State :=
  let s := (s.setFld (R.MXE_CTRL_ENABLE site 0) 1).setFld (R.MXE_CTRL_ENABLE site 1) 1
  ((s.setFld (R.CUR_CTRL_ENABLE site) 1).setFld (R.TFE_CTRL_ENABLE site) 1).setFld (R.MU_CTRL_ENABLE site) 1

/-- The gallery sites of a chamber, ascending. -/
def State.chSites (s : State) (c : Nat) : List Nat :=
  s.sec.siteCh.filterMap (fun p => if p.2 = c + 1 then some p.1 else none)

/-- The sites of a chamber that hold a logical gallery, in ascending LG. -/
def State.chGals (s : State) (c : Nat) : List (Nat × Nat) :=
  (List.range 384).filterMap (fun lg => match s.siteOfLg lg with
    | some site => if s.chamberOf site = some c then some (lg, site) else none
    | none => none)

/-- The windows of a gallery's tasks in ascending (task, window): task, window, base and size in bytes. -/
def State.pearlWindows (s : State) (site : Nat) : List (Nat × Nat × Nat × Nat) :=
  (List.range 48).flatMap (fun t => match s.judgeSlot site t with
    | none => []
    | some (core, slot) => (List.range 8).filterMap (fun w =>
      let b := s.reg (R.WIN_BASE site core slot w)
      if getBits b 63 1 = 1 then some (t, w, getBits b 0 19 * 512, s.fld (R.WIN_LIM_SIZE site core slot w) * 512)
      else none))

/-- Items of a section that fit in `room` bytes, and whether some did not. -/
def takeItems (room : Nat) : List (List Byte) → List Byte × Bool
  | [] => ([], false)
  | x :: xs => if x.length ≤ room then
      let p := takeItems (room - x.length) xs
      (x ++ p.1, p.2)
    else ([], true)

/-- The section of one gallery in a pearl (Table 20.5); the layout of its head: log entry 15. -/
def State.pearlSection (s : State) (lg site : Nat) : List Byte × Bool :=
  let sb := (List.range 64).map (fun e => leBytes 8 (s.reg (R.GM_SB_ENTRY site e)).toNat)
  let rings := (s.validWords (R.MU_RING0 site 0) 16 1024 (fun _ => true)).map (fun r =>
    leBytes 8 (r * 2 ^ 54 + s.fld (R.MU_RING1_RD site r) * 2 ^ 32 + s.fld (R.MU_RING1_SEQ_NEXT site r) * 2 ^ 16))
  let live := (s.ctxs.filter (fun p => siteOfKey p.1 == site && p.2.st != .free)).map (fun p =>
    leBytes 8 (s.threadAddr site (coreOfKey p.1) (ctxOfKey p.1) * 2 ^ 32 + p.2.pc))
  let wins := (s.pearlWindows site).flatMap (fun w =>
    [leBytes 2 w.1 ++ leBytes 2 w.2.1 ++ leBytes 6 w.2.2.1 ++ leBytes 6 w.2.2.2,
      s.rdGal site w.2.2.1 (min 4096 w.2.2.2)])
  let (body, trunc) := takeItems (65536 - 64) (sb ++ rings ++ live ++ wins)
  let head := leBytes 2 lg ++ leBytes 2 site ++ leBytes 1 (s.fld (R.GAL_STATUS_GEN site)) ++ leBytes 3 (b2n trunc) ++
    leBytes 4 rings.length ++ leBytes 4 live.length ++ leBytes 4 (s.pearlWindows site).length ++ List.replicate 44 0
  ((head ++ body ++ List.replicate (65536 - 64 - body.length) 0), trunc)

/-- The sections of a chamber, and whether one is truncated. -/
def State.pearlSections (s : State) : List (Nat × Nat) → List Byte × Bool
  | [] => ([], false)
  | g :: gs =>
    let x := s.pearlSection g.1 g.2
    let y := s.pearlSections gs
    (x.1 ++ y.1, x.2 || y.2)

/-- The chamber state of Table 20.11. -/
def State.setStep (s : State) (c n : Nat) : State :=
  let x := s.fr.chs.get c ChSt.init
  ((s.withFr { s.fr with chs := s.fr.chs.put c { x with step := n } ChSt.init })).setFld (R.FR_CHAMBER_STEP c) n

/-- The ports at a chamber reset: the chamber's queues are flushed and its flows become invalid, generations advanced
(Table 15.13). -/
def State.portChamber (s : State) (c : Nat) : State :=
  let s := s.portKill (fun w => w.chamber == c)
  let fs := s.csr.filterMap (fun e =>
    if 0x200002000000 ≤ e.1 ∧ e.1 < 0x20000A000000 then
      let p := (e.1 - 0x200002000000) / 0x400000
      let o := e.1 - R.SFT_FLOW0 p 0
      if R.SFT_FLOW0 p 0 ≤ e.1 ∧ e.1 < R.SFT_FLOW0 p 2048 ∧ o % 32 = 0 ∧ getBits e.2 63 1 = 1 ∧ getBits e.2 56 4 = c then
        some (p, o / 32)
      else none
    else none)
  fs.foldl (fun s f =>
    let s := (s.setFld (R.SFT_FLOW0_VALID f.1 f.2) 0).bumpFld (R.SFT_FLOW0_GEN f.1 f.2) 1
    s.setPort f.1 { s.port f.1 with flows := (s.port f.1).flows.erase f.2 }) s

/-- A move in progress whose source or destination is in a chamber is abandoned (Table 20.4). -/
def State.moveAbandon (s : State) (sites : List Nat) : State :=
  match s.tst.moveOn with
  | some (a, b) => if sites.contains a || sites.contains b then
      (s.setFld R.TRM_MOVE_STATUS_STATE 0).withTst { s.tst with moveOn := none }
    else s
  | none => s

/-- GM_SCRUB.GO is written by Bedrock. -/
def State.scrubGo (s : State) (site : Nat) : State :=
  if s.fld (R.GM_SCRUB_STATE site) = 1 then (s.setFld (R.GM_SCRUB_STATE site) 2).setFld (R.GM_SCRUB_PROGRESS site) 0 else s

/-- Steps 1 and 2 of a hand-over outside a chamber reset, which captures no pearl (Table 4.6): HELD, then GO by Bedrock. -/
def State.handOver (s : State) (site : Nat) : State :=
  ((s.setFld (R.GM_SCRUB_VERIFY_FAIL site) 0).setFld (R.GM_SCRUB_STATE site) 1).scrubGo site

/-- A replay ends with a result of Table 20.12: a record names the task record and the result, and the site is handed over
again (R426, R427; the site's state ends as in a gallery reset, log entry 35). -/
def State.echoEnd (s : State) (result : Nat) : State :=
  match s.fr.echo with
  | none => s
  | some e =>
    let s := s.withFr { s.fr with echo := none }
    let s := ((s.setFld R.FR_ECHO_STATUS_STATE 3).setFld R.FR_ECHO_STATUS_RESULT result).setFld R.FR_ECHO_STATUS_DRIP s.dripNo
    let s := s.raise { s.recAt (s.mkRec CE 13 0) e.site with
      detail := leBytes 1 (s.fld R.FR_ECHO_RECORD) ++ leBytes 1 result ++ leBytes 10 0 }
    let s := (s.galStart e.site false).galDrained e.site
    (s.setGr e.site { s.gr e.site with busy := false }).handOver e.site

/-- A replay whose chamber is reset is aborted (R427). -/
def State.echoLost (s : State) (c : Nat) : State :=
  match s.fr.echo with
  | some e => if e.chamber = c then s.echoEnd 3 else s
  | none => s

/-- A chamber reset begins: steps 1 and 2 of Table 20.3. `seq` is the SEQ of the triggering record, 0 for a call. -/
def State.chStart (s : State) (c cls seq : Nat) (lost : Bool) : State :=
  let r := { s.mkRec cls 14 0 with chamber := some c, detail := leBytes 4 seq ++ leBytes 8 0 }
  let s := s.raise r
  let s := (s.setFld (R.FR_CHAMBER_STATE c) 2).bumpFld (R.FR_CHAMBER_RESETS c) 1
  let s := if lost then s.setFld (R.FR_CHAMBER_LOST_SEEN c) 1 else s
  let s := s.setReg R.BRG_RESET (s.reg R.BRG_RESET ||| BitVec.ofNat 64 (1 <<< (48 + c)))
  let s := (s.setFld R.CLASSA_COND_NO_CH_RESET 0).syncCond
  let s := ((s.portChamber c).moveAbandon (s.chSites c)).echoLost c
  let pearl := s.pearlSections (s.chGals c)
  let s := (s.chGals c).foldl (fun s g => s.setDir g.1 { s.dir g.1 with scrubbed := true }) s
  let s := (s.chSites c).foldl (fun s site => (s.setFld (R.GM_SCRUB_STATE site) 1).galStart site false) s
  let x : ChSt := ⟨2, seq, s.now, none, lost, leBytes 4 (b2n pearl.2) ++ pearl.1, s.dripNo⟩
  ((s.withFr { s.fr with chs := s.fr.chs.put c x ChSt.init })).setFld (R.FR_CHAMBER_STEP c) 2

/-- A chamber reset is requested (R379, Table 20.4). -/
def State.chRequest (s : State) (c cls seq : Nat) (lost : Bool) : State :=
  let x := s.fr.chs.get c ChSt.init
  let st := s.fld (R.FR_CHAMBER_STATE c)
  if st = 2 ∨ st = 0 then s
  else if x.startAt ≠ 0 ∧ s.now < x.startAt + resetGap then
    s.withFr { s.fr with chs := s.fr.chs.put c { x with held := some seq, lostAll := lost } ChSt.init }
  else s.chStart c cls seq lost

/-! ## The hand-over scrub (R80, Table 4.6) -/

/-- Step 3: every ON and CACHE slice written to zero, cache tags invalidated. -/
def State.scrubZero (s : State) (site : Nat) : State :=
  let s := (List.range 32).foldl (fun s k => if s.slice site k = 2 ∨ s.slice site k = 5 then s.zeroSlice site k else s) s
  s.setGm site { s.gm site with cache := [] }

end Sys2Proof.Machine
end

