-- ==== Sys2Proof/Machine/Stack.lean ====
section
/-! DEFINITION. Memory stacks (chapter 13): requests by 64 B units, partial writes, poison, containment (R290 to R296),
the scrub (R297), rows for repair (R298), temperature readings (R299). -/

namespace Sys2Proof.Machine

/-- The pieces of a byte list that fall in single 64 B units, with their addresses (R291). -/
def unitPieces : Nat → Nat → List Byte → List (Nat × List Byte)
  | 0, _, _ => []
  | f + 1, x, bs =>
    if bs.isEmpty then [] else (x, bs.take (64 - x % 64)) :: unitPieces f (x + (64 - x % 64)) (bs.drop (64 - x % 64))

/-- The first addresses of the units of `n` bytes from `x` up, one in each unit. -/
def unitsOf (x n : Nat) : List Nat :=
  (List.range ((x + n + 63) / 64 - x / 64)).map (fun i => max x ((x / 64 + i) * 64))

/-- 64 B requests that an access of `n` bytes makes (R291, R29). -/
def unitCount (x n : Nat) : Nat := if n = 0 then 0 else (x + n + 63) / 64 - x / 64

/-- A record about a chamber. -/
def State.recCh (s : State) (cls src c : Nat) : ErrRec := { s.mkRec cls src 0 with chamber := some c }

/-- A unit is logged as uncorrectable (R294, R296, R297). -/
def State.logUe (s : State) (key : Nat) : State :=
  if s.ueLog.contains key then s else s.withUeLog (s.ueLog ++ [key])

/-- A chamber in native mode consumes an uncorrectable or poisoned unit of a stack (R294). -/
def State.unitUe (s : State) (x : Nat) : State :=
  let p := s.stackAt x
  let c := s.stackChamber x
  let seq := s.fld R.MGMT_STATUS_SEQ
  let s := s.logUe (unitKey p.stack p.loc)
  let s := s.raise { s.recCh UECHAMBER 8 c with reg := R.MS_UE_ADDR p.stack }
  s.chRequest c UECHAMBER seq false

/-- A chamber in native mode consumes an uncorrectable word of gallery memory (R295). -/
def State.galUe (s : State) (site : Nat) : State :=
  let seq := s.fld R.MGMT_STATUS_SEQ
  let s := s.raise (s.recAt (s.mkRec UECHAMBER 5 0) site)
  match s.chamberOf site with
  | some c => s.chRequest c UECHAMBER seq false
  | none => s

/-- What a read of a stack gives: a status of Table 11.3, the bytes, and whether they carry poison. -/
structure StackRd where
  status : Nat
  data : List Byte
  poison : Bool
deriving DecidableEq, Repr

/-- A read of `n` bytes from module address `x` up. -/
def State.stackRead (s : State) (x n : Nat) : State × StackRd :=
  let us := unitsOf x n
  if us.any (fun u => !s.stackOpen u) then (s, ⟨8, [], false⟩)
  else match us.find? (fun u => s.stackPoisoned u) with
    | none => (s, ⟨0, s.rdStack x n, false⟩)
    | some u =>
      if s.t6 (s.stackChamber u) then (s, ⟨0, s.rdStack x n, true⟩)
      else (s.unitUe u, ⟨11, [], false⟩)

/-- One piece written: a whole unit clears the poison mark; a partial write that finds its unit poisoned is discarded in
T6-compatibility and a consumption in native mode (R293, R294). -/
def State.stackPiece (s : State) (x : Nat) (bs : List Byte) : State × Nat :=
  if !s.stackOpen x then (s, 8)
  else if bs.length = 64 then ((s.wrStack x bs).markUnit x false, 0)
  else if s.stackPoisoned x then
    if s.t6 (s.stackChamber x) then (s.ce 8, 0) else (s.unitUe x, 11)
  else (s.wrStack x bs, 0)

/-- Pieces written in order, up to the first that fails. -/
def State.stackPieces (s : State) : List (Nat × List Byte) → State × Nat
  | [] => (s, 0)
  | p :: ps => match s.stackPiece p.1 p.2 with
    | (s, 0) => s.stackPieces ps
    | r => r

/-- A write of bytes from module address `x` up: the state and a status of Table 11.3. -/
def State.stackWrite (s : State) (x : Nat) (bs : List Byte) : State × Nat :=
  s.stackPieces (unitPieces (bs.length + 1) x bs)

/-! ## Checking (R293, Table 13.2), rows (R298) -/

/-- The row of a stack-local address: a 1 KiB row segment; and its bank (log entry 20). -/
def rowOfLoc (loc : Nat) : Nat := loc / 1024
def bankOfRow (row : Nat) : Nat := row / 4 % 64 * 4 + row % 4

/-- A day in ns. -/
def dayNs : Nat := 86400000000000

/-- A row joins those that wait for soft repair. -/
def State.wantRepair (s : State) (k row : Nat) : State :=
  let m := s.ms k
  if m.toRepair.contains row || m.soft.contains row || m.hard.contains row then s
  else s.setMs k { m with toRepair := m.toRepair ++ [row] }

/-- A single-bit error of a unit is corrected: counted, recorded; the third of its row within 24 h asks for repair. -/
def State.unitCe (s : State) (k loc : Nat) : State :=
  let s := (s.addFld (R.MS_ECC_CNT_CE k) 1).raise { s.mkRec CE 8 0 with reg := R.MS_ECC_CNT k }
  let m := s.ms k
  let row := rowOfLoc loc
  let ts := (m.rowCe.get row []).filter (fun t => decide (s.now < t + dayNs)) ++ [s.now]
  let s := s.setMs k { m with rowCe := m.rowCe.put row ts [] }
  if 3 ≤ ts.length then s.wantRepair k row else s

/-- An uncorrectable unit is found: marked poisoned, counted, located; its row asks for repair. -/
def State.unitBad (s : State) (k loc : Nat) : State :=
  let s := s.withPoison (s.poison.put (unitKey k loc) 1 0)
  let s := (s.addFld (R.MS_ECC_CNT_UE k) 1).setReg (R.MS_UE_ADDR k) (BitVec.ofNat 64 (2 ^ 63 + loc / 64 * 64 % 2 ^ 36))
  s.wantRepair k (rowOfLoc loc)

/-- The chamber whose region holds a stack-local address. -/
def State.chamberOfLoc (s : State) (k loc : Nat) : Option Nat :=
  let u := loc / 0x8000000
  (List.find? (fun p => decide (R.MSMAP_REGION 0 ≤ p.1) && decide (p.1 < R.MSMAP_REGION 512) && getBits p.2 63 1 == 1 &&
    (if getBits p.2 61 2 = 2 then getBits p.2 56 5 == k && decide (getBits p.2 0 9 ≤ u) && decide (u < getBits p.2 0 9 + 32)
     else getBits p.2 0 9 == u)) s.csr).map (fun p => getBits p.2 52 4)

/-- STACK_REQUEST: one 64 B request at a controller (R291). `en` is the byte-enable mask of a write; `chk` what the
Keapel check found (0 no error, 1 single-bit, 2 uncorrectable). A full write makes no check. -/
def execStackRequest (x : Nat) (write : Bool) (en : Nat) (data : List Byte) (chk : Nat) (s : State) :
    Host.Outcome State Fault Refusal :=
  let x := x / 64 * 64
  let full := decide (en % 2 ^ 64 = 2 ^ 64 - 1) && decide (64 ≤ data.length)
  .next (
    if !s.stackOpen x then s.emit (.stackRead 0 8 false)
    else if write && full then ((s.wrStack x (data.take 64)).markUnit x false).emit (.stackRead 0 0 false)
    else
      let p := s.stackAt x
      let bad := chk == 2
      let s := if bad then s.unitBad p.stack p.loc else if chk == 1 && !s.stackPoisoned x then s.unitCe p.stack p.loc else s
      let merged := (s.rdStack x 64).mapIdx (fun i b => if bitN en i = 1 then data.getD i 0 else b)
      if s.stackPoisoned x then
        if s.t6 (s.stackChamber x) then
          if write then (s.ce 8).emit (.stackRead 0 0 false) else s.emit (.stackRead (leNat (s.rdStack x 64)) 0 true)
        else (s.unitUe x).emit (.stackRead 0 11 false)
      else if write then (s.wrStack x merged).emit (.stackRead 0 0 false)
      else s.emit (.stackRead (leNat (s.rdStack x 64)) 0 false))

/-- STACK_SCRUB_READ: the scrub reads the next unit of stack `k` (R297). -/
def execStackScrubRead (k chk : Nat) (s : State) : Host.Outcome State Fault Refusal :=
  .next (
    if s.fld (R.MS_CTRL_SCRUB_EN k) = 0 ∨ s.fld (R.MS_STATUS_STATE k) ≠ 2 then s
    else
      let m := s.ms k
      let loc := 64 * m.scrubAt
      let last := decide (m.scrubAt + 1 = 2 ^ 30)
      let s := s.setMs k { m with scrubAt := if last then 0 else m.scrubAt + 1 }
      let s := if last then s.bumpFld (R.MS_STATUS_SCRUB_PASS k) 1 else s
      if chk = 1 then s.unitCe k loc
      else if chk = 2 then
        let s := (s.unitBad k loc).logUe (unitKey k loc)
        s.raise { s.mkRec UECHAMBER 8 0 with chamber := s.chamberOfLoc k loc, reg := R.MS_UE_ADDR k }
      else s)

/-- STACK_TEMP_READ: a controller reads its stack's temperature (R299); unpowered controllers keep their last reading. -/
def execStackTempRead (k temp : Nat) (s : State) : Host.Outcome State Fault Refusal :=
  .next (
    match s.mode with
    | .refuge => s
    | .standby => s
    | .off => s
    | _ => (s.setFld (R.MS_STATUS_TEMP k) temp).setFld (R.MS_STATUS_REFRESH_2X k) (b2n (decide (85 < temp))))

end Sys2Proof.Machine
end

