-- ==== Sys2Proof/Machine/Health.lean ====
section
/-! DEFINITION. Offences and the suspect ladder of a site (R401 to R403), fences of units. -/

namespace Sys2Proof.Machine

/-- Physical cores with fault bit 0. -/
def State.coresOk (s : State) (site : Nat) : Nat :=
  ((List.range 34).filter (fun p => bitN (s.fld (R.GAL_CORE_FAULT_FAULT site)) p == 0)).length

/-- A site may hold a logical gallery as far as its cores and MXEs go: 32 cores or more are usable (R57), and neither MXE
is FENCED or FAILED (R108). -/
def State.siteFit (s : State) (site : Nat) : Bool :=
  decide (32 ≤ s.coresOk site) && [0, 1].all (fun j =>
    s.fld (R.MXE_CTRL_FENCE site j) == 0 && s.fld (R.MXE_STATUS_STATE site j) != 5)

/-- State of a node's router: 0 NORMAL, 1 FENCED, 2 DRAINING, 3 BYPASS. -/
def State.rtrState (s : State) (n : Nat) : Nat := s.fld (R.RTR_STATUS_STATE (rtrBase n))

/-- Endpoints of a node fenced, or unfenced, as its router sees it. -/
def State.rtrFence (s : State) (n : Nat) (on : Bool) : State :=
  let st := s.rtrState n
  if on ∧ st = 0 then s.setFld (R.RTR_STATUS_STATE (rtrBase n)) 1
  else if !on ∧ st = 1 then s.setFld (R.RTR_STATUS_STATE (rtrBase n)) 0
  else s

/-- A site's endpoints are fenced, which its router follows (R275). -/
def State.fenceGal (s : State) (site : Nat) : State :=
  ((s.setFld (R.GAL_CTRL_FENCE site) 1).setFld (R.GAL_STATUS_STATE site) 3).rtrFence site true

/-- The record of a known-answer event or an offence: source 13, DETAIL the offence kind, 0 for a health event. -/
def State.healthRec (s : State) (site kind : Nat) : State :=
  s.raise { s.recAt (s.mkRec CE 13 0) site with detail := leBytes 1 kind ++ leBytes 11 0 }

/-- An offence of a kind of Table 19.3 is charged to a site; Table 19.4 follows. A second offence of the site in one drip
raises its record and moves nothing. -/
def State.offence (s : State) (site kind : Nat) : State :=
  let s := (s.addFld (R.TR_OFFENCE_TOTAL site) 1).setFld (R.TR_OFFENCE_KINDS site)
    (setBitN (s.fld (R.TR_OFFENCE_KINDS site)) kind)
  let s := (s.addFld (R.HLT_SITE_CNT_OFFENCE site) 1).setFld (R.TR_LADDER_LAST site) kind
  let s := s.healthRec site kind
  let again := s.tst.offDrip.get site 0 == s.dripNo + 1
  let s := s.withTst { s.tst with offDrip := s.tst.offDrip.put site (s.dripNo + 1) 0 }
  if again || s.fld (R.GAL_STATUS_STATE site) == 3 then s
  else if s.fld (R.TR_LADDER_TOP site) ≤ s.fld (R.TR_LADDER_RUNG site) then
    (s.fenceGal site).ceAt 13 site
  else (s.setFld (R.TR_LADDER_SUSPECT site) 1).setFld (R.TR_LADDER_WATCH_LEFT site) (s.fld R.TRM_CTRL_WATCH_DRIPS)

/-- A word of a slice is corrected: counted, recorded; more than CE_LIMIT in one drip is an offence, once (Table 19.3). -/
def State.galCe (s : State) (site slice : Nat) : State :=
  let s := ((s.addFld (R.GM_ECC_CNT_CE site) 1).addFld (R.HLT_SITE_CNT_CE site) 1).setFld (R.GM_ERR_STATUS_CE_SEEN site) 1
  let s := s.raise { s.recAt (s.mkRec CE 5 0) site with reg := R.GM_ECC_CNT site }
  let n := s.tst.corr.get (32 * site + slice) 0 + 1
  let s := s.withTst { s.tst with corr := s.tst.corr.put (32 * site + slice) n 0 }
  if n = s.fld R.TRM_CTRL_CE_LIMIT + 1 then s.offence site 7 else s

/-- A read meets a marked word: one flipped bit is corrected and written back, an uncorrectable word is counted once and
holds the poison syndrome from then on (R62, R295). -/
def State.eccWord (s : State) (site off : Nat) : State :=
  match s.wordMark site off with
  | 2 => (s.markWord site off false).galCe site (s.sliceOf site off)
  | 3 => ((s.addFld (R.GM_ECC_CNT_UE site) 1).setFld (R.GM_ERR_STATUS_UE_SEEN site) 1).markWord site off true
  | _ => s

/-- What the check bits of the words read do: every read of gallery memory passes here (R62). -/
def State.eccRead (s : State) (site off n : Nat) : State :=
  (s.marksIn site off n).foldl (fun s p => s.eccWord site (8 * (p.1 - wordKey site 0))) s

/-- The same for each of a list of ranges. -/
def State.eccRanges (s : State) (site : Nat) (rs : List (Nat × Nat)) : State :=
  rs.foldl (fun s r => s.eccRead site r.1 r.2) s

/-- The containment mode of a gallery's chamber is T6-compatibility. -/
def State.siteT6 (s : State) (site : Nat) : Bool :=
  match s.chamberOf site with
  | some c => s.t6 c
  | none => false

/-- What an engine reads is poisoned, or not: in native mode that is the consumption of an uncorrectable word (R295). -/
def State.consume (s : State) (site : Nat) (bad : Bool) : State :=
  if bad && !s.siteT6 site then s.galUe site else s

/-- Patrol may run on a site (R397). -/
def State.patrolOk (s : State) (site : Nat) : Bool :=
  (s.mode == .normal || s.mode == .quiesce) && s.fld R.TRM_CTRL_PATROL_EN == 1 && s.fld (R.GAL_STATUS_STATE site) == 2

/-- A known-answer run of a unit may start: at most one per unit and drip. Units of a site: 0, 1 MXEs, 2 curtain. -/
def State.kaOk (s : State) (site u : Nat) : Bool :=
  s.patrolOk site && s.tst.kaDrip.get (4 * site + u) 0 != s.dripNo + 1

/-- A known-answer run of a unit starts. -/
def State.kaStart (s : State) (site u : Nat) : State :=
  s.withTst { s.tst with kaDrip := s.tst.kaDrip.put (4 * site + u) (s.dripNo + 1) 0 }

end Sys2Proof.Machine
end

