-- ==== Sys2Proof/Machine/Mxe.lean ====
section
/-! DEFINITION. The matrix engines (chapter 6): tiles from QUEUED to their end, the witness check, holds and releases,
patrol tiles, and the retire of hardware claims. -/

namespace Sys2Proof.Machine

/-- The curtain configuration in force holds an epilogue with an id (R119, R141); id 0 is the bypass. -/
def State.hasEpi (s : State) (site e : Nat) : Bool :=
  e == 0 || (let w := (s.cur site).progs.get e 0; getBits w 63 1 == 1 && getBits w 62 1 == 0)

/-- The tile that an MXE starts next (R121). -/
def pickTile (q : List Tile) : Option Tile :=
  match q.find? (fun t => t.cls == 0) with
  | some t => some t
  | none => q.head?

/-- The MXE runs tiles: enabled, not fenced, not FAILED, its gallery in RUN, no curtain load in progress. -/
def State.mxeRuns (s : State) (site j : Nat) : Bool :=
  s.fld (R.MXE_CTRL_ENABLE site j) == 1 && s.fld (R.MXE_CTRL_FENCE site j) == 0 &&
    s.fld (R.MXE_STATUS_STATE site j) != 5 && s.fld (R.GAL_STATUS_STATE site) == 2 && (s.cur site).loadAt.isNone

/-- The bytes of the activation scales that a tile reads. -/
def Tile.scLen (t : Tile) : Nat := if isMx t.fmtA then t.ascLen else 0

/-- The buffered activation block that serves a tile without a read (R114): same ranges, format, M and K. -/
def State.actReused (s : State) (site j : Nat) (t : Tile) : Option ActBuf :=
  (s.mxe (2 * site + j)).actBuf.filter (fun b => !t.os && b.base == t.aR.base && b.len == t.aLen && b.scLen == t.scLen &&
    (b.scLen == 0 || b.scBase == t.asc) && b.fmt == t.fmtA && b.m == t.m && b.k == t.k)

/-- Activation bytes of R114, MX scales included. -/
def Tile.actBytes (t : Tile) : Nat := t.m * t.k * fmtBits t.fmtA / 8 + (if isMx t.fmtA then t.m * ceilDiv t.k 32 else 0)

/-- The activation block that a tile leaves in the buffer: its own, where it fits, else the one that was there. -/
def State.actKept (s : State) (site j : Nat) (t : Tile) : Option ActBuf :=
  if t.os || decide (65536 < t.actBytes) then (s.mxe (2 * site + j)).actBuf
  else match s.actReused site j t with
    | some b => some b
    | none => some ⟨t.aR.base, t.aLen, t.asc, t.scLen, t.fmtA, t.m, t.k, s.rdGal site t.aR.base t.aLen, s.rdGal site t.asc t.scLen⟩

/-- The activations of a tile: from the buffer where it serves, else from memory. -/
def State.actOf (s : State) (site j : Nat) (t : Tile) : Nat → Nat → FV :=
  match s.actReused site j t with
  | some b => ((s.wrBytes (galKey site b.base) b.bytes).wrBytes (galKey site b.scBase) b.scBytes).actVal site t
  | none => s.actVal site t

/-- The ranges that a tile reads at its start: a buffered block, its scales among it, is not read again. -/
def State.tileReads (s : State) (site j : Nat) (t : Tile) : List (Nat × Nat) :=
  if (s.actReused site j t).isSome then t.srcs.tail.filter (fun r => !(isMx t.fmtA && r == (t.asc, t.ascLen))) else t.srcs

/-- Data column, or spare column, that computes output column `n` of a running tile (R106). -/
def RunTile.column (r : RunTile) (n : Nat) : Nat :=
  let p := (n + r.rot) % 128
  if getBits r.colMap 15 1 = 1 ∧ getBits r.colMap 0 7 = p then 129
  else if getBits r.colMap 31 1 = 1 ∧ getBits r.colMap 16 7 = p then 130
  else p

/-- Output rows with elements (m, n) replaced by what faulty cells deliver. -/
def withDev (rows : List (List Nat)) (dev : List CellDev) : List (List Nat) :=
  dev.foldl (fun rs d => rs.set d.row ((rs.getD d.row []).set d.col (d.code % 2 ^ 32))) rows

/-! ## The stream queues (R134, R143) -/

/-- Rows of a tile that its curtain item has taken from the stream queue: those that every column has popped, or all of them
where the epilogue is the bypass. -/
def State.rowsPopped (s : State) (site : Nat) (r : RunTile) : Nat :=
  if r.written then r.t.m
  else match (s.cur site).item with
    | some i =>
      if i.kind.op ≠ r.t.op then 0
      else if i.prog = 0 then r.t.m
      else (List.range 8).foldl (fun n x => min n (i.popS.get x 0 / 4)) r.t.m
    | none => 0

/-- Rows of a list of tiles that wait in the stream queue of 16 when the rows of those before them take `used` places; the
rows of the last have entered as far as there is room. -/
def State.rowsQueued (s : State) (site : Nat) : List RunTile → Nat → Nat
  | [], used => used
  | r :: rs, used => s.rowsQueued site rs (used + min (r.t.m - s.rowsPopped site r) (16 - used))

/-- Rows of a tile of an MXE that have entered its stream queue. -/
def State.rowsEntered (s : State) (site j : Nat) (r : RunTile) : Nat :=
  let x := s.mxe (2 * site + j)
  let past := x.held.toList ++ x.draining
  if past.any (fun q => q.t.op == r.t.op) then r.t.m
  else
    let before := past ++ x.run.takeWhile (fun q => q.t.op != r.t.op)
    min r.t.m (s.rowsPopped site r + (16 - s.rowsQueued site before 0))

/-- The last output row of a tile has been accepted: all its rows are in the stream queue or past it. -/
def State.rowsAccepted (s : State) (site j : Nat) (r : RunTile) : Bool := decide (s.rowsEntered site j r = r.t.m)

/-- Tiles of an MXE whose first row enters its stream queue begin to wait for their epilogues, in the order in which they
started. DESIGN CHOICE: R143 dates the wait from that clock, and the rules state no bound below R115's for it; the model lets a
row enter at the latest moment, when the curtain next looks for an item or the tile's last row is accepted (log entry 49). -/
def State.streamIn (s : State) (site j : Nat) : State :=
  let c := s.cur site
  let new := ((s.mxe (2 * site + j)).run.filter (fun r =>
    !r.written && !c.waiting.contains r.t.op && decide (0 < s.rowsEntered site j r))).map (·.t.op)
  s.setCur site { c with waiting := c.waiting ++ new }

/-! ## The checksums of a tile (R125) -/

/-- Magnitude of a finite value. -/
def absV : FV → FV
  | .fin _ m e => .fin false m e
  | .inf _ => .inf false
  | v => v

/-- A term of an FP32 accumulation, rounded once and added. -/
def accTerm (acc : Nat) (v : FV) : Nat := (addAcc acc (f32 (toF32 0 0 v).1) 0).1

/-- The exact sum of a list of values. -/
def sumV (vs : List FV) : FV := vs.foldl (fun a v => (addV a v).1) (.fin false 0 0)

/-- The positions of a tile in the groups that R96 adds: one by one for BF16 and FP16. -/
def Tile.groups (t : Tile) : List (List Nat) :=
  if t.b16 then (List.range t.k).map (fun p => [p]) else (List.range (ceilDiv t.k t.groupLen)).map (t.group t.groupLen)

/-- A checksum accumulated over the positions of a tile in the order of R96 from a starting value; `term` gives each position's
term, exact. -/
def Tile.accSum (t : Tile) (start : Nat) (term : Nat → FV) : Nat :=
  t.groups.foldl (fun a g => accTerm a (sumV ((g.filter t.posOn).map term))) start

/-- The FP32 sum of a list of FP32 codes, in order. -/
def sumF32 (l : List Nat) : Nat := l.foldl (fun a c => (addF32 0 0 a c).1) 0

/-- The checksum of one output row, or column, of a tile whose outputs are `rows` (R125): S sums the outputs, W the starting
values and the products of one operand with the per-position sums of the other, A the magnitudes of the same terms. Masked cells
are left out (R117). DESIGN CHOICE: the per-position sums are exact, and S adds in ascending order (log entry 51). -/
def State.checksum (s : State) (site : Nat) (t : Tile) (act : Nat → Nat → FV) (rows : List (List Nat)) (isRow : Bool)
    (i : Nat) : WitSum :=
  let cells := if isRow then ((List.range 128).map (fun n => (i, n))).filter (fun p => t.outOn p.1 p.2)
    else ((List.range t.m).map (fun m => (m, i))).filter (fun p => t.outOn p.1 p.2)
  let w (n p : Nat) : FV := (s.wgtVal site t n p).getD (.fin false 0 0)
  let prod (c : Nat × Nat) (p : Nat) : FV := (mulV (act c.1 p) (w c.2 p)).1
  let term (p : Nat) : FV :=
    if isRow then (mulV (act i p) (sumV (cells.map (fun c => w c.2 p)))).1
    else (mulV (sumV (cells.map (fun c => act c.1 p))) (w i p)).1
  ⟨isRow, i, sumF32 (cells.map (fun c => (rows.getD c.1 []).getD c.2 0)),
    t.accSum (sumF32 (cells.map (fun c => s.startVal site t c.1 c.2))) term,
    t.accSum 0 (fun p => sumV (cells.map (fun c => absV (prod c p))))⟩

/-- The checksums of a tile: one for each enabled row and each enabled column (R125). -/
def State.checksums (s : State) (site : Nat) (t : Tile) (act : Nat → Nat → FV) (rows : List (List Nat)) : List WitSum :=
  let on (isRow : Bool) (i : Nat) : Bool :=
    if isRow then (List.range 128).any (t.outOn i) else (List.range t.m).any (fun m => t.outOn m i)
  let all := ((List.range t.m).filter (on true)).map (fun m => (true, m)) ++
    ((List.range 128).filter (on false)).map (fun n => (false, n))
  all.map (fun p => s.checksum site t act rows p.1 p.2)

/-- Checksums with those that a faulty checker delivers instead. -/
def deviate (sums dev : List WitSum) : List WitSum :=
  sums.map (fun w => (dev.find? (fun d => d.isRow == w.isRow && d.index == w.index)).getD w)

/-! ## The start of a tile -/

/-- A tile starts: it becomes RUNNING with its output rows computed, or ends as Table 6.4 says. `dev`: elements that faulty
cells of the array deliver otherwise than R96. DESIGN CHOICE: Table 6.5 has no code for a read that a scrub refuses, which R80
rejects with status SCRUBBING; the tile ends with code 2, BANK_CLOSED (log entry 50). -/
def State.tileStart (s : State) (site j : Nat) (t : Tile) (dev : List CellDev) : State :=
  let k := 2 * site + j
  let s := s.setMxe k { s.mxe k with queue := (s.mxe k).queue.filter (fun x => x.op != t.op), patrol := false }
  let reads := s.tileReads site j t
  if s.gates site reads ≠ .ok then (s.nack site (s.gates site reads)).tileErr site j t 2
  else if s.badSparse site t then s.tileErr site j t 4
  else if !s.hasEpi site t.epi then s.tileErr site j t 3
  else
    let bad := t.srcs.any (fun r => s.galPoisoned site r.1 r.2)
    let s := s.eccRanges site t.srcs
    let act := s.actOf site j t
    let (right, fl) := s.tileRows site t act
    let rows := withDev right dev
    let x := s.mxe k
    let r : RunTile := ⟨t, s.fld (R.CUR_STATUS_GEN site), fl, bad, false, 0, t.srcs, s.fld (R.MXE_CTRL_ROT site j),
      s.reg (R.MXE_COL_MAP site j), s.checksums site t act rows⟩
    let s := s.setMxe k { x with
      run := x.run ++ [r], rows := x.rows.put t.op rows [], actBuf := s.actKept site j t }
    s.consume site bad

/-- An empty tile at the head of the queue is DONE without the array (R215, Table 6.4). -/
def State.tileEmpty (s : State) (site j : Nat) (t : Tile) : State :=
  let k := 2 * site + j
  let s := s.setMxe k { s.mxe k with queue := (s.mxe k).queue.filter (fun x => x.op != t.op) }
  (s.lastTile site j 0 t.task).addFld (R.MXE_TILE_CNT_OK site j) 1

/-- TILE_START: an MXE starts the tile at the head of its queue (R121); at most one tile accumulates while one drains. -/
def execTileStart (site : Nat) (x : ArrayStart) (s : State) : Host.Outcome State Fault Refusal :=
  let j := x.j
  .next (
    match pickTile (s.mxe (2 * site + j)).queue with
    | none => s
    | some t =>
      if t.empty then s.tileEmpty site j t
      else if s.mxeRuns site j && decide ((s.mxe (2 * site + j)).run.length < 2) then s.tileStart site j t x.dev
      else s)

/-! ## The witness check (R125 to R128) -/

/-- The tolerance field of a tile's operand class (R126). -/
def State.tolOf (s : State) (site j : Nat) (t : Tile) : Nat :=
  if t.b16 then s.fld (R.MXE_WIT_CTRL_TOL_B16 site j)
  else if t.bsi then s.fld (R.MXE_WIT_CTRL_TOL_BSI site j)
  else if t.both4 then s.fld (R.MXE_WIT_CTRL_TOL_4 site j)
  else s.fld (R.MXE_WIT_CTRL_TOL_8 site j)

/-- A checksum is not compared: its sum or its witness is NaN or infinite. -/
def witSkip (w : WitSum) : Bool := notFinite (f32 w.sum) || notFinite (f32 w.wit)

/-- The exact |S - W|. -/
def witDiff (w : WitSum) : FV := absV (addV (f32 w.sum) (negV (f32 w.wit))).1

/-- A checksum passes: |S - W| ≤ 2^-T × A × ceil(K / 4096). -/
def witPasses (w : WitSum) (tol k : Nat) : Bool :=
  witSkip w || !ltV (mulV (f32 w.mag) (.fin false (ceilDiv k 4096) (-(tol : Int)))).1 (witDiff w)

/-- The largest of a list of magnitudes, as an FP32 code. -/
def maxDiff (ws : List WitSum) : Nat :=
  (toF32 0 0 (ws.foldl (fun a w => if !witSkip w && ltV a (witDiff w) then witDiff w else a) (.fin false 0 0))).1

/-- The lowest index of the failing row, or column, checksums. -/
def firstOf (ws : List WitSum) (isRow : Bool) : Nat :=
  match (ws.filter (fun w => w.isRow == isRow)).map (·.index) with
  | [] => 0
  | i :: is => is.foldl min i

/-- A tile leaves RUNNING for CHECK. -/
def State.leaveRun (s : State) (site j op : Nat) : State :=
  let x := s.mxe (2 * site + j)
  s.setMxe (2 * site + j) { x with run := x.run.filter (fun r => r.t.op != op) }

/-- A tile that passed its check: DONE when the curtain's writes are done. -/
def State.tilePass (s : State) (site j : Nat) (r : RunTile) : State :=
  if r.written then s.tileDone site j r
  else
    let x := s.mxe (2 * site + j)
    s.setMxe (2 * site + j) { x with draining := x.draining ++ [r] }

/-- Bedrock arbitrates a tile that has entered HELD: run 1 starts, with the mapping turned by 64 columns (R405, R406). -/
def State.arbStart (s : State) (site j : Nat) (t : Tile) (chk : List WitSum) (col : Nat) : State :=
  if s.fld R.TRM_CTRL_ARB_EN = 0 then s
  else
    let rot := s.fld (R.MXE_CTRL_ROT site j)
    let s := s.withTst { s.tst with arbs := s.tst.arbs.ins (2 * site + j) ⟨t, chk, [], 0, 0, rot⟩ }
    let s := s.setReg (R.TR_ARB site) (BitVec.ofNat 64 (2 ^ 61 + j % 2 * 2 ^ 56 + col % 128 * 2 ^ 49))
    s.setFld (R.MXE_CTRL_ROT site j) (rot + 64)

/-- The hold of a tile that is being arbitrated is over otherwise than by the arbitration: 1 by its limit, 2 by a
release. -/
def State.arbOver (s : State) (site j n : Nat) : State :=
  match s.tst.arbs.find? (2 * site + j) with
  | some a => s.withTst { s.tst with arbs := s.tst.arbs.ins (2 * site + j) { a with exceed := n } }
  | none => s

/-- A tile that failed its check: HELD, or ended at once (R127). -/
def State.tileFail (s : State) (site j : Nat) (r : RunTile) (bad all : List WitSum) : State :=
  let s := s.addFld (R.MXE_WIT_CNT_FAIL site j) 1
  if (s.mxe (2 * site + j)).held.isSome || s.fld (R.MXE_WIT_CTRL_HOLD_US site j) == 0 then s.tileErr site j r.t 1
  else
    let w := 2 ^ 63 + b2n (bad.any (·.isRow)) * 2 ^ 62 + b2n (bad.any (fun w => !w.isRow)) * 2 ^ 61 +
      firstOf bad true % 128 * 2 ^ 48 + firstOf bad false % 128 * 2 ^ 40 + r.t.task % 64 * 2 ^ 32 + maxDiff all
    let s := s.setReg (R.MXE_WIT_STATUS site j) (BitVec.ofNat 64 w)
    let s := s.setMxe (2 * site + j) { s.mxe (2 * site + j) with held := some { r with since := s.now } }
    (s.engRec CE site j 1).arbStart site j r.t all (firstOf bad false)

/-- Clocks that a tile took, busy and stalled: the manual bounds them (R115) and does not state them (log entry 22). -/
def State.mxeClocks (s : State) (site j : Nat) : State :=
  let (b, s) := s.takeFree
  let (l, s) := s.takeFree
  let (c, s) := s.takeFree
  ((s.addFld (R.MXE_BUSY_CLKS_COUNT site j) b).addFld (R.MXE_STALL_LOAD_COUNT site j) l).addFld
    (R.MXE_STALL_CUR_COUNT site j) c

/-- TILE_OUTPUT_COMPLETE: the oldest RUNNING tile enters CHECK with its checksums; `chk` are those that a faulty checker
delivers instead. -/
def execTileOutputComplete (site j : Nat) (chk : List WitSum) (s : State) : Host.Outcome State Fault Refusal :=
  .next (
    match (s.mxe (2 * site + j)).run with
    | [] => s
    | r :: _ =>
      let s := s.streamIn site j
      if !s.rowsAccepted site j r then s
      else
        let chk := deviate r.sums chk
        let s := (s.leaveRun site j r.t.op).mxeClocks site j
        if s.fld (R.MXE_WIT_CTRL_ENABLE site j) = 0 then s.tilePass site j r
        else
          let s := s.addFld (R.MXE_WIT_CNT_SKIP site j) (chk.filter witSkip).length
          let bad := chk.filter (fun w => !witPasses w (s.tolOf site j r.t) r.t.k)
          if bad.isEmpty then s.tilePass site j r else s.tileFail site j r bad chk)

/-- The cause of a status of Table 6.5 is there for a RUNNING tile: a read refused, an epilogue that is gone, bad metadata,
another curtain generation, a task that has ended, an MXE that is fenced or FAILED. A parity failure is an event of the
hardware. -/
def State.tileCause (s : State) (site j status : Nat) (r : RunTile) : Bool :=
  match status with
  | 2 => s.gates site r.srcs != .ok
  | 3 => !s.hasEpi site r.t.epi
  | 4 => s.badSparse site r.t
  | 5 => true
  | 6 => r.gen != s.fld (R.CUR_STATUS_GEN site)
  | 7 => s.fld (mValid (taskM site r.t.task)) == 0
  | 8 => s.fld (R.MXE_CTRL_FENCE site j) == 1 || s.fld (R.MXE_STATUS_STATE site j) == 5
  | _ => false

/-- TILE_ERROR: the tile that the array computes ends with a status of Table 6.5 whose cause is there (R123, R124). A parity
failure is an offence of the site (R400). -/
def execTileError (site j status : Nat) (s : State) : Host.Outcome State Fault Refusal :=
  .next (
    match (s.mxe (2 * site + j)).run.getLast? with
    | none => s
    | some r =>
      if !s.tileCause site j status r then s
      else
        let s := s.tileErr site j r.t status
        if status = 5 then s.offence site 6 else s)

/-! ## Holds (R127) -/

/-- The hold of an MXE ends with an outcome of Table 6.13. -/
def State.mxeRelease (s : State) (site j outcome : Nat) : State :=
  match (s.mxe (2 * site + j)).held with
  | none => s
  | some r =>
    if outcome = 2 then s.tileErr site j r.t 1
    else
      let s := s.setFld (R.MXE_WIT_STATUS_HELD site j) 0
      let s := s.setMxe (2 * site + j) { s.mxe (2 * site + j) with held := none }
      s.tilePass site j r

/-- HOLD_EXPIRY: the hold limit has elapsed: the tile ends in ERROR with WITNESS. -/
def execHoldExpiry (site j : Nat) (s : State) : Host.Outcome State Fault Refusal :=
  .next (
    match (s.mxe (2 * site + j)).held with
    | none => s
    | some r =>
      let due := r.since + 1000 * s.fld (R.MXE_WIT_CTRL_HOLD_US site j)
      (((s.withNow (max s.now due))).arbOver site j 1).tileErr site j r.t 1)

/-- PATROL_TILE: an idle MXE runs a known-answer tile, which touches no gallery memory (R129, R397). -/
def execPatrolTile (site j : Nat) (s : State) : Host.Outcome State Fault Refusal :=
  .next (
    let x := s.mxe (2 * site + j)
    if x.queue.isEmpty && x.run.isEmpty && s.fld (R.MXE_CTRL_PATROL_EN site j) == 1 && s.mxeRuns site j &&
        s.kaOk site j then
      (s.kaStart site j).setMxe (2 * site + j) { x with patrol := true }
    else s)

/-- Tiles move off, or end on, an MXE that Bedrock fences (Table 6.4): queued tiles whose selection was "either" go to
the other MXE's tail if it is usable; the others end with MXE_FENCED. -/
def State.mxeFence (s : State) (site j : Nat) : State :=
  let s := s.setFld (R.MXE_CTRL_FENCE site j) 1
  let o := 1 - j
  let usable := s.fld (R.MXE_CTRL_ENABLE site o) == 1 && s.fld (R.MXE_CTRL_FENCE site o) == 0 &&
    s.fld (R.MXE_STATUS_STATE site o) != 5
  let x := s.mxe (2 * site + j)
  let go := if usable then x.queue.filter (·.either) else []
  let s := s.setMxe (2 * site + j) { x with queue := x.queue.filter (fun t => !(usable && t.either)) }
  let s := s.setMxe (2 * site + o) { s.mxe (2 * site + o) with queue := (s.mxe (2 * site + o)).queue ++ go }
  let keep := ((s.mxe (2 * site + j)).draining ++ (s.mxe (2 * site + j)).held.toList).map (·.t.op)
  s.tilesErr site j 8 (fun t => !keep.contains t.op)

/-! ## Hardware claims (R72, R74, R169) -/

/-- A combine in progress has made its reads (R221): its rows are summed, or its LA block has taken them. -/
def State.combineRead (s : State) (site : Nat) (i : Item) : Bool := !(s.cur site).combRows.isEmpty || i.written != 0

/-- Words of a run's input that have been popped by every column in use. -/
def Item.allPopped (i : Item) (r : CRun) : Bool :=
  (List.range 8).all (fun x => decide (r.cols < 16 * x) ||
    ((r.inA.isNone || decide (4 * r.rows ≤ i.popA.get x 0)) && (r.inB.isNone || decide (4 * r.rows ≤ i.popB.get x 0))))

/-- The last read of an operation's ranges is done, or the operation is over. -/
def State.readsDone (s : State) (site op : Nat) : Bool :=
  let queued := (s.mxe (2 * site)).queue ++ (s.mxe (2 * site + 1)).queue
  let c := s.cur site
  let t := s.tfe site
  !(queued.any (fun x => x.op == op)) && !(c.runs.any (fun r => r.op == op)) && !(c.combines.any (fun r => r.op == op)) &&
    (match c.item with
     | some i => (match i.kind with
       | .run r => r.op != op || i.allPopped r
       | .combine x => x.op != op || s.combineRead site i
       | _ => true)
     | none => true) &&
    (match c.susp with
     | some i => i.kind.op != op
     | none => true) &&
    !((t.queue ++ t.active).any (fun d => d.op == op && !d.readsOver))

/-- The operation has not ended: its W claims are still held. -/
def State.opLive (s : State) (site op : Nat) : Bool :=
  let m (j : Nat) : List Nat :=
    let x := s.mxe (2 * site + j)
    x.queue.map (·.op) ++ (x.run ++ x.draining ++ x.held.toList).map (·.t.op)
  let c := s.cur site
  let t := s.tfe site
  (m 0 ++ m 1 ++ c.runs.map (·.op) ++ c.combines.map (·.op) ++ (c.item.toList ++ c.susp.toList).map (·.kind.op) ++
    (t.queue ++ (t.active.filter (fun d => !s.descWritten site d))).map (·.op)).contains op

/-- CLAIM_RETIRE: a hardware claim retires: an R claim when the last read of its range is done, a W claim when the
operation's writes are done. -/
def execClaimRetire (site e : Nat) (err : Bool) (s : State) : Host.Outcome State Fault Refusal :=
  .next (
    let w := s.reg (R.GM_SB_ENTRY site e)
    let op := s.opOf site e
    if getBits w 63 1 = 0 ∨ getBits w 60 1 = 1 then s
    else if getBits w 62 1 = 0 then (if s.readsDone site op then s.retire site e err else s)
    else if s.opLive site op then s else s.retire site e err)

end Sys2Proof.Machine
end

