-- ==== Sys2Proof/Machine/Curtain.lean ====
section
/-! DEFINITION. The Curtain array (chapter 7) and the combine stage (R224 to R228): straw instructions, items, halts,
loads. An item has a clock of its own, which counts the clocks of R142 and its stall clocks; results become usable, and tokens
arrive, at the clocks of R140. -/

namespace Sys2Proof.Machine

/-! ## Straw instructions (Tables 7.2 to 7.4) -/

def iOpc (w : Word) : Nat := getBits w 58 6
def iSa (w : Word) : Nat := getBits w 52 6
def iSb (w : Word) : Nat := getBits w 46 6
def iDst (w : Word) : Nat := getBits w 40 6
def iFwd (w : Word) : Nat := getBits w 36 4
def iPsel (w : Word) : Nat := getBits w 33 3
def iSlot (w : Word) : Nat := getBits w 28 5
def iStage (w : Word) : Nat := getBits w 24 4
def iCtl (w : Word) : Nat := getBits w 16 8

/-- The opcode takes source B. -/
def opTwo (opc : Nat) : Bool := decide (2 ≤ opc) && decide (opc ≤ 0x0B)

/-- The opcode is a compare. -/
def opCmp (opc : Nat) : Bool := decide (9 ≤ opc) && decide (opc ≤ 0x0B)

/-- Source codes that an instruction uses. -/
def iSrcs (w : Word) : List Nat := if opTwo (iOpc w) then [iSa w, iSb w] else [iSa w]

/-- Key of a straw. -/
def strawKey (x y : Nat) : Nat := 8 * y + x

/-- Entries of a program-table word (Table 7.5). -/
def pBase (p : Word) : Nat := getBits p 40 5
def pLen (p : Word) : Nat := getBits p 32 6
def pIi (p : Word) : Nat := getBits p 0 6
def pRun (p : Word) : Bool := getBits p 62 1 == 1
def pEntries (p : Word) : List Nat := (List.range (pLen p)).map (fun i => pBase p + i)

/-- The straw at a place. -/
def CurSt.straw (c : CurSt) (k : Nat) : Straw := c.straws.get k Straw.init
def CurSt.setStraw (c : CurSt) (k : Nat) (w : Straw) : CurSt := { c with straws := c.straws.put k w Straw.init }

/-- Words per iteration of a program (R141). -/
def CurSt.wordsOf (c : CurSt) (p : Word) : Nat :=
  ((pEntries p).filter (fun e => iDst ((c.straw 56).imem.get e 0) == 0x1E && iOpc ((c.straw 56).imem.get e 0) != 0)).length

/-! ## Lanes -/

/-- Lane `i` of a 128-bit word. -/
def lane (w : BitVec 128) (i : Nat) : Nat := (w.toNat >>> (32 * i)) % 2 ^ 32

/-- The word of four lanes. -/
def ofLanes (l : List Nat) : BitVec 128 := BitVec.ofNat 128 (leNat (l.flatMap (leBytes 4)))

/-- Four lanes from a function. -/
def lanes4 {α : Type} (f : Nat → α) : List α := [f 0, f 1, f 2, f 3]

/-- The larger of four lanes, with the flags. -/
def hmax4 (a : Nat → Nat) : Nat × Nat :=
  let (x, f1) := maxF32 (a 0) (a 1)
  let (y, f2) := maxF32 x (a 2)
  let (z, f3) := maxF32 y (a 3)
  (z, f1 ||| f2 ||| f3)

/-- (a0 + a1) + (a2 + a3), with the flags. -/
def hsum4 (a : Nat → Nat) : Nat × Nat :=
  let (x, f1) := addF32 0 0 (a 0) (a 1)
  let (y, f2) := addF32 0 0 (a 2) (a 3)
  let (z, f3) := addF32 0 0 x y
  (z, f1 ||| f2 ||| f3)

/-- The result of an opcode in lane `i`, and its flags; `d` is the destination's old value, `q` the predicate of SEL.
For a compare the result is 1 or 0. -/
def strawOp (opc ctl q : Nat) (a b d : Nat → Nat) (i : Nat) : Nat × Nat :=
  let bool (p : Bool × Nat) : Nat × Nat := (b2n p.1, p.2)
  let flt (p : Nat × Nat) : Nat × Nat := (canon p.1, p.2)
  match opc with
  | 0x01 => flt (a i, 0)
  | 0x02 => flt (addF32 0 0 (a i) (b i))
  | 0x03 => flt (subF32 0 0 (a i) (b i))
  | 0x04 => flt (mulF32 0 0 (a i) (b i))
  | 0x05 => flt (fmaF32 0 0 (a i) (b i) (d i))
  | 0x06 => flt (maxF32 (a i) (b i))
  | 0x07 => flt (minF32 (a i) (b i))
  | 0x08 => flt (if bitN q i = 1 then a i else b i, 0)
  | 0x09 => bool (cmpLtF32 (a i) (b i))
  | 0x0A => bool (cmpLeF32 (a i) (b i))
  | 0x0B => bool (cmpEqF32 (a i) (b i))
  | 0x0C => flt (a (fldN ctl (2 * i + 1) (2 * i)), 0)
  | 0x0D => flt (hmax4 a)
  | 0x0E => flt (hsum4 a)
  | 0x0F => flt (a i % 2 ^ 31, 0)
  | 0x10 => flt (a i ^^^ 2 ^ 31, 0)
  | 0x11 => flt (exp2F32 (a i))
  | 0x12 => flt (log2F32 (a i))
  | 0x13 => flt (rcpF32 (a i))
  | _ => flt (rsqF32 (a i))

/-! ## Items -/

/-- Where an item's rows go. -/
def ItemKind.dst : ItemKind → Option Dst
  | .tile _ t => some ⟨t.fmtD, t.rnd, t.dR.base, t.dR.stride, t.dsc⟩
  | .run r => r.out.map (fun o => ⟨o.1, r.rnd, o.2.base, o.2.stride, r.scale⟩)
  | .combine c => some ⟨c.fmtD, c.rnd, c.d.base, c.d.stride, c.dsc⟩

/-- Element (m, n) of an item takes part (R133). -/
def ItemKind.on : ItemKind → Nat → Nat → Bool
  | .tile _ t, m, n => t.outOn m n
  | .run r, _, n => decide (n ≤ r.cols)
  | .combine c, _, n => decide (n < c.n)

/-- Arguments of an item. -/
def ItemKind.args : ItemKind → Nat × Nat
  | .tile _ t => (t.arg0, t.arg1)
  | .run r => (r.arg0, r.arg1)
  | .combine c => (c.arg0, c.arg1)

/-- Class of an item. -/
def ItemKind.cls : ItemKind → Nat
  | .tile _ t => t.cls
  | .run r => r.cls
  | .combine c => c.cls

/-- An item at its start. -/
def newItem (k : ItemKind) (prog rows : Nat) : Item :=
  let seed := match k with
    | .tile _ t => t.seed
    | .run r => r.seed
    | .combine c => c.seed
  ⟨k, prog, rows, 0, [], [], [], [], [], 0, 0, seed, 0, 0, false, 0, none⟩

/-- Iterations of an item that are still to be made when it begins (R142, R148). -/
def Item.iters (i : Item) (w : Nat) : Nat := if w = 0 then 0 else 4 * i.rows / w - i.skip

/-- Firings of an instruction so far. -/
def Item.firings (i : Item) (k e : Nat) : Nat := i.fired.get (32 * k + e) 0

/-- Iterations begun: the most that any instruction has fired. -/
def Item.begun (i : Item) : Nat := i.fired.foldl (fun n p => max n p.2) 0

/-- The clock at which an instruction fires next (R142). -/
def Item.clock (i : Item) (ii k e : Nat) (w : Word) : Nat := ii * (i.firings k e + iStage w) + iSlot w

/-- Every instruction of a program: straw key, entry and word. -/
def CurSt.instrs (c : CurSt) (p : Word) : List (Nat × Nat × Word) :=
  (List.range 64).flatMap (fun k =>
    ((pEntries p).map (fun e => (k, e, (c.straw k).imem.get e 0))).filter (fun t => iOpc t.2.2 != 0))

/-- Firings that an item still makes of each instruction: fewer when a frozen run stops at its next iteration (R148). -/
def Item.limit (i : Item) (w : Nat) (frozen : Bool) : Nat := if frozen then min (i.iters w) i.begun else i.iters w

/-- The item in progress is a run whose master is frozen. -/
def State.runFrozen (s : State) (site : Nat) (i : Item) : Bool :=
  match i.kind with
  | .run _ => s.frozen (curM site)
  | _ => false

/-- Every firing of the item has been made. -/
def State.allFired (s : State) (site : Nat) (i : Item) : Bool :=
  let c := s.cur site
  let p := c.progs.get i.prog 0
  let n := i.limit (c.wordsOf p) (s.runFrozen site i)
  (c.instrs p).all (fun t => decide (n ≤ i.firings t.1 t.2.1))

/-- An instruction may fire now: it has firings left, and no instruction is due at an earlier clock. -/
def State.mayFire (s : State) (site : Nat) (i : Item) (k e : Nat) : Bool :=
  let c := s.cur site
  let p := c.progs.get i.prog 0
  let n := i.limit (c.wordsOf p) (s.runFrozen site i)
  let w := (c.straw k).imem.get e 0
  decide (i.firings k e < n) && (c.instrs p).all (fun t =>
    decide (n ≤ i.firings t.1 t.2.1) ||
      decide (i.clock (pIi p) k e w ≤ i.clock (pIi p) t.1 t.2.1 t.2.2))

/-! ## Sources (Table 7.3, R149) -/

/-- Whether an instruction may fire: no stall cause of Table 7.9, a skew stall, or an input and output stall. -/
inductive Ready where
  | ok | skew | io
deriving DecidableEq, Repr

/-- The worse of two: a clock with causes of both kinds is a skew stall (Table 7.9). -/
def Ready.and : Ready → Ready → Ready
  | .ok, r => r
  | .skew, _ => .skew
  | .io, .skew => .skew
  | .io, _ => .io

/-- The input queue of a link code. -/
def Straw.queue (w : Straw) : Nat → List Token
  | 0x10 => w.qN
  | 0x11 => w.qE
  | 0x12 => w.qS
  | _ => w.qW

def Straw.setQueue (w : Straw) (code : Nat) (q : List Token) : Straw :=
  match code with
  | 0x10 => { w with qN := q }
  | 0x11 => { w with qE := q }
  | 0x12 => { w with qS := q }
  | _ => { w with qW := q }

/-- The next word of a stream or a read queue: row, and the first element. -/
def wordAt (x n : Nat) : Nat × Nat := (n / 4, 16 * x + 4 * (n % 4))

/-- Rows that `STR` reads: a tile's output, or a combine's rows. -/
def State.strRows (s : State) (site : Nat) (i : Item) : List (List Nat) :=
  match i.kind with
  | .tile j t => (s.mxe (2 * site + j)).rows.get t.op []
  | .combine _ => (s.cur site).combRows
  | .run _ => []

/-- The input of a run that a source code names. -/
def ItemKind.input : ItemKind → Nat → Option (Nat × Rng)
  | .run r, 0x16 => r.inA
  | .run r, 0x17 => r.inB
  | _, _ => none

/-- Words popped from a read queue in a column. -/
def Item.popped (i : Item) (code x : Nat) : Nat := if code = 0x16 then i.popA.get x 0 else i.popB.get x 0

/-- The bytes of a run's input that one word takes. -/
def inRange (f : Nat) (g : Rng) (r n : Nat) : Nat × Nat :=
  let lo := g.base + r * g.stride + n * fmtBits f / 8
  (lo, ceilDiv (n * fmtBits f % 8 + 4 * fmtBits f) 8)

/-- Rows of the item's stream that have entered its queue: a combine's rows come from a queue of its own (R228). -/
def State.strRoom (s : State) (site : Nat) (i : Item) : Nat :=
  match i.kind with
  | .tile j t => match ((s.mxe (2 * site + j)).held.toList ++ (s.mxe (2 * site + j)).draining ++ (s.mxe (2 * site + j)).run).find?
      (fun r => r.t.op == t.op) with
    | some r => s.rowsEntered site j r
    | none => 0
  | _ => (s.strRows site i).length

/-- A source is ready at clock `t`: a register has no write pending, a link's head token has arrived, the stream queue holds a
word of the item. DESIGN CHOICE: the read unit reads ahead (R146) and its queues are never found empty while input is left
(log entry 22). -/
def State.srcReady (s : State) (site : Nat) (i : Item) (x y t code : Nat) : Ready :=
  let st := (s.cur site).straw (strawKey x y)
  if code < 0x10 then (if t < st.busy.get code 0 then .skew else .ok)
  else if code ≤ 0x13 then
    match st.queue code with
    | [] => .skew
    | k :: _ => if t < k.at_ then .skew else .ok
  else if code = 0x14 then
    if s.strRoom site i ≤ (wordAt x (i.popS.get x 0)).1 then .io else .ok
  else if code = 0x16 ∨ code = 0x17 then
    if i.rows ≤ (wordAt x (i.popped code x)).1 then .io else .ok
  else .ok

/-- A read that an instruction makes reaches a slice that is not ON. -/
def State.srcClosed (s : State) (site : Nat) (i : Item) (x code : Nat) : Bool :=
  if code = 0x16 ∨ code = 0x17 then
    let p := wordAt x (i.popped code x)
    match i.kind.input code with
    | none => false
    | some (f, g) => i.kind.on p.1 p.2 && s.gate site (inRange f g p.1 p.2).1 (inRange f g p.1 p.2).2 != .ok
  else false

/-- A token that an instruction consumes fails its parity (R132). -/
def State.srcParity (s : State) (site x y code : Nat) : Bool :=
  decide (0x10 ≤ code) && decide (code ≤ 0x13) &&
    (match ((s.cur site).straw (strawKey x y)).queue code with
     | [] => false
     | t :: _ => !t.parity)

/-- A source's word, the lanes of it that set flags, and the state that has popped it. A masked element arrives as minus
infinity, and a lane that carries one sets none (R133). -/
def State.takeSrc (s : State) (site x y code : Nat) (i : Item) : State × Item × BitVec 128 × Nat :=
  let c := s.cur site
  let k := strawKey x y
  let w := c.straw k
  if code < 0x10 then (s, i, w.g.get code 0, 15 - w.gm.get code 0)
  else if code ≤ 0x13 then
    match w.queue code with
    | [] => (s, i, 0, 0)
    | t :: q => (s.setCur site (c.setStraw k (w.setQueue code q)), i, t.word, t.en)
  else if code = 0x14 then
    let n := i.popS.get x 0
    let (m, e) := wordAt x n
    let row := (s.strRows site i).getD m []
    let on (j : Nat) : Bool := i.kind.on m (e + j)
    (s, { i with popS := i.popS.put x (n + 1) 0 },
      ofLanes (lanes4 (fun j => if on j then row.getD (e + j) 0 else negInf32)),
      b2n (on 0) + 2 * b2n (on 1) + 4 * b2n (on 2) + 8 * b2n (on 3))
  else if code = 0x16 ∨ code = 0x17 then
    match i.kind.input code with
    | none => (s, i, 0, 0)
    | some (f, g) =>
      let n := i.popped code x
      let (m, e) := wordAt x n
      let on (j : Nat) : Bool := i.kind.on m (e + j)
      let r := inRange f g m e
      let i := if code = 0x16 then { i with popA := i.popA.put x (n + 1) 0 } else { i with popB := i.popB.put x (n + 1) 0 }
      let snan := (List.range 4).any (fun j => on j && s.runSNan site f g m (e + j))
      let i := if snan then { i with flags := i.flags ||| flagInvalid } else i
      let bad := s.galPoisoned site r.1 r.2
      ((s.eccRead site r.1 r.2).consume site (bad && !i.poison), { i with poison := i.poison || bad },
        ofLanes (lanes4 (fun j => if on j then s.runElem site f g m (e + j) else negInf32)),
        b2n (on 0) + 2 * b2n (on 1) + 4 * b2n (on 2) + 8 * b2n (on 3))
  else
    let v := match code with
      | 0x18 => i.kind.args.1
      | 0x19 => i.kind.args.2
      | _ => 0
    (s, i, ofLanes [v, v, v, v], 15)

/-- `ROWIDX` of firing `n` (R142, R148). -/
def rowIdx (i : Item) (w n : Nat) : BitVec 128 :=
  let v := (toF32 0 0 (ofInt ((i.skip + n) * w / 4 : Nat) 0)).1
  ofLanes [v, v, v, v]

/-- The source's word, ROWIDX among them. -/
def State.takeAny (s : State) (site x y code w n : Nat) (i : Item) : State × Item × BitVec 128 × Nat :=
  if code = 0x1B then (s, i, rowIdx i w n, 15) else s.takeSrc site x y code i

/-- The links that an instruction sends on: bit 0 N, 1 E, 2 S, 3 W. -/
def iLinks (w : Word) : Nat :=
  iFwd w ||| (if 0x10 ≤ iDst w ∧ iDst w ≤ 0x13 then 1 <<< (iDst w - 0x10) else 0)

/-- The straw that a link leads to, and the code of the queue there. -/
def linkTo (x y d : Nat) : Nat × Nat :=
  match d with
  | 0 => (strawKey x (y - 1), 0x12)
  | 1 => (strawKey (x + 1) y, 0x13)
  | 2 => (strawKey x (y + 1), 0x10)
  | _ => (strawKey (x - 1) y, 0x11)

/-- A word that `MEM` would deliver finds room in the write queue of four rows. -/
def Item.memRoom (i : Item) (x : Nat) : Bool :=
  decide (((i.memw.find? (fun p => p.1 == x)).map (fun p => p.2.length)).getD 0 < 16)

/-! ## Firing (R138, R139) -/

/-- The lanes that a guard selects. -/
def guardOf (w : Straw) (psel n : Nat) : Nat :=
  if psel = 0 then 15
  else if psel = 4 then (if n = 0 then 15 else 0)
  else if psel < 4 then w.q.get psel 0
  else 15 - w.q.get (psel - 4) 0

/-- Registers that an instruction reads whose pending writes stall it: its guard, the predicate of SEL, the addend of FMA. -/
def iWaits (w : Word) : List Nat :=
  (if iPsel w = 0 ∨ iPsel w = 4 then [] else [16 + iPsel w % 4]) ++ (if iOpc w = 8 then [16 + iCtl w % 4] else []) ++
    (if iOpc w = 5 then [iDst w] else [])

/-- Whether firing `n` of an instruction may be made at clock `t` (Table 7.9). A guard that is false in every lane leaves only
a `MEM` word to deliver (R139). -/
def State.fireReady (s : State) (site : Nat) (i : Item) (x y t n : Nat) (w : Word) : Ready :=
  let c := s.cur site
  let st := c.straw (strawKey x y)
  let mem : Ready := if iDst w = 0x1E && !i.memRoom x then .io else .ok
  let late := (iWaits w).any (fun r => decide (t < st.busy.get r 0))
  let guarded := decide (iPsel w ≠ 0 ∧ iPsel w ≠ 4)
  if guarded && decide (t < st.busy.get (16 + iPsel w % 4) 0) then .skew
  else if guardOf st (iPsel w) n = 0 then mem
  else
    let full := (List.range 4).any (fun d => bitN (iLinks w) d == 1 &&
      decide (8 ≤ ((c.straw (linkTo x y d).1).queue (linkTo x y d).2).length))
    (iSrcs w).foldl (fun r code => r.and (s.srcReady site i x y t code)) (if late || full then .skew else mem)

/-- Every instruction that is due at a clock of R142, with the firing that it makes. -/
def State.dueAt (s : State) (site : Nat) (i : Item) (cl : Nat) : List (Nat × Nat × Word) :=
  let c := s.cur site
  let p := c.progs.get i.prog 0
  let n := i.limit (c.wordsOf p) (s.runFrozen site i)
  (c.instrs p).filter (fun t => decide (i.firings t.1 t.2.1 < n) && decide (i.clock (pIi p) t.1 t.2.1 t.2.2 = cl))

/-- What a clock of R142 meets when it comes after `stalls` stall clocks: all of its firings are made, or none (R149). -/
def State.clockReady (s : State) (site : Nat) (i : Item) (cl stalls : Nat) : Ready :=
  (s.dueAt site i cl).foldl (fun r t =>
    r.and (s.fireReady site i (t.1 % 8) (t.1 / 8) (cl + stalls) (i.firings t.1 t.2.1) t.2.2)) .ok

/-- The next clock of R142 at which an instruction of the item is due. -/
def State.nextDue (s : State) (site : Nat) (i : Item) : Option Nat :=
  let c := s.cur site
  let p := c.progs.get i.prog 0
  let n := i.limit (c.wordsOf p) (s.runFrozen site i)
  (((c.instrs p).filter (fun t => decide (i.firings t.1 t.2.1 < n))).map (fun t => i.clock (pIi p) t.1 t.2.1 t.2.2)).min?

/-- An SFU lane takes the slow path (R140). -/
def slowLane (opc a r : Nat) : Bool :=
  let sub (v : Nat) : Bool := decide (v % 2 ^ 31 < 2 ^ 23) && decide (v % 2 ^ 31 ≠ 0)
  if opc = 0x11 then sub r
  else if opc = 0x13 then sub a || sub r
  else (opc == 0x12 || opc == 0x14) && sub a

/-- Clocks from a firing until its result is usable (R140). -/
def latency (opc : Nat) (lanes : List (Nat × Nat)) : Nat :=
  if opc < 0x11 then 4 else if lanes.any (fun l => slowLane opc l.1 l.2) then 14 else 6

/-- A word with the lanes of a mask taken from another. -/
def mergeLanes (old new : BitVec 128) (m : Nat) : BitVec 128 :=
  ofLanes (lanes4 (fun i => if bitN m i = 1 then lane new i else lane old i))

/-- A token joins a queue; it arrives after the tokens sent before it on that link (R132). -/
def CurSt.push (c : CurSt) (k code : Nat) (t : Token) : CurSt :=
  let q := (c.straw k).queue code
  c.setStraw k ((c.straw k).setQueue code (q ++ [{ t with at_ := q.foldl (fun m x => max m x.at_) t.at_ }]))

/-- Every result of the item before has completed and every token has arrived: the clock of a new item starts at 0. -/
def CurSt.settle (c : CurSt) : CurSt :=
  let here (q : List Token) : List Token := q.map (fun t => { t with at_ := 0 })
  let idle (w : Straw) : Straw :=
    { w with busy := [], qN := here w.qN, qE := here w.qE, qS := here w.qS, qW := here w.qW }
  { c with straws := (c.straws.map (fun p => (p.1, idle p.2))).filter (fun p => p.2 ≠ Straw.init) }

/-- A `MEM` word joins its column. -/
def Item.deliver (i : Item) (x : Nat) (w : BitVec 128) (en : Nat) : Item :=
  let old := ((i.memw.find? (fun p => p.1 == x)).map (·.2)).getD []
  { i with memw := i.memw.filter (fun p => p.1 != x) ++ [(x, old ++ [(w, en)])] }

/-- Each of the eight columns has delivered four words. -/
def Item.rowFull (i : Item) : Bool :=
  (List.range 8).all (fun x => decide (4 ≤ ((i.memw.find? (fun p => p.1 == x)).map (fun p => p.2.length)).getD 0))

/-- The elements of the assembled row, with their enables (R133, R135). -/
def Item.rowElems (i : Item) : List (Nat × Bool) :=
  (List.range 128).map (fun n =>
    let ws := ((i.memw.find? (fun p => p.1 == n / 16)).map (·.2)).getD []
    let w := ws.getD (n % 16 / 4) (0, 0)
    (lane w.1 (n % 4), bitN w.2 (n % 4) == 1 && i.kind.on i.written n))

/-- The item in progress ends in BANK_CLOSED. -/
def State.itemClosed (s : State) (site : Nat) (i : Item) : State := s.itemStop site i 2 1 5

/-- One row of the item in progress is converted and written, or the item ends in BANK_CLOSED. -/
def State.itemRow (s : State) (site : Nat) (i : Item) (xs : List (Nat × Bool)) : State :=
  let put (s : State) (i : Item) : State := s.setCur site { s.cur site with item := some { i with written := i.written + 1 } }
  match i.kind.dst with
  | none => put s i
  | some d =>
    let rs := d.rowRange i.written xs
    match s.gates site rs with
    | .ok =>
      let (s, rng, fl) := s.wrRow site d i.written xs i.rng
      let s := if i.poison then rs.foldl (fun s r => s.poisonGal site (r.1 / 8 * 8) ((r.1 % 8 + r.2 + 7) / 8)) s else s
      put s { i with rng := rng, flags := i.flags ||| fl }
    | g => (s.nack site g).itemClosed site i

/-- The assembled row, if one is complete, leaves for memory. -/
def State.itemFlush (s : State) (site : Nat) (i : Item) : State :=
  if i.rowFull then s.itemRow site { i with memw := i.memw.map (fun p => (p.1, p.2.drop 4)) } i.rowElems
  else s.setCur site { s.cur site with item := some i }

/-- An `AUX` word is written after the item's rows (R135). -/
def State.itemAux (s : State) (site : Nat) (i : Item) (w : BitVec 128) (en : Nat) : State :=
  let i' := { i with aux := i.aux + 1 }
  match i.kind.dst with
  | none => s.setCur site { s.cur site with item := some i' }
  | some d =>
    let x := d.base + i.rows * d.stride + 16 * i.aux
    match s.gate site x 16 with
    | .ok =>
      let s := (List.range 4).foldl (fun s j =>
        if bitN en j = 1 then s.wrGal site (x + 4 * j) (leBytes 4 (lane w j)) else s) s
      let s := if i.poison then s.poisonGal site (x / 8 * 8) ((x % 8 + 23) / 8) else s
      s.setCur site { s.cur site with item := some i' }
    | g => (s.nack site g).itemClosed site i

/-- Lanes of a result that set flags: those of its guard whose operands carry no masked element. The lanes of HMAX and HSUM
carry one only where every lane of the operand does (DESIGN CHOICE, log entry 52). -/
def flagLanes (w : Word) (gd ea eb ed : Nat) : Nat :=
  let e := if iOpc w = 0x0C then
      (List.range 4).foldl (fun v j => if bitN ea (iCtl w / 4 ^ j % 4) = 1 then setBitN v j else v) 0
    else if iOpc w = 0x0D ∨ iOpc w = 0x0E then (if ea = 0 then 0 else 15)
    else ea &&& eb &&& ed
  gd &&& e

/-- An instruction fires at clock `t`: sources are popped, lanes computed, results written and sent. `n` is its firing
number. -/
def State.strawExec (s : State) (site : Nat) (i : Item) (x y e n wds t : Nat) (w : Word) : State :=
  let k := strawKey x y
  let i := { i with fired := i.fired.put (32 * k + e) (n + 1) 0 }
  let gd := guardOf ((s.cur site).straw k) (iPsel w) n
  let s := s.addFld (R.CUR_FIRE_CNT_COUNT site) 1
  if gd = 0 then
    if iDst w = 0x1E then s.itemFlush site (i.deliver x 0 0) else s.setCur site { s.cur site with item := some i }
  else
    let (s, i, a, ea) := s.takeAny site x y (iSa w) wds n i
    let (s, i, b, eb) := if opTwo (iOpc w) then s.takeAny site x y (iSb w) wds n i else (s, i, 0, 15)
    let c := s.cur site
    let st := c.straw k
    let d := st.g.get (iDst w) 0
    let q := st.q.get (iCtl w % 4) 0
    let rs := lanes4 (strawOp (iOpc w) (iCtl w) q (lane a) (lane b) (lane d))
    let en := flagLanes w gd ea eb (if iOpc w = 5 then 15 - st.gm.get (iDst w) 0 else 15)
    let fl := (List.range 4).foldl (fun f j => if bitN en j = 1 then f ||| (rs.getD j (0, 0)).2 else f) 0
    let i := { i with flags := i.flags ||| fl }
    let ready := t + latency (iOpc w) ((List.range 4).filterMap (fun j =>
      if bitN gd j = 1 then some (lane a j, (rs.getD j (0, 0)).1) else none))
    if opCmp (iOpc w) then
      let v := (List.range 4).foldl (fun v j =>
        if bitN gd j = 1 then (if (rs.getD j (0, 0)).1 = 1 then setBitN v j else clrBitN v j) else v) q
      s.setCur site { c.setStraw k { st with
        q := st.q.put (iCtl w % 4) v 0, busy := st.busy.put (16 + iCtl w % 4) ready 0 } with item := some i }
    else
      let r := ofLanes (rs.map (·.1))
      let m := (st.gm.get (iDst w) 0 &&& (15 - gd)) ||| (gd &&& (15 - en))
      let c := if iDst w < 0x10 then c.setStraw k { st with
          g := st.g.put (iDst w) (mergeLanes d r gd) 0, gm := st.gm.put (iDst w) m 0, busy := st.busy.put (iDst w) ready 0 }
        else c
      let tok : Token := ⟨mergeLanes 0 r gd, en, s.fld (R.CUR_STATUS_GEN site), true, ready + 1⟩
      let c := (List.range 4).foldl (fun c j => if bitN (iLinks w) j = 1 then c.push (linkTo x y j).1 (linkTo x y j).2 tok else c) c
      let s := s.setCur site { c with item := some i }
      if iDst w = 0x1E then s.itemFlush site (i.deliver x (mergeLanes 0 r gd) gd)
      else if iDst w = 0x1D then s.itemAux site i (mergeLanes 0 r gd) gd
      else s

/-- Tiles that captured another generation and have rows to write end with CUR_GEN (Table 6.5). -/
def State.genEnd (s : State) (site : Nat) : State :=
  let g := s.fld (R.CUR_STATUS_GEN site)
  let old (j : Nat) : List Nat :=
    let x := s.mxe (2 * site + j)
    ((x.run ++ x.draining ++ x.held.toList).filter (fun r => !r.written && r.gen != g)).map (·.t.op)
  let o0 := old 0
  let o1 := old 1
  (s.tilesErr site 0 6 (fun t => o0.contains t.op)).tilesErr site 1 6 (fun t => o1.contains t.op)

/-- Registers return to the values of the last loaded image. -/
def CurSt.reinit (c : CurSt) : CurSt :=
  { c with straws := ((List.range 64).map (fun k =>
      (k, { c.straw k with
        gm := [], busy := []
        g := (List.range 16).filterMap (fun r =>
          let v := c.ginit.get (16 * k + r) 0
          if v = 0 then none else some (r, v)) }))).filter (fun p => p.2 ≠ Straw.init) }

/-- The curtain halts (R150). -/
def State.curHalt (s : State) (site : Nat) (i : Item) : State :=
  let s := s.itemStop site i 6 4 6
  let s := s.setCur site (s.cur site).flush.reinit
  let s := ((s.bumpFld (R.CUR_STATUS_GEN site) 1).setFld (R.CUR_STATUS_SKEW_HALT site) 1).setFld
    (R.CUR_STATUS_STATE site) 5
  (s.genEnd site).engRec CE site 2 16

/-- The wait of a load has expired: its stop applies, and no halt (R150, R152). -/
def State.loadExpired (s : State) (site : Nat) : Bool :=
  match (s.cur site).loadAt with
  | some t => decide (t + 2000 ≤ s.now)
  | none => false

/-- `k` skew stall clocks; the 1,025th of the drip halts the curtain. -/
def State.skewStall (s : State) (site : Nat) (i : Item) (k : Nat) : State :=
  let s := s.setCur site { s.cur site with item := some { i with stalls := i.stalls + k } }
  let s := (s.addFld (R.CUR_SKEW_STALLS_TOTAL site) k).addFld (R.CUR_SKEW_STALLS_DRIP site) k
  if 1025 ≤ s.fld (R.CUR_SKEW_STALLS_DRIP site) && !s.loadExpired site then s.curHalt site i else s

/-- Tokens of another generation are discarded from a straw's queues and counted (R153). -/
def State.dropStale (s : State) (site k : Nat) : State :=
  let c := s.cur site
  let w := c.straw k
  let g := s.fld (R.CUR_STATUS_GEN site)
  let keep (q : List Token) : List Token := q.filter (fun t => t.gen == g)
  let w' := { w with qN := keep w.qN, qE := keep w.qE, qS := keep w.qS, qW := keep w.qW }
  if w'.tokens = w.tokens then s
  else ((s.setCur site (c.setStraw k w')).addFld (R.CUR_STALE_TOKENS_COUNT site) (w.tokens - w'.tokens)).setFld
    (R.CUR_STALE_TOKENS_SEEN site) 1

/-- The row STRAW_<op>: entry `e` of straw (x, y) holds the opcode and is due. In a clock without a stall cause every
instruction that is due fires, one command each; else the command is one stall clock, in which none fires (R149, Table 7.9).
`bad`: a token that it would consume fails its parity (R132). -/
def State.strawFire (s : State) (site x y e opc : Nat) (bad : Bool) : State :=
  let s := s.dropStale site (strawKey x y)
  match (s.cur site).item with
  | none => s
  | some i =>
    let c := s.cur site
    let p := c.progs.get i.prog 0
    let st := c.straw (strawKey x y)
    let w := st.imem.get e 0
    if i.prog = 0 || iOpc w != opc || !(pEntries p).contains e || !s.mayFire site i (strawKey x y) e then s
    else
      let n := i.firings (strawKey x y) e
      let cl := i.clock (pIi p) (strawKey x y) e w
      let srcs := if guardOf st (iPsel w) n = 0 then [] else iSrcs w
      match (if i.due = some cl then .ok else s.clockReady site i cl i.stalls) with
      | .ok =>
        if srcs.any (fun code => s.srcParity site x y code || (bad && decide (0x10 ≤ code) && decide (code ≤ 0x13))) then
          (s.itemStop site i 5 5 7).offence site 6
        else if srcs.any (fun code => s.srcClosed site i x code) then
          (s.addFld (R.GM_NACK_CNT_CLOSED site) 1).itemClosed site i
        else s.strawExec site { i with due := some cl } x y e n (c.wordsOf p) (cl + i.stalls) w
      | .skew => s.skewStall site i 1
      | .io => (s.setCur site { c with item := some { i with stalls := i.stalls + 1 } }).addFld (R.CUR_IO_STALLS_COUNT site) 1

/-- STRAW_MOV (R138): d ← a. -/
def execStrawMov (site x y e : Nat) (bad : Bool) (s : State) : Host.Outcome State Fault Refusal :=
  .next (s.strawFire site x y e 0x01 bad)

/-- STRAW_ADD (R138): d ← a + b. -/
def execStrawAdd (site x y e : Nat) (bad : Bool) (s : State) : Host.Outcome State Fault Refusal :=
  .next (s.strawFire site x y e 0x02 bad)

/-- STRAW_SUB (R138): d ← a − b. -/
def execStrawSub (site x y e : Nat) (bad : Bool) (s : State) : Host.Outcome State Fault Refusal :=
  .next (s.strawFire site x y e 0x03 bad)

/-- STRAW_MUL (R138): d ← a × b. -/
def execStrawMul (site x y e : Nat) (bad : Bool) (s : State) : Host.Outcome State Fault Refusal :=
  .next (s.strawFire site x y e 0x04 bad)

/-- STRAW_FMA (R138): d ← a × b + d, rounded once. -/
def execStrawFma (site x y e : Nat) (bad : Bool) (s : State) : Host.Outcome State Fault Refusal :=
  .next (s.strawFire site x y e 0x05 bad)

/-- STRAW_MAX (R138): the larger. -/
def execStrawMax (site x y e : Nat) (bad : Bool) (s : State) : Host.Outcome State Fault Refusal :=
  .next (s.strawFire site x y e 0x06 bad)

/-- STRAW_MIN (R138): the smaller. -/
def execStrawMin (site x y e : Nat) (bad : Bool) (s : State) : Host.Outcome State Fault Refusal :=
  .next (s.strawFire site x y e 0x07 bad)

/-- STRAW_SEL (R138): a or b by a predicate. -/
def execStrawSel (site x y e : Nat) (bad : Bool) (s : State) : Host.Outcome State Fault Refusal :=
  .next (s.strawFire site x y e 0x08 bad)

/-- STRAW_CMPLT (R138): q ← a < b. -/
def execStrawCmplt (site x y e : Nat) (bad : Bool) (s : State) : Host.Outcome State Fault Refusal :=
  .next (s.strawFire site x y e 0x09 bad)

/-- STRAW_CMPLE (R138): q ← a ≤ b. -/
def execStrawCmple (site x y e : Nat) (bad : Bool) (s : State) : Host.Outcome State Fault Refusal :=
  .next (s.strawFire site x y e 0x0A bad)

/-- STRAW_CMPEQ (R138): q ← a = b. -/
def execStrawCmpeq (site x y e : Nat) (bad : Bool) (s : State) : Host.Outcome State Fault Refusal :=
  .next (s.strawFire site x y e 0x0B bad)

/-- STRAW_SWZ (R138): lanes permuted by CTL. -/
def execStrawSwz (site x y e : Nat) (bad : Bool) (s : State) : Host.Outcome State Fault Refusal :=
  .next (s.strawFire site x y e 0x0C bad)

/-- STRAW_HMAX (R138): the largest of a's lanes. -/
def execStrawHmax (site x y e : Nat) (bad : Bool) (s : State) : Host.Outcome State Fault Refusal :=
  .next (s.strawFire site x y e 0x0D bad)

/-- STRAW_HSUM (R138): the sum of a's lanes. -/
def execStrawHsum (site x y e : Nat) (bad : Bool) (s : State) : Host.Outcome State Fault Refusal :=
  .next (s.strawFire site x y e 0x0E bad)

/-- STRAW_ABS (R138): |a|. -/
def execStrawAbs (site x y e : Nat) (bad : Bool) (s : State) : Host.Outcome State Fault Refusal :=
  .next (s.strawFire site x y e 0x0F bad)

/-- STRAW_NEG (R138): −a. -/
def execStrawNeg (site x y e : Nat) (bad : Bool) (s : State) : Host.Outcome State Fault Refusal :=
  .next (s.strawFire site x y e 0x10 bad)

/-- STRAW_EXP2 (R138): exp2 (R104). -/
def execStrawExp2 (site x y e : Nat) (bad : Bool) (s : State) : Host.Outcome State Fault Refusal :=
  .next (s.strawFire site x y e 0x11 bad)

/-- STRAW_LOG2 (R138): log2 (R104). -/
def execStrawLog2 (site x y e : Nat) (bad : Bool) (s : State) : Host.Outcome State Fault Refusal :=
  .next (s.strawFire site x y e 0x12 bad)

/-- STRAW_RCP (R138): reciprocal (R104). -/
def execStrawRcp (site x y e : Nat) (bad : Bool) (s : State) : Host.Outcome State Fault Refusal :=
  .next (s.strawFire site x y e 0x13 bad)

/-- STRAW_RSQ (R138): reciprocal square root (R104). -/
def execStrawRsq (site x y e : Nat) (bad : Bool) (s : State) : Host.Outcome State Fault Refusal :=
  .next (s.strawFire site x y e 0x14 bad)

/-! ## Selection (R143) -/

/-- The tile of an operation that waits for its epilogue, with its MXE. -/
def State.waitingTile (s : State) (site op : Nat) : Option (Nat × RunTile) :=
  let x (j : Nat) : Option (Nat × RunTile) :=
    ((((s.mxe (2 * site + j)).run ++ (s.mxe (2 * site + j)).draining ++ (s.mxe (2 * site + j)).held.toList).find?
      (fun r => r.t.op == op && !r.written)).map (fun r => (j, r)))
  (x 0).or (x 1)

/-- What an operation that waits would be as an item; a run waits while the curtain's master is frozen (R148). -/
def State.itemOf (s : State) (site op : Nat) : Option ItemKind :=
  let c := s.cur site
  match s.waitingTile site op with
  | some (j, r) => some (.tile j r.t)
  | none =>
    match c.combines.find? (fun x => x.op == op) with
    | some x => some (.combine x)
    | none =>
      if s.frozen (curM site) then none
      else match c.susp with
        | some i => if i.kind.op = op then some i.kind else none
        | none => (c.runs.find? (fun x => x.op == op)).map .run

/-- The item that the curtain selects: the oldest of Class A, else the oldest. -/
def State.pickItem (s : State) (site : Nat) : Option ItemKind :=
  let ks := (s.cur site).waiting.filterMap (s.itemOf site)
  match ks.find? (fun k => k.cls == 0) with
  | some k => some k
  | none => ks.head?

/-- Bytes of a combine's partials and of its LA block. -/
def Combine.pRange (c : Combine) : Nat × Nat :=
  (c.p.base, if c.npart = 0 then 0 else (c.npart - 1) * c.p.stride + 512 * (c.m - 1) + 4 * c.n)
def Combine.laRange (c : Combine) : Nat × Nat := (c.la, 512 + 2560 * c.m)

/-- The ranges that a combine reads, and writes, before its epilogue. -/
def Combine.ranges (c : Combine) : List (Nat × Nat) := [c.pRange] ++ (if c.long then [c.laRange] else [])

/-- A selected item starts. -/
def State.itemBegin (s : State) (site : Nat) (k : ItemKind) : State :=
  let c := { s.cur site with patrol := false }
  match k with
  | .tile j t =>
    let gen := ((s.waitingTile site t.op).map (fun p => p.2.gen)).getD 0
    if gen ≠ s.fld (R.CUR_STATUS_GEN site) then s.tileErr site j t 6
    else
      let i := { newItem k t.epi t.m with poison := ((s.waitingTile site t.op).map (fun p => p.2.poison)).getD false }
      s.setCur site { c.settle with item := some i }
  | .run r =>
    match c.susp with
    | some i => s.setCur site { c.settle with item := some i, susp := none }
    | none =>
      let p := c.progs.get r.prog 0
      if getBits p 63 1 = 0 || !pRun p then s.runEnd site r 2 0 0 false
      else s.setCur site { c.settle with
        item := some (newItem k r.prog r.rows), runs := c.runs.filter (fun x => x.op != r.op) }
  | .combine x =>
    let s := s.setCur site { c.settle with
      item := some (newItem k x.epi x.m), combines := c.combines.filter (fun y => y.op != x.op), combRows := [] }
    let s := if x.long && !x.final && s.gates site [x.laRange] == .ok then s.wrGal site (x.la + 5) [1] else s
    match s.gates site x.ranges with
    | .ok => s
    | g => (s.nack site g).combineEnd site x 5 0 true

/-- CURTAIN_ITEM_START: a free curtain that is enabled, not halted and not loading selects the next item. -/
def execCurtainItemStart (site : Nat) (s : State) : Host.Outcome State Fault Refusal :=
  .next (
    let c := s.cur site
    if s.fld (R.CUR_CTRL_ENABLE site) = 0 || c.item.isSome || c.loadAt.isSome ||
        s.fld (R.CUR_STATUS_STATE site) = 5 || s.fld (R.GAL_STATUS_STATE site) != 2 then s
    else
      let s := (s.streamIn site 0).streamIn site 1
      match s.pickItem site with
      | none => s
      | some k => s.itemBegin site k)

/-! ## The combine stage (R225, R226) -/

/-- Partial `p` of element (m, n). -/
def State.partialOf (s : State) (site : Nat) (c : Combine) (p m n : Nat) : Nat :=
  s.rdNat (galKey site (c.p.base + p * c.p.stride + 512 * m + 4 * n)) 4

/-- The FP32 sum of the partials of an element in slot order. -/
def State.sumFp32 (s : State) (site : Nat) (c : Combine) (m n : Nat) : Nat × Nat :=
  (List.range c.npart).foldl (fun a p =>
    let (v, fl) := addF32 0 0 a.1 (s.partialOf site c p m n)
    (v, a.2 ||| fl)) (0, 0)

/-- The item in progress, if it is a combine that has not passed the combine stage. -/
def State.combineNow (s : State) (site : Nat) : Option (Item × Combine) :=
  match (s.cur site).item with
  | some i => match i.kind with
    | .combine c => if (s.cur site).combRows.isEmpty && i.written == 0 then some (i, c) else none
    | _ => none
  | none => none

/-- A combine read a poisoned word of its ranges. -/
def State.combinePoison (s : State) (site : Nat) (c : Combine) : Bool :=
  c.ranges.any (fun r => s.galPoisoned site r.1 r.2)

/-- A combine reaches a slice that is not ON (R228). -/
def State.combineClosed (s : State) (site : Nat) (c : Combine) : State :=
  (s.nack site (s.gates site c.ranges)).combineEnd site c 5 0 true

/-- COMBINE_FP32: the rows of sums go to the epilogue. -/
def execCombineFp32 (site : Nat) (s : State) : Host.Outcome State Fault Refusal :=
  .next (
    match s.combineNow site with
    | none => s
    | some (i, c) =>
      if c.long then s
      else if s.gates site c.ranges ≠ .ok then s.combineClosed site c
      else
        let bad := s.combinePoison site c
        let s := s.eccRanges site c.ranges
        let (rows, fl) := (List.range c.m).foldl (fun a m =>
          let (r, f) := (List.range c.n).foldl (fun b n =>
            let (v, f) := s.sumFp32 site c m n
            (b.1 ++ [v], b.2 ||| f)) ([], 0)
          (a.1 ++ [r], a.2 ||| f)) ([], 0)
        (s.setCur site { s.cur site with
          item := some { i with flags := i.flags ||| fl, poison := bad }, combRows := rows }).consume site bad)

/-- Offset of the LA value, and of the status byte, of element (m, n) (Table 10.7). -/
def laVal (la m n : Nat) : Nat := la + 512 + 2560 * m + 16 * n
def laSta (la m n : Nat) : Nat := la + 512 + 2560 * m + 2048 + n

/-- One element of an ADD: each partial is converted by R98 and added exactly. -/
def State.addLong (s : State) (site : Nat) (c : Combine) (m n : Nat) : State :=
  let old := if c.first then 0 else sextN 128 (s.rdNat (galKey site (laVal c.la m n)) 16)
  let sta := if c.first then 0 else s.rdNat (galKey site (laSta c.la m n)) 1
  let (v, st) := (List.range c.npart).foldl (fun a p =>
    let (x, f) := longPartial c.anchor (f32 (s.partialOf site c p m n))
    (a.1 + x, a.2 ||| f)) (old, sta)
  (s.wrGal site (laVal c.la m n) (leBytes 16 (toBits 128 v))).wrGal site (laSta c.la m n) (leBytes 1 (st % 16))

/-- The conversion of some partial of an element to fixed point is inexact (R98, R102). -/
def State.addInexact (s : State) (site : Nat) (c : Combine) (m n : Nat) : Bool :=
  (List.range c.npart).any (fun p => longInexact c.anchor (f32 (s.partialOf site c p m n)))

/-- COMBINE_ADD: every LA row takes its partials. -/
def execCombineAdd (site : Nat) (s : State) : Host.Outcome State Fault Refusal :=
  .next (
    match s.combineNow site with
    | none => s
    | some (i, c) =>
      if !c.long || c.final then s
      else if s.gates site c.ranges ≠ .ok then s.combineClosed site c
      else
        let bad := s.combinePoison site c
        let s := s.eccRanges site c.ranges
        let fl := if (List.range c.m).any (fun m => (List.range c.n).any (fun n => s.addInexact site c m n)) then flagInexact else 0
        let s := (List.range c.m).foldl (fun s m => (List.range c.n).foldl (fun s n => s.addLong site c m n) s) s
        let s := if bad then s.poisonGal site ((c.la + 512) / 8 * 8) (320 * c.m) else s
        (s.setCur site { s.cur site with
          item := some { i with written := c.m, poison := bad, flags := i.flags ||| fl } }).consume site bad)

/-- An element of a FINISH: decided by R99 and rounded once to FP32; the generator and the LONG_RANGE mark go on. -/
def State.finishElem (s : State) (site : Nat) (c : Combine) (m n rng : Nat) : Nat × Nat × Nat × Bool :=
  let anchor := sextN 8 (s.rdNat (galKey site (c.la + 4)) 1)
  let (v, f1, long) := longResult anchor (sextN 128 (s.rdNat (galKey site (laVal c.la m n)) 16))
    (s.rdNat (galKey site (laSta c.la m n)) 1)
  let (dr, rng) := drawIf c.rnd rng true
  let (code, f2) := toF32 c.rnd dr v
  (code, f1 ||| f2, rng, long)

/-- The rows of a FINISH, the flags, the generator, the LONG_RANGE mark. DESIGN CHOICE: under mode 2 an element draws for its
rounding to FP32 here and again for its conversion to the output format, two rounded results, where R95 speaks of one draw per
rounded output element (log entry 53). -/
def State.finishRows (s : State) (site : Nat) (c : Combine) (rng : Nat) : List (List Nat) × Nat × Nat × Bool :=
  (List.range c.m).foldl (fun a m =>
    let (r, f, g, l) := (List.range c.n).foldl (fun b n =>
      let (v, f, g, l) := s.finishElem site c m n b.2.2.1
      (b.1 ++ [v], b.2.1 ||| f, g, b.2.2.2 || l)) ([], a.2.1, a.2.2.1, a.2.2.2)
    (a.1 ++ [r], f, g, l)) ([], 0, rng, false)

/-- COMBINE_FINISH: the LA block becomes output rows. -/
def execCombineFinish (site : Nat) (s : State) : Host.Outcome State Fault Refusal :=
  .next (
    match s.combineNow site with
    | none => s
    | some (i, c) =>
      if !c.final then s
      else if s.gates site c.ranges ≠ .ok then s.combineClosed site c
      else
        let bad := s.combinePoison site c
        let s := s.eccRanges site c.ranges
        let (rows, fl, rng, long) := s.finishRows site c i.rng
        (s.setCur site { s.cur site with
          item := some { i with flags := i.flags ||| fl, rng := rng, status := if long then 4 else 0, poison := bad }
          combRows := rows }).consume site bad)

/-- The header of an LA block at the end of an ADD: COUNT, BUSY = 0, and with FIRST the rest of it. -/
def State.laHeader (s : State) (site : Nat) (c : Combine) : State :=
  let n := (if c.first then 0 else s.rdNat (galKey site c.la) 4) + c.npart
  let s := (s.wrGal site c.la (leBytes 4 n)).wrGal site (c.la + 5) [0]
  if c.first then
    (s.wrGal site (c.la + 4) (leBytes 1 (toBits 8 c.anchor))).wrGal site (c.la + 6) (List.replicate 506 0)
  else s

/-! ## The end of an item (R142, R148) -/

/-- Rows of a bypass epilogue still to be written, each with its enables. -/
def State.bypassRow (s : State) (site : Nat) (i : Item) : List (Nat × Bool) :=
  let row := (s.strRows site i).getD i.written []
  (List.range 128).map (fun n => (row.getD n 0, i.kind.on i.written n))

/-- The rows of a bypass epilogue go to memory; nothing more once the item has ended. -/
def State.bypassRows (s : State) (site : Nat) : Nat → State
  | 0 => s
  | n + 1 =>
    let s := s.bypassRows site n
    match (s.cur site).item with
    | none => s
    | some i => s.itemRow site i (s.bypassRow site i)

/-- The epilogue of a tile is done: the tile is DONE if its check has passed, and waits for its check otherwise. -/
def State.tileWritten (s : State) (site j : Nat) (t : Tile) (flags : Nat) : State :=
  let k := 2 * site + j
  let s := s.curDrop site t.op false
  let upd (r : RunTile) : RunTile := if r.t.op = t.op then { r with flags := r.flags ||| flags, written := true } else r
  let x := s.mxe k
  let s := s.setMxe k { x with
    run := x.run.map upd, draining := x.draining.map upd, held := x.held.map upd, rows := x.rows.erase t.op }
  match (s.mxe k).draining.find? (fun r => r.t.op == t.op) with
  | some r => s.tileDone site j r
  | none => s

/-- A run that stops because its master is frozen waits for its thaw: the rest of it begins at the iteration reached. -/
def State.runSuspend (s : State) (site : Nat) (i : Item) : State :=
  s.setCur site { s.cur site with
    item := none, susp := some { i with skip := i.skip + i.begun, fired := [], stalls := 0, due := none } }

/-- CURTAIN_ITEM_END: the last firing has completed and the last row is written. -/
def execCurtainItemEnd (site : Nat) (s : State) : Host.Outcome State Fault Refusal :=
  .next (
    match (s.cur site).item with
    | none => s
    | some i =>
      match i.kind with
      | .tile j t =>
        if i.prog = 0 then
          let s := s.bypassRows site i.rows
          match (s.cur site).item with
          | some i => s.tileWritten site j t i.flags
          | none => s
        else if s.allFired site i then s.tileWritten site j t i.flags
        else s
      | .run r =>
        if !s.allFired site i then s
        else if s.runFrozen site i && decide (i.begun < i.iters ((s.cur site).wordsOf ((s.cur site).progs.get i.prog 0)))
        then s.runSuspend site i
        else s.runEnd site r 0 i.written i.flags false
      | .combine c =>
        if c.long && !c.final then
          if i.written ≠ c.m then s
          else if s.gates site [c.laRange] ≠ .ok then s.combineClosed site c
          else (s.laHeader site c).combineEnd site c 0 i.flags false
        else if (s.cur site).combRows.isEmpty then s
        else if i.prog = 0 then
          let s := s.bypassRows site i.rows
          match (s.cur site).item with
          | some i => s.combineEnd site c i.status i.flags false
          | none => s
        else if s.allFired site i then s.combineEnd site c i.status i.flags false
        else s)

/-! ## The halt (R150) -/

/-- SKEW_HALT: the firings that are due meet a skew cause that no result and no token on its way will end, and the skew stall
clocks of the drip go on to the 1,025th. -/
def execSkewHalt (site : Nat) (s : State) : Host.Outcome State Fault Refusal :=
  .next (
    match (s.cur site).item with
    | none => s
    | some i =>
      match s.nextDue site i with
      | none => s
      | some cl =>
        if i.prog = 0 || i.due = some cl || s.loadExpired site || s.fld (R.CUR_STATUS_STATE site) = 5 ||
            s.clockReady site i cl (i.stalls + 16) != .skew then s
        else s.skewStall site i (1025 - s.fld (R.CUR_SKEW_STALLS_DRIP site)))

/-! ## Loads (R151 to R153) -/

/-- Bytes of a configuration image (Table 7.10). -/
def imageLen : Nat := 33280

/-- A word of the image. -/
def State.imgWord (s : State) (site o : Nat) : Word :=
  BitVec.ofNat 64 (s.rdNat (galKey site ((s.cur site).loadOfs + o)) 8)
def State.imgProg (s : State) (site p : Nat) : Word := s.imgWord site (0x40 + 8 * p)
def State.imgInstr (s : State) (site k e : Nat) : Word := s.imgWord site (0x200 + 256 * k + 8 * e)

/-- Valid programs of an image: id and word. -/
def State.imgProgs (s : State) (site : Nat) : List (Nat × Word) :=
  ((List.range 16).map (fun p => (p, s.imgProg site p))).filter (fun p => getBits p.2 63 1 == 1)

/-- The program table breaks no rule of R141, and the header's reserved bytes are zero. -/
def State.tableOk (s : State) (site : Nat) : Bool :=
  let ps := s.imgProgs site
  let o := (s.cur site).loadOfs
  (s.rdGal site (o + 1) 3 ++ s.rdGal site (o + 8) 56 ++ s.rdGal site (o + 0xC0) 0x140).all (· == 0) &&
  (List.range 16).all (fun p => let w := s.imgProg site p
    getBits w 45 17 == 0 && getBits w 38 2 == 0 && getBits w 6 26 == 0) &&
  ps.all (fun p => p.1 != 0 && decide (1 ≤ pLen p.2) && decide (pBase p.2 + pLen p.2 ≤ 32) && decide (1 ≤ pIi p.2) && decide (pIi p.2 ≤ 32)) &&
  ps.all (fun p => ps.all (fun r => p.1 == r.1 || decide (pBase p.2 + pLen p.2 ≤ pBase r.2) ||
    decide (pBase r.2 + pLen r.2 ≤ pBase p.2)))

/-- Instructions of a program in a straw of the image: entry and word, NOPs left out. -/
def State.imgOf (s : State) (site k : Nat) (p : Word) : List (Nat × Word) :=
  ((pEntries p).map (fun e => (e, s.imgInstr site k e))).filter (fun t => t.2 != 0)

/-- SLOT below II, and no two instructions of a program in one SLOT. -/
def slotsOk (p : Word) (is : List (Nat × Word)) : Bool :=
  is.all (fun t => decide (iSlot t.2 < pIi p)) &&
    is.all (fun t => is.all (fun u => t.1 == u.1 || iSlot t.2 != iSlot u.2))

/-- A link exists at a straw. -/
def linkExists (x y d : Nat) : Bool :=
  match d with
  | 0 => y != 0
  | 1 => x != 7
  | 2 => y != 7
  | _ => x != 0

/-- A source, and a destination, code is valid in a straw (Table 7.3). -/
def srcOk (x y : Nat) (run : Bool) (c : Nat) : Bool :=
  decide (c < 0x10) || (decide (c ≤ 0x13) && linkExists x y (c - 0x10)) || (c == 0x14 && y == 0 && !run) ||
    ((c == 0x16 || c == 0x17) && y == 7 && run) || (decide (0x18 ≤ c) && decide (c ≤ 0x1B))
def dstOk (x y c : Nat) : Bool :=
  decide (c < 0x10) || (decide (c ≤ 0x13) && linkExists x y (c - 0x10)) || (c == 0x1E && y == 7) ||
    (c == 0x1D && y == 7 && x == 7) || c == 0x1F

/-- An instruction word is valid in a straw (R136 to R138). -/
def instrOk (x y : Nat) (run : Bool) (w : Word) : Bool :=
  let o := iOpc w
  decide (1 ≤ o) && decide (o ≤ 0x14) && getBits w 0 16 == 0 &&
  srcOk x y run (iSa w) && (if opTwo o then srcOk x y run (iSb w) else iSb w == 0) && dstOk x y (iDst w) &&
  (List.range 4).all (fun d => bitN (iFwd w) d == 0 || linkExists x y d) &&
  (if o == 5 then decide (iDst w < 0x10) else true) &&
  (if opCmp o then iDst w == 0x1F && iFwd w == 0 else true) &&
  (if o == 8 || opCmp o then decide (1 ≤ iCtl w) && decide (iCtl w ≤ 3) else o == 0x0C || iCtl w == 0)

/-- Instructions that pop a source. -/
def popsOf (c : Nat) (is : List (Nat × Word)) : Nat := (is.filter (fun t => (iSrcs t.2).contains c)).length

/-- The W rule of R141 for one program. -/
def State.wOk (s : State) (site : Nat) (p : Word) : Bool :=
  let mem (x : Nat) : Nat := ((s.imgOf site (strawKey x 7) p).filter (fun t => iDst t.2 == 0x1E)).length
  let w := mem 0
  let zw (n : Nat) : Bool := n == 0 || n == w
  (w == 1 || w == 2 || w == 4) && (List.range 8).all (fun x => mem x == w && zw (popsOf 0x14 (s.imgOf site x p)) &&
    zw (popsOf 0x16 (s.imgOf site (strawKey x 7) p)) && zw (popsOf 0x17 (s.imgOf site (strawKey x 7) p)))

/-- Registers that an instruction reads, and writes: g0 to g15, and q1 to q3 as 17 to 19. -/
def iReads (w : Word) : List Nat :=
  (iSrcs w).filter (fun c => decide (c < 16)) ++ (if iOpc w = 5 then [iDst w] else []) ++
    (if iOpc w = 8 then [16 + iCtl w % 4] else []) ++
    (if iPsel w = 0 ∨ iPsel w = 4 then [] else [16 + iPsel w % 4])
def iWrites (w : Word) : List Nat :=
  (if iDst w < 16 then [iDst w] else []) ++ (if opCmp (iOpc w) then [16 + iCtl w % 4] else [])

/-- No run program writes a register that an epilogue program reads or writes in the same straw. -/
def State.sharedOk (s : State) (site : Nat) : Bool :=
  let ps := s.imgProgs site
  (List.range 64).all (fun k =>
    let of (run : Bool) : List Word :=
      (ps.filter (fun p => pRun p.2 == run)).flatMap (fun p => (s.imgOf site k p.2).map (·.2))
    let used := (of false).flatMap (fun w => iReads w ++ iWrites w)
    ((of true).flatMap iWrites).all (fun r => !used.contains r))

/-- Why an image is rejected: a code of LOAD_ERR (Table 7.16), 8 for a target that is not the T9. Every instruction word is
checked (R136, R137), one of no program as the word of either kind. -/
def State.imageErr (s : State) (site : Nat) : Option Nat :=
  let o := (s.cur site).loadOfs
  let ps := s.imgProgs site
  let each (f : Nat → Nat → Word → List (Nat × Word) → Bool) : Bool :=
    (List.range 64).all (fun k => ps.all (fun p => f (k % 8) (k / 8) p.2 (s.imgOf site k p.2)))
  let wordsOk : Bool := (List.range 64).all (fun k => (List.range 32).all (fun e =>
    let w := s.imgInstr site k e
    w == 0 || instrOk (k % 8) (k / 8) false w || instrOk (k % 8) (k / 8) true w))
  if s.gate site o imageLen ≠ .ok then some 7
  else if s.rdNat (galKey site o) 1 ≠ 9 then some 8
  else if crc32 (s.rdGal site (o + 0x40) (imageLen - 0x40)) ≠ s.rdNat (galKey site (o + 4)) 4 then some 1
  else if !s.tableOk site then some 2
  else if !each (fun _ _ p is => slotsOk p is) then some 3
  else if !wordsOk || !each (fun x y p is => is.all (fun t => instrOk x y (pRun p) t.2)) then some 4
  else if !ps.all (fun p => s.wOk site p.2) then some 5
  else if !s.sharedOk site then some 6
  else none

/-- The image takes effect: instruction memories, registers, program table, predicates, generation. -/
def State.imageInstall (s : State) (site : Nat) : State :=
  let o := (s.cur site).loadOfs
  let nz {α : Type} [DecidableEq α] (d : α) (l : List (Nat × α)) : List (Nat × α) := l.filter (fun p => p.2 ≠ d)
  let c := s.cur site
  let ginit : SMap (BitVec 128) := nz 0 ((List.range 1024).map (fun i =>
    (i, BitVec.ofNat 128 (s.rdNat (galKey site (o + 0x4200 + 16 * i)) 16))))
  let straws : SMap Straw := nz Straw.init ((List.range 64).map (fun k =>
    (k, { Straw.init with imem := nz 0 ((List.range 32).map (fun e => (e, s.imgInstr site k e))) })))
  let c := { c with straws := straws, progs := s.imgProgs site, ginit := ginit, susp := none }
  (s.setCur site c.reinit).bumpFld (R.CUR_STATUS_GEN site) 1

/-- A run that is suspended when a load takes effect ends with CUR_GEN (R147). -/
def State.suspStop (s : State) (site : Nat) : State :=
  match (s.cur site).susp with
  | some i => match i.kind with
    | .run r => s.runEnd site r 3 i.written i.flags true
    | _ => s
  | none => s

/-- CURTAIN_LOAD_WAIT_EXPIRY: 2 µs after the Open of a pending load the item in progress ends, and every token is
flushed and counted (Table 7.11 step 2). -/
def execCurtainLoadWaitExpiry (site : Nat) (s : State) : Host.Outcome State Fault Refusal :=
  .next (
    match (s.cur site).loadAt with
    | none => s
    | some t =>
      let n := (s.cur site).tokens
      let s := if (s.cur site).item.isSome || n != 0 then (s.withNow (max s.now (t + 2000))) else s
      let s := match (s.cur site).item with
        | some i => s.itemStop site i 6 3 6
        | none => s
      let s := s.setCur site (s.cur site).flush
      if n = 0 then s
      else (s.addFld (R.CUR_STALE_TOKENS_COUNT site) n).setFld (R.CUR_STALE_TOKENS_SEEN site) 1)

/-- CURTAIN_LOAD_COMPLETE: the image is read, checked, and installed or rejected whole; MXEs and item selection resume
(Table 7.11 steps 3 and 4). DESIGN CHOICE: Table 7.16 has no LOAD_ERR code for an image of another target (R10); it reads 0 with
LOAD_REJ = 1 (log entry 54). -/
def execCurtainLoadComplete (site : Nat) (s : State) : Host.Outcome State Fault Refusal :=
  .next (
    let c := s.cur site
    if c.loadAt.isNone || c.item.isSome || c.tokens != 0 then s
    else
      let s := match s.imageErr site with
        | none => ((s.suspStop site).imageInstall site).genEnd site
        | some 8 => ((s.setFld (R.CUR_STATUS_LOAD_REJ site) 1).setFld (R.CUR_STATUS_LOAD_ERR site) 0).engRec UETASK site 2 0
        | some e => ((s.setFld (R.CUR_STATUS_LOAD_REJ site) 1).setFld (R.CUR_STATUS_LOAD_ERR site) e).engRec CE site 2 0
      let u := s.cur site
      (s.setCur site { u with loadAt := none, loadNext := false }).setFld (R.CUR_STATUS_LOAD_PEND site) (b2n u.loadNext))

/-- CURTAIN_PATROL: a curtain with no item waiting runs known-answer firings, which change nothing of its
configuration (R155, R397). -/
def execCurtainPatrol (site : Nat) (s : State) : Host.Outcome State Fault Refusal :=
  .next (
    let c := s.cur site
    if c.item.isNone && c.waiting.isEmpty && c.loadAt.isNone && s.fld (R.CUR_CTRL_PATROL_EN site) == 1 &&
        s.fld (R.CUR_CTRL_ENABLE site) == 1 && s.kaOk site 2 then
      (s.kaStart site 2).setCur site { c with patrol := true }
    else s)

end Sys2Proof.Machine
end

