-- ==== Sys2Proof/Machine/Route.lean ====
section
/-! DEFINITION. The bulk fabric's rings, routes, neighbour links and passages (R255 to R262, R266 to R268), and the
module address map (Table 22.1). -/

namespace Sys2Proof.Machine

/-! ## Rings (R255, R256) -/

/-- The spine node of a column stops on row ring 3, and on row ring 4. -/
def spineRow (n : Nat) : Nat :=
  if n < 480 then (if (n - 448) % 4 < 2 then 3 else 4) else if n = 480 ∨ n = 482 then 3 else 4

/-- Stops of row ring `r`, in order. -/
def rowStops (r : Nat) : List Nat :=
  (List.range 56).flatMap (fun c => match spineOf c with
    | some n => if spineRow n = r then [c + 56 * r, n] else [c + 56 * r]
    | none => [c + 56 * r])

/-- Stops of column ring `c`, in order. -/
def colStops (c : Nat) : List Nat :=
  [c, c + 56, c + 112, c + 168] ++ (spineOf c).toList ++ [c + 224, c + 280, c + 336, c + 392]

/-- The row ring of a node: a spine node's is the one it stops on. -/
def ringRow (n : Nat) : Nat := if n < 448 then rowOf n else spineRow n

/-- Place of a node on a ring; the ring's length where it has none. -/
def posIn : List Nat → Nat → Nat
  | [], _ => 0
  | x :: xs, n => if x = n then 0 else posIn xs n + 1

/-- Hops from `a` to `b` in the ring's order, and against it. -/
def hopsUp (ring : List Nat) (a b : Nat) : Nat := (posIn ring b + ring.length - posIn ring a) % ring.length
def hopsDown (ring : List Nat) (a b : Nat) : Nat := (posIn ring a + ring.length - posIn ring b) % ring.length

/-- The next stop of a ring. -/
def nextStop (ring : List Nat) (n : Nat) (up : Bool) : Nat :=
  ring.getD ((posIn ring n + (if up then 1 else ring.length - 1)) % ring.length) n

/-- The ring that a packet at a node travels in a direction: 0 east, 1 west, 2 south, 3 north. -/
def ringOf (n dir : Nat) : List Nat := if dir < 2 then rowStops (ringRow n) else colStops (nodeCol n)

/-- The stop after a node in a direction. -/
def nextNode (n dir : Nat) : Nat := nextStop (ringOf n dir) n (dir % 2 == 0)

/-- Column of a destination, and the node at which a packet on row ring `r` changes to it. -/
def changeNode (r dst : Nat) : Nat := nodeCol dst + 56 * r

/-- The direction on the column ring, and on the row ring (R262). -/
def colDir (n dst : Nat) : Nat :=
  let ring := colStops (nodeCol dst)
  if hopsUp ring n dst ≤ hopsDown ring n dst then 2 else 3
def rowDir (n dst : Nat) : Nat :=
  let ring := rowStops (ringRow n)
  let t := changeNode (ringRow n) dst
  if hopsUp ring n t ≤ hopsDown ring n t then 0 else 1

/-- The first direction of a route. -/
def firstDir (src dst : Nat) : Nat := if nodeCol src = nodeCol dst then colDir src dst else rowDir src dst

/-- Stops on a route: the hop budget (R262). -/
def routeHops (src dst : Nat) : Nat :=
  let least (ring : List Nat) (a b : Nat) : Nat := min (hopsUp ring a b) (hopsDown ring a b)
  if nodeCol src = nodeCol dst then least (colStops (nodeCol dst)) src dst
  else
    let t := changeNode (ringRow src) dst
    least (rowStops (ringRow src)) src t + least (colStops (nodeCol dst)) t dst

/-- Two mesh nodes have a neighbour link (R255): adjacent in a row or a column, not across the spine or the edges. -/
def neighbours (a b : Nat) : Bool :=
  decide (a < 448) && decide (b < 448) &&
    ((rowOf a == rowOf b && (colOf a == colOf b + 1 || colOf b == colOf a + 1)) ||
      (colOf a == colOf b && (rowOf a == rowOf b + 1 || rowOf b == rowOf a + 1) && decide (rowOf a / 4 = rowOf b / 4)))

/-! ## Passages (R267, R268) -/

/-- Words 0 of the valid passages of a bank, each with its number. -/
def State.passages (s : State) (b : Nat) : List (Nat × Word) :=
  s.csr.filterMap (fun p =>
    let lo := R.SV_PASSAGE0 b 0
    if lo ≤ p.1 ∧ p.1 < lo + 32 * 4096 ∧ (p.1 - lo) % 32 = 0 ∧ getBits p.2 63 1 = 1 then some ((p.1 - lo) / 32, p.2)
    else none)

/-- The node of a passage's end. -/
def endNode (sp col row : Nat) : Nat := if sp = 1 then (spineOf col).getD 1000 else col + 56 * row
def passEntry (w : Word) : Nat := endNode (getBits w 62 1) (getBits w 56 6) (getBits w 53 3)
def passExit (w : Word) : Nat := endNode (getBits w 52 1) (getBits w 46 6) (getBits w 43 3)

/-- The passages that a master's packet may use from a node to another (R268). -/
def State.passagesOf (s : State) (b src dst master : Nat) : List Nat :=
  ((s.passages b).filter (fun p => passEntry p.2 == src && passExit p.2 == dst &&
    (getBits p.2 0 6 == 63 || getBits p.2 0 6 == master))).map (·.1)

/-- The passage that a master's packet of a class uses: for Class A one with Class A slots, where there is one. -/
def State.passageFor (s : State) (b src dst master cls : Nat) : Option Nat :=
  let ps := s.passagesOf b src dst master
  (if cls = 0 then ps.find? (fun p => s.reg (R.SV_PASSAGE2 b p) != 0) else none).or ps.head?

/-- Such a passage with Class A slots. -/
def State.passageA (s : State) (b src dst master : Nat) : Bool :=
  (s.passagesOf b src dst master).any (fun p => s.reg (R.SV_PASSAGE2 b p) != 0)

/-! ## Paths (R257, R267, Table 12.2) -/

/-- The link from a stop is its ring's wrap link; it crosses a die edge. -/
def wrapLink (n dir : Nat) : Bool :=
  let ring := ringOf n dir
  if dir % 2 = 0 then posIn ring n + 1 == ring.length else posIn ring n == 0
def crossLink (n dir : Nat) : Bool :=
  let m := nextNode n dir
  decide (448 ≤ n) || decide (448 ≤ m) ||
    (if dir < 2 then nodeCol n / 7 != nodeCol m / 7 else rowOf n / 4 != rowOf m / 4)

/-- Clocks from a link to the next. -/
def linkClocks (n dir : Nat) : Nat := 2 + (if wrapLink n dir then 14 else if crossLink n dir then 6 else 0)

/-- The links from a node in a direction up to a target: node, direction, clocks accrued; and the clocks at its end. -/
def walk : Nat → Nat → Nat → Nat → Nat → List (Nat × Nat × Nat) × Nat
  | 0, _, _, _, t => ([], t)
  | f + 1, n, dir, goal, t =>
    if n = goal then ([], t)
    else
      let r := walk f (nextNode n dir) dir goal (t + linkClocks n dir)
      ((n, dir, t) :: r.1, r.2)

/-- The links of the route of R262. -/
def pathOf (a b : Nat) : List (Nat × Nat × Nat) :=
  if nodeCol a = nodeCol b then (walk 10 a (colDir a b) b 0).1
  else
    let t := changeNode (ringRow a) b
    let r := walk 80 a (rowDir a b) t 0
    r.1 ++ (walk 10 t (colDir t b) b (r.2 + 2)).1

/-- A slot mask turned by some clocks. -/
def turnSlots (m k : Nat) : Nat := (m * 2 ^ (k % 64) + m * 2 ^ (k % 64) / 2 ^ 64) % 2 ^ 64

/-- Slots in a mask. -/
def popcount (m : Nat) : Nat := (List.range 64).foldl (fun n i => n + bitN m i) 0

/-- One link of one passage: node, direction, SLOTS and ASLOTS there. -/
structure PLink where
  node : Nat
  dir : Nat
  slots : Nat
  aslots : Nat
deriving DecidableEq, Repr

/-- The links of a passage of a bank. -/
def State.plinks (s : State) (b : Nat) (p : Nat × Word) : List PLink :=
  let sl := (s.reg (R.SV_PASSAGE1 b p.1)).toNat
  let al := (s.reg (R.SV_PASSAGE2 b p.1)).toNat
  (pathOf (passEntry p.2) (passExit p.2)).map (fun l => ⟨l.1, l.2.1, turnSlots sl l.2.2, turnSlots al l.2.2⟩)

/-- On a link, a passage of a draining bank owns a slot that a passage of the active bank owns: it yields (R276). -/
def State.yields (s : State) (b p n dir : Nat) : Bool :=
  let here (l : PLink) : Bool := l.node == n && l.dir == dir
  b != s.epoch &&
    (s.plinks b (p, s.reg (R.SV_PASSAGE0 b p))).any (fun x => here x &&
      (s.passages s.epoch).any (fun q => (s.plinks s.epoch q).any (fun y => here y && (x.slots &&& y.slots) != 0)))

/-- Flits of `n` bytes. -/
def flitsOf (n : Nat) : Nat := max 1 (ceilDiv n 128)

/-! ## The module address map (Table 22.1) -/

/-- Addresses at and above `localBase` name a gallery-local offset of the issuing gallery: the form that descriptors
hold once they are translated (R67). -/
def localBase : Nat := 2 ^ 48

/-- What a module address names. -/
inductive Place where
  | near (off : Nat)
  | stack (x : Nat)
  | gal (lg off : Nat)
  | csr (a : Nat)
  | host (h : Nat)
  | none
deriving DecidableEq, Repr

/-- The place of an address. -/
def placeOf (a : Nat) : Place :=
  if localBase ≤ a then .near (a - localBase)
  else if a < 0x20000000000 then .stack a
  else if 0x100000000000 ≤ a ∧ a < 0x101800000000 then .gal ((a - 0x100000000000) / 0x10000000) (a % 0x10000000)
  else if csrBase ≤ a ∧ a < csrBase + 0x100000000 then .csr a
  else if 0x300000000000 ≤ a ∧ a < 0x400000000000 then .host (a - 0x300000000000)
  else .none

/-- The send queue whose post window holds a CSR address: port, link, queue (R327, Table 15.14). -/
def postOf (a : Nat) : Option (Nat × Nat × Nat) :=
  let o := a - 0x200002000000
  if 0x200002000000 ≤ a ∧ a < 0x20000A000000 ∧ 0x100000 ≤ o % 0x400000 ∧ o % 0x400000 < 0x200000 then
    let k := (o % 0x400000 - 0x100000) / 0x1000
    some (o / 0x400000, k / 64, k % 64)
  else none

/-- The module may reach host memory: link up and Bus Master Enable (R344). -/
def State.hostOpen (s : State) : Bool := s.pcieUp && s.host.busMaster

/-- Chamber ownership of `n` bytes at a module address by a gallery's work (R69, R247, R366): a status of Table 11.3. -/
def State.owns (s : State) (site priv a n : Nat) : Nat :=
  match placeOf a with
  | .near off => if cellsEnd < off + n then 8 else 0
  | .stack x => if n ≠ 0 ∧ 0x20000000000 < x + n then 8
    else if (List.range ((x + n - 1) / 0x100000000 - x / 0x100000000 + 1)).all (fun i =>
        s.ownStack site (if i = 0 then x else (x / 0x100000000 + i) * 0x100000000)) then 0 else 9
  | .gal lg off =>
    if 0x10000000 < off + n then 8
    else match s.siteOfLg lg with
      | some d => if s.chamberOf d = s.chamberOf site ∧ (s.chamberOf d).isSome then 0 else 9
      | none => 0
  | .csr x =>
    match postOf x with
    | some (p, l, q) =>
      if s.fld (R.PORT_SQ_VALID p l q) = 1 ∧ s.chamberOf site = some (s.fld (R.PORT_SQ_CHAMBER p l q)) then 0 else 9
    | none => if (regAt (x / 8 * 8)).isSome then 9 else 8
  | .host _ => if priv = 0 then 9 else 0
  | .none => 8

end Sys2Proof.Machine
end

