-- ==== Sys2Proof/Machine/Tfe.lean ====
section
/-! DEFINITION. The tile-fetch engine (R245 to R253): descriptors from their start to their completion. A descriptor
moves in pieces; a piece for or from another node is a packet of the bulk fabric (Machine/Fabric.lean). -/

namespace Sys2Proof.Machine

/-! ## Start (R245) -/

/-- The TFE holds 16 accepted descriptors (R245). -/
def State.tfeFull (s : State) (site : Nat) : Bool :=
  decide (16 ≤ (s.tfe site).queue.length + (s.tfe site).active.length)

/-- TFE_DESCRIPTOR_START: the TFE starts the oldest queued Class A descriptor, else the oldest. A combine that starts waits for
the curtain (R224). -/
def execTfeDescriptorStart (site : Nat) (s : State) : Host.Outcome State Fault Refusal :=
  .next (
    let t := s.tfe site
    if s.fld (R.TFE_CTRL_ENABLE site) = 0 || s.fld (R.GAL_STATUS_STATE site) != 2 || s.frozen (tfeM site) ||
        decide (4 ≤ t.active.length) then s
    else match (t.queue.find? (fun d => d.cls == 0)).or t.queue.head? with
      | none => s
      | some d =>
        let s := s.setTfe site { t with
          queue := t.queue.filter (fun x => x.op != d.op)
          active := t.active ++ [{ d with startAt := s.now }] }
        let u := s.cur site
        if d.kind = 15 then s.setCur site { u with waiting := u.waiting ++ [d.op] } else s)

/-- The active descriptor of an operation. -/
def State.descOf (s : State) (site op : Nat) : Option Desc := (s.tfe site).active.find? (fun d => d.op == op)

/-- The state with an active descriptor changed. -/
def State.updDesc (s : State) (site op : Nat) (f : Desc → Desc) : State :=
  let t := s.tfe site
  s.setTfe site { t with active := t.active.map (fun d => if d.op = op then f d else d) }

/-- A descriptor fails with a status. -/
def State.descFail (s : State) (site op status : Nat) : State :=
  s.updDesc site op (fun d => if d.ended then d else { d with ended := true, status := status })

/-! ## Reading a source -/

/-- What a read gives: a status of Table 11.3, bytes, poison. -/
abbrev Got := StackRd

/-- Lines of 512 B that a range touches. -/
def linesOf (x n : Nat) : List Nat := if n = 0 then [] else (List.range ((x + n + 511) / 512 - x / 512)).map (fun i => x / 512 + i)

/-- Units of 64 B that a stack read is charged: none for a cached line (R76, R252). -/
def State.readUnits (s : State) (site : Nat) (cache : Bool) (a n : Nat) : Nat :=
  match placeOf a with
  | .stack x => if cache && s.cacheOn site then 8 * ((linesOf x n).filter (fun l => (s.cached site l).isNone)).length else unitCount x n
  | _ => 0

/-- A stack read through the cache: missing lines are fetched (R76). `count`: the lookups are counted here; those of a load
are counted at its issue. -/
def State.cachedRead (s : State) (site : Nat) (count : Bool) (x n : Nat) : State × Got :=
  let (s, st, po) := (linesOf x n).foldl (fun (a : State × Nat × Bool) l =>
    if a.2.1 ≠ 0 then a
    else
      let s := if count then a.1.cacheCount site l else a.1
      match s.cached site l with
      | some _ => (s, 0, a.2.2)
      | none =>
        match s.stackRead (512 * l) 512 with
        | (s, r) => if r.status ≠ 0 then (s, r.status, a.2.2)
          else (s.cacheFill site l r.data, 0, a.2.2 || r.poison)) (s, 0, false)
  if st ≠ 0 then (s, ⟨st, [], false⟩)
  else
    let bs := (List.range n).map (fun i => match s.cached site ((x + i) / 512) with
      | some l => l.getD ((x + i) % 512) 0
      | none => s.rdByte (s.stackByteKey (x + i)))
    (s, ⟨0, bs, po⟩)

/-- A read of gallery memory at a site, by any requestor. -/
def State.galRead (s : State) (d off n : Nat) : State × Got :=
  match s.gate d off n with
  | .ok =>
    let bad := s.galPoisoned d off n
    let s := s.eccRead d off n
    if bad && !s.siteT6 d then (s.galUe d, ⟨11, [], false⟩) else (s, ⟨0, s.rdGal d off n, bad⟩)
  | g => (s.nack d g, ⟨g.status, [], false⟩)

/-- A read of a place by a gallery's TFE. -/
def State.tfeRead (s : State) (site : Nat) (cache : Bool) (a n : Nat) : State × Got :=
  match placeOf a with
  | .near off => s.galRead site off n
  | .stack x => if cache && s.cacheOn site then s.cachedRead site true x n else s.stackRead x n
  | .gal lg off =>
    match s.siteOfLg lg with
    | none => (s.addFld (R.RTR_DROP_CNT_OVERRUN (rtrBase site)) 1, ⟨1, [], false⟩)
    | some d => if s.fenced d then (s, ⟨6, [], false⟩) else s.galRead d off n
  | .host h => if s.sandboxed site then (s.sandDrop, ⟨0, List.replicate n 0, false⟩)
    else if s.hostOpen then (s, ⟨0, s.rdBytes (hostKey h) n, false⟩) else (s, ⟨1, [], false⟩)
  | _ => (s, ⟨8, [], false⟩)

/-- The node that a place's data leaves from, where it is not the gallery's own. -/
def State.srcNode (s : State) (site a : Nat) : Option Nat :=
  match placeOf a with
  | .stack x => some (siteOfStack (s.stackAt x).stack)
  | .gal lg _ => (s.siteOfLg lg).filter (fun d => d != site)
  | _ => none

/-! ## Writing a destination -/

/-- Where a piece goes: written here and now, or a packet to a node. -/
inductive Way where
  | here (off : Nat)
  | node (lg : Option Nat) (dst addr : Nat)
  | host (h : Nat)
  | post (p l q : Nat)
  | gone (status : Nat)
deriving DecidableEq, Repr

/-- The way to a destination. -/
def State.wayTo (s : State) (site a : Nat) : Way :=
  match placeOf a with
  | .near off => .here off
  | .stack x => .node none (siteOfStack (s.stackAt x).stack) x
  | .gal lg off => match s.siteOfLg lg with
    | none => .gone 1
    | some d => if d = site then .here off else .node (some lg) d off
  | .host h => if s.hostOpen && s.hostWrOk then .host h else .gone 1
  | .csr x => match postOf x with
    | some (p, l, q) => .post p l q
    | none => .gone 8
  | .none => .gone 8

/-- Bytes written into gallery memory with the poison they carry. -/
def State.galPut (s : State) (d off : Nat) (bs : List Byte) (po : Bool) : State × Nat :=
  match s.gate d off bs.length with
  | .ok =>
    let s := s.wrGal d off bs
    (if po then s.poisonGal d (off / 8 * 8) ((off % 8 + bs.length + 7) / 8) else s, 0)
  | g => (s.nack d g, g.status)

/-- Bytes written into a stack with the poison they carry: a poisoned piece marks its units. -/
def State.stackPut (s : State) (site x : Nat) (bs : List Byte) (po : Bool) : State × Nat :=
  let (s, st) := s.stackWrite x bs
  if st ≠ 0 then (s, st)
  else
    let s := s.cacheUpdate site x bs
    (if po then (unitsOf x bs.length).foldl (fun s u => s.markUnit u true) s else s, 0)

/-- Units of 64 B that a write is charged. -/
def writeUnits (a n : Nat) : Nat :=
  match placeOf a with
  | .stack x => unitCount x n
  | _ => 0

/-- A work request from its 64 bytes (Table 15.7). -/
def wrOf (chamber link : Nat) (bs : List Byte) : Wr :=
  let w (i : Nat) : Nat := leAt bs (8 * i) 8
  ⟨fldN (w 0) 63 60, fldN (w 0) 59 58, fldN (w 0) 43 32, fldN (w 0) 31 0, fldN (w 1) 47 0, w 2, fldN (w 3) 31 0,
    fldN (w 4) 52 32, fldN (w 4) 31 16, link, chamber⟩

/-- A work request's reserved fields are zero and its OP and CLS are not reserved. -/
def wrFormOk (bs : List Byte) : Bool :=
  let w (i : Nat) : Nat := leAt bs (8 * i) 8
  decide (fldN (w 0) 63 60 ≤ 4) && fldN (w 0) 59 58 != 3 && fldN (w 0) 57 44 == 0 && fldN (w 1) 63 48 == 0 &&
    fldN (w 3) 63 32 == 0 && fldN (w 4) 63 53 == 0 && fldN (w 4) 15 0 == 0 && w 5 == 0 && w 6 == 0 && w 7 == 0 &&
    (fldN (w 0) 63 60 != 0 || (decide (fldN (w 0) 31 0 ≤ 65535 * 4096) && fldN (w 3) 31 0 == 0))

/-- A work request of a malformed word: OP 15 stands for it in the queue. -/
def wrPost (chamber link : Nat) (bs : List Byte) : Wr :=
  if wrFormOk bs then wrOf chamber link bs else { wrOf chamber link bs with opc := 15 }

/-- Room in a send queue of 256 requests. -/
def State.sqRoom (s : State) (p l q : Nat) : Bool := decide (((s.port p).sqs.get (64 * l + q) []).length < 256)

/-- The outcome of one piece: it has moved; it waits; it failed with a status. -/
inductive Moved where
  | go (s : State) (bytes : Nat)
  | wait (s : State)
  | fail (s : State) (status : Nat)

/-- A packet of a descriptor at its source: `bs` for address `addr` of a node. -/
def State.pktOf (s : State) (site : Nat) (d : Desc) (src : Nat) (lg : Option Nat) (dst addr : Nat) (bs : List Byte)
    (po : Bool) : Pkt :=
  { loc := .source, src := src, lg := lg, dst := dst, cls := d.cls, epoch := s.epoch, budget := 0, addr := addr, data := bs,
    poison := po, site := site, op := d.op, gen := s.fld (R.GAL_STATUS_GEN site), master := tfeM site, group := none,
    members := [], since := s.now, passage := none, put := none, onward := none }

/-- Bytes of one piece reach their destination, or a packet leaves with them. `src` is the node that the data leaves
from where it is remote. -/
def State.deliver (s : State) (site : Nat) (d : Desc) (src : Option Nat) (a : Nat) (bs : List Byte) (po : Bool) : Moved :=
  let pkt (s : State) (src : Nat) (lg : Option Nat) (dst addr : Nat) (on : Option (Option Nat × Nat × Nat)) : State :=
    s.withPkts (s.pkts ++ [{ s.pktOf site d src lg dst addr bs po with onward := on }])
  match s.wayTo site a with
  | .here off =>
    match src with
    | some n => .go (pkt s n none site off none) 0
    | none => match s.galPut site off bs po with
      | (s, 0) => .go s bs.length
      | (s, st) => .fail s st
  | .node lg dst addr =>
    if s.sandboxed site then .go s.sandDrop bs.length
    else match src with
      | some n => .go (pkt s n none site 0 (some (lg, dst, addr))) 0
      | none => .go (pkt s site lg dst addr none) 0
  | .host h => if s.sandboxed site then .go s.sandDrop bs.length else .go (s.wrBytes (hostKey h) bs) bs.length
  | .post p l q =>
    if s.sandboxed site then .go s.sandDrop bs.length
    else if s.fld (R.PORT_SQ_VALID p l q) = 0 then .fail s 9
    else if !s.sqRoom p l q then .wait s
    else match s.charge (tfeM site) ⟨0, 0, if (s.passageFor s.epoch site (448 + p) 48 d.cls).isSome then flitsOf bs.length else 0,
        if d.cls = 0 then flitsOf bs.length else 0⟩ with
    | .held s => .wait s
    | .violation c cs => .wait (s.freeze (tfeM site) c cs)
    | .ok s =>
      let x := s.port p
      let r := wrPost (s.fld (R.PORT_SQ_CHAMBER p l q)) l (bs ++ List.replicate 64 0)
      .go (s.setPort p { x with sqs := x.sqs.put (64 * l + q) (x.sqs.get (64 * l + q) [] ++ [r]) [] }) bs.length
  | .gone st =>
    let s := if st = 1 then (match placeOf a with
      | .gal .. => s.addFld (R.RTR_DROP_CNT_OVERRUN (rtrBase site)) 1
      | _ => s) else s
    .fail s st

/-- The TFE's master is charged for stack requests, and they are counted. -/
def State.tfeCharge (s : State) (site units : Nat) : Option State × State :=
  if units = 0 then (some s, s)
  else match s.charge (tfeM site) ⟨0, units, 0, 0⟩ with
    | .ok s => (some (s.addFld (R.TFE_STACK_REQ_COUNT site) units), s)
    | .held s => (none, s)
    | .violation c cs => (none, s.freeze (tfeM site) c cs)

/-- One piece: `n` bytes from `a`, of which `v` are read and the rest are zero, to `b`. -/
def State.movePiece (s : State) (site : Nat) (d : Desc) (a b n v : Nat) : Moved :=
  match s.tfeCharge site (s.readUnits site d.cache a v + writeUnits b n) with
  | (none, s) => .wait s
  | (some s, _) =>
    let (s, r) := if v = 0 then (s, ⟨0, [], false⟩) else s.tfeRead site d.cache a v
    if r.status ≠ 0 then .fail s r.status
    else s.deliver site d (if v = 0 then none else s.srcNode site a) b (r.data ++ List.replicate (n - v) 0) r.poison

/-! ## COPY (R248) -/

/-- Piece `k` of a descriptor: row, offset in the row, length. -/
def Desc.pieceAt (d : Desc) (k : Nat) : Nat × Nat × Nat :=
  let o := d.step * (k % d.perRow)
  (k / d.perRow, o, min d.step (d.rbytes - o))

/-- Bytes of a piece that are read: none beyond VROWS or VBYTES with PADZ = 1. -/
def Desc.validLen (d : Desc) (row o n : Nat) : Nat :=
  if !d.padz then n else if d.vrows ≤ row then 0 else min n (d.vbytes - o)

/-- Pieces moved one after another until one waits or fails. -/
def State.pieces (s : State) (site : Nat) (op : Nat) (one : State → Desc → Moved) : Nat → State
  | 0 => s
  | f + 1 =>
    match s.descOf site op with
    | none => s
    | some d =>
      if d.readsOver then s
      else match one s d with
        | .go s n =>
          ((s.addFld (R.TFE_BYTES_COUNT site) n).updDesc site op (fun d =>
            { d with done := d.done + 1, bytes := d.bytes + n })).pieces site op one f
        | .wait s => s
        | .fail s st => s.descFail site op st

/-- One piece of a COPY. -/
def State.copyPiece (s : State) (site : Nat) (d : Desc) : Moved :=
  let (r, o, n) := d.pieceAt d.done
  s.movePiece site d (d.src + r * d.sstride + o) (d.dst + r * d.dstride + o) n (d.validLen r o n)

/-- COPY: the rows of an active COPY descriptor move as far as budget, room and errors let them. -/
def execTfeCopy (site op : Nat) (s : State) : Host.Outcome State Fault Refusal :=
  .next (
    match s.descOf site op with
    | some d => if d.kind = 0 then s.pieces site op (fun s d => s.copyPiece site d) d.pieces else s
    | none => s)

/-! ## GATHER (R249) -/

/-- The page of an index: a status, the page's address where its entry is valid, and the unit read last. -/
def State.pageOf (s : State) (site : Nat) (d : Desc) (i : Nat) :
    Option State × State × Nat × Option Nat × Nat × List Byte :=
  let (s, r) := s.tfeRead site false (d.xtra + 2 * i) 2
  if r.status ≠ 0 then (some s, s, r.status, none, d.pte, d.pteData)
  else
    let a := d.src + 8 * leNat r.data
    let unit := a / 64 + 1
    let page (bs : List Byte) : Option Nat :=
      let w := leNat ((bs.drop (a % 64)).take 8)
      if bitN w 63 = 1 then some (fldN w 47 0) else none
    let n := if a % 64 ≤ 56 then 64 else 128
    if d.pte = unit ∧ n ≤ d.pteData.length then (some s, s, 0, page d.pteData, unit, d.pteData)
    else match s.tfeCharge site (s.readUnits site d.cache (a / 64 * 64) n) with
    | (none, s) => (none, s, 0, none, d.pte, d.pteData)
    | (some s, _) =>
      match s.owns site d.priv a 8 with
      | 0 =>
        let (s, e) := s.tfeRead site d.cache (a / 64 * 64) n
        (some s, s, e.status, page e.data, unit, e.data)
      | st => (some s, s, st, none, d.pte, d.pteData)

/-- One piece of a GATHER. -/
def State.gatherPiece (s : State) (site : Nat) (d : Desc) : Moved :=
  let (i, o, n) := d.pieceAt d.done
  match s.pageOf site d i with
  | (none, s, _) => .wait s
  | (some s, _, st, page, unit, bs) =>
    let s := s.updDesc site d.op (fun d => { d with pte := unit, pteData := bs })
    if st ≠ 0 then .fail s st
    else match page with
      | none => if d.padz then s.movePiece site d 0 (d.dst + i * d.dstride + o) n 0 else .fail s 10
      | some p =>
        let v := if d.padz then min n (d.vbytes - o) else n
        match s.owns site d.priv (p + o) v with
        | 0 => s.movePiece site d (p + o) (d.dst + i * d.dstride + o) n v
        | e => if v = 0 then s.movePiece site d 0 (d.dst + i * d.dstride + o) n 0 else .fail s e

/-- GATHER: pages named through an index list and a page table. -/
def execTfeGather (site op : Nat) (s : State) : Host.Outcome State Fault Refusal :=
  .next (
    match s.descOf site op with
    | some d => if d.kind = 2 then s.pieces site op (fun s d => s.gatherPiece site d) d.pieces else s
    | none => s)

/-! ## BCAST (R250, R272 to R274) -/

/-- The node of a group's stop. -/
def groupNode (axis ring i : Nat) : Nat := if axis = 0 then i + 56 * ring else ring + 56 * i

/-- A member's answer is noted, once; the descriptor ends when every member has answered. -/
def State.memberAnswer (s : State) (site op m status : Nat) : State :=
  s.updDesc site op (fun d =>
    if d.ended || !d.members.contains m || d.answers.any (fun a => a.1 == m) then d
    else
      let as := d.answers ++ [(m, status)]
      { d with answers := as, ended := decide (d.members.length ≤ as.length) })

/-- A member has ejected one more packet of a BCAST: it answers with the last one. -/
def State.memberGot (s : State) (site op m : Nat) : State :=
  match s.descOf site op with
  | none => s
  | some d =>
    let n := d.got.get m 0 + 1
    let s := s.updDesc site op (fun d => { d with got := d.got.put m n 0 })
    if n = d.pieces then s.memberAnswer site op m 0 else s

/-- The stops of a group's ring, and the farthest of some members by hops. -/
def groupStops (axis ring : Nat) : List Nat := if axis = 0 then rowStops ring else colStops ring
def farMember (ms : List Nat) (hops : Nat → Nat) : Nat := ms.foldl (fun b m => if hops b < hops m then m else b) (ms.headD 0)

/-- One piece of a BCAST: the source's own copy, and a packet in each direction that has members. -/
def State.bcastPiece (s : State) (site : Nat) (d : Desc) : Moved :=
  let (r, o, n) := d.pieceAt d.done
  let a := d.src + r * d.sstride + o
  match s.tfeCharge site (s.readUnits site d.cache a n) with
  | (none, s) => .wait s
  | (some s, _) =>
    let (s, x) := s.tfeRead site d.cache a n
    if x.status ≠ 0 then .fail s x.status
    else
      let axis := d.xtra / 64 % 2
      let ring := d.xtra % 64
      let stops := groupStops axis ring
      let off := d.dst + r * d.dstride + o
      let at_ (m : Nat) : Nat := groupNode axis ring m
      let own := d.members.filter (fun m => at_ m == site)
      let up := d.members.filter (fun m => at_ m != site && decide (hopsUp stops site (at_ m) ≤ hopsDown stops site (at_ m)))
      let down := d.members.filter (fun m => at_ m != site && decide (hopsDown stops site (at_ m) < hopsUp stops site (at_ m)))
      let pkt (s : State) (ms : List Nat) (hops : Nat → Nat) : State :=
        if ms.isEmpty then s
        else s.withPkts (s.pkts ++ [{ s.pktOf site d site none (at_ (farMember ms hops)) off x.data x.poison with
          group := some (axis, ring), members := ms }])
      let s := own.foldl (fun s m => match s.galPut site off x.data x.poison with
        | (s, 0) => s.memberGot site d.op m
        | (s, st) => s.memberAnswer site d.op m st) s
      let s := pkt s up (fun m => hopsUp stops site (at_ m))
      .go (pkt s down (fun m => hopsDown stops site (at_ m))) n

/-- BCAST: the source is read once and delivered to every member of the group. -/
def execTfeBcast (site op : Nat) (s : State) : Host.Outcome State Fault Refusal :=
  .next (
    match s.descOf site op with
    | some d =>
      if d.kind ≠ 1 then s
      else
        let s := s.pieces site op (fun s d => s.bcastPiece site d) d.pieces
        if d.members.isEmpty then s.updDesc site op (fun d => { d with ended := true }) else s
    | none => s)

/-- BCAST_TIMEOUT: 200 µs after the start, members without an answer count as not delivered. -/
def execBcastTimeout (site op : Nat) (s : State) : Host.Outcome State Fault Refusal :=
  .next (
    match s.descOf site op with
    | some d =>
      if d.kind ≠ 1 || d.ended then s
      else
        let s := s.withNow (max s.now (d.startAt + 200000))
        let s := d.members.foldl (fun s m => s.memberAnswer site op m 7) s
        s.updDesc site op (fun d => { d with ended := true })
    | none => s)

/-- The status of a BCAST (R274): the reason of the lowest member that failed other than by fencing, else PARTIAL if any
was fenced, else OK. -/
def bcastStatus (as : List (Nat × Nat)) : Nat :=
  let bad := as.filter (fun a => a.2 != 0 && a.2 != 6)
  match bad with
  | [] => if as.any (fun a => a.2 == 6) then 14 else 0
  | a :: r => (r.foldl (fun b x => if x.1 < b.1 then x else b) a).2

/-! ## PUT (R251) -/

/-- The packets of a put record: its slots in pieces of 512 bytes (R237, R259). -/
def State.putPkts (s : State) (site : Nat) (d : Desc) (r : Rec) : List Pkt :=
  (List.range (ceilDiv (64 * r.slots) 512)).map (fun i =>
    { s.pktOf site d site (some (r.dst / 4096)) 0 (64 * r.slot + 512 * i) ((r.image.drop (512 * i)).take 512) false with
      put := some (r, true) })

/-- PUT: the bytes go as one put record, on the bulk fabric, in the place that the issue drew for it. A source that cannot
be read leaves a pad in that place, on the Rope, so that the ring's order goes on (log entry 23). -/
def execTfePut (site op : Nat) (s : State) : Host.Outcome State Fault Refusal :=
  .next (
    match s.descOf site op with
    | none => s
    | some d =>
      if d.kind ≠ 3 || d.readsOver then s
      else match d.put with
        | none => s
        | some (l, lgen, seq, slot) =>
          match s.tfeCharge site (s.readUnits site d.cache d.src d.rbytes) with
          | (none, s) => s
          | (some s, _) =>
            let (s, x) := s.tfeRead site d.cache d.src d.rbytes
            let n := 1 + ceilDiv d.rbytes 64
            let r : Rec := {
              kind := if x.status = 0 then 2 else 1, cls := d.cls, slots := n, dst := fldN d.dst 20 0,
              src := s.threadAddr site (coreOfKey d.ctx) (ctxOfKey d.ctx), tag := fldN d.dst 63 48, seq := seq,
              gen := s.fld (R.MU_LINE1_RGEN site l), status := 0, ring := s.fld (R.MU_LINE1_RING site l),
              data := d.rbytes, info := 0, payload := if x.status = 0 then x.data else [], site := site, line := l,
              lgen := lgen, ggen := s.fld (R.GAL_STATUS_GEN site), slot := slot,
              dsite := s.siteOfLg (fldN d.dst 20 0 / 4096), core := none, epoch := s.epoch, hop := 0 }
            let s := s.updDesc site op (fun d => { d with done := 1, bytes := d.rbytes })
            let s := (s.addFld (R.MU_MSG_CNT_TX site) 1).addFld (R.TFE_BYTES_COUNT site) (if x.status = 0 then d.rbytes else 0)
            let s := if x.status ≠ 0 then s.descFail site op x.status else s
            if s.sandboxed site then s.sandDrop.lineAnswer site l seq 0
            else if x.status = 0 then s.withPkts (s.pkts ++ s.putPkts site d r)
            else match r.dsite with
            | none => (s.addFld (R.RTR_DROP_CNT_OVERRUN (rtrBase site)) 1).lineAnswer site l seq 1
            | some _ => (s.noteInj site s.epoch).withNet (s.net ++ [r]))

/-! ## Completion (R247, R250, R253) -/

/-- INFO of a descriptor's completion (Table 11.6), and its payload. -/
def Desc.info (d : Desc) : Nat :=
  match d.kind with
  | 1 => d.members.length % 256 * 2 ^ 40 + (d.answers.filter (fun a => a.2 == 0)).length % 256 * 2 ^ 32
  | 3 => 0
  | _ => d.bytes % 2 ^ 48
def Desc.payload (d : Desc) : List Byte :=
  if d.kind = 1 then leBytes 8 ((d.answers.filter (fun a => a.2 == 6)).foldl (fun m a => setBitN m a.1) 0) else []

/-- A descriptor leaves the TFE with its status: claims, counts, completion (R253). -/
def State.descOut (s : State) (site : Nat) (d : Desc) (status : Nat) : State :=
  let t := s.tfe site
  let s := s.setTfe site { t with active := t.active.filter (fun x => x.op != d.op) }
  let s := s.retireOp site d.op (status != 0)
  let s := (s.setFld (R.TFE_STATUS_LAST_STATUS site) status).setFld (R.TFE_STATUS_LAST_TASK site) d.task
  let s := if status = 0 then s else s.addFld (R.TFE_ERR_CNT_COUNT site) 1
  match d.cmd with
  | some c => s.cmdEnd c (if status = 0 then 0 else 11) status
  | none =>
    if !d.msg then s
    else if d.kind = 3 then
      s.cqWrite site d.task true (cplRec d.cls d.thread (fldN d.dst 20 0) d.tag ((d.put.map (fun p => p.2.2.1)).getD 0) status 0 [])
    else s.cplSend site d.task d.op d.ctx d.cls d.thread d.tag status d.info d.payload

/-- TFE_DESCRIPTOR_COMPLETE: the descriptor has failed, or every destination has acknowledged its last write. -/
def execTfeDescriptorComplete (site op : Nat) (s : State) : Host.Outcome State Fault Refusal :=
  .next (
    match s.descOf site op with
    | none => s
    | some d =>
      let exceed := if d.kind = 1 ∨ d.kind = 3 then d.ended else s.descWritten site d
      if exceed && d.kind != 15 then s.descOut site d (if d.kind = 1 && d.status == 0 then bcastStatus d.answers else d.status) else s)

/-- SQ_POST_TIMEOUT: a port has held the TFE's write to a full send queue for 200 µs (R327). -/
def execSqPostTimeout (site op : Nat) (s : State) : Host.Outcome State Fault Refusal :=
  .next (
    match s.descOf site op with
    | none => s
    | some d =>
      match postOf d.dst with
      | some (p, l, q) =>
        if d.kind = 0 && !d.readsOver && !s.sqRoom p l q then
          ((s.withNow (max s.now (d.startAt + 200000)))).descFail site op 7
        else s
      | none => s)

end Sys2Proof.Machine
end

