-- ==== Sys2Proof/Machine/Fabric.lean ====
section
/-! DEFINITION. The fabric at work (R259 to R264, R266 to R275, R419): bulk packets from their source to their
destination, routers; records, answers and credit returns on the Rope (R238, R239, R243, R244). -/

namespace Sys2Proof.Machine

/-! ## Routers -/

/-- The endpoints of a node take nothing (R275, R382). -/
def State.nodeFenced (s : State) (n : Nat) : Bool := s.rtrState n != 0 || (isGallerySite n && s.fenced n)

/-- Packets in the input buffers of a router for one direction and class group; one in a passage stands in none (R269). -/
def State.bufUsed (s : State) (n dir : Nat) (a : Bool) : Nat :=
  (s.pkts.filter (fun p => p.loc == .ring n dir && (p.cls == 0) == a && p.passage.isNone)).length

/-! ## Answers of packets -/

/-- Two packets carry parts of one put record. -/
def Pkt.mates (p q : Pkt) : Bool :=
  match p.put, q.put with
  | some (x, _), some (y, _) => x.site == y.site && x.line == y.line && x.lgen == y.lgen && x.seq == y.seq
  | _, _ => false

/-- A packet of a put record is lost: the record does not arrive, and its line is answered once. One that met no placed
gallery is answered there and then (R261); one whose parity failed ends with PARITY (R400). -/
def State.putFail (s : State) (p : Pkt) (r : Rec) (st : Nat) : State :=
  let s := s.withPkts (s.pkts.map (fun q => if p.mates q then { q with put := some (r, false) } else q))
  match st with
  | 1 => s.lineAnswer r.site r.line r.seq 1
  | 12 => s.descFail p.site p.op 12
  | _ => s.answer r st

/-- The source of a packet is answered for itself, or for members of its group. An answer that carries an old
generation of the gallery is dropped by its router (R385). -/
def State.pktAnswer (s : State) (p : Pkt) (ms : List Nat) (st : Nat) : State :=
  if p.gen ≠ s.fld (R.GAL_STATUS_GEN p.site) then s.addFld (R.RTR_DROP_CNT_GEN (rtrBase p.site)) 1
  else match p.put with
  | some (r, whole) => if whole then s.putFail p r st else s
  | none =>
    match p.group with
    | none =>
      if st = 0 then
        (s.addFld (R.TFE_BYTES_COUNT p.site) p.data.length).updDesc p.site p.op (fun d =>
          { d with bytes := d.bytes + p.data.length })
      else s.descFail p.site p.op st
    | some _ => ms.foldl (fun s m => if st = 0 then s.memberGot p.site p.op m else s.memberAnswer p.site p.op m st) s

/-- A packet leaves the fabric at a node, and its source is answered with a status. -/
def State.pktDrop (s : State) (k : Nat) (p : Pkt) (n st : Nat) : State :=
  let s := s.withPkts (s.pkts.eraseIdx k)
  ((s.overrun n).noteEnd n p.epoch).pktAnswer p p.members st

/-- A node's endpoint takes a packet: a status of Table 11.3. At fenced endpoints it is dropped and counted (R275). -/
def State.pktWrite (s : State) (n : Nat) (p : Pkt) : State × Nat :=
  if s.nodeFenced n then (s.overrun n, 6)
  else if isStackSite n then s.stackPut p.site p.addr p.data p.poison
  else if !isGallerySite n then (s, 8)
  else if n ≠ p.site ∧ s.chamberOf n ≠ s.chamberOf p.site then (s, 9)
  else s.galPut n p.addr p.data p.poison

/-- A packet of a put record is ejected: with its last packet, the record arrives (R238). -/
def State.putEject (s : State) (n : Nat) (p : Pkt) (r : Rec) (whole : Bool) : State :=
  if s.nodeFenced n then (s.overrun n).pktAnswer p [] 6
  else if !whole || s.pkts.any (fun q => p.mates q) then s
  else s.recArrive n { r with dsite := some n, epoch := p.epoch }

/-- A packet is ejected at a node, for the members of its group there. Data that returns to a gallery whose generation
has advanced is a late answer, and its router drops it (R385). Data that go on from there leave in a packet of their own. -/
def State.pktEject (s : State) (n : Nat) (p : Pkt) (ms : List Nat) : State :=
  let s := s.addFld (R.RTR_FLIT_CNT_EJECT (rtrBase n)) (flitsOf p.data.length)
  match p.put with
  | some (r, whole) => s.putEject n p r whole
  | none =>
    if n = p.site ∧ p.group = none ∧ p.gen ≠ s.fld (R.GAL_STATUS_GEN n) then s.addFld (R.RTR_DROP_CNT_GEN (rtrBase n)) 1
    else match p.onward with
      | some (lg, dst, addr) =>
        if s.nodeFenced n then (s.overrun n).pktAnswer p ms 6
        else s.withPkts (s.pkts ++ [{ p with
          loc := .source, src := n, lg := lg, dst := dst, addr := addr, since := s.now, passage := none, onward := none }])
      | none =>
        let r := s.pktWrite n p
        r.1.pktAnswer p ms r.2

/-! ## Injection (R260, R261, R263, R266, R268, R271) -/

/-- The record of a Class A packet sent as Class B: one per master and drip. -/
def State.demote (s : State) (n : Nat) (p : Pkt) : State :=
  let s := s.addFld (R.RTR_CLASSA_CNT_DEMOTED (rtrBase n)) 1
  if s.sv.demoted.contains p.master then s
  else
    let s := s.withSv { s.sv with demoted := p.master :: s.sv.demoted }
    s.raise { s.recAt (s.mkRec CE 7 0) p.site with master := idxOfM p.master, reg := R.RTR_CLASSA_CNT (rtrBase n) }

/-- A packet enters the fabric: placed at `loc` with its class, if its master's budget allows it. -/
def State.pktEnter (s : State) (k : Nat) (p : Pkt) (loc : PktAt) (cls : Nat) (passage : Option Nat) : State :=
  let f := flitsOf p.data.length
  match s.charge p.master ⟨0, 0, if passage.isSome then f else 0, if p.cls = 0 then f else 0⟩ with
  | .held s => s
  | .violation c cs => s.freeze p.master c cs
  | .ok s =>
    let rb := rtrBase p.src
    let s := if p.cls = 0 ∧ cls ≠ 0 then s.demote p.src p else s
    let s := (s.addFld (R.RTR_FLIT_CNT_INJECT rb) f).addFld (R.RTR_CLASSA_CNT_AFLITS rb) (if cls = 0 then f else 0)
    let s := s.noteInj p.src p.epoch
    s.withPkts (s.pkts.set k { p with
      loc := loc, cls := cls, budget := routeHops p.src p.dst, since := s.now, passage := passage })

/-- The site that a packet injected now goes to: a logical gallery is translated with the bank in force (R260). -/
def State.pktDst (s : State) (p : Pkt) : Option Nat :=
  match p.lg with
  | some lg => s.siteOfLgIn s.epoch lg
  | none => some p.dst

/-- The class that a packet to a node enters a ring with, and its passage (R268, R271). -/
def State.pktClass (s : State) (p : Pkt) (d : Nat) : Nat :=
  if p.cls = 0 ∧ !s.passageA s.epoch p.src d (idxOfM p.master) then 1 else p.cls
def State.pktPassage (s : State) (p : Pkt) (d : Nat) : Option Nat :=
  s.passageFor s.epoch p.src d (idxOfM p.master) p.cls

/-- A Class A packet waits at the same source for the same passage: the passage's other classes wait for it (R268). -/
def State.passageBusy (s : State) (p : Pkt) (x : Nat) : Bool :=
  s.pkts.any (fun q => q.loc == .source && q.src == p.src && q.cls == 0 && !s.frozen q.master && (match s.pktDst q with
    | some d => s.pktPassage q d == some x && s.pktClass q d == 0
    | none => false))

/-- A group's packet with the members that the group has in the bank of its injection, bound for the farthest of them
(R273, R276); none where no member is left. The completion counts the members of the issue (log entry 56). -/
def State.membersNow (s : State) (p : Pkt) : Option Pkt :=
  match p.group, s.descOf p.site p.op with
  | some (axis, ring), some d =>
    let g := s.reg (R.SV_GROUP s.epoch (d.xtra / 128))
    let ms := if getBits g 63 1 = 1 then p.members.filter (fun m => bitN g.toNat m == 1) else []
    let stops := groupStops axis ring
    let hops (m : Nat) : Nat := (if firstDir p.src p.dst % 2 = 0 then hopsUp else hopsDown) stops p.src (groupNode axis ring m)
    if ms.isEmpty then none else some { p with members := ms, dst := groupNode axis ring (farMember ms hops) }
  | _, _ => some p

/-- A packet at its source: translated with the injection epoch, then injected on its neighbour link or on a ring. What
its master has issued goes on while the master is frozen (R253). -/
def State.pktInject (s : State) (k : Nat) (p : Pkt) : State :=
  if s.rtrState p.src == 2 || s.rtrState p.src == 3 then s
  else match s.membersNow p with
  | none => s.withPkts (s.pkts.eraseIdx k)
  | some p =>
    let e := s.epoch
    match s.pktDst p with
    | none => ((s.withPkts (s.pkts.eraseIdx k)).overrun p.src).pktAnswer p p.members 1
    | some d =>
      let p := { p with dst := d, epoch := e }
      if d = p.src then (s.withPkts (s.pkts.eraseIdx k)).pktEject d p p.members
      else if p.group = none ∧ neighbours p.src d then s.pktEnter k p .neighbour p.cls none
      else
        let cls := s.pktClass p d
        let dir := firstDir p.src d
        match s.pktPassage p d with
        | some x => if cls ≠ 0 ∧ s.passageBusy p x then s else s.pktEnter k p (.ring p.src dir) cls (some x)
        | none => if 2 < s.bufUsed p.src dir (cls == 0) then s else s.pktEnter k p (.ring p.src dir) cls none

/-! ## Advance (R262 to R264) -/

/-- The next stop that is not bypassed, and the hop budget on arrival there. -/
def State.nextLit (s : State) : Nat → Nat → Nat → Nat → Nat × Nat
  | 0, n, _, b => (n, b)
  | f + 1, n, dir, b =>
    let m := nextNode n dir
    if s.rtrState m = 3 then s.nextLit f m dir (b - 1) else (m, b - 1)

/-- The members of a packet's group that stop at a node. -/
def Pkt.here (p : Pkt) (n : Nat) : List Nat :=
  match p.group with
  | some (axis, ring) => p.members.filter (fun m => groupNode axis ring m == n)
  | none => []

/-- The node where a packet on a row ring changes to the column ring of its destination. -/
def turnsAt (p : Pkt) (n dir : Nat) : Bool :=
  p.group.isNone && decide (dir < 2) && decide (n < 448) && nodeCol n == nodeCol p.dst && n != p.dst

/-- The bypassed stops between a node and the next that is not. -/
def State.litSkips (s : State) : Nat → Nat → Nat → List Nat
  | 0, _, _ => []
  | f + 1, n, dir =>
    let m := nextNode n dir
    if s.rtrState m = 3 then m :: s.litSkips f m dir else []

/-- A packet leaves the fabric at its destination; at a spine node it does so on the column ring alone (R256, R262). -/
def Pkt.ends (p : Pkt) (m dir : Nat) : Bool := m == p.dst && (decide (m < 448) || decide (2 ≤ dir))

/-- Another packet of the same router input can take the link now: it leaves the fabric at its end, or a buffer is free
there, or it travels in a passage (R263, R269). -/
def State.canAdvance (s : State) (p : Pkt) (n dir : Nat) : Bool :=
  !turnsAt p n dir && (p.passage.isSome ||
    (let (m, b) := s.nextLit 80 n dir p.budget
     p.ends m dir || (b == 0 && !turnsAt p m dir) || decide (s.bufUsed m dir (p.cls == 0) < 4)))

/-- A Class A packet takes the link from a node first, where it can advance (R33). -/
def State.linkBusy (s : State) (p : Pkt) (n dir : Nat) : Bool :=
  p.cls != 0 && p.passage.isNone && s.pkts.any (fun q => q.loc == .ring n dir && q.cls == 0 && s.canAdvance q n dir)

/-- The passage that a packet still travels in on a link: none where it yields the slot (R276). -/
def State.passageOn (s : State) (p : Pkt) (n dir : Nat) : Option Nat := p.passage.filter (fun x => !s.yields p.epoch x n dir)

/-- A packet in a router moves on: it changes rings, or goes to the next stop. One in a passage never waits (R269). The
members of its group at bypassed stops are answered FENCED (R274). -/
def State.pktAdvance (s : State) (k : Nat) (p : Pkt) (n dir : Nat) : State :=
  let put (s : State) (q : Pkt) : State := s.withPkts (s.pkts.set k { q with since := s.now })
  if turnsAt p n dir then
    let d2 := colDir n p.dst
    if p.passage.isNone && (s.rtrState n == 2 || s.rtrState n == 3 || decide (2 < s.bufUsed n d2 (p.cls == 0))) then s
    else put s { p with loc := .ring n d2 }
  else
    let p := { p with passage := s.passageOn p n dir }
    let (m, b) := s.nextLit 80 n dir p.budget
    let dark := (s.litSkips 80 n dir).flatMap p.here
    let q := { p with members := p.members.filter (fun x => !dark.contains x) }
    let told (s : State) : State := if dark.isEmpty then s else s.pktAnswer p dark 6
    if s.linkBusy p n dir then s
    else if p.ends m dir then told (((s.withPkts (s.pkts.eraseIdx k)).noteEnd m p.epoch).pktEject m q q.members)
    else if b = 0 && !turnsAt p m dir then told (s.pktDrop k q m 6)
    else if p.passage.isNone && decide (4 ≤ s.bufUsed m dir (p.cls == 0)) then s
    else
      let hs := q.here m
      let s := told (put s { q with loc := .ring m dir, budget := b, members := q.members.filter (fun x => !hs.contains x) })
      if hs.isEmpty then s else s.pktEject m p hs

/-- The parity of a packet fails at a check (R400): its operation ends with PARITY, and the unit that owns the segment has
an offence: the sending gallery for the crossbar, the router of the node that it left, where that node has a site. -/
def State.pktParity (s : State) (k : Nat) (p : Pkt) (n : Nat) : State :=
  let s := s.withPkts (s.pkts.eraseIdx k)
  let s := (if p.loc = .source then s else s.noteEnd n p.epoch).pktAnswer p p.members 12
  if isGallerySite n then s.offence n 6 else s

/-- PACKET_ARRIVAL: packet `k` moves on by one stop, or leaves the fabric. `bad`: its parity fails at the check that it
meets there. -/
def execPacketArrival (k : Nat) (bad : Bool) (s : State) : Host.Outcome State Fault Refusal :=
  .next (
    match s.pkts[k]? with
    | none => s
    | some p =>
      match p.loc with
      | .source => if bad then s.pktParity k p p.src else s.pktInject k p
      | .neighbour =>
        if bad then s.pktParity k p p.src
        else if p.cls ≠ 0 ∧ s.pkts.any (fun q => q.loc == .neighbour && q.src == p.src && q.dst == p.dst && q.cls == 0) then s
        else ((s.withPkts (s.pkts.eraseIdx k)).noteEnd p.dst p.epoch).pktEject p.dst p p.members
      | .ring n dir => if bad then s.pktParity k p n else s.pktAdvance k p n dir)

/-! ## Failures of links and routers -/

/-- The retry count of a direction of travel. -/
def retryFld (rb dir : Nat) : Fld :=
  match dir with
  | 0 => R.RTR_RETRY_CNT_ROW_E rb
  | 1 => R.RTR_RETRY_CNT_ROW_W rb
  | 2 => R.RTR_RETRY_CNT_COL_S rb
  | _ => R.RTR_RETRY_CNT_COL_N rb

/-- LINK_CRC_RETRY: a flit that arrives at a router fails its CRC and is resent (R258). -/
def execLinkCrcRetry (node dir : Nat) (s : State) : Host.Outcome State Fault Refusal :=
  .next (
    let s := s.addFld (retryFld (rtrBase node) dir) 1
    if isGallerySite node then s.addFld (R.HLT_SITE_CNT_RETRY node) 1 else s)

/-- NO_PROGRESS_TIMEOUT: a packet has stood at the head of a buffer for FR_CTRL.NOPROG_US (R419). -/
def execNoProgressTimeout (k : Nat) (s : State) : Host.Outcome State Fault Refusal :=
  .next (
    match s.pkts[k]? with
    | none => s
    | some p =>
      match p.loc with
      | .ring n dir =>
        let s := s.withNow (max s.now (p.since + 1000 * s.fld R.FR_CTRL_NOPROG_US))
        let s := s.pktDrop k p n 6
        let r := s.rtr n
        if r.noProg.get dir 0 = s.dripNo + 1 then s
        else
          let s := s.setRtr n { r with noProg := r.noProg.put dir (s.dripNo + 1) 0 }
          let e := { s.mkRec CE 7 0 with reg := R.RTR_DROP_CNT (rtrBase n) }
          s.raise (if n < 448 then s.recAt e n else e)
      | _ => s)

/-! ### Bypass (Table 12.4) -/

/-- A write of RTR_CTRL.BYPASS by Bedrock; none where it is discarded. -/
def State.rtrBypass (s : State) (n : Nat) (on : Bool) : Option State :=
  let rb := rtrBase n
  let s1 := s.setFld (R.RTR_CTRL_BYPASS rb) (b2n on)
  match s.rtrState n, on with
  | 0, true => none
  | 1, true => some ((s1.setFld (R.RTR_STATUS_STATE rb) 2).setRtr n { s.rtr n with drainAt := some s.now })
  | 3, false => some (s1.setFld (R.RTR_STATUS_STATE rb) 1)
  | _, _ => some s1

/-- The packet stands in a buffer of a node. -/
def Pkt.inNode (p : Pkt) (n : Nat) : Bool :=
  match p.loc with
  | .ring m _ => m == n
  | _ => false

/-- A draining router goes to BYPASS. -/
def State.rtrDrained (s : State) (n : Nat) : State :=
  (s.setFld (R.RTR_STATUS_STATE (rtrBase n)) 3).setRtr n { s.rtr n with drainAt := none }

/-- ROUTER_DRAIN_COMPLETE: all buffers of a draining router are empty. -/
def execRouterDrainComplete (node : Nat) (s : State) : Host.Outcome State Fault Refusal :=
  .next (if s.rtrState node = 2 && !s.pkts.any (fun p => p.inNode node) then s.rtrDrained node else s)

/-- ROUTER_DRAIN_TIMEOUT: 10 µs have passed in DRAINING: what is buffered is discarded. -/
def execRouterDrainTimeout (node : Nat) (s : State) : Host.Outcome State Fault Refusal :=
  .next (
    if s.rtrState node ≠ 2 then s
    else
      let s := s.withNow (max s.now ((s.rtr node).drainAt.getD s.now + 10000))
      let lost := s.pkts.filter (fun p => p.inNode node)
      let s := s.withPkts (s.pkts.filter (fun p => !p.inNode node))
      let s := lost.foldl (fun s p => ((s.overrun node).noteEnd node p.epoch).pktAnswer p p.members 7) s
      let e := { s.mkRec CE 7 0 with reg := R.RTR_STATUS (rtrBase node) }
      (s.raise (if node < 448 then s.recAt e node else e)).rtrDrained node)

/-! ## The Rope (R282, R283): records, answers and credit returns pass switch outputs -/

/-- The outputs of the Rope: a node's own port, those of a die's switches of level 1 (up, and down to a site) and 2 (up,
and down to level 1), of its root (to the hub, and down), and of the hub. -/
inductive RopeOut where
  | port (n : Nat)
  | up1 (die col : Nat)
  | up2 (die half : Nat)
  | root (die : Nat)
  | hub (x : Nat)
  | down2 (die half : Nat)
  | down1 (die col : Nat)
  | leaf (n : Nat)
deriving DecidableEq, Repr

/-- Die-local column of a site's level-1 switch, and the level-2 switch of that column. -/
def ropeCol (n : Nat) : Nat := colOf n % 7
def ropeHalf (n : Nat) : Nat := ropeCol n / 4

/-- The outputs that a packet passes from a node to another. -/
def ropePath (a b : Nat) : List RopeOut :=
  let down : List RopeOut :=
    if b < 448 then [.down2 (dieOf b) (ropeHalf b), .down1 (dieOf b) (ropeCol b), .leaf b] else []
  if a < 448 ∧ b < 448 ∧ dieOf a = dieOf b then
    if ropeCol a = ropeCol b then [.port a, .leaf b]
    else if ropeHalf a = ropeHalf b then [.port a, .up1 (dieOf a) (ropeCol a), .down1 (dieOf b) (ropeCol b), .leaf b]
    else [.port a, .up1 (dieOf a) (ropeCol a), .up2 (dieOf a) (ropeHalf a)] ++ down
  else
    (if a < 448 then [.port a, .up1 (dieOf a) (ropeCol a), .up2 (dieOf a) (ropeHalf a), .root (dieOf a)] else [.port a]) ++
      .hub (if b < 448 then dieOf b else 16 + (b - 448)) :: down

/-- The output that a record, an answer, a credit return waits at, with its rank there: Class A before B before C, and
within a class answers before requests. -/
def Rec.waits (r : Rec) : Option RopeOut × Nat := ((ropePath r.site (r.dsite.getD r.site))[r.hop]?, 2 * r.cls + 1)
def Ans.waits (a : Ans) : Option RopeOut × Nat := ((ropePath a.src a.site)[a.hop]?, 2 * a.cls)
def Cret.waits (c : Cret) : Option RopeOut × Nat := ((ropePath c.src c.site)[c.hop]?, 2 * c.cls)

/-- What waits at an output of a rank is served: nothing of a lower rank waits there. -/
def State.ropeServed (s : State) (w : Option RopeOut × Nat) : Bool :=
  let first (x : Option RopeOut × Nat) : Bool := x.1 == w.1 && decide (x.2 < w.2)
  w.1.isNone || !(s.net.any (fun r => first r.waits) || s.answers.any (fun a => first a.waits) ||
    s.crets.any (fun c => first c.waits))

/-- A Class A packet that passes the hub is counted (Table 12.17). -/
def State.hubCount (s : State) (w : Option RopeOut × Nat) : State :=
  match w.1 with
  | some (.hub _) => if w.2 < 2 then s.addFld R.ROPE_STATUS_A_MSGS 1 else s
  | _ => s

/-- What passes its last output has arrived. -/
def ropeLast (a b hop : Nat) : Bool := decide ((ropePath a b).length ≤ hop + 1)

/-- RECORD_ARRIVAL: record `k` in flight passes the switch output that it waits at, once it is served there; past the
last one it arrives at its destination's message unit (R238, R283). -/
def execRecordArrival (k : Nat) (s : State) : Host.Outcome State Fault Refusal :=
  .next (
    match s.net[k]? with
    | none => s
    | some r =>
      if !s.ropeServed r.waits then s
      else
        let s := s.hubCount r.waits
        match r.dsite with
        | none => s.withNet (s.net.eraseIdx k)
        | some d =>
          if !ropeLast r.site d r.hop then s.withNet (s.net.set k { r with hop := r.hop + 1 })
          else
            let s := (s.withNet (s.net.eraseIdx k)).noteEnd d r.epoch
            if s.rtrState d = 3 then s.answer r 6 else s.recArrive d r)

/-- The generation that an answer carries is still in force (R385). -/
def State.genNow (s : State) (site : Nat) (core : Option Nat) (gen : Nat) : Bool :=
  match core with
  | some c => s.fld (R.CORE_STATUS_GEN site c) == gen
  | none => s.fld (R.GAL_STATUS_GEN site) == gen

/-- RECORD_ANSWER: answer `k` passes its switch output; past the last one it reaches the sender's line (R243, R244). -/
def execRecordAnswer (k : Nat) (s : State) : Host.Outcome State Fault Refusal :=
  .next (
    match s.answers[k]? with
    | none => s
    | some a =>
      if !s.ropeServed a.waits then s
      else if !ropeLast a.src a.site a.hop then
        (s.hubCount a.waits).withAnswers (s.answers.set k { a with hop := a.hop + 1 })
      else
      let s := (s.hubCount a.waits).withAnswers (s.answers.eraseIdx k)
      if !s.genNow a.site a.core a.ggen then s.addFld (R.RTR_DROP_CNT_GEN (rtrBase a.site)) 1
      else if s.fld (R.MU_LINE1_LGEN a.site a.line) ≠ a.lgen then s.addFld (R.MU_DROP_CNT_LATE a.site) 1
      else s.lineAnswer a.site a.line a.seq a.status)

/-- RECORD_TIMEOUT: a record has had no answer for 200 µs from its issue (Table 11.3). -/
def execRecordTimeout (site l seq : Nat) (s : State) : Host.Outcome State Fault Refusal :=
  .next (
    match (s.una (site * 1024 + l)).find? (fun u => !u.resv && u.seq == seq) with
    | none => s
    | some u => (s.withNow (max s.now (u.at_ + 200000))).lineAnswer site l seq 7)

/-- CREDIT_RETURN_TIMER: 1 µs has passed since the first unreported advance of a ring (R239). -/
def execCreditReturnTimer (site r : Nat) (s : State) : Host.Outcome State Fault Refusal :=
  .next (
    match (s.ring (site * 1024 + r)).since with
    | some t => if s.fld (R.MU_RING0_VALID site r) = 1 then (s.withNow (max s.now (t + 1000))).cretSend site r else s
    | none => s)

/-- CREDIT_RETURN_RECEIVE: credit return `k` passes its switch output; past the last one it reaches its line, which sets
RDK and SEQK (R239, R244). -/
def execCreditReturnReceive (k : Nat) (s : State) : Host.Outcome State Fault Refusal :=
  .next (
    match s.crets[k]? with
    | none => s
    | some c =>
      if !s.ropeServed c.waits then s
      else if !ropeLast c.src c.site c.hop then
        (s.hubCount c.waits).withCrets (s.crets.set k { c with hop := c.hop + 1 })
      else
      let s := (s.hubCount c.waits).withCrets (s.crets.eraseIdx k)
      if !s.genNow c.site none c.ggen then s.addFld (R.RTR_DROP_CNT_GEN (rtrBase c.site)) 1
      else if s.fld (R.MU_LINE1_LGEN c.site c.line) ≠ c.lgen then s.addFld (R.MU_DROP_CNT_LATE c.site) 1
      else (s.setFld (R.MU_LINE2_RDK c.site c.line) c.rd).setFld (R.MU_LINE2_SEQK c.site c.line) c.seqNext)

/-- MESSAGE_DISPATCH: the message unit dispatches a record of a ring; 1024 + t names the completion ring of task t
(R240). -/
def execMessageDispatch (site ring : Nat) (s : State) : Host.Outcome State Fault Refusal := .next (s.dispatch site ring)

end Sys2Proof.Machine
end

