-- ==== Sys2Proof/Machine/Survey.lean ====
section
/-! DEFINITION. The survey (R270, R276 to R280): the load check of a bank, the states of the banks, the flip. -/

namespace Sys2Proof.Machine

/-! ## Banks (Table 12.5) -/

/-- State of a bank: 0 FREE, 1 LOADED, 2 ACTIVE, 3 DRAINING. -/
def bankFld (b : Nat) : Fld := if b = 0 then R.SV_STATUS_BANK0 else R.SV_STATUS_BANK1
def State.bank (s : State) (b : Nat) : Nat := s.fld (bankFld b)

/-- The bank that is not ACTIVE. -/
def State.otherBank (s : State) : Nat := 1 - s.epoch

/-- An error record about the survey. -/
def State.svRec (s : State) (code : Nat) : State := s.raise { s.mkRec CE 7 code with reg := R.SV_STATUS }

/-! ## Clashes of passages (R270) -/

/-- Links of two passages collide. -/
def PLink.clash (x y : PLink) : Bool := x.node == y.node && x.dir == y.dir && (x.slots &&& y.slots) != 0

/-- Some two passages own one slot on one link. -/
def slotClash : List (List PLink) → Bool
  | [] => false
  | l :: ls => ls.any (fun m => l.any (fun x => m.any (fun y => x.clash y))) || slotClash ls

/-! ## The load check (R270, R279); the lowest code of Table 12.10 that applies (log entry 24) -/

/-- A node of the module. -/
def isNode (n : Nat) : Bool := decide (n < 484)

/-- ASLOTS rules of a passage. -/
def aslotsBad (sl al : Nat) : Bool :=
  (al &&& sl) != al || (al != 0 && (decide (popcount al < 2) || decide (popcount sl / 4 < popcount al)))

/-- The directions that a passage names are those of its route, and its ends are nodes. -/
def State.pathBad (w : Word) : Bool :=
  let a := passEntry w
  let b := passExit w
  !isNode a || !isNode b || a == b ||
    (nodeCol a != nodeCol b && rowDir a b != getBits w 42 1) ||
    (let t := if nodeCol a = nodeCol b then a else changeNode (ringRow a) b
     t != b && colDir t b != 2 + getBits w 41 1)

/-- The stop of a group's mask bit is a gallery. -/
def stopOk (axis ring i : Nat) : Bool :=
  if axis = 0 then decide (ring < 8) && decide (i < 56) && isGallerySite (groupNode 0 ring i)
  else decide (ring < 56) && decide (i < 8) && isGallerySite (groupNode 1 ring i)

/-- Registers of an address range that are not at zero, as (number, value). -/
def State.rowsIn (s : State) (lo stride n : Nat) : List (Nat × Word) :=
  s.csr.filterMap (fun p =>
    if lo ≤ p.1 ∧ p.1 < lo + stride * n ∧ (p.1 - lo) % stride = 0 then some ((p.1 - lo) / stride, p.2) else none)

/-- Some two numbers of a list are equal. -/
def twice : List Nat → Bool
  | [] => false
  | x :: xs => xs.contains x || twice xs

/-- The map of a bank breaks R279, or names a site that cannot hold a logical gallery (R57, R108; log entry 57). -/
def State.mapBad (s : State) (b : Nat) : Bool :=
  let sites := ((s.rowsIn (R.SV_MAP b 0) 8 384).filter (fun p => getBits p.2 63 1 == 1)).map (fun p =>
    getBits p.2 8 6 + 56 * getBits p.2 5 3)
  twice sites || sites.any (fun x => !isGallerySite x || !s.siteFit x || s.rtrState x == 3 || s.fld (R.GAL_CTRL_FENCE x) == 1)

/-- A group of a bank names a stop that is not a gallery. -/
def State.groupBad (s : State) (b : Nat) : Bool :=
  ((s.rowsIn (R.SV_GROUP b 0) 8 1024).filter (fun p => getBits p.2 63 1 == 1)).any (fun p =>
    (List.range 56).any (fun i => bitN p.2.toNat i == 1 && !stopOk (getBits p.2 62 1) (getBits p.2 56 6) i))

/-- The load check of a bank: 0, or the code of LOAD_ERR. -/
def State.loadErr (s : State) (b : Nat) : Nat :=
  let ps := s.passages b
  let pathErr := ps.any (fun p => State.pathBad p.2)
  let ls := if pathErr then [] else ps.map (s.plinks b)
  let all := ls.flatten
  let exceed (x : PLink) : Bool :=
    decide (16 < (all.filter (fun y => y.node == x.node && y.dir == x.dir)).foldl (fun n y => n + popcount y.aslots) 0)
  if slotClash ls then 1
  else if ps.any (fun p => aslotsBad (s.reg (R.SV_PASSAGE1 b p.1)).toNat (s.reg (R.SV_PASSAGE2 b p.1)).toNat) then 2
  else if all.any (fun x => x.aslots != 0 && exceed x) then 3
  else if pathErr then 4
  else if all.any (fun x => s.rtrState x.node == 3) || ps.any (fun p => s.rtrState (passExit p.2) == 3) then 5
  else if s.mapBad b then 6
  else if s.groupBad b then 7
  else 0

/-- SV_CTRL.LOAD_DONE is written: the FREE bank's load begins. -/
def State.svLoad (s : State) : State :=
  if s.bank s.otherBank ≠ 0 ∨ s.fld R.SV_STATUS_LOADING = 1 then s
  else (s.setFld R.SV_STATUS_LOADING 1).withSv { s.sv with loadAt := some s.now }

/-- SURVEY_LOAD_COMPLETE: the check and, where it passes, the copy of the bank's tables are over. -/
def execSurveyLoadComplete (s : State) : Host.Outcome State Fault Refusal :=
  .next (
    if s.fld R.SV_STATUS_LOADING = 0 then s
    else
      let b := s.otherBank
      let e := s.loadErr b
      let s := (s.setFld R.SV_STATUS_LOADING 0).withSv { s.sv with loadAt := none }
      let s := s.setFld R.SV_STATUS_LOAD_ERR e
      if e = 0 then s.setFld (bankFld b) 1 else (s.setFld R.SV_STATUS_LOAD_REJ 1).svRec e)

/-! ## Entry writes (Table 12.5) -/

/-- The bank of a table entry's address. -/
def bankOf (a : Nat) : Nat := (a - R.SV_MAP 0 0) / 0x100000

/-- An entry of a bank may be written; a LOADED bank's load is then void, and so is a pending flip. A load in progress
goes on with the entry as written (log entry 24). -/
def State.svEntry (s : State) (a : Nat) : Option State :=
  let b := bankOf a
  match s.bank b with
  | 0 => some s
  | 1 => some ((s.setFld (bankFld b) 0).setFld R.SV_STATUS_FLIP_PEND 0)
  | _ => none

/-! ## The flip (R277, R280) -/

/-- SV_CTRL.FLIP is written: armed, or none where it is discarded. -/
def State.svFlip (s : State) : Option State :=
  if s.bank s.otherBank ≠ 1 then none
  else
    let s1 := s.setFld R.SV_STATUS_FLIP_PEND 1
    some (if s.fld R.SV_FLIP_AT_DRIP_NO ≤ s.dripNo then s1.setFld R.SV_STATUS_FLIP_LATE 1 else s1)

/-- CLASSA_COND.SURVEY_STABLE. -/
def State.stable (s : State) (on : Bool) : State := (s.setFld R.CLASSA_COND_SURVEY_STABLE (b2n on)).syncCond

/-- The counts of an epoch start anew as its bank becomes ACTIVE. -/
def State.zeroCounts (s : State) (b : Nat) : State :=
  let clear (r : RtrSt) : RtrSt := { r with injected := r.injected.erase b, ended := r.ended.erase b }
  s.withRtrs ((s.rtrs.map (fun p => (p.1, clear p.2))).filter (fun p => p.2 ≠ RtrSt.init))

/-- Packets and records of an epoch under way. -/
def State.oldLeft (s : State) (b : Nat) : Nat :=
  s.rtrs.foldl (fun n p => n + p.2.injected.get b 0) 0 - s.rtrs.foldl (fun n p => n + p.2.ended.get b 0) 0

/-- The Open of a drip reaches the survey. -/
def State.svOpen (s : State) : State :=
  if s.fld R.SV_STATUS_FLIP_PEND = 1 && decide (s.fld R.SV_FLIP_AT_DRIP_NO ≤ s.dripNo) && s.bank s.otherBank == 1 then
    let old := s.epoch
    let new := 1 - old
    let s := s.zeroCounts new
    let s := ((s.setFld (bankFld new) 2).setFld (bankFld old) 3).setFld R.SV_STATUS_EPOCH new
    let s := (s.setFld R.SV_STATUS_FLIP_PEND 0).setFld R.SV_INFLIGHT_OLD (s.oldLeft old)
    (s.withSv { s.sv with drainAt := some s.now, lateRec := false }).stable false
  else s

/-- A DRAINING bank becomes FREE. -/
def State.svFree (s : State) (b : Nat) : State :=
  (((s.setFld (bankFld b) 0).withSv { s.sv with drainAt := none }).setFld R.SV_INFLIGHT_OLD 0).stable true

/-- INFLIGHT_COUNT_REPORT: every router sends its counts to the service die (R278). -/
def execInflightCountReport (s : State) : Host.Outcome State Fault Refusal :=
  .next (if s.bank s.otherBank = 3 then s.setFld R.SV_INFLIGHT_OLD (s.oldLeft s.otherBank) else s)

/-- SURVEY_DRAIN_COMPLETE: SV_INFLIGHT.OLD reads zero. -/
def execSurveyDrainComplete (s : State) : Host.Outcome State Fault Refusal :=
  .next (if s.bank s.otherBank = 3 && s.fld R.SV_INFLIGHT_OLD == 0 then s.svFree s.otherBank else s)

/-- SURVEY_DRAIN_LATE: DRAIN_LIMIT_US has passed since the flip. -/
def execSurveyDrainLate (s : State) : Host.Outcome State Fault Refusal :=
  .next (
    match s.sv.drainAt with
    | some t =>
      if s.bank s.otherBank = 3 && !s.sv.lateRec then
        ((((s.withNow (max s.now (t + 1000 * s.fld R.SV_CTRL_DRAIN_LIMIT_US))).setFld R.SV_STATUS_DRAIN_LATE 1).svRec 0)).withSv
          { s.sv with lateRec := true }
      else s
    | none => s)

/-- SV_CTRL.FORCE_FREE is written: what is under way under the DRAINING bank is dropped and answered FENCED. -/
def State.svForce (s : State) : State :=
  let b := s.otherBank
  if s.bank b ≠ 3 then s
  else
    let old (p : Pkt) : Bool := p.epoch == b && p.loc != .source
    let nodeOf (p : Pkt) : Nat := match p.loc with
      | .ring n dir => nextNode n dir
      | _ => p.dst
    let ps := s.pkts.filter old
    let rs := s.net.filter (fun r => r.epoch == b)
    let s := (s.withPkts (s.pkts.filter (fun p => !old p))).withNet (s.net.filter (fun r => r.epoch != b))
    let s := ps.foldl (fun s p => ((s.overrun (nodeOf p)).noteEnd (nodeOf p) b).pktAnswer p p.members 6) s
    let s := rs.foldl (fun s r => ((s.overrun (r.dsite.getD r.site)).noteEnd (r.dsite.getD r.site) b).answer r 6) s
    s.svFree b

end Sys2Proof.Machine
end

