-- ==== Sys2Proof/Machine/Runtime.lean ====
section
/-! DEFINITION. The gallery runtime's commands (R158 to R161, R175 to R181): loading and ending tasks, moves, task
control, survey requests. Which resources a runtime assigns is its own choice; the model takes the first that fit (log
entry 25). -/

namespace Sys2Proof.Machine

/-! ## Taking a command -/

/-- The first command that meets a test and that no earlier command of its queue precedes (R177). -/
def pickCmd (f : Cmd → Bool) : List Cmd → List Nat → Option Cmd
  | [], _ => none
  | c :: cs, seen => if f c && !seen.contains c.queue then some c else pickCmd f cs (c.queue :: seen)

/-- A command leaves those that wait for a runtime. -/
def State.dropCmd (s : State) (lg : Nat) (c : Cmd) : State :=
  let r := s.rt lg
  s.setRt lg { r with cmds := r.cmds.erase c }

/-- A runtime executes its next command that meets a test: `go` is given the state, the site, and the command. With the
runtime not running, the command completes with NO_RUNTIME (R174). -/
def State.runNext (s : State) (lg : Nat) (f : Cmd → Bool) (go : State → Nat → Cmd → State) : State :=
  match s.siteOfLg lg with
  | none => s
  | some site =>
    match pickCmd f (s.rt lg).cmds [] with
    | none => s
    | some c =>
      if !s.rtUp site then (s.dropCmd lg c).cmdEnd c 9 0
      else if (s.dir lg).restart || s.frozen (taskM site 0) then s
      else go s site c

/-- A command that asks nothing of the TFE: `act` answers nothing while it must wait. -/
def State.runCmd (s : State) (lg : Nat) (f : Cmd → Bool) (act : State → Nat → Cmd → Option State) : State :=
  s.runNext lg f (fun s site c => (act (s.dropCmd lg c) site c).getD s)

/-! ## Work that the TFE does for a runtime (R29, R30, R176, R316) -/

/-- The need of the work in hand is forgotten. -/
def TfeSt.idle (t : TfeSt) : TfeSt := { t with need := .none, needCls := 0 }

/-- What the TFE's requests for a runtime cost is charged to the TFE's entry: `s1` is the state with the work done, `s` the
state without it. Where the budgets in force do not allow the whole, what they allow is charged now, the TFE freezes or is
held as for any unit (R30, R440), and the work is done in the drip in which the rest is allowed; `key` names the work. It
waits while the TFE is frozen, and in Seal unless it is of Class A (R23). -/
def State.rtPay (s s1 : State) (site key : Nat) : State :=
  let m := tfeM site
  let need := (s1.tfe site).need
  let had := (s.tfe site).paid.get key .none
  let rest := need.sub had
  let keep (s : State) (c : Charge) : State :=
    let t := (s.tfe site).idle
    s.setTfe site { t with paid := t.paid.put key c .none }
  let spend (s : State) (c : Charge) : ChargeRes :=
    match s.charge m c with
    | .ok s => .ok (s.addFld (R.TFE_STACK_REQ_COUNT site) c.stack)
    | r => r
  if need = .none then s1.setTfe site (s1.tfe site).idle
  else if s.frozen m || s.sealHolds (s1.tfe site).needCls then s
  else
    let k := s.part m rest
    if k = rest then
      match spend s1 rest with
      | .ok s => keep s .none
      | .held _ => s
      | .violation c cs => s.freeze m c cs
    else match spend s k with
      | .held s => s
      | .violation c cs => s.freeze m c cs
      | .ok s =>
        match (keep s (had.add k)).charge m (rest.sub k).unit with
        | .ok s => s
        | .held s => s
        | .violation c cs => (keep s (had.add k)).freeze m c cs

/-- Work of a runtime that the TFE does for it: done and charged, or not yet. -/
def State.rtDo (s : State) (site key cls : Nat) (f : State → State) : State :=
  s.rtPay (f (s.setTfe site { s.tfe site with need := .none, needCls := cls })) site key

/-- A command that the TFE works for: `act` answers nothing while it must wait. -/
def State.runWork (s : State) (lg : Nat) (f : Cmd → Bool) (act : State → Nat → Cmd → Option State) : State :=
  s.runNext lg f (fun s site c => s.rtDo site (2 * c.queue) c.cls (fun s => (act (s.dropCmd lg c) site c).getD s))

/-! ## What a runtime moves -/

/-- An address as the TFE holds it: one in the gallery's own window becomes gallery-local. -/
def State.resolve (s : State) (site a : Nat) : Nat :=
  match placeOf a with
  | .gal lg off => if s.siteOfLg lg = some site then localBase + off else a
  | _ => a

/-- What moving `n` bytes between nodes asks of the TFE's entry (R29): `units` of stack bytes, and a slot a flit where a
passage serves the way, and Class A slots. -/
def State.rtAsk (s : State) (site units src dst n : Nat) : State :=
  let t := s.tfe site
  let f := flitsOf n
  let pass := src != dst && (s.passageFor s.epoch src dst 48 t.needCls).isSome
  let c : Charge := ⟨0, units, if pass then f else 0, if t.needCls = 0 ∧ src ≠ dst then f else 0⟩
  s.setTfe site { t with need := t.need.add c }

/-- A read and a write by a runtime's TFE. -/
def State.rtRead (s : State) (site a n : Nat) : State × Got :=
  let a := s.resolve site a
  (s.rtAsk site (s.readUnits site false a n) ((s.srcNode site a).getD site) site n).tfeRead site false a n
def State.rtWrite (s : State) (site a : Nat) (bs : List Byte) : State × Nat :=
  let a := s.resolve site a
  let s := s.rtAsk site (writeUnits a bs.length) site ((s.srcNode site a).getD site) bs.length
  match placeOf a with
  | .near off => s.galPut site off bs false
  | .stack x => s.stackPut site x bs false
  | _ => (s, 8)

/-- `n` bytes at a module address lie in the stacks or a gallery of the gallery's chamber. -/
def State.inChamber (s : State) (site a n : Nat) : Bool :=
  match placeOf a with
  | .stack _ => s.owns site 0 a n == 0
  | .gal lg _ => (s.siteOfLg lg).isSome && s.owns site 0 a n == 0
  | _ => false

/-! ## LOAD_PROGRAM (R160, R178, R179) -/

/-- The header of an image of `len` bytes passes (Table 8.10). -/
def State.imageOk (s : State) (bs : List Byte) (len : Nat) : Bool :=
  let n := leAt bs 2 2
  leAt bs 1 1 == 1 && decide (1 ≤ n) && decide (n ≤ 47) && leAt bs 12 4 == len && len % 512 == 0 &&
    decide (64 + 128 * n ≤ len) && leAt bs 16 48 == 0 && leAt bs 8 4 == s.fld R.DRIP_PERIOD_CUR_US &&
    leAt bs 4 4 == crc32 (bs.drop 64)

/-- Fields of a task record (Table 8.2). -/
def recWord (r : List Byte) (i : Nat) : Nat := leAt r (8 * i) 8
def recBlocks (r : List Byte) : Nat := fldN (recWord r 0) 29 20
def recWin (r : List Byte) (w : Nat) : Nat := recWord r (6 + w)

/-- A task record breaks no range of Table 8.2, and its INIT contents lie in the image, after its `n` records (R178). -/
def recOk (len n : Nat) (r : List Byte) : Bool :=
  let w := recWord r
  fldN (w 0) 56 50 == 0 && fldN (w 0) 39 30 == 0 && fldN (w 0) 19 0 == 0 && fldN (w 0) 61 60 != 3 &&
    decide (1 ≤ recBlocks r) && decide (recBlocks r ≤ 512) && decide (fldN (w 0) 49 40 ≤ recBlocks r) &&
    fldN (w 1) 60 28 == 0 && fldN (w 2) 55 28 == 0 && decide (fldN (w 2) 60 56 ≤ 16) && fldN (w 3) 63 32 == 0 &&
    w 14 == 0 && w 15 == 0 &&
    (List.range 8).all (fun i =>
      let x := recWin r i
      fldN x 58 38 == 0 && (bitN x 63 == 0 || bitN x 59 == 0 ||
        (decide (64 + 128 * n ≤ fldN x 18 0 * 512) && decide ((fldN x 18 0 + fldN x 37 19) * 512 ≤ len))))

/-- Entries that no task and no accepted load holds. -/
def State.freeTasks (s : State) (lg site : Nat) : List Nat :=
  (List.range 48).filter (fun t => decide (t ≠ 0) && !(s.bud (taskM site t)).valid && s.fld (mValid (taskM site t)) == 0 &&
    (s.blocksOf site t).isEmpty && !(s.rt lg).loads.any (fun l => l.entries.contains t))

/-- A logical core can hold contexts: mapped and not fenced. -/
def State.coreUsable (s : State) (site c : Nat) : Bool :=
  s.fld (R.GAL_CORE_MAP_VALID site (c / 8) (c % 8)) == 1 && s.fld (R.CORE_CTRL_FENCE site c) == 0

/-- Blocks of accepted loads. -/
def State.loadBlocks (s : State) (lg : Nat) : List (Nat × Nat) := (s.rt lg).loads.flatMap (·.blocks)

/-- Window slots in use on a core: selected by a block of a task, or assigned. -/
def State.slotUsed (s : State) (site c slot : Nat) (given : List (Nat × Nat)) : Bool :=
  (List.range 16).any (fun b => s.fld (R.CTXBLK_VALID site (16 * c + b)) == 1 &&
      (s.ctx (ctxKey site c (8 * b))).win == slot) ||
    given.any (fun p => p.1 / 16 == c && p.2 % 32 == slot)

/-- A block for a task entry, with a window slot of its core, if it is free. -/
def State.tryBlock (s : State) (site e b : Nat) (given : List (Nat × Nat)) : Option (Nat × Nat) :=
  let c := b / 16
  if s.fld (R.CTXBLK_VALID site b) = 1 || given.any (fun p => p.1 == b) || !s.coreUsable site c then none
  else match given.find? (fun p => p.1 / 16 == c && p.2 / 32 == e) with
    | some p => some (b, p.2)
    | none => ((List.range 16).find? (fun k => !s.slotUsed site c k given)).map (fun k => (b, 32 * e + k))

/-- `n` blocks for a task entry. -/
def State.giveBlocks (s : State) (site e : Nat) : List Nat → Nat → List (Nat × Nat) → Option (List (Nat × Nat))
  | _, 0, given => some given
  | [], _ + 1, _ => none
  | b :: bs, n + 1, given =>
    match s.tryBlock site e b given with
    | some p => s.giveBlocks site e bs n (given ++ [p])
    | none => s.giveBlocks site e bs (n + 1) given

/-- Ranges of cells that windows hold, in units of 512 B: base and size. -/
def State.usedCells (s : State) (lg site : Nat) : List (Nat × Nat) :=
  (s.csr.filterMap (fun p =>
    if R.WIN_BASE site 0 0 0 ≤ p.1 ∧ p.1 < R.WIN_BASE site 32 0 0 ∧ p.1 % 16 = 0 ∧ getBits p.2 63 1 = 1 then
      some (getBits p.2 0 19, getBits (s.reg (p.1 + 8)) 0 19)
    else none)) ++
  (s.rt lg).loads.flatMap (fun l => l.bases.map (fun b => (b.2 / 2 ^ 20, b.2 % 2 ^ 20)))

/-- The lowest place of `n` units of cells that nothing holds, in slices that are ON. -/
def State.placeFor (s : State) (site n : Nat) (used : List (Nat × Nat)) : Option Nat :=
  let cands := (List.range 32).map (fun k => 10240 * k) ++ used.map (fun u => u.1 + u.2)
  let ok (b : Nat) : Bool := decide (b + n ≤ 327680) && s.gate site (512 * b) (512 * n) == .ok &&
    used.all (fun u => decide (b + n ≤ u.1) || decide (u.1 + u.2 ≤ b))
  match cands.filter ok with
  | [] => none
  | b :: bs => some (bs.foldl min b)

/-- Places for windows: entry, window and size, one after another. -/
def State.givePlaces (s : State) (site : Nat) : List (Nat × Nat × Nat) → List (Nat × Nat) → List (Nat × Nat) →
    Option (List (Nat × Nat))
  | [], _, out => some out
  | (e, w, n) :: r, used, out =>
    if n = 0 then s.givePlaces site r used (out ++ [(8 * e + w, 0)])
    else match s.placeFor site n used with
      | some b => s.givePlaces site r (used ++ [(b, n)]) (out ++ [(8 * e + w, b * 2 ^ 20 + n)])
      | none => none

/-- Windows that a record asks for: entry, window, size. -/
def recWins (e : Nat) (r : List Byte) : List (Nat × Nat × Nat) :=
  (List.range 8).filterMap (fun w => if bitN (recWin r w) 63 = 1 then some (e, w, fldN (recWin r w) 37 19) else none)

/-- Blocks for every record. -/
def State.giveAll (s : State) (site : Nat) : List (Nat × List Byte) → List (Nat × Nat) → Option (List (Nat × Nat))
  | [], given => some given
  | (e, r) :: rs, given =>
    match s.giveBlocks site e (List.range 512) (recBlocks r) given with
    | some g => s.giveAll site rs g
    | none => none

/-- The INIT windows are filled from the image. -/
def State.fillWins (s : State) (site : Nat) (bs : List Byte) (rs : List (Nat × List Byte)) (bases : List (Nat × Nat)) : State :=
  bases.foldl (fun s p =>
    match rs.find? (fun r => r.1 == p.1 / 8) with
    | some (_, r) =>
      let x := recWin r (p.1 % 8)
      if bitN x 59 = 1 then
        s.wrGal site (p.2 / 2 ^ 20 * 512) ((bs.drop (fldN x 18 0 * 512)).take (fldN x 37 19 * 512))
      else s
    | none => s) s

/-- The records of an image that are in use, with their indices. -/
def imageRecs (bs : List Byte) : List (Nat × List Byte) :=
  ((List.range (leAt bs 2 2)).map (fun i => (i, (bs.drop (64 + 128 * i)).take 128))).filter (fun p =>
    bitN (recWord p.2 0) 63 == 1)

/-- The image is checked, resources are assigned, and the load is accepted; or a status of Table 8.9. `priv` allows
records with PRIV = 1. -/
def State.loadImage (s : State) (lg site : Nat) (c : Cmd) (img len start endMask : Nat) : State × Option Nat :=
  let (s, x) := s.rtRead site img len
  if x.status ≠ 0 then (s, some 6)
  else if leAt x.data 0 1 ≠ 9 then (s.raise (s.recAt (s.mkRec UETASK 9 6) site), some 6)
  else
    let rs := imageRecs x.data
    if !s.imageOk x.data len || rs.any (fun r => !recOk len (leAt x.data 2 2) r.2) then (s, some 6)
    else if rs.any (fun r => bitN (recWord r.2 0) 62 == 1) then (s, some 8)
    else
      let es := s.freeTasks lg site
      if es.length < rs.length then (s, some 7)
      else
        let ers := es.zip (rs.map (·.2))
        let held := s.loadBlocks lg
        match s.giveAll site ers held, s.givePlaces site (ers.flatMap (fun p => recWins p.1 p.2)) (s.usedCells lg site) [] with
        | some g, some bases =>
          let s := s.fillWins site x.data ers bases
          let l : Load := ⟨c, start, endMask, img, leAt x.data 8 4, ers.map (·.1), g.drop held.length, bases, rs.map (·.2),
            rs.map (·.1), false⟩
          let r := s.rt lg
          (s.setRt lg { r with loads := r.loads ++ [l] }, none)
        | _, _ => (s, some 7)

/-- LOAD_PROGRAM: the runtime accepts a load, or completes the command with a status (R179). -/
def execLoadProgram (lg : Nat) (s : State) : Host.Outcome State Fault Refusal :=
  .next (s.runWork lg (fun c => c.opc == 1) (fun s site c =>
    let start := fldN (c.word 3) 47 0
    if start < s.dripNo + 2 then some (s.cmdEnd c 5 0)
    else match s.loadImage lg site c (fldN (c.word 2) 47 0) (leAt c.raw 40 4) start (fldN (c.word 4) 47 1 * 2) with
      | (s, some st) => some (s.cmdEnd c st 0)
      | (s, none) => some s))

/-! ### Installing a load (R51, R161, R179) -/

/-- An invalidation of a core's instruction cache begins: its fills are discarded and fetched again (R51). -/
def State.icInv (s : State) (site core : Nat) : State :=
  let k := coreKey site core
  let x := s.core k
  let s := (s.setCore k { x with fills := [] }).setFld (R.CORE_STATUS_ICINV_BUSY site core) 1
  (s.withCtxs (s.ctxs.map (fun p =>
      if p.1 / 128 = k then
        match p.2.st with
        | .stalled (.icache _) => (p.1, { p.2 with st := .ready })
        | _ => p
      else p)))

/-- The windows of a task's record written into a slot of a core. -/
def State.loadSlot (s : State) (site e : Nat) (r : List Byte) (bases : List (Nat × Nat)) (core slot : Nat) : State :=
  (List.range 8).foldl (fun s w =>
    let x := recWin r w
    if bitN x 63 = 1 then
      let b := ((bases.find? (fun p => p.1 == 8 * e + w)).map (fun p => p.2 / 2 ^ 20)).getD 0
      (s.setReg (R.WIN_BASE site core slot w) (BitVec.ofNat 64 (fldN x 63 60 * 2 ^ 60 + b))).setReg
        (R.WIN_LIM site core slot w) (BitVec.ofNat 64 (fldN x 37 19))
    else s) s

/-- One block given to a task: its CTXBLK entry, and its contexts' window slot. -/
def State.loadBlock (s : State) (site e slot b : Nat) (handler hipri : Bool) : State :=
  let s := s.setReg (R.CTXBLK site b) (BitVec.ofNat 64 (2 ^ 15 + b2n handler * 2 ^ 14 + b2n hipri * 2 ^ 13 + e))
  (blockCtxs site b).foldl (fun s k => s.setCtx k { s.ctx k with win := slot }) s

/-- Blocks of a task, the last `h` of them handler blocks. -/
def State.loadBlockList (s : State) (site e h : Nat) (hipri : Bool) : List (Nat × Nat) → State
  | [] => s
  | p :: ps => (s.loadBlock site e (p.2 % 32) p.1 (decide (ps.length < h)) hipri).loadBlockList site e h hipri ps

/-- One task installed: blocks, windows, what its start takes, budgets and control bits, VALID = 1. Key-value pairs of
`blocks` are those of the whole load. -/
def State.installTask (s : State) (site e : Nat) (r : List Byte) (blocks bases : List (Nat × Nat)) : State :=
  let w := recWord r
  let mine := blocks.filter (fun p => p.2 / 32 == e)
  let s := s.loadBlockList site e (fldN (w 0) 49 40) (bitN (w 0) 59 == 1) mine
  let s := mine.foldl (fun s p => s.loadSlot site e r bases (p.1 / 16) (p.2 % 32)) s
  let base (win : Nat) : Nat := ((bases.find? (fun p => p.1 == 8 * e + win)).map (fun p => p.2 / 2 ^ 20 * 512)).getD 0
  let s := s.setTask (site * 64 + e) { TaskSt.init with
    hcount := fldN (w 2) 60 56, hwin := fldN (w 2) 63 61, hofs := fldN (w 2) 27 0,
    entry := base (fldN (w 1) 63 61) + fldN (w 1) 27 0, seed := fldN (w 3) 31 0, rnd := fldN (w 0) 61 60,
    priv := bitN (w 0) 62 }
  let m := taskM site e
  let s := (s.setReg (mBudget0 m) (BitVec.ofNat 64 (w 4))).setReg (mBudget1 m) (BitVec.ofNat 64 (w 5))
  ((s.setFld (mCont m) (bitN (w 0) 58)).setFld (mAutoThaw m) (bitN (w 0) 57)).setFld (mValid m) 1

/-- The tasks of a mask end at the next Open: VALID = 0 is written (R180). -/
def State.endMask (s : State) (site mask : Nat) : State :=
  ((List.range 48).filter (fun t => decide (t ≠ 0) && bitN mask t == 1)).foldl (fun s t =>
    s.setFld (mValid (taskM site t)) 0) s

/-- A ring that the runtime binds for a task of a load (R234, R242): one that may not be bound is discarded with a record.
What a runtime binds is its own choice, an operand of the command (log entry 25). -/
def State.bindRing (s : State) (site : Nat) (es : List Nat) : RingPlan → State
  | .cq t w =>
    let w := BitVec.ofNat 64 w ||| (1#64 <<< 63)
    if !es.contains t then s else if s.cqBindOk site t w then s.cqBind site t w else s.refuse (.gallery site 0 0) 16 (R.MU_CQ0 site t) w.toNat
  | .ring r w =>
    let w := BitVec.ofNat 64 w ||| (1#64 <<< 63)
    if !es.contains (getBits w 8 6) then s else if s.ringBindOk site r w then s.ringBind site r w else s.refuse (.gallery site 0 0) 16 (R.MU_RING0 site r) w.toNat

/-- One load installed in drip START - 1, or ended with BAD_IMAGE where the period has changed. -/
def State.install (s : State) (lg site : Nat) (l : Load) (binds : List RingPlan) : State :=
  let r := s.rt lg
  if l.fit ≠ s.fld R.DRIP_PERIOD_CUR_US then (s.setRt lg { r with loads := r.loads.erase l }).cmdEnd l.cmd 6 0
  else
    let s := (l.entries.zip l.recs).foldl (fun s p => s.installTask site p.1 p.2 l.blocks l.bases) s
    let s := binds.foldl (fun s b => s.bindRing site l.entries b) s
    let s := (List.range 32).foldl (fun s c => s.icInv site c) s
    let s := s.endMask site l.endMask
    let r := s.rt lg
    s.setRt lg { r with
      loads := r.loads.map (fun x => if x = l then { x with inst := true } else x)
      kept := (l.entries.zip l.idxs).foldl (fun k p => k.put p.1 (l.image, p.2) (0, 0)) r.kept }

/-- LOAD_PROGRAM_INSTALL: in drip START - 1 the runtime installs what it has accepted (R179). -/
def execLoadProgramInstall (x : InstallPlan) (s : State) : Host.Outcome State Fault Refusal :=
  let lg := x.lg
  .next (
    match s.siteOfLg lg with
    | none => s
    | some site =>
      if !s.rtUp site || s.frozen (taskM site 0) then s
      else ((s.rt lg).loads.filter (fun l => !l.inst && l.start == s.dripNo + 1)).foldl (fun s l => s.install lg site l x.binds) s)

/-- The master entries of a load, as the bitmap of its completion (Table 16.3). -/
def maskOf (ts : List Nat) : Nat := ts.foldl setBitN 0

/-- The Open of a drip reaches a runtime: loads whose tasks have started and tasks that have ended complete; VALID = 0
is written for the tasks that end at the next Open (R180). -/
def State.rtOpen (s : State) (lg : Nat) : State :=
  let n := s.dripNo
  let r := s.rt lg
  let exceed := r.loads.filter (fun l => l.inst && decide (l.start ≤ n))
  let ended := r.ends.filter (fun e => decide (e.2.1 ≤ n))
  let s := s.setRt lg { r with
    loads := r.loads.filter (fun l => !(l.inst && decide (l.start ≤ n))), ends := r.ends.filter (fun e => decide (n < e.2.1)) }
  let s := exceed.foldl (fun s l => s.cmdEnd l.cmd 0 (maskOf l.entries)) s
  let s := ended.foldl (fun s e => s.cmdEnd e.2.2 0 0) s
  match s.siteOfLg lg with
  | some site => ((s.rt lg).ends.filter (fun e => e.2.1 == n + 1)).foldl (fun s e => s.endMask site e.1) s
  | none => s

/-! ## END_TASKS, MOVE, TASK_CTRL -/

/-- END_TASKS: tasks end at the Open of a drip (R180). -/
def execEndTasks (lg : Nat) (s : State) : Host.Outcome State Fault Refusal :=
  .next (s.runCmd lg (fun c => c.opc == 2) (fun s _ c =>
    let d := fldN (c.word 3) 47 0
    if d < s.dripNo + 2 then some (s.cmdEnd c 5 0)
    else
      let r := s.rt lg
      some (s.setRt lg { r with ends := r.ends ++ [(fldN (c.word 2) 47 1 * 2, d, c)] })))

/-- MOVE: one COPY descriptor of the gallery's TFE (R176, R248). It waits for room in the queue and for claims. -/
def execMove (lg : Nat) (s : State) : Host.Outcome State Fault Refusal :=
  .next (s.runCmd lg (fun c => c.opc == 3) (fun s site c =>
    let src := s.resolve site (fldN (c.word 2) 47 0)
    let dst := s.resolve site (fldN (c.word 3) 47 0)
    let len := fldN (c.word 4) 39 0
    let near (a : Nat) (w : Bool) : List Want := match placeOf a with
      | .near off => [⟨w, off, len⟩]
      | _ => []
    let wants := near src false ++ near dst true
    if s.tfeFull site || s.blockers site wants != 0 || decide (s.freeEntries site < wants.length) then none
    else
      let (op, s) := s.newOp site
      let s := (s.claimAll site 48 op wants).noteIssue site 3 0
      let d : Desc := {
        op := op, task := 0, ctx := ctxKey site 0 0, coreGen := 0, cls := c.cls, kind := 0, cache := false, msg := false,
        padz := false, rows := 1, rbytes := len, src := src, dst := dst, sstride := 0, dstride := 0, vrows := 0,
        vbytes := 0, thread := 0, tag := 0, xtra := 0, priv := 1, done := 0, bytes := 0, status := 0, members := [],
        got := [], answers := [], pte := 0, pteData := [], put := none, ended := false, startAt := s.now, cmd := some c }
      let t := s.tfe site
      some (s.setTfe site { t with queue := t.queue ++ [d] })))

/-- A TASK_CTRL command of one action, over the tasks of its mask that are live. -/
def State.taskCtrl (s : State) (lg action : Nat) (f : State → Nat → Nat → State) : State :=
  s.runCmd lg (fun c => c.opc == 4 && leAt c.raw 24 1 == action) (fun s site c =>
    let ts := (List.range 48).filter (fun t => decide (t ≠ 0) && bitN (c.word 2) t == 1 && (s.bud (taskM site t)).valid)
    some ((ts.foldl (fun s t => f s site t) s).cmdEnd c 0 0))

/-- TASK_CTRL, action 0: freeze, cause 6. -/
def execTaskCtrlFreeze (lg : Nat) (s : State) : Host.Outcome State Fault Refusal :=
  .next (s.taskCtrl lg 0 (fun s site t => s.freeze (taskM site t) 6 32))

/-- TASK_CTRL, action 1: thaw. -/
def execTaskCtrlThaw (lg : Nat) (s : State) : Host.Outcome State Fault Refusal :=
  .next (s.taskCtrl lg 1 (fun s site t => s.thaw (taskM site t)))

/-- The lowest context of a task, as thread address and PC of a record that no instruction of it caused. -/
def State.lowThread (s : State) (site t : Nat) : Nat × Nat :=
  match s.ctxsOf site t with
  | k :: _ => (s.threadAddr site (coreOfKey k) (ctxOfKey k), (s.ctx k).pc)
  | [] => (0, 0)

/-- TASK_CTRL, action 2: kill with code 9 (R173). -/
def execTaskCtrlKill (lg : Nat) (s : State) : Host.Outcome State Fault Refusal :=
  .next (s.taskCtrl lg 2 (fun s site t => s.faultTask site t 9 (s.lowThread site t).1 (s.lowThread site t).2))

/-! ## SURVEY_REQ (R281) -/

/-- A group number is the chamber's to ask for: undefined in the bank in force, or with members of the chamber only (log
entry 26). -/
def State.groupOwn (s : State) (ch g : Nat) : Bool :=
  let w := s.reg (R.SV_GROUP s.epoch g)
  getBits w 63 1 == 0 || (List.range 56).all (fun m =>
    getBits w m 1 == 0 || s.chamberOf (groupNode (getBits w 62 1) (getBits w 56 6) m) == some ch)

/-- A passage entry is well formed: classes, source, destination, slots within the bounds of R270, master; the rest zero. -/
def passEntryOk (e : List Byte) : Bool :=
  let slots := leAt e 6 1
  let aslots := leAt e 7 1
  leAt e 1 1 != 0 && decide (leAt e 1 1 < 8) && decide (leAt e 2 2 < 448) && decide (leAt e 4 2 < 384) &&
    slots != 0 && decide (slots ≤ 64) && (aslots == 0 || (decide (2 ≤ aslots) && decide (4 * aslots ≤ slots))) &&
    decide (leAt e 8 1 < 64) && leNat (e.drop 9) == 0

/-- One entry of a request list is well formed and within the chamber: a status of Table 8.9, or 0. A source from 384 up is a
stack or a port, which no chamber owns (log entry 26). -/
def State.svEntryCheck (s : State) (ch : Nat) (e : List Byte) : Nat :=
  let owned (lg : Nat) : Bool := match s.siteOfLg lg with
    | some site => s.chamberOf site == some ch
    | none => false
  let k := leAt e 0 1
  if k = 1 then
    if !passEntryOk e then 6
    else if owned (leAt e 4 2) && (decide (384 ≤ leAt e 2 2) || owned (leAt e 2 2)) then 0 else 4
  else if k = 2 then
    let n := leAt e 1 1
    let ms := (List.range n).map (fun i => leAt e 8 54 / 2 ^ (9 * i) % 512)
    let sites := ms.filterMap (fun m => s.siteOfLg m)
    let sameRow := match sites with
      | [] => true
      | x :: xs => xs.all (fun y => rowOf y == rowOf x) || xs.all (fun y => colOf y == colOf x)
    if n = 0 ∨ 48 < n ∨ 1024 ≤ leAt e 2 2 ∨ !sameRow then 6
    else if ms.all owned && s.groupOwn ch (leAt e 2 2) then 0 else 4
  else 6

/-- The first status other than 0. -/
def firstBad : List Nat → Nat
  | [] => 0
  | x :: xs => if x ≠ 0 then x else firstBad xs

/-- SURVEY_REQ: relayed to Flowstone. What its grant depends on is Flowstone's policy: a free value says whether the
slots can be granted; a granted request completes once a later bank is ACTIVE (log entry 26). -/
def execSurveyReq (lg : Nat) (s : State) : Host.Outcome State Fault Refusal :=
  .next (s.runWork lg (fun c => c.opc == 0x20) (fun s site c =>
    let s := s.emit (.relay c.raw)
    let len := leAt c.raw 24 4
    let (s, x) := s.rtRead site (fldN (c.word 2) 47 0) len
    let es := (List.range (len / 64)).map (fun i => (x.data.drop (64 * i)).take 64)
    if leAt c.raw 28 8 < s.dripNo + 2 then some (s.cmdEnd c 5 0)
    else if len % 64 ≠ 0 ∨ x.status ≠ 0 then some (s.cmdEnd c 6 0)
    else match firstBad (es.map (s.svEntryCheck c.chamber)) with
      | 0 =>
        let (v, s) := s.takeFree
        if v % 2 = 0 then some (s.cmdEnd c 7 0) else some (s.withSv { s.sv with reqs := s.sv.reqs ++ [c] })
      | e => some (s.cmdEnd c e 0)))

/-- A bank has become ACTIVE: the requests granted for a drip that has come complete. -/
def State.svReqs (s : State) : State :=
  let due (c : Cmd) : Bool := decide (leAt c.raw 28 8 ≤ s.dripNo)
  let cs := s.sv.reqs.filter due
  cs.foldl (fun s c => s.cmdEnd c 0 0) (s.withSv { s.sv with reqs := s.sv.reqs.filter (fun c => !due c) })

end Sys2Proof.Machine
end

