-- ==== Sys2Proof/Machine/Upd.lean ====
section
/-! DEFINITION. Online parameter update (chapter 14): the update pass, commit records, refresh, roll-forward. Choices
that the manual leaves to the runtime are those of log entry 27. -/

namespace Sys2Proof.Machine

/-! ## The update descriptor (R304, R305) -/

/-- An update descriptor (Table 14.3). -/
structure UDesc where
  opt : Nat
  pf : Nat
  gf : Nat
  sf : Nat
  sparse : Bool
  shadow : Bool
  rnd : Nat
  len : Nat
  param : Nat
  grad : Nat
  index : Nat
  state : Nat
  shad : Nat
  nrows : Nat
  trows : Nat
  b1 : Nat
  b2 : Nat
deriving DecidableEq, Repr

def udesc (bs : List Byte) : UDesc :=
  let w (i : Nat) : Nat := leAt bs (8 * i) 8
  ⟨fldN (w 0) 63 60, fldN (w 0) 59 56, fldN (w 0) 55 52, fldN (w 0) 51 48, bitN (w 0) 47 == 1, bitN (w 0) 46 == 1,
    fldN (w 0) 45 44, fldN (w 0) 39 24 + 1, fldN (w 1) 47 0, fldN (w 2) 47 0, fldN (w 3) 47 0, fldN (w 4) 47 0,
    fldN (w 5) 47 0, leAt bs 48 4, leAt bs 52 4, leAt bs 56 4, leAt bs 60 4⟩

/-- Bytes of a row of a format, and its pitch. -/
def rowBytes (f n : Nat) : Nat := n * fmtBits f / 8
def up64 (n : Nat) : Nat := (n + 63) / 64 * 64

/-- Arrays of a state row. -/
def UDesc.arrays (d : UDesc) : Nat := match d.opt with
  | 0 => 1
  | 1 => 2
  | 2 => 1
  | _ => 0

def UDesc.pp (d : UDesc) : Nat := up64 (rowBytes d.pf d.len)
def UDesc.gp (d : UDesc) : Nat := up64 (rowBytes d.gf d.len)
def UDesc.ap (d : UDesc) : Nat := up64 (rowBytes d.sf d.len)
def UDesc.sp (d : UDesc) : Nat := 64 + d.arrays * d.ap

/-- A range of bytes lies in the chamber; an empty one asks nothing. -/
def State.rangeIn (s : State) (site a n : Nat) : Bool := n == 0 || s.inChamber site a n
def isStackAddr (a : Nat) : Bool := decide (a < 0x20000000000)
def isGalAddr (a : Nat) : Bool := decide (0x100000000000 ≤ a) && decide (a < 0x101800000000)

/-- The descriptor breaks no rule of R304 and R310. -/
def State.udescOk (s : State) (site a : Nat) (bs : List Byte) : Bool :=
  let w (i : Nat) : Nat := leAt bs (8 * i) 8
  let d := udesc bs
  a % 64 == 0 && isStackAddr a && s.rangeIn site a 64 && fldN (w 0) 43 40 == 0 && fldN (w 0) 23 0 == 0 &&
    ([1, 2, 3, 4, 5]).all (fun i => fldN (w i) 63 48 == 0) && decide (d.opt ≤ 3) && decide (d.pf ≤ 4) &&
    decide (d.gf ≤ 2) && (d.sf == 0 || d.sf == 2) && decide (d.rnd ≤ 2) && decide (d.nrows ≤ d.trows) &&
    s.rangeIn site d.param (d.trows * d.pp) && s.rangeIn site d.grad (d.nrows * d.gp) &&
    (!d.sparse || s.rangeIn site d.index (4 * d.nrows)) && s.rangeIn site d.state (d.trows * d.sp) &&
    (!d.shadow || (isStackAddr d.shad && s.rangeIn site d.shad (d.nrows * (d.pp + d.sp)))) &&
    (!isGalAddr d.param || (d.shadow && (match placeOf (s.resolve site d.param) with
      | .near _ => true
      | _ => false)))

/-- The rows that a pass touches, in order; none where the index list breaks R306. -/
def ascending : List Nat → Bool
  | x :: y :: r => decide (x < y) && ascending (y :: r)
  | _ => true
def State.touched (s : State) (site : Nat) (d : UDesc) : State × Option (List Nat) :=
  if !d.sparse then (s, some (List.range d.nrows))
  else
    let (s, x) := s.rtRead site d.index (4 * d.nrows)
    let js := (List.range d.nrows).map (fun k => leAt x.data (4 * k) 4)
    (s, if x.status = 0 && ascending js && js.all (fun j => decide (j < d.trows)) then some js else none)

/-! ## Arithmetic (R308): FP32, nearest even, one rounding per operation -/

def fadd (a b : Nat) : Nat := (addF32 0 0 a b).1
def fsub (a b : Nat) : Nat := (subF32 0 0 a b).1
def fmul (a b : Nat) : Nat := (mulF32 0 0 a b).1
def one32 : Nat := 0x3F800000

/-- Quotient of two finite significands to 64 bits with a sticky bit below. -/
def divFin (m1 : Nat) (e1 : Int) (m2 : Nat) (e2 : Int) : Nat × Int :=
  let k := 64 + m2.log2 + 1
  let q := m1 * 2 ^ k / m2
  (2 * q + (if q * m2 = m1 * 2 ^ k then 0 else 1), e1 - e2 - (k : Int) - 1)

/-- Quotient of two FP32 codes. -/
def fdiv (a b : Nat) : Nat :=
  match f32 a, f32 b with
  | .nan _, _ => nan32
  | _, .nan _ => nan32
  | .inf _, .inf _ => nan32
  | .inf x, .fin y _ _ => (toF32 0 0 (.inf (x != y))).1
  | .fin x _ _, .inf y => (toF32 0 0 (.fin (x != y) 0 0)).1
  | .fin x m1 e1, .fin y m2 e2 =>
    if m2 = 0 then (if m1 = 0 then nan32 else (toF32 0 0 (.inf (x != y))).1)
    else
      let q := divFin m1 e1 m2 e2
      (toF32 0 0 (.fin (x != y) q.1 q.2)).1

/-- `root(x)` of R308. -/
def froot (x : Nat) : Nat :=
  match f32 x with
  | .fin _ 0 _ => 0
  | _ => fmul x (rsqF32 x).1

/-- A whole number as FP32. -/
def ofNat32 (n : Nat) : Nat := (toF32 0 0 (ofInt n 0)).1

/-- The scalars of a pass. -/
structure UScal where
  lr : Nat
  wd : Nat
  eps : Nat
  b1 : Nat
  b2 : Nat
deriving DecidableEq, Repr

/-- `1 - exp2(t * log2(b))`. -/
def bias (t b : Nat) : Nat := fsub one32 (exp2F32 (fmul (ofNat32 t) (log2F32 b).1)).1

/-- One element: the new parameter and state words, from the row's accumulator for OPT 3. -/
def updElem (opt t gr : Nat) (c : UScal) (w g x y : Nat) : Nat × Nat × Nat :=
  let fin (u x y : Nat) : Nat × Nat × Nat := (fsub w (fmul c.lr (fadd u (fmul c.wd w))), x, y)
  match opt with
  | 0 =>
    let v := fadd (fmul c.b1 x) g
    fin v v y
  | 1 =>
    let m := fadd (fmul c.b1 x) (fmul (fsub one32 c.b1) g)
    let v := fadd (fmul c.b2 y) (fmul (fmul (fsub one32 c.b2) g) g)
    fin (fdiv (fdiv m (bias t c.b1)) (fadd (froot (fdiv v (bias t c.b2))) c.eps)) m v
  | 2 =>
    let a := fadd x (fmul g g)
    fin (fdiv g (fadd (froot a) c.eps)) a y
  | _ => fin (fdiv g (fadd (froot gr) c.eps)) x y

/-- The row accumulator of OPT 3 after the pass. -/
def rowAcc (gr : Nat) (gs : List Nat) : Nat :=
  fadd gr (fdiv (gs.foldl (fun a g => fadd a (fmul g g)) 0) (ofNat32 gs.length))

/-- Elements of a row of a format, widened to FP32 exactly. -/
def widen (f : Nat) (bs : List Byte) (n : Nat) : List Nat :=
  let k := fmtBits f / 8
  (List.range n).map (fun i =>
    let c := leAt bs (k * i) k
    if f = 0 then c else (encodeF fmtFP32 0 0 (decodeF ((fltOf f).getD fmtFP32) c)).1)

/-- FP32 words as a row of a format under a rounding mode, drawing as R308 says; what lies beyond the elements stays. -/
def narrow (f mode : Nat) : List Nat → Nat → List Byte × Nat
  | [], rng => ([], rng)
  | c :: cs, rng =>
    let (d, rng) := drawIf mode rng true
    let (bs, rng) := narrow f mode cs rng
    (leBytes (fmtBits f / 8) (convOne f mode d c).1 ++ bs, rng)

/-- One touched row: the new parameter row, the new state row, the generator, and whether the row was updated (R307 to
R309). -/
def updRow (d : UDesc) (c : UScal) (w g st : List Byte) (rng : Nat) : List Byte × List Byte × Nat × Bool :=
  let gs := widen d.gf g d.len
  if gs.any (fun x => notFinite (f32 x)) then (w, st, rng, false)
  else
    let t := min (leAt st 0 4 + 1) (2 ^ 32 - 1)
    let gr := if d.opt = 3 then rowAcc (leAt st 4 4) gs else leAt st 4 4
    let ws := widen d.pf w d.len
    let xs := widen d.sf (st.drop 64) d.len
    let ys := widen d.sf (st.drop (64 + d.ap)) d.len
    let rs := (List.range d.len).map (fun i =>
      updElem d.opt t gr c (ws.getD i 0) (gs.getD i 0) (xs.getD i 0) (ys.getD i 0))
    let (wb, rng) := narrow d.pf d.rnd (rs.map (·.1)) rng
    let arr (i : Nat) (vs : List Nat) : List Byte :=
      let bs := (narrow d.sf 0 vs 0).1
      bs ++ ((st.drop (64 + i * d.ap)).take d.ap).drop bs.length
    let st' := leBytes 4 t ++ leBytes 4 (if d.opt = 3 then gr else 0) ++ List.replicate 56 0 ++
      (if 1 ≤ d.arrays then arr 0 (rs.map (·.2.1)) else []) ++ (if 2 ≤ d.arrays then arr 1 (rs.map (·.2.2)) else [])
    (wb ++ w.drop wb.length, st', rng, true)

/-- The rows of a pass, from touched row `k` up: rows updated and skipped. -/
def State.updRows (s : State) (site : Nat) (d : UDesc) (c : UScal) : List Nat → Nat → Nat → Nat → Nat → State × Nat × Nat
  | [], _, _, u, sk => (s, u, sk)
  | j :: js, k, rng, u, sk =>
    let (s, w) := s.rtRead site (d.param + j * d.pp) d.pp
    let (s, g) := s.rtRead site (d.grad + k * d.gp) d.gp
    let (s, st) := s.rtRead site (d.state + j * d.sp) d.sp
    let (w', st', rng, ok) := updRow d c w.data g.data st.data rng
    let s :=
      if d.shadow then (s.rtWrite site (d.shad + k * (d.pp + d.sp)) (w' ++ st')).1
      else if ok then ((s.rtWrite site (d.param + j * d.pp) w').1.rtWrite site (d.state + j * d.sp) st').1
      else s
    s.updRows site d c js (k + 1) rng (u + b2n ok) (sk + b2n (!ok))

/-! ## Commit records (R311, Table 14.4) -/

/-- A commit record. -/
structure CRec where
  st : Nat
  kind : Nat
  pass : Nat
  src : Nat
  dst : Nat
  drip : Nat
  copied : Nat
  n : Nat
deriving DecidableEq, Repr

def CRec.bytes (r : CRec) : List Byte :=
  let b := leBytes 8 r.pass ++ leBytes 8 r.src ++ leBytes 8 r.dst ++ leBytes 8 r.drip ++ leBytes 4 r.copied ++
    leBytes 4 r.n ++ List.replicate 16 0
  leBytes 1 r.st ++ leBytes 1 r.kind ++ leBytes 2 0 ++ leBytes 4 (crc32 b) ++ b

/-- The record in 64 bytes; none where its CRC fails. -/
def crecOf (bs : List Byte) : Option CRec :=
  if leNat bs ≠ 0 ∧ leAt bs 4 4 ≠ crc32 (bs.drop 8) then none
  else some ⟨leAt bs 0 1, leAt bs 1 1, leAt bs 8 8, leAt bs 16 8, leAt bs 24 8, leAt bs 32 8, leAt bs 40 4, leAt bs 44 4⟩

/-- States 0, 4, 5 and 6 are final. -/
def CRec.final (r : CRec) : Bool := r.st == 0 || r.st == 4 || r.st == 5 || r.st == 6

/-- The address names a slot of a gallery's commit directory. -/
def State.inDir (s : State) (lg a : Nat) : Bool :=
  let b := (s.dir lg).base
  b % 4096 == 0 && decide (b ≤ a) && decide (a < b + 4096) && a % 64 == 0

/-- A record read, and written with one full write. -/
def State.crec (s : State) (site a : Nat) : State × Option CRec :=
  let (s, x) := s.rtRead site a 64
  (s, if x.status ≠ 0 then none else crecOf x.data)
def State.putCrec (s : State) (site a : Nat) (r : CRec) : State := (s.rtWrite site a r.bytes).1

/-- What a record names: PARAM of an update's descriptor, DST of a refresh. -/
def State.crecTable (s : State) (site : Nat) (r : CRec) : Nat :=
  if r.kind = 1 then r.dst else (udesc (s.rtRead site r.src 64).2.data).param

/-- Another record of the directory is not final and names the same table (R312). -/
def State.tableBusy (s : State) (lg site a table : Nat) : Bool :=
  (List.range 64).any (fun i =>
    let x := (s.dir lg).base + 64 * i
    x != a && (match (s.crec site x).2 with
      | some r => !r.final && s.crecTable site r == table
      | none => false))

/-- A command's progress is kept. -/
def State.addUpd (s : State) (lg : Nat) (u : Upd) : State :=
  let r := s.rt lg
  s.setRt lg { r with upds := r.upds ++ [u] }
def State.dropUpd (s : State) (lg : Nat) (u : Upd) : State :=
  let r := s.rt lg
  s.setRt lg { r with upds := r.upds.erase u }

/-! ## UPD_APPLY and REFRESH_STAGE -/

/-- UPD_APPLY: one pass over the touched rows (R304 to R310, R312). -/
def execUpdApply (lg : Nat) (s : State) : Host.Outcome State Fault Refusal :=
  .next (s.runWork lg (fun c => c.opc == 0x10) (fun s site c =>
    let a := fldN (c.word 6) 47 0
    let da := fldN (c.word 2) 47 0
    if !s.inDir lg a || !isStackAddr a || !s.rangeIn site a 64 then some (s.cmdEnd c 12 0)
    else match s.crec site a with
      | (s, none) => some (s.cmdEnd c 16 0)
      | (s, some r) =>
        if !r.final then some (s.cmdEnd c 14 0)
        else
          let (s, x) := s.rtRead site da 64
          if x.status ≠ 0 || !s.udescOk site da x.data then some (s.cmdEnd c 12 0)
          else
            let d := udesc x.data
            if s.tableBusy lg site a d.param then some (s.cmdEnd c 14 0)
            else match s.touched site d with
              | (s, none) => some (s.cmdEnd c 13 0)
              | (s, some js) =>
                let kind := if d.shadow then 0 else 2
                let s := s.putCrec site a ⟨1, kind, fldN (c.word 5) 47 0, da, 0, 0, 0, d.nrows⟩
                let k : UScal := ⟨leAt c.raw 24 4, leAt c.raw 28 4, leAt c.raw 32 4, d.b1, d.b2⟩
                let (s, u, sk) := s.updRows site d k js 0 (rngSeed (leAt c.raw 36 4)) 0 0
                some (s.addUpd lg ⟨c, a, kind, 0, 0, u, sk, true, []⟩)))

/-- REFRESH_STAGE: the source is read and checked (R315). -/
def execRefreshStage (lg : Nat) (s : State) : Host.Outcome State Fault Refusal :=
  .next (s.runWork lg (fun c => c.opc == 0x13) (fun s site c =>
    let a := fldN (c.word 6) 47 0
    let src := fldN (c.word 2) 47 0
    let dst := fldN (c.word 3) 47 0
    let len := fldN (c.word 4) 39 0
    if !s.inDir lg a || !isStackAddr a || !s.rangeIn site a 64 then some (s.cmdEnd c 12 0)
    else match s.crec site a with
      | (s, none) => some (s.cmdEnd c 16 0)
      | (s, some r) =>
        if !r.final then some (s.cmdEnd c 14 0)
        else if src % 64 ≠ 0 || dst % 64 ≠ 0 || len % 64 ≠ 0 || !s.rangeIn site src len || !s.rangeIn site dst len ||
            (decide (src < dst + len) && decide (dst < src + len)) then some (s.cmdEnd c 12 0)
        else if s.tableBusy lg site a dst then some (s.cmdEnd c 14 0)
        else
          let s := s.putCrec site a ⟨1, 1, fldN (c.word 7) 47 0, src, dst, 0, 0, len / 64⟩
          let (s, x) := s.rtRead site src len
          let ok := x.status == 0 && crc32 x.data == leAt c.raw 40 4
          some (s.addUpd lg ⟨c, a, 1, 0, 0, 0, 0, ok, []⟩)))

/-- The key of work done for an update command after it was taken. -/
def updKey (c : Cmd) : Nat := 2 * c.queue + 1

/-- A staging ends: the record follows, and the command completes. -/
def State.stagingEnd (s : State) (lg site : Nat) (u : Upd) : State :=
  let s := s.dropUpd lg u
  match s.crec site u.recAt with
  | (s, none) => s.cmdEnd u.cmd 16 0
  | (s, some r) =>
    if u.kind = 2 then (s.putCrec site u.recAt { r with st := 4 }).cmdEnd u.cmd 0 (u.updated * 2 ^ 32 + u.skipped)
    else if u.crcOk then
      (s.putCrec site u.recAt { r with st := 2 }).cmdEnd u.cmd 0 (u.updated * 2 ^ 32 + u.skipped)
    else (s.putCrec site u.recAt { r with st := 5 }).cmdEnd u.cmd 17 0

/-- STAGING_COMPLETE: every write of the pass has been acknowledged, or the refresh source has been read (Table 14.5). -/
def execStagingComplete (lg : Nat) (s : State) : Host.Outcome State Fault Refusal :=
  .next (
    match s.siteOfLg lg, (s.rt lg).upds.find? (fun u => u.phase == 0) with
    | some site, some u => s.rtDo site (updKey u.cmd) u.cmd.cls (fun s => s.stagingEnd lg site u)
    | _, _ => s)

/-! ## Commit (R312, R313) -/

/-- Pieces that a commit copies: source, destination, bytes. -/
def State.commitMoves (s : State) (site : Nat) (r : CRec) : State × List (Nat × Nat × Nat) :=
  if r.kind = 1 then (s, [(r.src, r.dst, 64 * r.n)])
  else
    let (s, x) := s.rtRead site r.src 64
    let d := udesc x.data
    let (s, js) := s.touched site d
    let e := d.pp + d.sp
    (s, ((js.getD []).mapIdx (fun k j =>
      [(d.shad + k * e, d.param + j * d.pp, d.pp), (d.shad + k * e + d.pp, d.state + j * d.sp, d.sp)])).flatten)

/-- A destination in the gallery's own memory, as an offset. -/
def State.ownOff (s : State) (site a : Nat) : Option Nat :=
  match placeOf (s.resolve site a) with
  | .near off => some off
  | _ => none

/-- The hull of the destination ranges in the gallery's memory: one W claim covers them. -/
def State.commitWant (s : State) (site : Nat) (ms : List (Nat × Nat × Nat)) : List Want :=
  let rs := ms.filterMap (fun m => (s.ownOff site m.2.1).map (fun o => (o, o + m.2.2)))
  match rs with
  | [] => []
  | r :: rs =>
    let lo := rs.foldl (fun a x => min a x.1) r.1
    let hi := rs.foldl (fun a x => max a x.2) r.2
    [⟨true, lo, hi - lo⟩]

/-- The W claims of a commit are made, if nothing blocks them: the claims held. -/
def State.commitClaim (s : State) (site : Nat) (ws : List Want) : Option (State × List Nat) :=
  if s.blockers site ws ≠ 0 then none
  else match ws with
    | [] => some (s, [])
    | w :: _ => match s.claim site 0 0 true w with
      | (s, some e) => some (s, [e])
      | (_, none) => none

/-- The commit begins: the record is COMMITTED, and the claims are made where they can be. -/
def State.commitStart (s : State) (lg site : Nat) (u : Upd) (r : CRec) : State :=
  let s := s.putCrec site u.recAt { r with st := 3, drip := s.dripNo, copied := 0 }
  let (s, ms) := s.commitMoves site r
  match s.commitClaim site (s.commitWant site ms) with
  | some (s, cs) => s.addUpd lg { u with phase := 2, claims := cs }
  | none => s.addUpd lg { u with phase := 2 }

/-- The pieces are copied; those into the gallery's memory only if `own`. -/
def State.copyMoves (s : State) (site : Nat) (own : Bool) : List (Nat × Nat × Nat) → State
  | [] => s
  | (a, b, n) :: ms =>
    let s := if !own && (s.ownOff site b).isSome then s
      else
        let (s, x) := s.rtRead site a n
        if x.status = 0 then (s.rtWrite site b x.data).1 else s
    s.copyMoves site own ms

/-- A UPD_COMMIT or UPD_ABORT finds the record it names: its state is STAGED, its KIND not 2, PASS or VERSION matches. -/
def State.staged (s : State) (lg site : Nat) (c : Cmd) (pass : Nat) : State × Nat × Option CRec :=
  let a := fldN (c.word 2) 47 0
  if !s.inDir lg a || !isStackAddr a || !s.rangeIn site a 64 then (s, 12, none)
  else match s.crec site a with
    | (s, none) => (s, 16, none)
    | (s, some r) => if r.st = 2 ∧ r.kind ≠ 2 ∧ r.pass = pass then (s, 0, some r) else (s, 15, none)

/-- UPD_COMMIT: at once, or at the Open of AT (R312). -/
def execUpdCommit (lg : Nat) (s : State) : Host.Outcome State Fault Refusal :=
  .next (s.runWork lg (fun c => c.opc == 0x11) (fun s site c =>
    match s.staged lg site c (fldN (c.word 4) 47 0) with
    | (s, st, none) => some (s.cmdEnd c st 0)
    | (s, _, some r) =>
      let at_ := fldN (c.word 3) 47 0
      let u : Upd := ⟨c, fldN (c.word 2) 47 0, r.kind, 1, at_, 0, 0, true, []⟩
      if at_ = 0 then some (s.commitStart lg site u r)
      else if at_ < s.dripNo + 2 then some (s.cmdEnd c 5 0)
      else some (s.addUpd lg u)))

/-- UPD_ABORT: a STAGED record is ABORTED (Table 14.5). -/
def execUpdAbort (lg : Nat) (s : State) : Host.Outcome State Fault Refusal :=
  .next (s.runWork lg (fun c => c.opc == 0x12) (fun s site c =>
    match s.staged lg site c (fldN (c.word 4) 47 0) with
    | (s, st, none) => some (s.cmdEnd c st 0)
    | (s, _, some r) => some ((s.putCrec site (fldN (c.word 2) 47 0) { r with st := 5 }).cmdEnd c 0 0)))

/-- A commit whose drip has come begins, where its record still is STAGED. -/
def State.commitDue (s : State) (lg site : Nat) (u : Upd) : State :=
  let s := s.dropUpd lg u
  match s.crec site u.recAt with
  | (s, some r) => if r.st = 2 then s.commitStart lg site u r else s.cmdEnd u.cmd 15 0
  | (s, none) => s.cmdEnd u.cmd 16 0

/-- The Open of a drip reaches the commits that wait for it. -/
def State.updOpen (s : State) (lg : Nat) : State :=
  match s.siteOfLg lg with
  | none => s
  | some site =>
    ((s.rt lg).upds.filter (fun u => u.phase == 1 && decide (u.opensAt ≤ s.dripNo))).foldl (fun s u =>
      s.rtDo site (updKey u.cmd) u.cmd.cls (fun s => s.commitDue lg site u)) s

/-- A commit's copy: nothing while it waits for its claims (R313). -/
def State.commitCopy (s : State) (lg site : Nat) (u : Upd) : State :=
  match s.crec site u.recAt with
  | (s1, none) => (s1.dropUpd lg u).cmdEnd u.cmd 16 0
  | (s1, some r) =>
    let (s2, ms) := s1.commitMoves site r
    let got := if u.claims.isEmpty then s2.commitClaim site (s2.commitWant site ms) else some (s2, u.claims)
    match got with
    | none => s
    | some (s, cs) =>
      let s := s.copyMoves site true ms
      let s := cs.foldl (fun s e => s.retire site e false) s
      let s := s.putCrec site u.recAt { r with st := 4, copied := r.n }
      (s.dropUpd lg u).cmdEnd u.cmd 0 0

/-- COMMIT_COPY_COMPLETE: the copy of the first commit in progress is done; it waits for its claims (R313). -/
def execCommitCopyComplete (lg : Nat) (s : State) : Host.Outcome State Fault Refusal :=
  .next (
    match s.siteOfLg lg, (s.rt lg).upds.find? (fun u => u.phase == 2) with
    | some site, some u => s.rtDo site (updKey u.cmd) u.cmd.cls (fun s => s.commitCopy lg site u)
    | _, _ => s)

/-! ## Restart (R314) -/

/-- A unit of a range of stack addresses was zeroed by its chamber's reset. -/
def State.zeroedIn (s : State) (a n : Nat) : Bool :=
  isStackAddr a && (unitsOf a n).any (fun x => let p := s.stackAt x; s.zeroed.contains (unitKey p.stack p.loc))

/-- One record of the directory at a restart. -/
def State.rollOne (s : State) (lg site a : Nat) : State :=
  match s.crec site a with
  | (s, none) => s
  | (s, some r) =>
    if r.st = 1 then s.putCrec site a { r with st := 5 }
    else if r.st = 3 then
      let (s, ms) := s.commitMoves site r
      if ms.any (fun m => s.zeroedIn m.1 m.2.2) then
        (s.putCrec site a { r with st := 6 }).raise (s.recAt (s.mkRec UECHAMBER 9 18) site)
      else (s.copyMoves site (!(s.dir lg).scrubbed) ms).putCrec site a { r with st := 4, copied := r.n }
    else s

/-- ROLL_FORWARD: a restarted runtime reads its directory before it accepts commands. -/
def execRollForward (lg : Nat) (s : State) : Host.Outcome State Fault Refusal :=
  .next (
    match s.siteOfLg lg with
    | none => s
    | some site =>
      if !(s.dir lg).restart || !s.rtUp site then s
      else
        let b := (s.dir lg).base
        s.rtDo site 1000 1 (fun s =>
          let s := (List.range 64).foldl (fun s i => s.rollOne lg site (b + 64 * i)) s
          s.setDir lg { s.dir lg with restart := false, scrubbed := false }))

end Sys2Proof.Machine
end

