-- ==== Sys2Proof/Machine/Optics.lean ====
section
/-! DEFINITION. Lamps, links and gates of the optical ports (R317 to R325, R338). -/

namespace Sys2Proof.Machine

/-! ## Lamps (R318 to R320) -/

/-- States of a lamp (Table 15.20): 0 EMPTY, 1 WARMING, 2 READY, 3 FEEDING, 4 RELEASED, 5 FAILED. -/
def State.lampState (s : State) (k : Nat) : Nat := s.fld (R.LAMP_STATUS_STATE k)

/-- The spare of an engine. -/
def spareOf (e : Nat) : Nat := if e < 4 then 8 else 9

/-- Lamps that may feed an engine: its own, then its spare. -/
def lampsOf (e : Nat) : List Nat := [e, spareOf e]

/-- The lamp that feeds an engine. -/
def State.feeder (s : State) (e : Nat) : Option Nat :=
  (lampsOf e).find? (fun k => s.lampState k == 3 && s.fld (R.LAMP_STATUS_FEEDS k) == e)

/-- LIGHT of an engine's four ports: 0 own lamp, 1 spare, 2 dark. -/
def State.setLight (s : State) (e n : Nat) : State :=
  (List.range 4).foldl (fun s i => s.setFld (R.PORT_STATUS_LIGHT (4 * e + i)) n) s

/-- A lamp feeds an engine. -/
def State.feed (s : State) (k e : Nat) : State :=
  ((s.setFld (R.LAMP_STATUS_STATE k) 3).setFld (R.LAMP_STATUS_FEEDS k) e).setLight e (if k < 8 then 0 else 1)

/-- A lamp stops feeding and enters a state. -/
def State.unfeed (s : State) (k st : Nat) : State :=
  (s.setFld (R.LAMP_STATUS_STATE k) st).setFld (R.LAMP_STATUS_FEEDS k) 15

/-- An error record about a port or a lamp. -/
def State.optRec (s : State) (reg : Nat) : State := s.raise { s.mkRec CE 10 0 with reg := reg }

/-- The selected time source is lost: holdover on the local oscillator (R28). -/
def State.sourceLost (s : State) : State :=
  if s.fld R.DRIP_CTRL_SRC = 0 ∨ s.drip.lostAt.isSome then s
  else (s.withDrip { s.drip with lostAt := some s.now, timedOut := false }).setFld R.DRIP_STATUS_HOLDOVER 1

/-- Link 0 of the port that runs PTP has gone down (R326). -/
def State.ptpDown (s : State) (p : Nat) : State :=
  if s.fld R.DRIP_CTRL_SRC = 1 ∧ s.ptp.port = p then s.sourceLost else s

/-- An event that health counts (Table 20.6). -/
def State.healthEv (s : State) (key n : Nat) : State :=
  s.withFr { s.fr with events := s.fr.events.put key (s.fr.events.get key 0 + n) 0 }

/-- Every link of a port is down. -/
def State.linksDown (s : State) (p : Nat) : State :=
  let up := s.fld (R.PORT_STATUS_LINK_UP p)
  let s := s.healthEv (2 * (448 + p)) ((List.range 4).filter (fun l => bitN up l == 1)).length
  (s.setFld (R.PORT_STATUS_LINK_UP p) 0).ptpDown p

/-- An engine has lost its light: another READY lamp feeds it, or it is dark, its links are down, and each port raises
a record (R320). -/
def State.relight (s : State) (e : Nat) : State :=
  match (lampsOf e).find? (fun k => s.lampState k == 2) with
  | some k => (s.feed k e).healthEv (2 * (480 + e)) 1
  | none =>
    (List.range 4).foldl (fun s i => (s.linksDown (4 * e + i)).optRec (R.PORT_STATUS (4 * e + i)))
      (s.setLight e 2)

/-- A lamp has reached READY: it feeds its own engine, switches back from the spare, or feeds a dark engine of its
half. -/
def State.lampReady (s : State) (k : Nat) : State :=
  let s := s.setFld (R.LAMP_STATUS_STATE k) 2
  if k < 8 then
    match s.feeder k with
    | none => s.feed k k
    | some j =>
      if j = spareOf k ∧ s.fld (R.LAMP_CTRL_AUTO_RETURN k) = 1 then (s.unfeed j 2).feed k k else s
  else
    match (List.range 8).find? (fun e => spareOf e == k && s.fld (R.PORT_STATUS_LIGHT (4 * e)) == 2) with
    | some e => s.feed k e
    | none => s

/-- A feeding lamp is to be released: its engine's spare takes over, or the release is refused (R319). -/
def State.lampRelease (s : State) (k : Nat) : State × Bool :=
  let e := s.fld (R.LAMP_STATUS_FEEDS k)
  let j := spareOf e
  if j ≠ k ∧ s.lampState j = 2 then
    ((((s.unfeed k 4).setFld (R.LAMP_STATUS_POWER k) 0).feed j e).healthEv (2 * (480 + k)) 1, true)
  else ((s.setFld (R.LAMP_STATUS_REFUSED k) 1).healthEv (2 * (480 + k) + 1) 1, false)

/-- LAMP_INSERT: a cartridge enters an EMPTY slot (R317, R318). -/
def execLampInsert (k rated : Nat) (s : State) : Host.Outcome State Fault Refusal :=
  .next (if s.lampState k = 0 then (s.setFld (R.LAMP_STATUS_STATE k) 1).setLamp k ⟨rated, s.now⟩ else s)

/-- LAMP_WARMED: a warming lamp has been within 90 to 110 % of its rated power for 1 s. -/
def execLampWarmed (k power : Nat) (s : State) : Host.Outcome State Fault Refusal :=
  .next (
    let r := (s.lamp k).rated
    if s.lampState k = 1 ∧ 9 * r ≤ 10 * power ∧ 10 * power ≤ 11 * r then
      ((s.withNow (max s.now ((s.lamp k).warmAt + 1000000000))).setFld (R.LAMP_STATUS_POWER k) power).lampReady k
    else s)

/-- LAMP_WARM_TIMEOUT: 5 s have passed without that. -/
def execLampWarmTimeout (k : Nat) (s : State) : Host.Outcome State Fault Refusal :=
  .next (
    if s.lampState k = 1 then
      (((s.withNow (max s.now ((s.lamp k).warmAt + 5000000000))).setFld (R.LAMP_STATUS_STATE k) 5).optRec
        (R.LAMP_STATUS k)).healthEv (2 * (480 + k) + 1) 1
    else s)

/-- LAMP_POWER_LOW: a feeding lamp has been below 80 % of its rated power for 10 ms. -/
def execLampPowerLow (k power : Nat) (s : State) : Host.Outcome State Fault Refusal :=
  .next (
    if s.lampState k = 3 ∧ 10 * power < 8 * (s.lamp k).rated then
      ((s.setFld (R.LAMP_STATUS_POWER k) power).lampRelease k).1
    else s)

/-- LAMP_POWER_LOSS: a feeding lamp is below 50 % of its rated power, or its cartridge has been pulled out. -/
def execLampPowerLoss (k power : Nat) (removed : Bool) (s : State) : Host.Outcome State Fault Refusal :=
  .next (
    if s.lampState k = 3 ∧ (removed ∨ 2 * power < (s.lamp k).rated) then
      let e := s.fld (R.LAMP_STATUS_FEEDS k)
      let s := (s.setFld (R.LAMP_STATUS_POWER k) (if removed then 0 else power)).unfeed k (if removed then 0 else 5)
      let s := if removed then s else s.healthEv (2 * (480 + k) + 1) 1
      s.relight e
    else s)

/-- LAMP_REMOVE: the cartridge of a RELEASED or FAILED lamp is removed (log entry 28). -/
def execLampRemove (k : Nat) (s : State) : Host.Outcome State Fault Refusal :=
  .next (
    if s.lampState k = 4 ∨ s.lampState k = 5 then (s.setFld (R.LAMP_STATUS_POWER k) 0).unfeed k 0 else s)

/-- A lit lamp has a fault: FAILED, with a record. -/
def State.lampFault (s : State) (k : Nat) : State :=
  let st := s.lampState k
  if st = 1 ∨ st = 2 ∨ st = 3 then
    let e := s.fld (R.LAMP_STATUS_FEEDS k)
    let s := ((s.unfeed k 5).optRec (R.LAMP_STATUS k)).healthEv (2 * (480 + k) + 1) 1
    if st = 3 then s.relight e else s
  else s

/-- LAMP_FAULT: Lantern detects a fault of a lit lamp. -/
def execLampFault (k : Nat) (s : State) : Host.Outcome State Fault Refusal := .next (s.lampFault k)

/-- LAMP_CTRL.REPLACE is written. -/
def State.lampReplace (s : State) (k : Nat) : State :=
  if s.lampState k = 3 then
    match s.lampRelease k with
    | (s, true) => s
    | (s, false) => s.optRec (R.LAMP_STATUS k)
  else s

/-! ## Links (R321, R338) -/

/-- Links of a port in a mode. -/
def linksOf (mode : Nat) : Nat := match mode with
  | 0 => 1
  | 1 => 2
  | _ => 4

def State.linkUp (s : State) (p l : Nat) : Bool := bitN (s.fld (R.PORT_STATUS_LINK_UP p)) l == 1

/-- Data may leave a port: its links do not idle (Table 15.13). -/
def State.egressOn (s : State) (p : Nat) : Bool :=
  s.fld (R.PORT_STATUS_SILENT p) == 0 && (s.mode == .normal || s.mode == .quiesce)

/-- Priority of a class (R323). -/
def prioOf (cls : Nat) : Nat := match cls with
  | 0 => 7
  | 1 => 4
  | _ => 1

/-- A frame of a class may start on a link: link up, egress on, gate open, not paused. -/
def State.maySend (s : State) (p l cls : Nat) : Bool :=
  s.linkUp p l && s.egressOn p && bitN ((s.port p).gates.get l 7) cls == 1 &&
    (s.port p).paused.get (8 * l + prioOf cls) 0 == 0

/-- A frame leaves on a link, or waits at its egress. -/
def State.sendFrame (s : State) (p l cls : Nat) (raw : List Byte) : State :=
  if s.maySend p l cls then (s.addFld (R.PORT_TX_CNT_FRAMES p) 1).emit (.frame p l cls raw)
  else
    let x := s.port p
    s.setPort p { x with egress := x.egress ++ [(l, cls, raw)] }

/-- Frames that wait and may start leave now, Class A first (R323). -/
def State.flushEgress (s : State) (p : Nat) : State :=
  let x := s.port p
  let go (c : Nat) : List (Nat × Nat × List Byte) := x.egress.filter (fun f => f.2.1 == c && s.maySend p f.1 c)
  let out := go 0 ++ go 1 ++ go 2
  let s := s.setPort p { x with egress := x.egress.filter (fun f => !s.maySend p f.1 f.2.1) }
  out.foldl (fun s f => (s.addFld (R.PORT_TX_CNT_FRAMES p) 1).emit (.frame p f.1 f.2.1 f.2.2)) s

/-- LINK_DOWN: a link goes down by loss of light, of its fibre or of its peer. The PTP source is lost with link 0 of its
port (R326). -/
def execLinkDown (p l : Nat) (s : State) : Host.Outcome State Fault Refusal :=
  .next (
    let s := if s.linkUp p l then s.healthEv (2 * (448 + p)) 1 else s
    let s := s.setFld (R.PORT_STATUS_LINK_UP p) (clrBitN (s.fld (R.PORT_STATUS_LINK_UP p)) l)
    if l = 0 then s.ptpDown p else s)

/-- LINK_UP: a link has trained: it is enabled, its port has light, and the port's mode has it. -/
def execLinkUp (p l : Nat) (s : State) : Host.Outcome State Fault Refusal :=
  .next (
    if bitN (s.fld (R.PORT_CTRL_LINK_EN p)) l = 1 ∧ s.fld (R.PORT_STATUS_LIGHT p) ≠ 2 ∧
        l < linksOf (s.fld (R.PORT_CTRL_MODE p)) ∧ s.mode ≠ .standby ∧ s.mode ≠ .off then
      (s.setFld (R.PORT_STATUS_LINK_UP p) (setBitN (s.fld (R.PORT_STATUS_LINK_UP p)) l)).flushEgress p
    else s)

/-! ## Gates and PFC (R324, R325) -/

/-- A gate-control entry in force: gates, start and end in ns from the Open, cut at the Close. -/
def State.gateEntry (s : State) (w : Word) : Nat × Nat × Nat :=
  let per := s.fld R.DRIP_PERIOD_CUR_US
  let lo := getBits w 16 16
  (getBits w 32 3, 1000 * lo, 1000 * min (lo + getBits w 0 16) per)

/-- Entries in force of a link. -/
def State.gateEntries (s : State) (p l : Nat) : List (Nat × Nat × Nat) :=
  ((s.port p).qbv.filter (fun e => e.1 / 8 == l && getBits e.2 63 1 == 1)).map (fun e => s.gateEntry e.2)

/-- Gates open at an instant after the Open. -/
def gatesAt (es : List (Nat × Nat × Nat)) (t : Nat) : Nat :=
  match es.find? (fun e => decide (e.2.1 ≤ t) && decide (t < e.2.2)) with
  | some e => e.1
  | none => 7

/-- A link's gates are set. -/
def State.setGates (s : State) (p l g : Nat) : State :=
  let x := s.port p
  (s.setPort p { x with gates := x.gates.put l g 7 }).flushEgress p

/-- QBV_GATE_CHANGE: the next start or end of an entry in this drip: the link's gates follow. -/
def execQbvGateChange (p l : Nat) (s : State) : Host.Outcome State Fault Refusal :=
  .next (
    let es := s.gateEntries p l
    let t := s.now - s.drip.openAt
    match (es.flatMap (fun e => [e.2.1, e.2.2])).filter (fun x => decide (t < x)) with
    | [] => s
    | x :: xs =>
      let n := xs.foldl min x
      (s.withNow (s.drip.openAt + n)).setGates p l (gatesAt es n))

/-- The Open of a drip reaches a port: gate-control entries come into force, and the gates are those of its start. -/
def State.qbvOpen (s : State) (p : Nat) : State :=
  let lo := R.PORT_QBV p 0 0
  let q : SMap Word := s.csr.filterMap (fun e =>
    if lo ≤ e.1 ∧ e.1 < lo + 0x100 ∧ getBits e.2 63 1 = 1 then some ((e.1 - lo) / 8, e.2) else none)
  let s := s.setPort p { s.port p with qbv := q }
  (List.range 4).foldl (fun s l => s.setGates p l (gatesAt (s.gateEntries p l) 0)) s

/-- A frame has been received. -/
def State.rxFrame (s : State) (p : Nat) : State := s.addFld (R.PORT_RX_CNT_FRAMES p) 1
def State.rxDrop (s : State) (p : Nat) : State := s.addFld (R.PORT_RX_CNT_DROP p) 1

/-- A received frame of a transport is taken by `f`, or dropped as the module's state says (Table 15.13). -/
def State.rxData (s : State) (p l : Nat) (f : State → State) : State :=
  if !s.linkUp p l then s
  else
    let s := s.rxFrame p
    match s.mode with
    | .normal => f s
    | .refuge => s
    | _ => s.rxDrop p

/-- PFC_FRAME: a PFC frame for a priority of a link. -/
def execPfcFrame (p l prio : Nat) (pause : Bool) (s : State) : Host.Outcome State Fault Refusal :=
  .next (
    if !s.linkUp p l then s
    else
      let s := s.rxFrame p
      let on := if prio = 4 then bitN (s.fld (R.PORT_PFC_P4 p)) l == 1
        else if prio = 1 then bitN (s.fld (R.PORT_PFC_P1 p)) l == 1 else false
      if on then
        let x := s.port p
        (s.setPort p { x with paused := x.paused.put (8 * l + prio) (b2n pause) 0 }).flushEgress p
      else s.rxDrop p)

/-- CONTROL_PATH_FRAME: Neighbor Discovery, ARP and LLDP frames pass to Flowstone (R322). -/
def execControlPathFrame (p l : Nat) (raw : List Byte) (s : State) : Host.Outcome State Fault Refusal :=
  .next (
    if !s.linkUp p l then s
    else
      let s := s.rxFrame p
      if s.mode = .refuge then s else s.emit (.control p l raw))

/-- UNCLAIMED_FRAME: a frame that no transport or control path claims is dropped and counted (R322). -/
def execUnclaimedFrame (p l : Nat) (s : State) : Host.Outcome State Fault Refusal :=
  .next (if !s.linkUp p l then s else (s.rxFrame p).rxDrop p)

end Sys2Proof.Machine
end

