-- ==== Sys2Proof/Machine/Sft.lean ====
section
/-! DEFINITION. The ports' memory accesses and completions (R327 to R329), and the Sheperen Fabric Transport (R331 to
R337). What the manual leaves open of it is listed in log entry 28. -/

namespace Sys2Proof.Machine

/-! ## Memory of a chamber -/

/-- `n` bytes at a module address lie in the stacks or galleries of a chamber. -/
def State.chOwns (s : State) (ch a n : Nat) : Bool :=
  let st (x : Nat) : Bool := decide (x < 0x20000000000) && s.fld (R.MSMAP_REGION_VALID (x / 0x100000000)) == 1 &&
    s.stackChamber x == ch
  match placeOf a with
  | .stack x => st x && (n == 0 || st (x + n - 1))
  | .gal lg off => decide (off + n ≤ 0x10000000) && (match s.siteOfLg lg with
    | some d => s.chamberOf d == some ch
    | none => false)
  | _ => false

/-- The fabric node of a place. -/
def State.nodeOf (s : State) (a : Nat) : Option Nat :=
  match placeOf a with
  | .stack x => some (siteOfStack (s.stackAt x).stack)
  | .gal lg _ => s.siteOfLg lg
  | _ => none

/-- The node of a port. -/
def portNode (p : Nat) : Nat := 448 + p

/-- What a payload read gives: it waits for its master's budget, or bytes. -/
inductive PortRd where
  | wait (s : State)
  | got (s : State) (r : StackRd)

/-- A read without charge, by a unit at a node. A gallery window is translated under the epoch of its injection and counted
(R260, R261, R278). -/
def State.memRead (s : State) (node a n : Nat) : State × StackRd :=
  match placeOf a with
  | .stack x => s.stackRead x n
  | .gal lg off =>
    match s.siteOfLg lg with
    | none => (s.overrun node, ⟨1, [], false⟩)
    | some d =>
      let s := s.windowPass node d
      if s.fenced d then (s, ⟨6, [], false⟩) else s.galRead d off n
  | _ => (s, ⟨8, [], false⟩)

/-- A payload read of a request: charged to entry 48 of the gallery that holds THREAD (R328). It waits while that master
is frozen, in Seal unless it is of Class A (R23), and for the governor. Poisoned data make no frame: the send completes
STACK_UE (Table 13.3). -/
def State.portRead (s : State) (p thread cls a n : Nat) : PortRd :=
  let units := match placeOf a with
    | .stack x => unitCount x n
    | _ => 0
  let go (s : State) : PortRd :=
    let (s, r) := s.memRead (portNode p) a n
    .got s (if r.status = 0 ∧ r.poison then { r with status := 11 } else r)
  match s.siteOfLg (thread / 4096) with
  | none => if s.sealHolds cls then .wait s else go s
  | some g =>
    let m := tfeM g
    let f := flitsOf n
    let pass := match s.nodeOf a with
      | some d => (s.passageFor s.epoch d (portNode p) 48 cls).isSome
      | none => false
    if s.frozen m || s.sealHolds cls then .wait s
    else match s.charge m ⟨0, units, if pass then f else 0, if cls = 0 then f else 0⟩ with
      | .ok s => go s
      | .held s => .wait s
      | .violation c cs => .wait (s.freeze m c cs)

/-- A write without charge, by a unit at a node. -/
def State.memWrite (s : State) (node a : Nat) (bs : List Byte) : State × Nat :=
  match placeOf a with
  | .stack x => s.stackWrite x bs
  | .gal lg off =>
    match s.siteOfLg lg with
    | none => (s.overrun node, 1)
    | some d =>
      let s := s.windowPass node d
      if s.fenced d then (s, 6) else s.galPut d off bs false
  | _ => (s, 8)

/-- Class A ingress that finds no passage with ASLOTS travels as Class B (R271, R329). -/
def State.demoteRx (s : State) (p m : Nat) : State :=
  let n := portNode p
  let s := s.addFld (R.RTR_CLASSA_CNT_DEMOTED (rtrBase n)) 1
  if s.sv.demoted.contains m then s
  else
    (s.withSv { s.sv with demoted := m :: s.sv.demoted }).raise
      { s.mkRec CE 7 0 with master := idxOfM m, reg := R.RTR_CLASSA_CNT (rtrBase n) }

/-- What a receive queue answers to a write: a status of Table 11.3, or the frame must wait in its buffer. -/
inductive RxWr where
  | wait (s : State)
  | done (s : State) (status : Nat)

/-- Received data written through a receive queue (R329). It does not enter the fabric while the queue is frozen, or
freezes now, in Seal unless it is of Class A, or while the governor holds it (R23, R30, R35, R440). -/
def State.rxWrite (s : State) (p q cls ch a : Nat) (bs : List Byte) : RxWr :=
  let m := rxM p q
  if !s.chOwns ch a bs.length then .done s 9
  else if s.frozen m || s.sealHolds cls then .wait s
  else
    let f := flitsOf bs.length
    let dst := (s.nodeOf a).getD 1000
    let c : Charge := ⟨0, writeUnits a bs.length, if (s.passageFor s.epoch (portNode p) dst q cls).isSome then f else 0,
      if cls = 0 then f else 0⟩
    match s.charge m c with
    | .ok s =>
      let s := if cls = 0 ∧ !s.passageA s.epoch (portNode p) dst q then s.demoteRx p m else s
      let r := s.memWrite (portNode p) a bs
      .done r.1 r.2
    | .held s => .wait s
    | .violation cause cs => .wait (s.freeze m cause cs)

/-! ## Receive buffers (R35, R325, R329) -/

/-- Bytes of a receive queue's buffer. -/
def rxSize : Nat := 0x80000

def State.rxBuf (s : State) (p q : Nat) : List RxFrame := (s.port p).rx.get q []
def State.setRx (s : State) (p q : Nat) (fs : List RxFrame) : State :=
  s.setPort p { s.port p with rx := (s.port p).rx.put q fs [] }

/-- Bytes that frames take, of one class or of all. -/
def rxBytes (fs : List RxFrame) : Nat := (fs.map (·.size)).sum
def rxOfClass (fs : List RxFrame) (cls : Nat) : Nat := rxBytes (fs.filter (fun f => f.cls == cls))

/-- PFC of a class follows its buffers: a pause where the class fills 75 % of a queue's buffer, a release where it fills
50 % of none (R325). DESIGN CHOICE (log entry 58): the share is that of each queue. -/
def State.pfcClass (s : State) (p cls : Nat) : State :=
  let x := s.port p
  let most := x.rx.foldl (fun n e => max n (rxOfClass e.2 cls)) 0
  let on := if x.pfc.get cls 0 = 1 then decide (rxSize / 2 < most) else decide (3 * rxSize / 4 < most)
  if b2n on = x.pfc.get cls 0 then s
  else
    let mask := if cls = 1 then s.fld (R.PORT_PFC_P4 p) else s.fld (R.PORT_PFC_P1 p)
    ((List.range 4).filter (fun l => bitN mask l == 1)).foldl (fun s l => s.emit (.pfc p l (prioOf cls) on))
      (s.setPort p { x with pfc := x.pfc.put cls (b2n on) 0 })

/-- Both classes that PFC may pause. -/
def State.pfcSync (s : State) (p : Nat) : State := (s.pfcClass p 1).pfcClass p 2

/-- A frame is held in a receive queue's buffer; one beyond it is dropped, and counted in DROPS too while the queue is
frozen (Tables 2.7 and 2.24). -/
def State.rxHold (s : State) (p q : Nat) (f : RxFrame) : State :=
  if rxBytes (s.rxBuf p q) + f.size ≤ rxSize then (s.setRx p q (s.rxBuf p q ++ [f])).pfcSync p
  else (if s.frozen (rxM p q) then s.addFld (mDrops (rxM p q)) 1 else s).rxDrop p

/-! ## Completions (R328) -/

/-- A port's completion record for a thread, if its ring has room; none where it must be held. It is a Rope request from the
port's node, translated and counted as one (R261, R285). -/
def State.cqPort (s : State) (p thread tag status info : Nat) : Option State :=
  match s.siteOfLg (thread / 4096) with
  | none => some (s.overrun (portNode p))
  | some site =>
    let b := s.reg (R.CTXBLK site (thread % 4096 / 8))
    let t := getBits b 0 6
    if getBits b 15 1 = 0 then some s
    else
      let (v, s1) := s.takeFree
      let r := cplRec 1 thread (v % 2 ^ 21) tag 0 status (info % 2 ^ 48) []
      if s.fld (R.MU_CQ0_VALID site t) = 1 && !s.cqFree site t then none
      else some ((s1.windowPass (portNode p) site).cqWrite site t false r)

/-- A completion of a port: written, or held for up to 200 µs. -/
def State.portCpl (s : State) (p thread tag status info : Nat) : State :=
  match s.cqPort p thread tag status info with
  | some s => s
  | none =>
    let x := s.port p
    s.setPort p { x with held := x.held ++ [⟨thread, tag, status, info, s.now⟩] }

/-- PORT_COMPLETION_DROP: 200 µs after a completion began to wait: it is written if there is room now, else dropped and
counted. -/
def execPortCompletionDrop (p : Nat) (s : State) : Host.Outcome State Fault Refusal :=
  .next (
    let x := s.port p
    match x.held with
    | [] => s
    | h :: hs =>
      let s := (s.withNow (max s.now (h.at_ + 200000))).setPort p { x with held := hs }
      match s.cqPort p h.thread h.tag h.status h.info with
      | some s => s
      | none => (s.addFld (R.PORT_TX_CNT_CPL_DROP p) 1).optRec (R.PORT_TX_CNT p))

/-! ## Send queues (R327) -/

/-- The oldest request of a send queue, and the queue without it. -/
def State.sqHead (s : State) (p l q : Nat) : Option Wr := ((s.port p).sqs.get (64 * l + q) []).head?
def State.sqPop (s : State) (p l q : Nat) : State :=
  let x := s.port p
  s.setPort p { x with sqs := x.sqs.put (64 * l + q) (x.sqs.get (64 * l + q) []).tail [] }

/-- A port takes the oldest request of a queue whose OP is the command's; one that breaks R327 ends with NOT_OWNER. `ok`
checks its flow or queue pair; `act` says whether the request was taken, or stays because it must wait. -/
def State.takeWr (s : State) (p l q opc : Nat) (ok : State → Wr → Bool) (act : State → Wr → State × Bool) : State :=
  if s.mode ≠ .normal then s
  else match s.sqHead p l q with
    | none => s
    | some w =>
      if w.opc = 15 then (s.sqPop p l q).portCpl p w.thread w.tag 9 0
      else if w.opc ≠ opc then s
      else if !ok s w || !s.chOwns w.chamber w.src w.len then (s.sqPop p l q).portCpl p w.thread w.tag 9 0
      else match act s w with
        | (s, true) => s.sqPop p l q
        | (s, false) => s

/-! ## Frames (R331) -/

/-- CRC-32C. -/
def crcCBit (c : Nat) : Nat := if c % 2 = 1 then (c / 2) ^^^ 0x82F63B78 else c / 2
def crcCByte (c : Nat) (b : Byte) : Nat :=
  crcCBit (crcCBit (crcCBit (crcCBit (crcCBit (crcCBit (crcCBit (crcCBit (c ^^^ b.toNat))))))))
def crc32c (bs : List Byte) : Nat := (bs.foldl crcCByte 0xFFFFFFFF) ^^^ 0xFFFFFFFF

/-- The fields of an SFT header (Table 15.9). -/
structure Sft where
  type : Nat
  cls : Nat
  retx : Bool
  ackreq : Bool
  ece : Bool
  len : Nat
  dflow : Nat
  sflow : Nat
  psn : Nat
  apsn : Nat
  xfer : Nat
  frag : Nat
  addr : Nat
  total : Nat
  gen : Nat
  rgen : Nat
  status : Nat
deriving DecidableEq, Repr

/-- `n` bytes in network order. -/
def beBytes (n v : Nat) : List Byte := (leBytes n v).reverse

/-- Bytes 0 to 35 of a header. -/
def Sft.head (h : Sft) : List Byte :=
  leBytes 1 (16 + h.type) ++ leBytes 1 (h.cls * 64 + b2n h.retx * 32 + b2n h.ackreq * 16 + b2n h.ece * 8) ++
    beBytes 2 h.len ++ beBytes 2 h.dflow ++ beBytes 2 h.sflow ++ beBytes 4 h.psn ++ beBytes 4 h.apsn ++ beBytes 6 h.xfer ++
    beBytes 2 h.frag ++ beBytes 6 h.addr ++ beBytes 2 h.total ++ leBytes 1 h.gen ++ leBytes 1 h.rgen ++
    leBytes 1 h.status ++ leBytes 1 0

/-- A frame from its transport header on. -/
def Sft.frame (h : Sft) (payload : List Byte) : List Byte :=
  h.head ++ beBytes 4 (crc32c (h.head ++ [0, 0, 0, 0] ++ payload)) ++ payload

/-- The header and payload of a frame; none where CHK fails or the version is not 1. -/
def sftOf (raw : List Byte) : Option (Sft × List Byte) :=
  let f (lo n : Nat) : Nat := beNat ((raw.drop lo).take n)
  let payload := raw.drop 40
  if raw.length < 40 ∨ f 0 1 / 16 ≠ 1 ∨ f 36 4 ≠ crc32c (raw.take 36 ++ [0, 0, 0, 0] ++ payload) then none
  else some (⟨f 0 1 % 16, f 1 1 / 64, bitN (f 1 1) 5 == 1, bitN (f 1 1) 4 == 1, bitN (f 1 1) 3 == 1, f 2 2, f 4 2, f 6 2,
    f 8 4, f 12 4, f 16 6, f 22 2, f 24 6, f 30 2, f 32 1, f 33 1, f 34 1⟩, payload)

/-- PSNs compare modulo 2^32 (R332). -/
def psnLt (a b : Nat) : Bool := a != b && decide ((b + 2 ^ 32 - a) % 2 ^ 32 < 2 ^ 31)
def psnDiff (a b : Nat) : Nat := (a + 2 ^ 32 - b) % 2 ^ 32

/-! ## Flows -/

def State.flow (s : State) (p f : Nat) : FlowSt := (s.port p).flows.get f FlowSt.init
def State.setFlow (s : State) (p f : Nat) (x : FlowSt) : State :=
  s.setPort p { s.port p with flows := (s.port p).flows.put f x FlowSt.init }

/-- A flow of a direction (0 send, 1 receive) is bound. -/
def State.flowOk (s : State) (p f dir : Nat) : Bool :=
  decide (f < 2048) && s.fld (R.SFT_FLOW0_VALID p f) == 1 && s.fld (R.SFT_FLOW0_DIR p f) == dir

/-- The generations of a frame are those of the flow and its peer. -/
def State.gensOk (s : State) (p f : Nat) (h : Sft) : Bool :=
  h.gen == s.fld (R.SFT_FLOW0_PEER_GEN p f) && h.rgen == s.fld (R.SFT_FLOW0_GEN p f)

/-- A header from a flow to its peer. -/
def State.flowHdr (s : State) (p f type : Nat) : Sft :=
  ⟨type, s.fld (R.SFT_FLOW0_CLS p f), false, false, false, 0, s.fld (R.SFT_FLOW0_PEER_FLOW p f), f, 0, 0, 0, 0, 0, 0,
    s.fld (R.SFT_FLOW0_GEN p f), s.fld (R.SFT_FLOW0_PEER_GEN p f), 0⟩

/-- A frame of a flow leaves on the flow's link. -/
def State.flowSend (s : State) (p f : Nat) (h : Sft) (payload : List Byte) : State :=
  s.sendFrame p (s.fld (R.SFT_FLOW0_LINK p f)) h.cls ({ h with len := payload.length }.frame payload)

/-! ## The sender (R332, R335 to R337) -/

/-- The congestion window of a send flow. -/
def State.window (s : State) (p f : Nat) : Nat :=
  let x := s.flow p f
  if x.cwnd = 0 then s.fld (R.SFT_FLOW0_WINDOW p f) else x.cwnd

/-- RTO of a class at its first use, in ns. -/
def State.rto0 (s : State) (p cls : Nat) : Nat :=
  1000 * (match cls with
    | 0 => s.fld (R.PORT_SFT_RTO_A_US p)
    | 1 => s.fld (R.PORT_SFT_RTO_B_US p)
    | _ => s.fld (R.PORT_SFT_RTO_C_US p))

/-- Bytes of a transfer shown delivered. -/
def FlowSt.delivered (x : FlowSt) (t : Xfer) : Nat :=
  min t.wr.len (4096 * (t.sent - (x.frags.filter (fun g => g.xfer == t.id && !g.sacked)).length))

/-- A transfer ends with a status: its request completes. -/
def State.xferEnd (s : State) (p f : Nat) (t : Xfer) (status : Nat) : State :=
  let x := s.flow p f
  let n := if status = 0 then t.wr.len else x.delivered t
  (s.setFlow p f { x with xfers := x.xfers.filter (fun y => y.id != t.id), frags := x.frags.filter (fun g => g.xfer != t.id) }).portCpl
    p t.wr.thread t.wr.tag status n

/-- One fragment of a transfer is sent, or waits for its master's budget, or its read ends the transfer. -/
def State.sendFrag (s : State) (p f : Nat) (t : Xfer) (i : Nat) (retx : Bool) : Option State × State :=
  let n := min 4096 (t.wr.len - 4096 * i)
  match s.portRead p t.wr.thread t.wr.cls (t.wr.src + 4096 * i) n with
  | .wait s => (none, s)
  | .got s r =>
    if r.status ≠ 0 then (none, s.xferEnd p f t r.status)
    else
      let h := { s.flowHdr p f 0 with
        cls := t.wr.cls, retx := retx, psn := (t.firstPsn + i) % 2 ^ 32, xfer := t.id, frag := i,
        addr := (t.wr.remote + 4096 * i) % 2 ^ 48, total := t.total }
      let s := s.flowSend p f h r.data
      (some (if retx then s.addFld (R.PORT_SFT_CNT_RETX p) 1 else s), s)

/-- Fragments not sent yet leave as the window allows; Class A flows are not windowed (R336). -/
def State.pump (s : State) (p f : Nat) : Nat → State
  | 0 => s
  | n + 1 =>
    let x := s.flow p f
    match x.xfers.find? (fun t => decide (t.sent < t.total)) with
    | none => s
    | some t =>
      let out := (x.frags.filter (fun g => !g.sacked)).length
      if t.wr.cls ≠ 0 ∧ s.window p f ≤ out then s
      else match s.sendFrag p f t t.sent false with
        | (none, s) => s
        | (some s, _) =>
          let x := s.flow p f
          let g : Frag := ⟨(t.firstPsn + t.sent) % 2 ^ 32, t.id, t.sent, s.now, 1, s.rto0 p t.wr.cls, false⟩
          (s.setFlow p f { x with
            frags := x.frags ++ [g]
            xfers := x.xfers.map (fun y => if y.id = t.id then { y with sent := y.sent + 1 } else y) }).pump p f n

/-- Fragments that wait to be sent. -/
def State.unsent (s : State) (p f : Nat) : Nat := (s.flow p f).xfers.foldl (fun n t => n + (t.total - t.sent)) 0

/-- A request's flow is bound for sending, in the queue's chamber. -/
def State.sftOk (s : State) (p : Nat) (w : Wr) : Bool :=
  s.flowOk p w.flow 0 && s.fld (R.SFT_FLOW0_CHAMBER p w.flow) == w.chamber

/-- Status of a request on a DEAD or STUCK flow. -/
def State.flowDead (s : State) (p f : Nat) : Option Nat :=
  match s.fld (R.SFT_FLOW0_STATE p f) with
  | 1 => some 1
  | 2 => some 7
  | _ => none

/-- SFT_WRITE: a transfer is sent as fragments (R332). -/
def execSftWrite (p l q : Nat) (s : State) : Host.Outcome State Fault Refusal :=
  .next (s.takeWr p l q 0 (fun s w => s.sftOk p w) (fun s w =>
    match s.flowDead p w.flow with
    | some st => (s.portCpl p w.thread w.tag st 0, true)
    | none =>
      let x := s.flow p w.flow
      if 16 ≤ x.xfers.length then (s, false)
      else
        let total := max 1 (ceilDiv w.len 4096)
        let t : Xfer := ⟨x.nextXfer, w, total, x.psn, 0⟩
        let s := s.setFlow p w.flow { x with
          xfers := x.xfers ++ [t], psn := (x.psn + total) % 2 ^ 32, nextXfer := (x.nextXfer + 1) % 2 ^ 48 }
        (s.pump p w.flow (s.unsent p w.flow), true)))

/-- SFT_COMMAND: one command packet in a CMD frame; the request ends when the frame is sent. -/
def execSftCommand (p l q : Nat) (s : State) : Host.Outcome State Fault Refusal :=
  .next (s.takeWr p l q 1 (fun s w => s.sftOk p w) (fun s w =>
    match s.flowDead p w.flow with
    | some st => (s.portCpl p w.thread w.tag st 0, true)
    | none =>
      match s.portRead p w.thread w.cls w.src 64 with
      | .wait s => (s, false)
      | .got s r =>
        if r.status ≠ 0 then (s.portCpl p w.thread w.tag r.status 0, true)
        else ((s.flowSend p w.flow { s.flowHdr p w.flow 4 with cls := w.cls } r.data).portCpl p w.thread w.tag 0 64, true)))

/-- A received frame of a type is handed to `f` with its header and payload; one whose CHK fails, or of another type, is
dropped and counted (R331). -/
def State.rxSft (s : State) (p l type : Nat) (fr : Frame) (f : State → Sft → List Byte → State) : State :=
  s.rxData p l (fun s => match sftOf fr.raw with
    | some (h, b) => if h.type = type then f s h b else s.rxDrop p
    | none => s.rxDrop p)

/-- A frame for a send flow: dropped and counted where the flow is not bound or a generation differs. -/
def State.rxSender (s : State) (p l type : Nat) (fr : Frame) (f : State → Sft → List Byte → State) : State :=
  s.rxSft p l type fr (fun s h b => if s.flowOk p h.dflow 0 && s.gensOk p h.dflow h then f s h b else s.rxDrop p)

/-- The fragments of a hole with at least two later PSNs received are resent. -/
def State.resend (s : State) (p f : Nat) : List Frag → State
  | [] => s
  | g :: gs =>
    match (s.flow p f).xfers.find? (fun t => t.id == g.xfer) with
    | none => s.resend p f gs
    | some t =>
      match s.sendFrag p f t g.index true with
      | (none, s) => s.resend p f gs
      | (some s, _) =>
        let x := s.flow p f
        (s.setFlow p f { x with
          frags := x.frags.map (fun y => if y.psn = g.psn then { y with sentAt := s.now, attempts := y.attempts + 1 } else y) }).resend
          p f gs

/-- SFT_ACK: the flow advances, holes are resent, the window moves (R335, R336). A round trip is over once a fragment
that was sent after its beginning is acknowledged. -/
def execSftAck (p l : Nat) (f : Frame) (s : State) : Host.Outcome State Fault Refusal :=
  .next (s.rxSender p l 1 f (fun s h b =>
    let fl := h.dflow
    let x := s.flow p fl
    let map := beNat (b.take 8)
    let seen (g : Frag) : Bool :=
      psnLt g.psn h.apsn || (let d := psnDiff g.psn h.apsn; decide (1 ≤ d) && decide (d ≤ 64) && bitN map (d - 1) == 1)
    let fresh := x.frags.filter (fun g => seen g && !g.sacked)
    let exceed (mark : Nat) : Bool := mark == 0 || fresh.any (fun g => !psnLt g.psn (mark - 1))
    let cw := s.window p fl
    let halve := h.ece && exceed x.lastHalf
    let cw' := if halve then max 1 (cw / 2) else cw
    let acked := x.acked + fresh.length
    let (cw', acked) := if cw' ≤ acked then (min 1024 (cw' + 1), acked - cw') else (cw', acked)
    let frags := (x.frags.filter (fun g => !psnLt g.psn h.apsn)).map (fun g => if seen g then { g with sacked := true } else g)
    let holes := frags.filter (fun g => !g.sacked && decide (2 ≤ (frags.filter (fun y => y.sacked && psnLt g.psn y.psn)).length))
    let fast := !holes.isEmpty && exceed x.lastRtx
    let s := s.setFlow p fl { x with
      frags := frags, cwnd := cw', acked := acked
      lastHalf := if halve then x.psn + 1 else if exceed x.lastHalf then 0 else x.lastHalf
      lastRtx := if fast then x.psn + 1 else if exceed x.lastRtx then 0 else x.lastRtx }
    let s := if fast then s.resend p fl holes else s
    s.pump p fl (s.unsent p fl)))

/-- SFT_NACK: the transfer's request ends with the status; DEAD_DEST puts the flow in DEAD (R337). -/
def execSftNack (p l : Nat) (f : Frame) (s : State) : Host.Outcome State Fault Refusal :=
  .next (s.rxSender p l 2 f (fun s h _ =>
    let fl := h.dflow
    let s := s.addFld (R.PORT_SFT_CNT_NACK p) 1
    let s := match (s.flow p fl).xfers.find? (fun t => t.id == h.xfer) with
      | some t => s.xferEnd p fl t h.status
      | none => s
    if h.status = 1 then s.setFld (R.SFT_FLOW0_STATE p fl) 1 else s.pump p fl (s.unsent p fl)))

/-- SFT_COMPLETE: the transfer's request ends with OK. -/
def execSftComplete (p l : Nat) (f : Frame) (s : State) : Host.Outcome State Fault Refusal :=
  .next (s.rxSender p l 3 f (fun s h _ =>
    match (s.flow p h.dflow).xfers.find? (fun t => t.id == h.xfer) with
    | some t => let s := s.xferEnd p h.dflow t 0; s.pump p h.dflow (s.unsent p h.dflow)
    | none => s))

/-- SFT_RTO_EXPIRY: a fragment has gone unacknowledged for its RTO (R335). -/
def execSftRtoExpiry (p fl psn : Nat) (s : State) : Host.Outcome State Fault Refusal :=
  .next (
    let x := s.flow p fl
    match x.frags.find? (fun g => g.psn == psn && !g.sacked) with
    | none => s
    | some g =>
      let s := s.withNow (max s.now (g.sentAt + g.rto))
      if 8 ≤ g.attempts then
        x.xfers.foldl (fun s t => s.xferEnd p fl t 7) (s.setFld (R.SFT_FLOW0_STATE p fl) 2)
      else
        let x := { x with frags := x.frags.map (fun y => if y.psn = psn then { y with rto := 2 * y.rto } else y) }
        (s.setFlow p fl x).resend p fl [g])

/-! ## The receiver (R333, R334) -/

/-- An ACK of a receive flow is sent. DESIGN CHOICE (log entry 58): the 8 B SACK bitmap goes in network byte order, which
the manual gives for header fields only. -/
def State.sftAckOut (s : State) (p f : Nat) : State :=
  let x := s.flow p f
  let map := (List.range 64).foldl (fun m j => if x.got.contains ((x.expect + 1 + j) % 2 ^ 32) then setBitN m j else m) 0
  (s.setFlow p f { x with since := none, unacked := 0, ece := false }).flowSend p f
    { s.flowHdr p f 1 with apsn := x.expect, ece := x.ece } (beBytes 8 map)

/-- A NACK that answers a frame. -/
def State.sftNackOut (s : State) (p l : Nat) (h : Sft) (status : Nat) : State :=
  let gen := if h.dflow < 2048 then s.fld (R.SFT_FLOW0_GEN p h.dflow) else 0
  let x := if h.dflow < 2048 then (s.flow p h.dflow).expect else 0
  s.sendFrame p l h.cls (Sft.frame ⟨2, h.cls, false, false, false, 0, h.sflow, h.dflow, 0, x, h.xfer, h.frag, 0, h.total,
    gen, h.gen, status⟩ [])

/-- The next PSN expected moves past those received. -/
def advPsn : Nat → Nat → List Nat → Nat × List Nat
  | 0, e, got => (e, got)
  | n + 1, e, got => if got.contains e then advPsn n ((e + 1) % 2 ^ 32) (got.erase e) else (e, got)

/-- A PSN of a flow has been received. -/
def State.psnGot (s : State) (p f psn : Nat) (ce : Bool) : State :=
  let x := s.flow p f
  let got := x.got ++ [psn]
  let (e, got) := advPsn got.length x.expect got
  s.setFlow p f { x with
    expect := e, got := got, unacked := x.unacked + 1, ece := x.ece || ce, since := some (x.since.getD s.now) }

/-- A fragment of a transfer has been written; the last one sends COMPLETE and writes the flow's completion record. -/
def State.fragDone (s : State) (p f : Nat) (h : Sft) (n : Nat) : State :=
  let x := s.flow p f
  let r : RxXfer := (x.rx.find? (fun r => r.id == h.xfer)).getD ⟨h.xfer, h.total, 0, 0⟩
  let r : RxXfer := { r with count := r.count + 1, bytes := r.bytes + n }
  let rest := x.rx.filter (fun y => y.id != h.xfer)
  if r.count < r.total then s.setFlow p f { x with rx := rest ++ [r] }
  else
    let s := s.setFlow p f { x with rx := rest }
    let s := s.flowSend p f { s.flowHdr p f 3 with apsn := x.expect, xfer := h.xfer, total := h.total } []
    let t := s.fld (R.SFT_FLOW2_TARGET p f)
    s.portCpl p (fldN t 44 24) (fldN t 63 48) 0 r.bytes

/-- What the taking of a frame answers: it is taken, or it must wait in the buffer of its queue. -/
inductive RxRes where
  | done (s : State)
  | wait (s : State)

/-- A DATA frame is judged by the checks of Table 15.11, in order, and written. -/
def State.sftDataTake (s : State) (p l : Nat) (f : Frame) (h : Sft) (b : List Byte) : RxRes :=
  let fl := h.dflow
  let ch := s.fld (R.SFT_FLOW0_CHAMBER p fl)
  let resetting := decide (fl < 2048) && s.fld (R.SFT_FLOW0_DIR p fl) == 1 && s.fld (R.FR_CHAMBER_STATE ch) == 2
  if resetting then .done (s.sftNackOut p l h 6)
  else if !s.flowOk p fl 1 || !s.gensOk p fl h then .done (s.sftNackOut p l h 1)
  else if s.fld (R.SFT_FLOW2_TARGET p fl) % 2 ^ 24 * 4096 < h.addr + b.length then .done (s.sftNackOut p l h 9)
  else
    let x := s.flow p fl
    let s := if f.ce then s.setFlow p fl { x with ece := true } else s
    if 1024 ≤ psnDiff h.psn x.expect then .done (s.rxDrop p)
    else if x.got.contains h.psn then .done ((s.rxDrop p).sftAckOut p fl)
    else
      match s.rxWrite p (s.fld (R.SFT_FLOW0_RXQ p fl)) (s.fld (R.SFT_FLOW0_CLS p fl)) ch
          (s.fld (R.SFT_FLOW1_BASE p fl) + h.addr) b with
      | .wait s => .wait s
      | .done s st =>
        let ooo := decide (h.psn ≠ x.expect)
        let s := s.psnGot p fl h.psn f.ce
        let s := if ooo || h.ackreq || decide (8 ≤ (s.flow p fl).unacked) then s.sftAckOut p fl else s
        .done (if st ≠ 0 then s.sftNackOut p l h st else s.fragDone p fl h b.length)

/-- SFT_ACK_TIMER: 2 µs have passed since the first unacknowledged arrival. -/
def execSftAckTimer (p fl : Nat) (s : State) : Host.Outcome State Fault Refusal :=
  .next (
    match (s.flow p fl).since with
    | some t => if s.flowOk p fl 1 then (s.withNow (max s.now (t + 2000))).sftAckOut p fl else s
    | none => s)

/-- SFT_CMD: a command packet goes to the network command queue bound to the flow (R331); one that no queue takes is
dropped and counted. -/
def execSftCmd (p l : Nat) (f : Frame) (s : State) : Host.Outcome State Fault Refusal :=
  .next (s.rxSft p l 4 f (fun s h b =>
    if !s.flowOk p h.dflow 1 || !s.gensOk p h.dflow h || b.length ≠ 64 then s.rxDrop p
    else match List.find? (fun q => q.2.port == p && q.2.flow == h.dflow) s.host.netqs with
      | some (k, n) =>
        (s.withHost { s.host with netqs := s.host.netqs.map (fun q =>
          if q.1 = k then (k, { n with packets := n.packets ++ [b] }) else q) })
      | none => s.rxDrop p))

end Sys2Proof.Machine
end

