-- ==== Sys2Proof/Machine/Roce.lean ====
section
/-! DEFINITION. The RoCEv2 subset (R330): queue pairs, go-back-N, memory regions, congestion notification. The form of a
frame in the output list is the model's (log entry 28): kind, peer, PSN, payload; header fields are in network order (R5). Kinds: 0 SEND, 1 RDMA WRITE, 2 READ
request, 3 READ response, 4 ACK, 5 PSN sequence NAK, 6 remote access error NAK, 7 invalid request NAK, 8 RNR NAK, 9 CNP. -/

namespace Sys2Proof.Machine

/-- Packets of a message: its PSNs are consecutive modulo 2^24. -/
def QpSt.packets (x : QpSt) (len : Nat) : Nat := max 1 (ceilDiv len x.mtu)
def psn24 (n : Nat) : Nat := n % 2 ^ 24
def psnSub (a b : Nat) : Nat := (a % 2 ^ 24 + 2 ^ 24 - b % 2 ^ 24) % 2 ^ 24

def State.qp (s : State) (p q : Nat) : Option QpSt := (s.port p).qps.find? q
def State.setQp (s : State) (p q : Nat) (x : QpSt) : State :=
  s.setPort p { s.port p with qps := (s.port p).qps.ins q x }

/-- A frame of a queue pair leaves on its link. -/
def State.roceSend (s : State) (p : Nat) (x : QpSt) (kind psn : Nat) (body : List Byte) : State :=
  s.sendFrame p x.link x.cls (leBytes 1 kind ++ beBytes 3 x.peer ++ beBytes 3 psn ++ body)

/-- The address part of an RDMA request. -/
def rethOf (w : Wr) : List Byte := beBytes 8 w.remote ++ beBytes 4 w.rkey ++ beBytes 4 w.len

/-- A request leaves its queue pair with a status. -/
def State.qpEnd (s : State) (p q : Nat) (r : QpReq) (status n : Nat) : State :=
  match s.qp p q with
  | none => s
  | some x => (s.setQp p q { x with reqs := x.reqs.filter (fun y => y.psn != r.psn) }).portCpl p r.wr.thread r.wr.tag status n

/-- The queue pair fails: each request ends with a status. -/
def State.qpFail (s : State) (p q status : Nat) : State :=
  match s.qp p q with
  | none => s
  | some x => x.reqs.foldl (fun s r => s.qpEnd p q r status 0) (s.setQp p q { x with failed := true })

/-- Packets not sent yet leave; the first that must wait for its master's budget stops them. -/
def State.qpPump (s : State) (p q : Nat) : Nat → State
  | 0 => s
  | n + 1 =>
    match s.qp p q with
    | none => s
    | some x =>
      match x.reqs.find? (fun r => decide (r.sent < r.npkt)) with
      | none => s
      | some r =>
        let went (s : State) (k : Nat) : State :=
          match s.qp p q with
          | none => s
          | some x => s.setQp p q { x with
              reqs := x.reqs.map (fun y => if y.psn = r.psn then { y with sent := y.sent + k } else y), sentAt := s.now }
        if r.wr.opc = 4 then (went (s.roceSend p x 2 r.psn (rethOf r.wr)) r.npkt).qpPump p q n
        else
          let len := min x.mtu (r.wr.len - x.mtu * r.sent)
          match s.portRead p r.wr.thread r.wr.cls (r.wr.src + x.mtu * r.sent) len with
          | .wait s => s
          | .got s d =>
            if d.status ≠ 0 then (s.qpEnd p q r d.status 0).qpPump p q n
            else
              let head := if r.wr.opc = 3 ∧ r.sent = 0 then rethOf r.wr else []
              (went (s.roceSend p x (if r.wr.opc = 3 then 1 else 0) (psn24 (r.psn + r.sent)) (head ++ d.data)) 1).qpPump p q n

/-- Packets that wait to be sent. -/
def QpSt.unsent (x : QpSt) : Nat := x.reqs.foldl (fun n r => n + (r.npkt - r.sent)) 0
def State.qpGo (s : State) (p q : Nat) : State :=
  match s.qp p q with
  | none => s
  | some x => s.qpPump p q x.unsent

/-- A request's queue pair exists, in the queue's chamber. -/
def State.qpOk (s : State) (p : Nat) (w : Wr) : Bool :=
  match s.qp p w.flow with
  | some x => decide (w.flow < 128) && x.chamber == w.chamber
  | none => false

/-- A request joins its queue pair and is sent; at most 16 reads are outstanding. -/
def State.qpPost (s : State) (p : Nat) (w : Wr) : State × Bool :=
  match s.qp p w.flow with
  | none => (s, false)
  | some x =>
    if x.failed then (s.portCpl p w.thread w.tag 7 0, true)
    else if w.opc = 4 ∧ 16 ≤ (x.reqs.filter (fun r => r.wr.opc == 4)).length then (s, false)
    else
      let n := x.packets w.len
      ((s.setQp p w.flow { x with reqs := x.reqs ++ [⟨x.psn, n, w, 0⟩], psn := psn24 (x.psn + n) }).qpGo p w.flow, true)

/-- ROCE_SEND: a work request with OP 2. -/
def execRoceSend (p l q : Nat) (s : State) : Host.Outcome State Fault Refusal :=
  .next (s.takeWr p l q 2 (fun s w => s.qpOk p w) (fun s w => s.qpPost p w))

/-- RDMA_WRITE: a work request with OP 3. -/
def execRdmaWrite (p l q : Nat) (s : State) : Host.Outcome State Fault Refusal :=
  .next (s.takeWr p l q 3 (fun s w => s.qpOk p w) (fun s w => s.qpPost p w))

/-- RDMA_READ: a work request with OP 4. -/
def execRdmaRead (p l q : Nat) (s : State) : Host.Outcome State Fault Refusal :=
  .next (s.takeWr p l q 4 (fun s w => s.qpOk p w) (fun s w => s.qpPost p w))

/-! ## Receiving -/

/-- A message for a queue pair: dropped and counted where the ICRC fails or there is no such pair. ECN-CE asks for a CNP,
at most one per pair and 50 µs. -/
def State.rxRoce (s : State) (p l : Nat) (m : Roce) (f : State → QpSt → State) : State :=
  s.rxData p l (fun s =>
    match s.qp p m.qp with
    | none => s.rxDrop p
    | some x =>
      if !m.icrcOk || x.failed then s.rxDrop p
      else
        let due := match x.cnpAt with
          | some t => decide (t + 50000 ≤ s.now)
          | none => true
        if m.ce && due then
          let x := { x with cnpAt := some s.now }
          f ((s.setQp p m.qp x).roceSend p x 9 0 []) x
        else f s x)

/-- A request in PSN order is acted on; one ahead is a sequence error; one behind has been seen. -/
def State.inOrder (s : State) (p : Nat) (x : QpSt) (m : Roce) (now : State → RxRes) (again : State → State) : RxRes :=
  if m.psn = x.expect then now s
  else if psnSub m.psn x.expect < 2 ^ 23 then .done ((s.rxDrop p).roceSend p x 5 x.expect [])
  else .done (again (s.rxDrop p))

/-- A message of `len` bytes has been taken: the next PSN expected, and the ACK of its last packet. -/
def State.roceTaken (s : State) (p q len : Nat) (ack : Bool) : State :=
  match s.qp p q with
  | none => s
  | some x =>
    let e := psn24 (x.expect + x.packets len)
    let s := s.setQp p q { x with expect := e }
    if ack then s.roceSend p x 4 (psnSub e 1) [] else s

/-- The ACK of a message already taken. -/
def State.roceAgain (s : State) (p : Nat) (x : QpSt) : State := s.roceSend p x 4 (psnSub x.expect 1) []

/-- Where an RDMA access of `len` bytes at a virtual address lies, if its key allows it. -/
def State.mrAt (s : State) (x : QpSt) (rkey va len : Nat) : Option Nat :=
  match s.mrs.find? rkey with
  | none => none
  | some r => if r.chamber = x.chamber ∧ r.va ≤ va ∧ va + len ≤ r.va + r.len then some (r.base + (va - r.va)) else none

/-- A SEND goes into the next 4 KiB slot of the receive ring and gives a completion record. -/
def State.roceSendTake (s : State) (p : Nat) (x : QpSt) (m : Roce) : RxRes :=
  s.inOrder p x m (fun s =>
    if 4096 < m.len then .done (s.roceSend p x 7 m.psn [])
    else if x.ringSlots = 0 then .done (s.roceSend p x 8 m.psn [])
    else match s.rxWrite p x.rxq x.cls x.chamber (x.ringBase + 4096 * (x.ringWr % x.ringSlots)) (m.payload.take m.len) with
      | .wait s => .wait s
      | .done s st =>
        if st ≠ 0 then .done (s.roceSend p x 6 m.psn [])
        else
          let s := s.setQp p m.qp { x with ringWr := x.ringWr + 1 }
          .done ((s.roceTaken p m.qp m.len true).portCpl p x.thread x.tag 0 m.len)) (fun s => s.roceAgain p x)

/-- A WRITE is checked against its region and written; with an immediate it gives a completion record. -/
def State.rdmaWriteTake (s : State) (p : Nat) (x : QpSt) (m : Roce) : RxRes :=
  s.inOrder p x m (fun s =>
    match s.mrAt x m.rkey m.va m.len with
    | none => .done (s.roceSend p x 6 m.psn [])
    | some a =>
      match s.rxWrite p x.rxq x.cls x.chamber a (m.payload.take m.len) with
      | .wait s => .wait s
      | .done s st =>
        if st ≠ 0 then .done (s.roceSend p x 6 m.psn [])
        else
          let s := s.roceTaken p m.qp m.len true
          .done (if m.imm.isSome then s.portCpl p x.thread x.tag 0 m.len else s)) (fun s => s.roceAgain p x)

/-- The data of a READ request are sent as response packets. -/
def State.readAnswer (s : State) (p : Nat) (x : QpSt) (m : Roce) : Option State :=
  match s.mrAt x m.rkey m.va m.len with
  | none => none
  | some a =>
    let (s, r) := s.memRead (portNode p) a m.len
    if r.status ≠ 0 || r.poison || !s.chOwns x.chamber a m.len then none
    else some ((List.range (x.packets m.len)).foldl (fun s i =>
      s.roceSend p x 3 (psn24 (m.psn + i)) ((r.data.drop (x.mtu * i)).take x.mtu)) s)

/-- A READ request is checked and answered; one already answered is answered again. -/
def State.rdmaReadTake (s : State) (p : Nat) (x : QpSt) (m : Roce) : RxRes :=
  s.inOrder p x m
    (fun s => match s.readAnswer p x m with
      | some s => .done (s.roceTaken p m.qp m.len false)
      | none => .done (s.roceSend p x 6 m.psn []))
    (fun s => (s.readAnswer p x m).getD (s.roceSend p x 6 m.psn []))

/-- Requests before a PSN are acknowledged, up to the first READ, which only its response ends. -/
def State.ackUpTo (s : State) (p q psn : Nat) : List QpReq → State
  | [] => s
  | r :: rs =>
    if r.wr.opc = 4 ∨ ¬ psnSub psn (psn24 (r.psn + r.npkt)) < 2 ^ 23 then s
    else (s.qpEnd p q r 0 r.wr.len).ackUpTo p q psn rs

/-- Progress: retries start anew, and the acknowledgement timer runs from now. -/
def State.qpProgress (s : State) (p q : Nat) : State :=
  match s.qp p q with
  | none => s
  | some x => (s.setQp p q { x with tries := 0, rnrTries := 0, sentAt := s.now }).qpGo p q

/-- The response to a READ is written to its local destination; it acknowledges what was sent before it. -/
def State.readResponseTake (s : State) (p : Nat) (x : QpSt) (m : Roce) : RxRes :=
  let s := s.ackUpTo p m.qp m.psn x.reqs
  match x.reqs.find? (fun r => r.wr.opc == 4 && r.psn == m.psn) with
  | none => .done (s.rxDrop p)
  | some r =>
    if m.payload.length ≠ r.wr.len || (s.qp p m.qp).any (fun y => y.reqs.head?.any (fun h => h.psn != r.psn)) then
      .done (s.rxDrop p)
    else match s.rxWrite p x.rxq r.wr.cls x.chamber r.wr.src m.payload with
      | .wait s => .wait s
      | .done s st => .done ((s.qpEnd p m.qp r st (if st = 0 then r.wr.len else 0)).qpProgress p m.qp)

/-- Go-back-N: everything from a PSN on is sent again. -/
def State.goBack (s : State) (p q psn : Nat) : State :=
  match s.qp p q with
  | none => s
  | some x =>
    let back (r : QpReq) : QpReq :=
      let d := psnSub psn r.psn
      if d < r.npkt then { r with sent := if r.wr.opc = 4 then 0 else min r.sent d }
      else if d < 2 ^ 23 then r else { r with sent := 0 }
    (s.setQp p q { x with reqs := x.reqs.map back }).qpGo p q

/-- ROCE_ACK_RECEIVE: an ACK ends what it covers; an RNR or sequence NAK goes back to its PSN, within the retry counts;
any other NAK ends its request with NOT_OWNER, and the pair fails. -/
def execRoceAckReceive (p l : Nat) (m : Roce) (s : State) : Host.Outcome State Fault Refusal :=
  .next (s.rxRoce p l { m with ce := false } (fun s x =>
    if m.syn = 0 then (s.ackUpTo p m.qp (psn24 (m.psn + 1)) x.reqs).qpProgress p m.qp
    else
      let s := s.ackUpTo p m.qp m.psn x.reqs
      match s.qp p m.qp with
      | none => s
      | some x =>
        if m.syn = 1 then
          if x.rnrMax ≤ x.rnrTries then s.qpFail p m.qp 7
          else (s.setQp p m.qp { x with rnrTries := x.rnrTries + 1 }).goBack p m.qp m.psn
        else if m.syn = 2 then
          if x.retryMax ≤ x.tries then s.qpFail p m.qp 7
          else (s.setQp p m.qp { x with tries := x.tries + 1 }).goBack p m.qp m.psn
        else
          match x.reqs.find? (fun r => decide (psnSub m.psn r.psn < r.npkt)) with
          | some r => (s.qpEnd p m.qp r 9 0).qpFail p m.qp 7
          | none => s))

/-- ROCE_ACK_TIMEOUT: 4.096 µs × 2^TIMEOUT have passed without progress: the oldest request and all after it are sent
again, or the pair fails with TIMEOUT. -/
def execRoceAckTimeout (p qp : Nat) (s : State) : Host.Outcome State Fault Refusal :=
  .next (
    match s.qp p qp with
    | none => s
    | some x =>
      match x.reqs with
      | [] => s
      | r :: _ =>
        let s := s.withNow (max s.now (x.sentAt + 4096 * 2 ^ x.timeout))
        if x.retryMax ≤ x.tries then s.qpFail p qp 7
        else (s.setQp p qp { x with tries := x.tries + 1, sentAt := s.now }).goBack p qp r.psn)

/-- The full rate of a link in the units of QpSt.rate. -/
def fullRate : Nat := 2 ^ 20

/-- CNP_RECEIVE: the pair's rate is halved. -/
def execCnpReceive (p qp : Nat) (s : State) : Host.Outcome State Fault Refusal :=
  .next (
    match s.qp p qp with
    | none => s
    | some x => s.setQp p qp { x with rate := x.rate / 2, rateAt := s.now })

/-- ROCE_RATE_INCREASE: 55 µs have passed since the last change: the rate is raised by 5 %, to the full rate at most. -/
def execRoceRateIncrease (p qp : Nat) (s : State) : Host.Outcome State Fault Refusal :=
  .next (
    match s.qp p qp with
    | none => s
    | some x =>
      if fullRate ≤ x.rate then s
      else
        let t := max s.now (x.rateAt + 55000)
        (s.withNow t).setQp p qp { x with rate := min fullRate (ceilDiv (x.rate * 21) 20), rateAt := t })

end Sys2Proof.Machine
end

