-- ==== Sys2Proof/Machine/PortRx.lean ====
section
/-! DEFINITION. Frames through the receive queues of a port (R23, R29, R35, R325, R329): a frame whose write cannot enter
the fabric waits in its queue's buffer, and those behind it wait too; what waits is taken in order once the queue may
inject again: at an Open, at a thaw, at the next arrival. -/

namespace Sys2Proof.Machine

/-- The queue pair of a message, if it takes messages. -/
def State.rocePair (s : State) (p : Nat) (m : Roce) : Option QpSt := (s.qp p m.qp).filter (fun x => !x.failed)

/-- A message is taken by its queue pair, or dropped where there is none now. -/
def State.roceTake (s : State) (p : Nat) (m : Roce) (f : State → QpSt → RxRes) : RxRes :=
  match s.rocePair p m with
  | some x => f s x
  | none => .done (s.rxDrop p)

/-- A frame at the front of its queue is taken. -/
def State.rxTake (s : State) (p : Nat) (i : Arrival) : RxRes :=
  match i with
  | .sftData l f => match sftOf f.raw with
    | some (h, b) => s.sftDataTake p l f h b
    | none => .done (s.rxDrop p)
  | .roceSend m => s.roceTake p m (fun s x => s.roceSendTake p x m)
  | .rdmaWrite m => s.roceTake p m (fun s x => s.rdmaWriteTake p x m)
  | .rdmaRead m => s.roceTake p m (fun s x => s.rdmaReadTake p x m)
  | .readResponse m => s.roceTake p m (fun s x => s.readResponseTake p x m)

/-- Frames of a queue are taken in order, up to the first that must wait. -/
def State.rxReplay (s : State) (p q : Nat) : List RxFrame → State
  | [] => s
  | f :: fs =>
    match s.rxTake p f.arrival with
    | .done s => s.rxReplay p q fs
    | .wait s => s.setRx p q (f :: fs)

/-- A queue's buffer is emptied as far as it may be. Out of NORMAL its frames are dropped and counted (Table 15.13). -/
def State.rxDrain (s : State) (p q : Nat) : State :=
  match s.rxBuf p q with
  | [] => s
  | fs =>
    let s := s.setRx p q []
    (if s.mode = .normal then s.rxReplay p q fs else fs.foldl (fun s _ => s.rxDrop p) s).pfcSync p

/-- A master thaws; a receive queue takes the frames it holds. -/
def State.thawRx (s : State) (m : Nat) : State :=
  let s := s.thaw m
  if 0x200002000000 ≤ m ∧ m < 0x20000A000000 then s.rxDrain (portOfM m) (idxOfM m) else s

/-- Every queue of a port. -/
def State.rxDrainPort (s : State) (p : Nat) : State := ((s.port p).rx.map (·.1)).foldl (fun s q => s.rxDrain p q) s

/-- A frame arrives for a queue: it is taken, or joins those that wait. -/
def State.rxArrive (s : State) (p q : Nat) (f : RxFrame) : State :=
  let s := s.rxDrain p q
  if (s.rxBuf p q).isEmpty then
    match s.rxTake p f.arrival with
    | .done s => s
    | .wait s => s.rxHold p q f
  else s.rxHold p q f

/-- SFT_DATA: a fragment arrives (Table 15.11), for the receive queue of its flow. -/
def execSftData (p l : Nat) (f : Frame) (s : State) : Host.Outcome State Fault Refusal :=
  .next (s.rxSft p l 0 f (fun s h b =>
    let fl := h.dflow
    if s.flowOk p fl 1 && s.gensOk p fl h then
      s.rxArrive p (s.fld (R.SFT_FLOW0_RXQ p fl)) ⟨s.fld (R.SFT_FLOW0_CLS p fl), f.raw.length, .sftData l f⟩
    else match s.sftDataTake p l f h b with
      | .done s => s
      | .wait s => s))

/-- A RoCEv2 message for a queue pair arrives for the pair's receive queue. -/
def State.roceArrive (s : State) (p : Nat) (x : QpSt) (m : Roce) (i : Arrival) : State :=
  s.rxArrive p x.rxq ⟨x.cls, m.payload.length, i⟩

/-- ROCE_SEND_RECEIVE: a SEND arrives. -/
def execRoceSendReceive (p l : Nat) (m : Roce) (s : State) : Host.Outcome State Fault Refusal :=
  .next (s.rxRoce p l m (fun s x => s.roceArrive p x m (.roceSend m)))

/-- RDMA_WRITE_RECEIVE: a WRITE arrives. -/
def execRdmaWriteReceive (p l : Nat) (m : Roce) (s : State) : Host.Outcome State Fault Refusal :=
  .next (s.rxRoce p l m (fun s x => s.roceArrive p x m (.rdmaWrite m)))

/-- RDMA_READ_REQUEST_RECEIVE: a READ request arrives; it is answered after what its queue holds. -/
def execRdmaReadRequestReceive (p l : Nat) (m : Roce) (s : State) : Host.Outcome State Fault Refusal :=
  .next (s.rxRoce p l m (fun s x => s.roceArrive p x m (.rdmaRead m)))

/-- RDMA_READ_RESPONSE_RECEIVE: the response to a READ arrives. -/
def execRdmaReadResponseReceive (p l : Nat) (m : Roce) (s : State) : Host.Outcome State Fault Refusal :=
  .next (s.rxRoce p l m (fun s x => s.roceArrive p x m (.readResponse m)))

end Sys2Proof.Machine
end

