-- ==== Sys2Proof/Machine/Slices.lean ====
section
/-! DEFINITION. Gallery memory's own commands (R61, R67, R68, R75 to R81): the map of a group, the power of slices, cache
mode, the move of claims, the hand-over scrub. An operation that answers none is a write that is discarded. -/

namespace Sys2Proof.Machine

/-! ## Power (R78, R79, Table 4.3) -/

/-- Some but not all slices of an interleaved group are named. -/
def State.splitsGroup (s : State) (site mask : Nat) : Bool :=
  (List.range 8).any (fun g => bitN (s.fld (R.GM_GROUP_ILV_ILV site)) g == 1 &&
    fldN mask (4 * g + 3) (4 * g) != 0 && fldN mask (4 * g + 3) (4 * g) != 15)

/-- Every cached line is dropped: a change of the set of cache slices moves the place of each (log entry 14). -/
def State.cacheDrop (s : State) (site : Nat) : State := s.setGm site { s.gm site with cache := [] }

/-- A slice is asked to power down. CLOSE lasts one clock: the model passes it within the request (log entry 21). -/
def State.sliceOff (s : State) (site k : Nat) : State :=
  let st := s.slice site k
  let drain (s : State) : State :=
    let g := s.gm site
    (s.setSlice site k 4).setGm site { g with drainAt := g.drainAt.ins k s.now }
  match st with
  | 2 => drain s
  | 5 => (drain (s.cacheDrop site)).setFld (R.GM_CACHE_STATUS_CUR site) (clrBitN (s.fld (R.GM_CACHE_STATUS_CUR site)) k)
  | 1 => s.setGm site { s.gm site with heldOff := setBitN (s.gm site).heldOff k }
  | _ => s

/-- A slice is asked to power up. -/
def State.sliceOn (s : State) (site k : Nat) : State :=
  match s.slice site k with
  | 0 => s.setSlice site k 1
  | 3 => s.setGm site { s.gm site with heldOn := setBitN (s.gm site).heldOn k }
  | 4 => s.setGm site { s.gm site with heldOn := setBitN (s.gm site).heldOn k }
  | _ => s

/-- A power request acts on the slices of a mask. -/
def State.pwrAct (s : State) (site : Nat) (on : Bool) (mask : Nat) : State :=
  (List.range 32).foldl (fun s k =>
    if bitN mask k = 0 then s else if on then s.sliceOn site k else s.sliceOff site k) s

/-- GM_PWR_OFF_REQ or GM_PWR_ON_REQ is written: held during a hand-over. -/
def State.pwrReq (s : State) (site : Nat) (on : Bool) (mask : Nat) : Option State :=
  if s.splitsGroup site mask then none
  else if s.fld (R.GM_SCRUB_STATE site) ≠ 0 then
    some (s.setGm site { s.gm site with held := (s.gm site).held ++ [(on, mask)] })
  else some (s.pwrAct site on mask)

/-- A slice is OFF; an on request that it holds is acted on. Its contents are lost: the fill of WAKE zeroes them. -/
def State.sliceDead (s : State) (site k : Nat) : State :=
  let g := s.gm site
  let held := bitN g.heldOn k
  (s.setGm site { g with heldOn := clrBitN g.heldOn k, drainAt := g.drainAt.erase k }).setSlice site k held

/-- SLICE_DRAIN_COMPLETE: the pending-write counter of a draining slice reads zero. -/
def execSliceDrainComplete (site slice : Nat) (s : State) : Host.Outcome State Fault Refusal :=
  .next (if s.slice site slice = 4 then s.sliceDead site slice else s)

/-- An operation of a gallery has an uncommitted write: it ends BANK_CLOSED (Tables 4.3 and 4.4). -/
def State.opClosed (s : State) (site op : Nat) : State :=
  match (s.cur site).item with
  | some i => if i.kind.op = op then s.itemStop site i 2 1 5 else s.descFail site op 4
  | none => s.descFail site op 4

/-- A context of a gallery has an uncommitted write: its slice-closed fault. -/
def State.ctxClosed (s : State) (site c : Nat) : State :=
  if c < 4096 ∧ (s.ctx (site * 4096 + c)).st ≠ .free then s.ctxFault (site * 4096 + c) 6 else s

/-- SLICE_DRAIN_TIMEOUT: 1 µs has passed in DRAIN and the counter is not zero: what writes there ends. -/
def execSliceDrainTimeout (site : Nat) (cut : DrainCut) (s : State) : Host.Outcome State Fault Refusal :=
  .next (
    if s.slice site cut.slice = 4 then
      let s := (s.withNow (max s.now ((s.gm site).drainAt.get cut.slice 0 + 1000))).sliceDead site cut.slice
      let s := cut.ctxs.foldl (fun s c => s.ctxClosed site c) (cut.late.foldl (fun s op => s.opClosed site op) s)
      let s := s.setFld (R.GM_ERR_STATUS_DRAIN_TIMEOUT site) 1
      s.raise { s.recAt (s.mkRec UECHAMBER 5 0) site with reg := R.GM_ERR_STATUS site }
    else s)

/-- SLICE_WAKE_COMPLETE: the zero fill of a waking slice is complete; an off request that it holds is acted on. -/
def execSliceWakeComplete (site slice : Nat) (s : State) : Host.Outcome State Fault Refusal :=
  .next (
    if s.slice site slice = 1 then
      let s := (s.zeroSlice site slice).setSlice site slice 2
      let g := s.gm site
      if bitN g.heldOff slice = 1 then (s.setGm site { g with heldOff := clrBitN g.heldOff slice }).sliceOff site slice
      else s
    else s)

/-! ## The map of a group (R61) -/

/-- GM_GROUP_ILV is written: the new map, and whether some group's change is discarded. -/
def State.ilvWrite (s : State) (site v : Nat) : State × Bool :=
  let old := s.fld (R.GM_GROUP_ILV_ILV site)
  let off (g : Nat) : Bool := (List.range 4).all (fun i => s.slice site (4 * g + i) == 0)
  let new := (List.range 8).foldl (fun n g => if off g && bitN v g == 1 || !off g && bitN old g == 1 then setBitN n g else n) 0
  (s.setFld (R.GM_GROUP_ILV_ILV site) new, new != v % 256)

/-! ## Cache mode (R75 to R77) -/

/-- GM_CACHE_CTRL.INV is written. -/
def State.cacheInv (s : State) (site : Nat) : State := (s.cacheDrop site).setFld (R.GM_CACHE_CTRL_INV_BUSY site) 1

/-- CACHE_INVALIDATE_COMPLETE: the invalidation is complete. -/
def execCacheInvalidateComplete (site : Nat) (s : State) : Host.Outcome State Fault Refusal :=
  .next (s.setFld (R.GM_CACHE_CTRL_INV_BUSY site) 0)

/-- A scoreboard claim overlaps a slice's offsets. -/
def State.sliceClaimed (s : State) (site k : Nat) : Bool :=
  (s.claimList site).any (fun p => s.sliceHit site k (64 * getBits p.2 0 22) (64 * getBits p.2 32 22))

/-- GM_CACHE_NEXT may take a value: at most 8 slices, none in an interleaved group. -/
def State.cacheNextOk (s : State) (site mask : Nat) : Bool :=
  decide (((List.range 32).filter (fun k => bitN mask k == 1)).length ≤ 8) &&
    (List.range 32).all (fun k => bitN mask k == 0 || bitN (s.fld (R.GM_GROUP_ILV_ILV site)) (k / 4) == 0)

/-- A slice may enter cache mode now: its group is linear and fewer than 8 slices are in it (R75). -/
def State.cacheRoom (s : State) (site k : Nat) : Bool :=
  bitN (s.fld (R.GM_GROUP_ILV_ILV site)) (k / 4) == 0 &&
    decide (((List.range 32).filter (fun i => s.slice site i == 5)).length < 8)

/-- One slice at an Open: it switches into or out of cache mode, or its switch is deferred. -/
def State.cacheSwitch (s : State) (site k : Nat) : State :=
  let want := bitN (s.fld (R.GM_CACHE_NEXT_SLICES site)) k == 1
  let st := s.slice site k
  let pend (on : Bool) (s : State) : State :=
    let p := s.fld (R.GM_CACHE_STATUS_PEND site)
    s.setFld (R.GM_CACHE_STATUS_PEND site) (if on then setBitN p k else clrBitN p k)
  let cur (on : Bool) (s : State) : State :=
    let c := s.fld (R.GM_CACHE_STATUS_CUR site)
    s.setFld (R.GM_CACHE_STATUS_CUR site) (if on then setBitN c k else clrBitN c k)
  if want = (st == 5) then pend false s
  else if (st = 2 ∨ st = 5) ∧ !s.sliceClaimed site k ∧ (!want || s.cacheRoom site k) then
    let s := pend false (s.cacheDrop site)
    if want then cur true (s.setSlice site k 5) else cur false (s.setSlice site k 1)
  else pend true s

/-- The Open of a drip reaches the cache slices of a gallery: those that leave cache mode first, then those that enter. -/
def State.cacheOpen (s : State) (site : Nat) : State :=
  if s.fld (R.GM_CACHE_NEXT_SLICES site) = 0 ∧ s.fld (R.GM_CACHE_STATUS_CUR site) = 0 ∧
      s.fld (R.GM_CACHE_STATUS_PEND site) = 0 then s
  else ((List.range 32).filter (fun k => s.slice site k == 5) ++ (List.range 32).filter (fun k => s.slice site k != 5)).foldl
    (fun s k => s.cacheSwitch site k) s

/-! ## Claims moved with their task (R68) -/

/-- GM_SB_MOVE1 is written with GO = 1. -/
def State.sbMove (s : State) (site : Nat) (v : Word) : Option State :=
  let op := getBits v 62 1
  let t := getBits v 56 6
  let upto := getBits v 0 19
  let from_ := s.fld (R.GM_SB_MOVE0_FROM site)
  let lo := 8 * from_
  let hi := lo + 8 * s.fld (R.GM_SB_MOVE0_LEN site)
  let mine := (s.claimList site).filter (fun p => getBits p.2 60 1 == 1 && getBits p.2 54 6 == t)
  let b (p : Nat × Word) : Nat := getBits p.2 0 22
  let e (p : Nat × Word) : Nat := getBits p.2 0 22 + getBits p.2 32 22
  let inside (p : Nat × Word) : Bool := decide (lo ≤ b p) && decide (e p ≤ hi) && decide (lo < hi)
  let partly (p : Nat × Word) : Bool := decide (lo < hi) && decide (b p < hi) && decide (lo < e p) && !inside p
  let moved := mine.filter (fun p => inside p && (op == 0 || getBits p.2 22 1 == 1))
  let rebase (p : Nat × Word) : Nat := (b p + 8 * upto + 2 ^ 22 - 8 * from_ % 2 ^ 22) % 2 ^ 22
  if !s.frozen (taskM site t) || mine.any partly then none
  else if op = 1 && moved.any (fun p => decide (cellsEnd / 64 < rebase p + getBits p.2 32 22)) then none
  else some (moved.foldl (fun s p =>
    let w := if op = 0 then putBits p.2 22 1 1 else putBits (putBits p.2 22 1 0) 0 22 (rebase p)
    s.setReg (R.GM_SB_ENTRY site p.1) w) s)

/-! ## The hand-over scrub (R80, R81) -/

/-- Power requests held through a hand-over are acted on. -/
def State.actHeld (s : State) (site : Nat) : State :=
  let h := (s.gm site).held
  h.foldl (fun s p => s.pwrAct site p.1 p.2) (s.setGm site { s.gm site with held := [] })

/-- A scrub ends: clean, or with a word that read back non-zero. -/
def State.scrubEnd (s : State) (site : Nat) (clean : Bool) : State :=
  if s.fld (R.GM_SCRUB_STATE site) ≠ 2 then s
  else
    let s := (s.scrubZero site).setFld (R.GM_SCRUB_PROGRESS site) 20480
    if clean then ((s.setFld (R.GM_SCRUB_STATE site) 0).boardClear site).actHeld site
    else
      let s := (s.setFld (R.GM_SCRUB_VERIFY_FAIL site) 1).setFld (R.GM_SCRUB_STATE site) 1
      let s := (s.setFld (R.TR_LADDER_SUSPECT site) 1).setFld (R.TR_LADDER_WATCH_LEFT site) (s.fld R.TRM_CTRL_WATCH_DRIPS)
      s.raise { s.recAt (s.mkRec UECHAMBER 5 0) site with reg := R.GM_SCRUB site }

end Sys2Proof.Machine
end

