-- ==== Sys2Proof/Machine/Host.lean ====
section
/-! DEFINITION. The host interface (chapter 16): command queues and the fetch of commands (R174 to R177, R345, R346), BAR2
(R342, R343), the PCI Express link (R340, R348), MSI-X (R347), and the sending of error records (R351 to R353, R479). -/

namespace Sys2Proof.Machine

/-! ## Command queues (Table 16.2) -/

/-- HQ word 0 is written with VALID = 1: the queue runs, with its counters at zero, unless it runs already. -/
def State.hqStart (s : State) (q : Nat) : State :=
  let st := s.fld (R.HQ3_STATE q)
  if st = 0 ∨ (st = 3 ∧ s.hostOpen) then
    (s.setReg (R.HQ3 q) 0).setFld (R.HQ3_STATE q) (if s.frozen (hqM q) then 2 else 1)
  else s

/-- HQ word 0 is written with VALID = 0. -/
def State.hqStop (s : State) (q : Nat) : State := s.setFld (R.HQ3_STATE q) 0

/-- A doorbell is accepted in RUN and FROZEN. -/
def State.bellOk (s : State) (q : Nat) : Bool := s.fld (R.HQ3_STATE q) == 1 || s.fld (R.HQ3_STATE q) == 2

/-- Commands are fetched: in BOOT after Ready, or in NORMAL (R177, Table 16.2). -/
def State.fetchOn (s : State) : Bool := s.mode == .normal || (s.mode == .boot && s.fld R.BRG_STATUS_READY == 1)

/-- The chamber of a queue is being reset: it stops fetching (Table 20.3). -/
def State.chBusy (s : State) (c : Nat) : Bool := s.fld (R.FR_CHAMBER_STATE c) == 2

/-- A record of a refused command: source 9, the status as its code. -/
def State.cmdRec (s : State) (cls : Nat) (c : Cmd) (status : Nat) : State :=
  let r := { s.mkRec cls 9 status with chamber := some c.chamber, master := c.queue % 64 }
  s.raise (match s.siteOfLg c.lg with
    | some site => { s.recAt r site with chamber := some c.chamber }
    | none => r)

/-- Bytes `lo` to `hi - 1` of a packet are zero. -/
def Cmd.zeros (c : Cmd) (lo hi : Nat) : Bool := ((c.raw.drop lo).take (hi - lo)).all (fun b => b == 0)

/-- The opcode is not reserved, and reserved fields and unused operand bytes are zero (R175, R302). -/
def Cmd.formOk (c : Cmd) : Bool :=
  let w := c.word
  let top (i : Nat) : Bool := fldN (w i) 63 48 == 0
  fldN (w 0) 34 32 == 0 && fldN (w 0) 15 0 == 0 && c.cls != 3 && (match c.opc with
    | 0x01 => top 2 && top 3 && top 4 && bitN (w 4) 0 == 0 && c.zeros 44 64
    | 0x02 => top 2 && bitN (w 2) 0 == 0 && top 3 && c.zeros 32 64
    | 0x03 => top 2 && top 3 && fldN (w 4) 63 40 == 0 && c.zeros 40 64
    | 0x04 => top 2 && bitN (w 2) 0 == 0 && decide (w 3 ≤ 2) && c.zeros 32 64
    | 0x10 => c.zeros 56 64
    | 0x11 => c.zeros 40 64
    | 0x12 => c.zeros 40 64
    | 0x13 => c.zeros 56 64
    | 0x20 => top 2 && c.zeros 36 64
    | 0x30 => c.zeros 19 24 && top 3 && top 4 && c.zeros 40 64
    | _ => false)

/-- An address operand of `n` bytes lies in the chamber, where it names memory that a chamber owns. -/
def State.operandOk (s : State) (ch a n : Nat) : Bool :=
  match placeOf a with
  | .stack _ => s.chOwns ch a n
  | .gal _ _ => s.chOwns ch a n
  | _ => true

/-- Address operands of a command lie in its chamber; the update group and the relayed commands are checked where they
run. -/
def State.operandsOk (s : State) (c : Cmd) : Bool :=
  let a (i : Nat) : Nat := fldN (c.word i) 47 0
  match c.opc with
  | 0x01 => s.operandOk c.chamber (a 2) (leAt c.raw 40 4)
  | 0x03 => s.operandOk c.chamber (a 2) (fldN (c.word 4) 39 0) && s.operandOk c.chamber (a 3) (fldN (c.word 4) 39 0)
  | 0x20 => s.operandOk c.chamber (a 2) (leAt c.raw 24 4)
  | _ => true

/-- The service die's checks of a packet (R176), then its way to the runtime. A logical gallery is its chamber's as the
profile maps it (R366); one of the queue's chamber that is on no site has no runtime. The lowest check that fails decides:
MEMBER, LG, ownership, form (log entry 29). -/
def State.cmdTake (s : State) (c : Cmd) : State :=
  let fail (s : State) (cls status : Nat) : State := (s.cmdRec cls c status).cmdEnd c status 0
  if c.member ≠ 9 then fail s UETASK 2
  else if 384 ≤ c.lg then fail s CE 3
  else match s.siteOfLg c.lg with
    | none => if prChOf s.sec.profile c.lg = some c.chamber then s.cmdEnd c 9 0 else fail s CE 4
    | some site =>
      if s.chamberOf site ≠ some c.chamber || !s.operandsOk c then fail s CE 4
      else if !c.formOk then s.cmdEnd c 1 0
      else
        let r := s.rt c.lg
        s.setRt c.lg { r with cmds := r.cmds ++ [c] }

/-- COMMAND_FETCH of a host queue: the oldest packet is fetched, if Table 16.2 lets it. A packet with FENCE = 1 stays until
nothing of its queue is in progress; one of Class B or C is not fetched in Seal (R23). A Class A command is charged one Class A slot (log entry 29). -/
def State.hqFetch (s : State) (q : Nat) : State :=
  let cons := s.fld (R.HQ3_CONS q)
  let used := (s.fld (R.HQ3_CWR q) + 0x10000 - s.fld (R.HQ2_CRD q)) % 0x10000 + s.fld (R.HQ3_INFLIGHT q)
  let ch := s.fld (R.HQ0_CHAMBER q)
  if s.fld (R.HQ3_STATE q) ≠ 1 || s.fld (R.HQ2_PROD q) == cons || decide (2 ^ s.fld (R.HQ1_CSIZE_LOG2 q) ≤ used) ||
      !s.fetchOn || !s.hostOpen || s.chBusy ch then s
  else
    let at_ := hostKey (s.fld (R.HQ0_HADDR q) * 4096 + 64 * (cons % 2 ^ s.fld (R.HQ0_SIZE_LOG2 q)))
    let c : Cmd := ⟨s.rdBytes at_ 64, q, ch⟩
    if (c.fence && s.fld (R.HQ3_INFLIGHT q) != 0) || s.sealHolds c.cls then s
    else match s.charge (hqM q) ⟨0, 0, 0, if c.cls = 0 then 1 else 0⟩ with
      | .ok s => ((s.bumpFld (R.HQ3_CONS q) 1).setFld (R.HQ3_INFLIGHT q) (s.fld (R.HQ3_INFLIGHT q) + 1)).cmdTake c
      | .held s => s
      | .violation cause causes => s.freeze (hqM q) cause causes

/-- A command of a queue is in progress. -/
def State.queueBusy (s : State) (q : Nat) : Bool :=
  s.rts.any (fun p => p.2.all.any (fun c => c.queue == q)) || s.tfes.any (fun p =>
    (p.2.queue ++ p.2.active).any (fun d => d.cmd.any (fun c => c.queue == q))) ||
    s.tst.reqs.any (fun t => t.cmd.queue == q) || s.sv.reqs.any (fun c => c.queue == q)

/-- COMMAND_FETCH of a network queue. -/
def State.nqFetch (s : State) (n : Nat) : State :=
  match s.host.netqs.find? n with
  | none => s
  | some x =>
    match x.packets with
    | [] => s
    | b :: bs =>
      let c : Cmd := ⟨b, 64 + n, x.chamber⟩
      if !s.fetchOn || s.chBusy x.chamber || (c.fence && s.queueBusy (64 + n)) || s.sealHolds c.cls then s
      else (s.withHost { s.host with netqs := s.host.netqs.ins n { x with packets := bs } }).cmdTake c

/-- COMMAND_FETCH: queue `q` fetches a packet; 64 + n is network queue n. -/
def execCommandFetch (q : Nat) (s : State) : Host.Outcome State Fault Refusal :=
  .next (if q < 64 then s.hqFetch q else s.nqFetch (q - 64))

/-! ## BAR2 (R342, R343, R69, Tables 4.4 and 13.3) -/

/-- BAR2 accepts accesses. -/
def State.bar2On (s : State) : Bool :=
  s.pcieUp && s.fld R.HIF_STATUS_DEGRADED == 0 && s.fld R.HIF_BAR2_VALID == 1 && s.fld R.HIF_CTRL_BAR2_EN == 1

/-- The record of a refused BAR2 access: the address and the status in DETAIL. -/
def State.bar2Rec (s : State) (a status : Nat) : State :=
  s.raise { s.mkRec CE 11 0 with reg := R.HIF_BAR2, detail := leBytes 8 a ++ leBytes 1 status }

/-- Where a BAR2 access goes, and what the chamber check says of it: a status of Table 11.3. -/
def State.bar2Check (s : State) (off n : Nat) : Nat × Nat :=
  let a := s.fld R.HIF_BAR2_BASE * 0x1000000000 + off
  let st := match placeOf a with
    | .stack _ => if s.chOwns (s.fld R.HIF_BAR2_CHAMBER) a n then 0 else 9
    | .gal lg o => if cellsEnd < o + n ∨ (s.siteOfLg lg).isNone then 8 else if s.chOwns (s.fld R.HIF_BAR2_CHAMBER) a n then 0 else 9
    | _ => 8
  (a, st)

/-- BAR2_READ: `len` bytes, or Completer Abort, or a poisoned completion. -/
def execBar2Read (off len : Nat) (s : State) : Host.Outcome State Fault Refusal :=
  .next (
    if !s.bar2On then s.emit (.hostRead [] true false)
    else
      let (a, st) := s.bar2Check off len
      if st ≠ 0 then (s.bar2Rec a st).emit (.hostRead [] true false)
      else
        let (s, r) := s.memRead svcNode a len
        if r.status = 11 then s.emit (.hostRead [] false true)
        else if r.status ≠ 0 then (s.bar2Rec a r.status).emit (.hostRead [] true false)
        else s.emit (.hostRead r.data false r.poison))

/-- BAR2_WRITE: a posted write, performed or discarded with a record. -/
def execBar2Write (off : Nat) (data : List Byte) (s : State) : Host.Outcome State Fault Refusal :=
  .next (
    if !s.bar2On then s
    else
      let (a, st) := s.bar2Check off data.length
      if st ≠ 0 then s.bar2Rec a st
      else
        let (s, st) := s.memWrite svcNode a data
        if st = 0 then s else s.bar2Rec a st)

/-! ## The link (R340, R348) -/

/-- Every queue that runs is STOPPED; pending messages are discarded; a record. -/
def State.hostDown (s : State) : State :=
  let s := (List.range 64).foldl (fun s q => if s.bellOk q then s.setFld (R.HQ3_STATE q) 3 else s) s
  let s := s.withHost { s.host with pendVec := [], coal := [], busMaster := false }
  s.ce 11

/-- The link is down. -/
def State.linkLost (s : State) : State := (s.setFld R.HIF_STATUS_SPEED 0).setFld R.HIF_STATUS_WIDTH 0

/-- SURPRISE_DOWN: the Data Link Layer goes down without a prior D3hot. -/
def execSurpriseDown (s : State) : Host.Outcome State Fault Refusal :=
  .next (if s.pcieUp then (s.setFld R.HIF_STATUS_SURPRISE_DOWN 1).linkLost.hostDown else s)

/-- The HIF block is reset: what the profile sets and the module state stay, and queues that ran stay STOPPED with their
counts (log entry 29). -/
def State.hifReset (s : State) : State :=
  let ctrl := s.reg R.HIF_CTRL
  let q3 := (List.range 64).map (fun q => s.reg (R.HQ3 q))
  let st := s.fld R.HIF_STATUS_MODSTATE
  let s := s.clearRange R.HIF_CTRL (R.HQ0 64)
  let s := (s.setReg R.HIF_CTRL (ctrl &&& 0xC)).setFld R.HIF_STATUS_MODSTATE st
  (q3.zipIdx).foldl (fun s p => s.setReg (R.HQ3 p.2) p.1) s

/-- PERST_N_ASSERT: the PCI Express controller and the HIF block are reset. -/
def execPerstNAssert (s : State) : Host.Outcome State Fault Refusal :=
  .next (
    let s := s.linkLost.hostDown.hifReset
    (s.withHost { s.host with perst := true, unmasked := [] }))

/-- PERST_N_DEASSERT: the link may train again. -/
def execPerstNDeassert (s : State) : Host.Outcome State Fault Refusal :=
  .next (s.withHost { s.host with perst := false })

/-- D3HOT_ENTRY: the function leaves D0. -/
def execD3hotEntry (s : State) : Host.Outcome State Fault Refusal :=
  .next (if s.pcieUp then s.hostDown else s)

/-- PCIE_LINK_UP: the link trains, in BOOT only after step 3 (R469); `speed` 0 stands for a rate below 16 GT/s, which
enables BAR0 only. The host enables Bus
Master with it (log entry 29). -/
def execPcieLinkUp (speed width : Nat) (s : State) : Host.Outcome State Fault Refusal :=
  .next (
    if s.host.perst || !s.svcUp || (s.mode == .boot && s.fld R.BRG_STATUS_STEP == 3) then s
    else
      let s := ((s.setFld R.HIF_STATUS_SPEED speed).setFld R.HIF_STATUS_WIDTH width).setFld R.HIF_STATUS_DEGRADED (b2n (speed == 0))
      (s.withHost { s.host with busMaster := speed != 0 }))

/-! ## MSI-X (R347) -/

/-- MSIX_COALESCE_EXPIRY: the coalescing time of a vector is over. -/
def execMsixCoalesceExpiry (vec : Nat) (s : State) : Host.Outcome State Fault Refusal :=
  .next (
    match s.host.coal.get vec 0 with
    | 0 => s
    | t + 1 => ((s.withNow (max s.now t)).withHost { s.host with coal := s.host.coal.erase vec }).fireVector vec 0)

/-- MSIX_UNMASK: a vector is unmasked; a message that waits is sent. -/
def execMsixUnmask (vec : Nat) (s : State) : Host.Outcome State Fault Refusal :=
  .next (
    let p := s.host.pendVec.get vec 0
    let s := s.withHost { s.host with unmasked := s.host.unmasked.put vec 1 0, pendVec := s.host.pendVec.erase vec }
    if p = 1 then s.emit (.msix vec) else s)

/-! ## Error records (R351 to R353, R479) -/

/-- RECORD_SEND: the waiting record with the lowest SEQ goes to the collector, and to each event subscription (R355). -/
def execRecordSend (s : State) : Host.Outcome State Fault Refusal :=
  .next (
    if s.fld R.MGMT_STATUS_LINK_UP = 0 ∨ s.fld R.MGMT_CTRL_ENABLE = 0 ∨ !s.svcUp then s
    else match s.host.held with
      | [] => s
      | q :: qs =>
        let n := qs.foldl min q
        let held := s.host.held.erase n
        let s := (s.withHost { s.host with held := held }).setFld R.MGMT_STATUS_HELD (min held.length 0xFFFF)
        match s.host.store.find? (fun r => r.seq == n) with
        | some r => s.host.subs.foldl (fun s x => s.emit (.redfish x.1 [r.seq])) (s.emit (.record r))
        | none => s)

/-- FOLD_WINDOW_EXPIRY: the folding window `k` ends. -/
def execFoldWindowExpiry (k : Nat) (s : State) : Host.Outcome State Fault Refusal :=
  .next (
    match s.host.folds[k]? with
    | some w => (s.withNow (max s.now w.endAt)).endFold w
    | none => s)

/-- MGMT_LINK_UP: the management port's physical link comes up. -/
def execMgmtLinkUp (s : State) : Host.Outcome State Fault Refusal :=
  .next ((s.withHost { s.host with phyUp := true }).setFld R.MGMT_STATUS_LINK_UP (b2n s.svcUp))

/-- MGMT_LINK_DOWN: it goes down. -/
def execMgmtLinkDown (s : State) : Host.Outcome State Fault Refusal :=
  .next ((s.withHost { s.host with phyUp := false }).setFld R.MGMT_STATUS_LINK_UP 0)

end Sys2Proof.Machine
end

