-- ==== Sys2Proof/Machine/Profile.lean ====
section
/-! DEFINITION. Profile records (R367, Tables 17.8 and 17.9), their check, their selection (R368), and the fields that take
effect at BOOT and at a chamber-scope apply (R369); the suspect ladder's limits (R402) and the clock step in force
(R404). -/

namespace Sys2Proof.Machine

/-! ## The record -/

/-- The record in a profile slot: as written, or as the factory left it (log entry 10). -/
def State.profRec (s : State) (slot : Nat) : List Byte :=
  match s.sec.slots.find? slot with
  | some r => r
  | none => Config.factoryProfile slot

/-! ## The check (R367) -/

/-- The public key under which profile records must verify: the owner's once installed, else Keapel's. -/
def State.profKey (s : State) : Nat :=
  if s.fld R.LCP_STATUS_OWNER_KEY = 1 then leNat (s.sec.keys.get 0 []) else Config.keapelKey 0

/-- No two of a list of bitmaps share a bit. -/
def disjointMaps : List Nat → Bool
  | [] => true
  | m :: ms => ms.all (fun x => x &&& m == 0) && disjointMaps ms

/-- Units of a valid region entry: (first stack, last stack, first unit, last unit). -/
def regionUnits (v : Nat) : Nat × Nat × Nat × Nat :=
  let b := fldN v 8 0
  if fldN v 62 61 < 2 then (0, 31, b, b) else (fldN v 60 56, fldN v 60 56, b, b + 31)

/-- Two region entries use a unit in common. -/
def regionsMeet (v w : Nat) : Bool :=
  let (a, b, c, d) := regionUnits v
  let (e, f, g, h) := regionUnits w
  bitN v 63 == 1 && bitN w 63 == 1 && decide (a ≤ f) && decide (e ≤ b) && decide (c ≤ h) && decide (g ≤ d)

/-- A region entry in itself: a LOCAL entry's base is at most 480, and mode 3 is reserved. -/
def regionForm (v : Nat) : Bool :=
  bitN v 63 == 0 || (fldN v 62 61 != 3 && (decide (fldN v 62 61 < 2) || decide (fldN v 8 0 ≤ 480)))

/-- No two entries of a table meet. -/
def regionsApart : List Nat → Bool
  | [] => true
  | v :: vs => vs.all (fun w => !regionsMeet v w) && regionsApart vs

/-- An interleaved group of a logical gallery's slices is powered as one (R78). -/
def State.sramOk (s : State) (r : List Byte) (lg : Nat) : Bool :=
  match s.siteOfLg lg with
  | none => true
  | some site => (List.range 8).all (fun g =>
      bitN (s.fld (R.GM_GROUP_ILV_ILV site)) g == 0 || (let n := prSram r lg / 16 ^ g % 16; n == 0 || n == 15))

/-- A record passes every check of R367. -/
def State.profOk (s : State) (r : List Byte) : Bool :=
  let regions := (List.range 512).map (prRegion r)
  let chs := (List.range 16).filter (prChValid r)
  r.length == 8192 && leAt r 0 1 == 9 && decide (leAt r 1 1 ≤ 3) &&
    Config.ecdsaVerify s.profKey (Config.sha384 (r.take 7168)) (leAt r 0x1C00 96) &&
    decide (50 ≤ prPeriod r) && decide (100 ≤ prCap r) && decide (prCap r ≤ 1200) && decide (prClk r ≤ 2) &&
    (List.range 16).all (fun d => decide (-4 ≤ prVolt r d) && decide (prVolt r d ≤ 6)) &&
    (List.range 32).all (fun p => prPort r p != 3) && chs.all (fun c => decide (prMaxC r c ≤ 2)) &&
    disjointMaps (chs.map (prMap r)) && regions.all regionForm && regionsApart regions &&
    regions.all (fun v => bitN v 63 == 0 || prChValid r (fldN v 55 52)) &&
    (List.range 384).all (s.sramOk r)

/-! ## Measurements (R362) -/

/-- A measurement register is extended: M ← SHA-384(M ‖ digest). -/
def State.extend (s : State) (i digest : Nat) : State :=
  let m := s.sec.meas.get i (List.replicate 48 0)
  s.withSec { s.sec with meas := s.sec.meas.ins i (leBytes 48 (Config.sha384 (m ++ leBytes 48 digest))) }

/-! ## Clock and voltage (R402, R404, Table 21.3) -/

/-- The governor's clock step of a level. -/
def govStep (level : Nat) : Nat := if level < 3 then 0 else if level < 5 then 1 else 2

/-- Limits of the ladder of a site: those of its chamber. -/
def State.ladderLimits (s : State) (site : Nat) : Nat × Nat :=
  match s.chamberOf site with
  | some c => (prMaxV s.sec.cProfile c, prMaxC s.sec.cProfile c)
  | none => (0, 0)

/-- The voltage step and the clock step of a rung. -/
def rungSteps (maxV maxC r : Nat) : Nat × Nat := (min r maxV, min (r - maxV) maxC)

/-- The clock step in force at a site: the largest of the profile's base, the ladder's, the governor's and the die's. -/
def State.clkStep (s : State) (site : Nat) : Nat :=
  let (v, c) := s.ladderLimits site
  let lad := (rungSteps v c (s.fld (R.TR_LADDER_RUNG site))).2
  max (max (prClk s.sec.profile) lad) (max (govStep (s.fld R.PWR_STATUS_LEVEL)) (s.fld (R.PWR_DIE_STEP (dieOf site))))

/-- Sites whose gallery is powered: GAL_STATUS holds something. -/
def State.liveSites (s : State) : List Nat :=
  s.csr.filterMap (fun p =>
    if 0x200010000000 ≤ p.1 ∧ p.1 < 0x20002C000000 ∧ p.1 = R.GAL_STATUS (siteAt p.1) then some (siteAt p.1) else none)

/-- The clock steps of every gallery as they stand at an Open. -/
def State.setClocks (s : State) : State :=
  s.liveSites.foldl (fun s site => s.setFld (R.GAL_STATUS_CLK_STEP site) (s.clkStep site)) s

/-- The ladder of a site is set to a rung; the voltage follows at once, the clock at the next Open. -/
def State.setRung (s : State) (site r : Nat) : State :=
  let (v, c) := s.ladderLimits site
  (s.setFld (R.TR_LADDER_RUNG site) r).setFld (R.GAL_STATUS_VOLT_STEP site) (rungSteps v c r).1

/-- The ladder's TOP follows the limits of the site's chamber; a rung above it moves down to it (R369, Table 19.4). -/
def State.setTop (s : State) (site : Nat) : State :=
  let (v, c) := s.ladderLimits site
  let s := s.setFld (R.TR_LADDER_TOP site) (v + c)
  s.setRung site (min (s.fld (R.TR_LADDER_RUNG site)) (v + c))

/-! ## Chamber scope (R369) -/

/-- The containment bits of a record. -/
def containOf (r : List Byte) : Nat := (List.range 16).foldl (fun n c => n + prT6 r c * b2n (prChValid r c) * 2 ^ c) 0

/-- The slices of a gallery are asked ON or OFF as the power map says (R78). -/
def State.sramReq (s : State) (r : List Byte) (lg site : Nat) : State :=
  let want := prSram r lg
  let s := match s.pwrReq site true want with
    | some s => s
    | none => s.ceAt 5 site
  match s.pwrReq site false (0xFFFFFFFF - want) with
  | some s => s
  | none => s.ceAt 5 site

/-- The C fields of the record in `cProfile` take effect for one chamber. -/
def State.applyCh (s : State) (c : Nat) : State :=
  let r := s.sec.cProfile
  let s := s.withFr { s.fr with contain := if prT6 r c = 1 then setBitN s.fr.contain c else clrBitN s.fr.contain c }
  let s := (s.chGals c).foldl (fun s g => s.sramReq r g.1 g.2) s
  (s.chSites c).foldl (fun s site => s.setTop site) s

/-- The chamber-scope apply of a profile at its Open: every valid chamber, one in reset at the first Open after its reset
ends. -/
def State.applyScope (s : State) (prof : Nat) : State :=
  let r := s.profRec prof
  if !s.profOk r then (s.ce 14).setFld R.PROF_STATUS_CH_PEND 0
  else
    let s := s.withSec { s.sec with cProfile := r }
    let s := ((s.setFld R.PROF_STATUS_CH_SRC prof).setFld R.PROF_STATUS_CH_PEND 0).extend 5 (Config.sha384 r)
    (List.range 16).foldl (fun s c =>
      if s.fld (R.FR_CHAMBER_STATE c) = 2 then
        s.withSec { s.sec with applyLate := s.sec.applyLate ++ [c] }
      else if prChValid r c then s.applyCh c else s) s

/-- MSMAP_CONTAIN takes the C fields of a record in the drip before its apply (R296, R369). -/
def State.applyContain (s : State) (prof : Nat) : State := s.setFld R.MSMAP_CONTAIN_T6 (containOf (s.profRec prof))

/-- SET_PROFILE (R369): the profile becomes pending; with `now` the apply is armed for the Open of the current drip + 2, if
the record passes and its chambers and regions are those in force. The answer says whether it was accepted. -/
def State.setProfile (s : State) (prof : Nat) (now : Bool) : State × Bool :=
  let pend (s : State) : State := (s.setFld R.PROF_STATUS_PENDING prof).setFld R.PROF_STATUS_PEND_VALID 1
  if !now then (pend s, true)
  else
    let r := s.profRec prof
    let old := s.sec.profile
    let same := (List.range 16).all (fun c => prChValid r c == prChValid old c && prMap r c == prMap old c) &&
      (List.range 512).all (fun n => prRegion r n == prRegion old n)
    if !s.profOk r || !same then (s, false)
    else
      (((pend s).setFld R.PROF_STATUS_CH_PEND 1).withSec { s.sec with apply := some (prof, s.dripNo + 2) }, true)

/-! ## Selection and the fields of the module (R368) -/

/-- The profile that an entry to BOOT uses: the pending one, at a cold boot the pins, else the one in force; P0 where its
record fails. None where P0 fails too. -/
def State.selectProfile (s : State) (cold : Bool) : State × Option Nat :=
  let want := if s.fld R.PROF_STATUS_PEND_VALID = 1 then s.fld R.PROF_STATUS_PENDING
    else if cold then s.fld R.PROF_STATUS_PINS else s.fld R.PROF_STATUS_IN_FORCE
  let s := (s.setFld R.PROF_STATUS_PEND_VALID 0).setFld R.PROF_STATUS_PENDING 0
  if s.profOk (s.profRec want) then (s.setFld R.PROF_STATUS_FALLBACK 0, some want)
  else
    let s := (s.setFld R.PROF_STATUS_FALLBACK 1).ce 14
    if s.profOk (s.profRec 0) then (s, some 0) else (s, none)

/-- The M fields of the selected record that are not tied to a later step: chambers, flags, cap, and the C fields that go
with them. -/
def State.adopt (s : State) (prof : Nat) : State :=
  let r := s.profRec prof
  let s := (s.withSec { s.sec with profile := r, cProfile := r, apply := none, applyLate := [] }).withFr
    { s.fr with contain := containOf r }
  let s := ((s.setFld R.PROF_STATUS_IN_FORCE prof).setFld R.PROF_STATUS_CH_SRC prof).setFld R.PROF_STATUS_CH_PEND 0
  let s := s.setFld R.MSMAP_CONTAIN_T6 (containOf r)
  let s := (s.setFld R.BRG_STATUS_DIAG (bitN (prFlags r) 0)).setFld R.HIF_CTRL_HOST_BIND (bitN (prFlags r) 1)
  let s := s.setFld R.HIF_CTRL_HOST_CSR_WR (bitN (prFlags r) 2)
  let s := (s.setFld R.PWR_CTRL_CAP (prCap r)).setFld R.PWR_STATUS_CAP_IN_FORCE (prCap r)
  (List.range 16).foldl (fun s c => s.setFld (R.FR_CHAMBER_STATE c) (if prChValid r c then 3 else 0)) s

/-- Regions take the table of the profile in force; one that names a FAILED stack is invalid (R371). -/
def State.loadRegions (s : State) : State :=
  (List.range 512).foldl (fun s n =>
    let v := prRegion s.sec.profile n
    let (a, b, _, _) := regionUnits v
    let bad := (List.range 32).any (fun k => decide (a ≤ k) && decide (k ≤ b) && s.fld (R.MS_STATUS_STATE k) == 4)
    s.setReg (R.MSMAP_REGION n) (BitVec.ofNat 64 (if bitN v 63 = 1 ∧ bad then v - 2 ^ 63 else if bitN v 63 = 1 then v else 0))) s

/-- Chambers that own a region naming a FAILED stack. -/
def State.lostChambers (s : State) : List Nat :=
  (List.range 16).filter (fun c => (List.range 512).any (fun n =>
    let v := prRegion s.sec.profile n
    let (a, b, _, _) := regionUnits v
    bitN v 63 == 1 && fldN v 55 52 == c &&
      (List.range 32).any (fun k => decide (a ≤ k) && decide (k ≤ b) && s.fld (R.MS_STATUS_STATE k) == 4)))

/-- Every byte of a region's units, and their poison, zero. -/
def State.zeroRegion (s : State) (v : Nat) : State :=
  let (a, b, c, d) := regionUnits v
  (List.range 32).foldl (fun s k =>
    if a ≤ k ∧ k ≤ b then
      let lo := c * 0x8000000
      let hi := (d + 1) * 0x8000000
      let s := s.zeroRange (stackKey k lo) (stackKey k hi)
      s.withPoison (s.poison.filter (fun p => decide (p.1 < unitKey k lo) || decide (unitKey k hi ≤ p.1)))
    else s) s

/-- Regions whose chamber, mode or units changed since the table `old` are zeroed (R300, R384). -/
def State.zeroChanged (s : State) (old : SMap Word) : State :=
  (List.range 512).foldl (fun s n =>
    let v := prRegion s.sec.profile n
    if bitN v 63 = 1 ∧ BitVec.ofNat 64 v ≠ old.get n 0 then s.zeroRegion v else s) s

/-- The region table in force. -/
def State.regions (s : State) : SMap Word :=
  s.csr.filterMap (fun p =>
    if R.MSMAP_REGION 0 ≤ p.1 ∧ p.1 < R.MSMAP_REGION 512 then some ((p.1 - R.MSMAP_REGION 0) / 8, p.2) else none)

end Sys2Proof.Machine
end

