-- ==== Sys2Proof/Machine/Modes.lean ====
section
/-! DEFINITION. How the module moves between its six states (Table 1.4, R16, R17): OFF, STANDBY, REFUGE (R451), entry to
BOOT (R370), module compute reset (R384, R416), QUIESCE and NORMAL (R431), and the lease (R430). -/

namespace Sys2Proof.Machine

/-! ## What survives -/

/-- What flash, OTP and the security engine keep through OFF (log entry 30). -/
def SecSt.kept (x : SecSt) : SecSt :=
  { x with calls := [], meas := [], booted := [], profile := [], cProfile := [], apply := none, applyLate := [],
           siteCh := [], toCh := [] }

/-- The addresses of registers that flash or OTP holds. -/
def flashRegs : List Nat := [R.LCP_STATUS, R.PROF_STATUS, R.TRM_FUSE 0, R.TRM_FUSE 1]

/-- The fault bits of cores and MXE columns, which come from the repair log (Tables 3.11 and 6.10). -/
def faultReg (a : Nat) : Bool :=
  let x := siteAt a
  a == R.GAL_CORE_FAULT x || (List.range 3).any (fun h => a == R.MXE_COL_FAULT x 0 h || a == R.MXE_COL_FAULT x 1 h)

/-- The register file as power-up finds it: OTP, the fault bits of the repair log, the pending profile, the silence latch, the rungs of the ladder. -/
def State.flashCsr (s : State) : SMap Word :=
  s.csr.filterMap (fun p =>
    if flashRegs.contains p.1 then some p
    else if p.1 = R.FR_LEASE then some (p.1, p.2 &&& BitVec.ofNat 64 (2 ^ 63))
    else if 0x200010000000 ≤ p.1 ∧ p.1 = R.TR_LADDER (siteAt p.1) then some (p.1, p.2 &&& 0x700)
    else if 0x200010000000 ≤ p.1 ∧ faultReg p.1 then some p
    else none)

/-- What flash and the stack itself keep of a stack's repairs. -/
def MsSt.kept (m : MsSt) : MsSt := { MsSt.init with soft := m.soft, hard := m.hard, used := m.used, retired := m.retired }

/-- The last temperature reading of every stack (R299). -/
def State.temps (s : State) : SMap Word :=
  (List.range 32).map (fun k => (R.MS_STATUS k, s.reg (R.MS_STATUS k) &&& 0x8FF0000))

/-- The register file without entries that hold their reset value. -/
def cleanCsr (m : SMap Word) : SMap Word := m.filter (fun p => p.2 ≠ resetOf p.1)

/-- The module with everything lost that power loss takes; its state is unchanged so far. -/
def State.powerLost (s : State) : State :=
  { State.reset with
    pending := s.pending, now := s.now, free := s.free, out := s.out, mode := s.mode
    csr := cleanCsr s.flashCsr
    mem := s.mem.filter (fun c => decide (flashKey 0 ≤ c.1) && decide (c.1 < rawKey 0 0 0) ||
      decide (hostKey 0 ≤ c.1) && decide (c.1 < mgmtKey 0))
    dirs := s.dirs
    sec := s.sec.kept
    mss := s.mss.map (fun p => (p.1, p.2.kept))
    host := { HostSt.init with counters := s.host.counters, lantern := s.host.lantern, lanternLost := s.host.lanternLost,
                               perst := s.host.perst, phyUp := s.host.phyUp }
    boot := { BootSt.init with mcrs := s.boot.mcrs }
    pwr := { PwrSt.init with kill := s.pwr.kill, present := s.pwr.present, waitInsert := s.pwr.waitInsert,
                             inputOk := s.pwr.inputOk, wear := s.pwr.wear } }

/-- The LNT block, which Lantern keeps in every state but OFF. -/
def State.lntRegs (s : State) : SMap Word := s.csr.filter (fun p => decide (R.LNT_STATUS ≤ p.1) && decide (p.1 < 0x200000041000))

/-- Registers of a list written over a state. -/
def State.putRegs (s : State) (m : SMap Word) : State := m.foldl (fun s p => s.setReg p.1 p.2) s

/-- OFF: the input disconnect is open. -/
def State.enterOff (s : State) : State := s.powerLost.enter .off

/-- STANDBY: Lantern goes on; the records held and the next SEQ are in flash (R351); stack contents are lost. -/
def State.enterStandby (s : State) : State :=
  let t := ((s.powerLost.putRegs s.lntRegs).putRegs s.temps).setFld R.MGMT_STATUS_SEQ (s.fld R.MGMT_STATUS_SEQ)
  ((t.withHost { t.host with store := s.host.store, held := s.host.held }).withPwr s.pwr).enter .standby

/-! ## Compute dies off (R451) -/

/-- The register addresses of the compute dies: site frames, and the spine routers. -/
def onComputeDie (a : Nat) : Bool :=
  (decide (0x200010000000 ≤ a) && decide (a < 0x20002C000000)) ||
    (decide (0x200000030000 ≤ a) && decide (a < 0x200000034000))

/-- Every module compute reset, and every loss of the compute dies, ends a replay, a move and an arbitration. -/
def State.dropJobs (s : State) : State :=
  let s := s.echoEnd 3
  let s := if s.tst.moveOn.isSome then s.setFld R.TRM_MOVE_STATUS_STATE 0 else s
  s.withTst { s.tst with moveOn := none }

/-- Chamber resets in progress are abandoned; no chamber is in reset. -/
def State.dropChResets (s : State) : State :=
  let s := (List.range 16).foldl (fun s c =>
    if s.fld (R.FR_CHAMBER_STATE c) = 2 then
      ((s.setFld (R.FR_CHAMBER_STATE c) 1).setFld (R.FR_CHAMBER_STEP c) 0).setFld (R.FR_CHAMBER_PEARL_OK c) 0
    else s) s
  let s := (s.withFr { s.fr with chs := [] }).setFld R.BRG_RESET_CH_IN_RESET 0
  (s.setFld R.CLASSA_COND_NO_CH_RESET 1).syncCond

/-- The commands of every runtime end with RESET. -/
def State.rtResets (s : State) : State := s.rts.foldl (fun s p => s.rtReset p.1) s

/-- Core and column remaps are applied from the repair log; a burned column remap shows its fuse bit (R56, R107, R394,
R395). -/
def State.softRemap (s : State) (e : LogEnt) : State :=
  if e.kind = 1 then
    let a := R.GAL_CORE_MAP e.site (e.unit / 8)
    s.setReg a (putBits (s.reg a) (8 * (e.unit % 8)) 8 (128 + e.repl))
  else if e.kind = 2 then
    let a := R.MXE_COL_MAP e.site (e.unit / 256 % 2)
    s.setReg a (putBits (s.reg a) (16 * (e.repl - 129)) 16 (0x8000 + 0x4000 * b2n e.fuse + e.unit % 256))
  else s

/-- Remaps made by fuses are in force from reset (R107). -/
def State.fuseRemaps (s : State) : State := (s.sec.log.filter (·.fuse)).foldl (fun s e => s.softRemap e) s

/-- Everything on the compute dies is gone. -/
def State.computeOff (s : State) : State :=
  let s := ((s.rtResets.dropJobs).dropChResets).portKill (fun _ => true)
  let keep := s.flashCsr.filter (fun p => onComputeDie p.1)
  let s := s.withCsr (s.csr.filter (fun p => !onComputeDie p.1))
  let s := s.putRegs keep
  let s := s.withMem (s.mem.filter (fun c => decide (c.1 < galKey 0 0) || decide (galKey 448 0 ≤ c.1)))
  let s := ((((s.withGpoison []).withCtxs []).withCores []).withTasks []).withGms []
  let s := ((((s.withMxes []).withCurs []).withNet []).withAnswers []).withCrets []
  let s := ((((s.withRings []).withUnans []).withCqs []).withTfes []).withPkts []
  let s := ((s.withRtrs []).withGreset []).withForce (s.force.filter (fun p => decide (p.1 < 0x200010000000)))
  let s := (s.withSec { s.sec with siteCh := [], toCh := [] }).withTst { s.tst with arbs := [] }
  let s := (List.range 32).foldl (fun s k =>
    if s.fld (R.MS_STATUS_STATE k) = 2 then s.setFld (R.MS_STATUS_STATE k) 3 else s) s
  (((s.setFld R.BRG_CLK_DIE 0).setFld R.BRG_CLK_FABRIC 0).setFld R.BRG_CLK_STACK 0).fuseRemaps

/-- The output pin of Lantern. -/
def State.setPin (s : State) (f : Fld) (p n : Nat) : State :=
  if s.fld f = n then s else (s.setFld f n).emit (.pin p (n == 1))

/-- Removal, from step 5 of Table 21.11: the standby command, then OK2RM. -/
def State.removeEnd (s : State) : State :=
  let s := s.enterStandby
  let s := s.withPwr { s.pwr with removal := 6 }
  (s.setFld R.LNT_STATUS_EJECT 0).setPin R.LNT_STATUS_OK2RM 0 1

/-- What waits for an Open is dropped: the state that REFUGE, a higher event, has made leaves nothing of a fence order or a
grant to act on; each dropped one is recorded (R17). -/
def State.noPlans (s : State) : State :=
  let waits := s.fr.toNormal || s.fr.toQuiesce
  let s := s.withFr { s.fr with toNormal := false, toQuiesce := false, quiesceBy := 0 }
  if waits then s.reject else s

/-- REFUGE (R451); a removal in progress goes on from step 5. -/
def State.enterRefuge (s : State) : State :=
  let s := (s.computeOff.noPlans.enter .refuge).flushQuiet
  if s.pwr.removal = 0 then s else s.removeEnd

/-- Bring-up fails: the step, the reason and a FATAL record, then REFUGE (R372). -/
def State.bootFail (s : State) (code : Nat) : State :=
  let s := (s.setFld R.BRG_STATUS_FAIL_STEP (s.fld R.BRG_STATUS_STEP)).setFld R.BRG_STATUS_FAIL_CODE code
  ((s.raise (s.mkRec FATAL 14 0)).actOn 4).enterRefuge

/-! ## Entry to BOOT -/

/-- The service die leaves reset (step 3): its registers are at their reset values, Lantern's records enter the store, the
management port runs (R370, R351, R353, R479). What Lantern, flash and self-refresh keep is kept. -/
def State.svcStart (s : State) : State :=
  let memStacks := (List.range 32).map (fun k => (R.MS_CTRL k, s.reg (R.MS_CTRL k)))
  let states := (List.range 32).map (fun k => (R.MS_STATUS k, s.reg (R.MS_STATUS k)))
  let links := s.csr.filter (fun p => decide (0x200002000000 ≤ p.1) && decide (p.1 < 0x20000A000000))
  let lamps := s.csr.filter (fun p => decide (0x20000000D000 ≤ p.1) && decide (p.1 < 0x20000000E000))
  let lease := (R.FR_LEASE, s.reg R.FR_LEASE)
  let engines := (R.BRG_CLK, s.reg R.BRG_CLK &&& 0xFF00000000000000)
  let keep := s.flashCsr ++ [lease, engines] ++ memStacks ++ states ++ links ++ lamps ++ s.lntRegs
  let seq := s.fld R.MGMT_STATUS_SEQ
  let host : HostSt := { HostSt.init with
    counters := s.host.counters, lantern := s.host.lantern, lanternLost := s.host.lanternLost, store := s.host.store,
    held := s.host.held, perst := s.host.perst, phyUp := s.host.phyUp }
  let t := ((((s.withCsr []).withDrip DripSt.init).withPtp PtpSt.init).withMctxs []).withForce []
  let t := ((t.withHost host).withSv ⟨none, none, [], [], false⟩).withSec s.sec.kept
  let t := (t.withTst TstSt.init).withFr { FrSt.init with restarts := [], kickAt := s.now, hbAt := s.now }
  let t := (t.putRegs keep).setFld R.MGMT_STATUS_SEQ seq
  (t.setFld R.HIF_STATUS_MODSTATE s.mode.code).setFld R.MGMT_STATUS_HELD (min s.host.held.length 0xFFFF)

/-- Lantern's records pass to the service die's store. -/
def State.takeLantern (s : State) : State :=
  let rs := s.host.lantern
  let n := s.host.lanternLost
  let s := s.withHost { s.host with lantern := [], lanternLost := 0 }
  (rs.foldl (fun s r => s.queueRec r) s).addFld R.MGMT_CNT_LOST n

/-- The module enters BOOT from STANDBY or REFUGE: a cold boot, from step 3 on. PROF_SEL is sampled. -/
def State.coldBoot (s : State) (pins : Nat) : State :=
  let refuge := s.mode == .refuge
  let old := s.regions
  let down := s.pcieUp
  let s := if refuge then s else s.withMss (s.mss.map (fun p => (p.1, p.2.kept)))
  let s := s.enter .boot
  let s := if down then (s.setFld R.HIF_STATUS_SPEED 0).hostDown else s
  let s := s.svcStart
  let s := (s.setFld R.BRG_STATUS_STEP 3).setFld R.PROF_STATUS_PINS (pins % 4)
  let s := s.withBoot { BootSt.init with
    entryAt := s.now, fromRefuge := refuge, mcrs := s.boot.mcrs, oldRegions := if refuge then old else [] }
  (s.takeLantern).setFld R.MGMT_STATUS_LINK_UP (b2n s.host.phyUp)

/-! ## Module compute reset (R384, R416) -/

/-- Every gallery is reset: as a gallery reset whose generation advances once, and which ends in RESET. -/
def State.mcrGals (s : State) : State :=
  s.liveSites.foldl (fun s site =>
    let s := if (s.gr site).busy then s else s.galStart site false
    let s := s.galDrained site
    let s := s.setGr site { s.gr site with busy := false, held := false }
    (s.setFld (R.GAL_CTRL_ENABLE site) 0).setFld (R.GAL_STATUS_STATE site)
      (if s.fld (R.GAL_CTRL_FENCE site) = 1 then 3 else 1)) s

/-- The profile of this entry to BOOT gives another drip period: a change to it is armed (R19, R21). -/
def State.bootPeriod (s : State) : State :=
  let p := prPeriod s.sec.profile
  if s.fld R.DRIP_PERIOD_CUR_US = p then s
  else
    let n := s.dripNo + 2
    let s := ((s.setFld R.DRIP_PERIOD_NEXT_US p).setReg R.DRIP_APPLY_AT (BitVec.ofNat 64 (n % 2 ^ 48))).setFld
      R.DRIP_STATUS_APPLY_PEND 1
    s.withDrip { s.drip with armed := some n }

/-- A module compute reset starts: BOOT, from step 8 on. -/
def State.mcrStart (s : State) : State :=
  let s := s.enter .boot
  let old := s.regions
  let s := (s.rtResets.dropJobs).mcrGals.dropChResets
  let s := s.bumpFld R.BRG_RESET_MCR_COUNT 1
  let s := ((s.setFld R.BRG_STATUS_READY 0).setFld R.BRG_STATUS_STEP 8).setFld R.BRG_STATUS_ELAPSED_MS 0
  let s := (s.setFld R.BRG_STATUS_FAIL_STEP 0).setFld R.BRG_STATUS_FAIL_CODE 0
  let s := (s.withSec { s.sec with siteCh := [], toCh := [] }).withFr
    { s.fr with toNormal := false, toQuiesce := false, quiesceBy := 0 }
  let s := s.withBoot { BootSt.init with
    entryAt := s.now, mcr := true, oldRegions := old,
    mcrs := (s.boot.mcrs.filter (fun t => decide (s.now < t + 600000000000))) ++ [s.now] }
  let s := s.flushQuiet
  match s.selectProfile false with
  | (s, none) => s.bootFail 1
  | (s, some p) => (((s.adopt p).loadRegions).zeroChanged old).bootPeriod

/-- Three module compute resets have been made in the last 600 s. -/
def State.mcrFull (s : State) : Bool :=
  decide (3 ≤ (s.boot.mcrs.filter (fun t => decide (s.now < t + 600000000000))).length)

/-- MCR as a command: from NORMAL or QUIESCE (Table 1.4); any other, and a fourth in 600 s, is rejected. -/
def State.mcrRequest (s : State) : State :=
  if (s.mode = .normal ∨ s.mode = .quiesce) ∧ !s.mcrFull then s.event 5 State.mcrStart else s.reject

/-- A FATAL event of Table 20.2 whose action is a module compute reset (R416). DESIGN CHOICE (log entry 30): R17 does not
list it; it has the precedence of a bring-up failure, 4. -/
def State.fatalMcr (s : State) : State :=
  let s := s.raise (s.mkRec FATAL 14 0)
  if s.mode = .boot then s.bootFail 0
  else if s.mode = .normal ∨ s.mode = .quiesce then
    s.event 4 (fun s => if s.mcrFull then s.enterRefuge else s.mcrStart)
  else s

/-! ## QUIESCE and NORMAL (R431) -/

/-- Masters with an entry in force, and command queues that run. -/
def State.masters (s : State) : List Nat :=
  (s.force.filter (fun p => p.2.valid)).map (·.1) ++
    ((List.range 64).filter (fun q => s.fld (R.HQ3_STATE q) == 1 && !(s.bud (hqM q)).valid)).map hqM

/-- The module enters QUIESCE at an Open: every master is frozen (R431, Table 21.11). -/
def State.enterQuiesce (s : State) (by_ : Nat) : State :=
  let s := s.withFr { s.fr with quiesceBy := by_, toQuiesce := false }
  (s.masters.foldl (fun s m => s.freeze m 6 32) s).enter .quiesce

/-- The module enters NORMAL; held completions leave; the first time after a boot the anti-rollback floors of booted images
with FLOOR_BUMP rise (R361). -/
def State.enterNormal (s : State) : State :=
  let s := s.withFr { s.fr with toNormal := false, quiesceBy := 0 }
  let s := (s.enter .normal).flushQuiet
  s.sec.booted.foldl (fun s p =>
    let img := (s.sec.images.find? (8 * p.1 + p.2)).getD (Config.factoryImage p.1 p.2)
    if leAt img 7 1 % 2 = 1 ∧ s.sec.floors.get p.1 0 < leAt img 16 4 then
      s.withSec { s.sec with floors := s.sec.floors.put p.1 (leAt img 16 4) 0 }
    else s) s

/-! ## The lease (R430, Table 20.7) -/

/-- A grant would return the module to NORMAL. -/
def State.mayNormal (s : State) : Bool :=
  (s.mode == .boot && s.fld R.BRG_STATUS_READY == 1) ||
    (s.mode == .quiesce && s.fr.quiesceBy == 1 && s.pwr.removal == 0)

/-- The lease is lost: the latch is set. -/
def State.leaseLost (s : State) (st : Nat) : State := (s.setFld R.FR_LEASE_STATE st).setFld R.FR_LEASE_LATCH 1

/-- FENCE_ORDER, or a grant of length 0: from NORMAL an event of precedence 3 of this drip, carried out at the next Open
(R17, Table 20.7). -/
def State.leaseFence (s : State) : State :=
  let s := s.leaseLost 3
  let s := s.withFr { s.fr with toNormal := false }
  if s.mode = .normal then s.event 3 (fun s => s.withFr { s.fr with toQuiesce := true }) else s

/-- A grant of a length. -/
def State.leaseGrant (s : State) (len : Nat) : State :=
  if len = 0 then s.leaseFence
  else
    let s := s.setFld R.FR_LEASE_LATCH 0
    let s := if len = 0xFFFFFFFF then s.setFld R.FR_LEASE_STATE 4
      else (s.setFld R.FR_LEASE_STATE 1).setFld R.FR_LEASE_EXPIRY (s.dripNo + max len 16)
    s.withFr { s.fr with toQuiesce := false, toNormal := s.mayNormal }

/-- Ready: the lease of the profile, or one that is held already, lets the module leave BOOT. -/
def State.leaseReady (s : State) : State :=
  let st := s.fld R.FR_LEASE_STATE
  let len := prLease s.sec.profile
  if st = 1 ∨ st = 4 then s.enterNormal
  else if s.fld R.FR_LEASE_LATCH = 1 ∨ len = 0 ∨ st ≠ 0 then s
  else if len = 0xFFFFFFFF then (s.setFld R.FR_LEASE_STATE 4).enterNormal
  else ((s.setFld R.FR_LEASE_STATE 1).setFld R.FR_LEASE_EXPIRY (s.dripNo + max len 16)).enterNormal

/-- LEASE_EXPIRY, at the Open of the expiry drip: EXPIRED, the latch set, NORMAL becomes QUIESCE (R430, R17). -/
def State.leaseExpire (s : State) : State :=
  if s.fld R.FR_LEASE_STATE = 1 ∧ s.fld R.FR_LEASE_EXPIRY ≤ s.dripNo then
    let s := s.leaseLost 2
    if s.mode = .normal then s.event 3 (fun s => s.enterQuiesce 1) else s
  else s

/-- LEASE_EXPIRY: the Open of the lease's expiry drip has come. -/
def execLeaseExpiry (s : State) : Host.Outcome State Fault Refusal := .next s.leaseExpire

/-- The fence order that waits for this Open (Table 20.7). -/
def State.fenceOpen (s : State) : State :=
  if !s.fr.toQuiesce then s
  else
    let s := s.withFr { s.fr with toQuiesce := false }
    if s.mode = .normal then s.event 3 (fun s => s.enterQuiesce 1) else s

/-- The removal that waits for this Open: QUIESCE. Where the lease or a fence has made QUIESCE at this Open, the request is
recorded as the lower event, and since it cannot be cancelled it goes on from step 3 (R17, R455). -/
def State.removeOpen (s : State) : State :=
  if s.pwr.removal ≠ 1 then s
  else
    let drain (s : State) : State := s.withPwr { s.pwr with removal := 3 }
    match s.mode with
    | .normal => s.event 5 (fun s => drain (s.enterQuiesce 2))
    | .quiesce => drain s.reject
    | _ => s

/-- The grant that waits for this Open: it holds only while nothing has changed what it returns from. -/
def State.grantOpen (s : State) : State :=
  if !s.fr.toNormal then s
  else
    let ok := s.mayNormal
    let s := s.withFr { s.fr with toNormal := false }
    if ok then s.event 5 State.enterNormal else s.reject

/-- The requests that wait for an Open take effect, the highest first (R17, R430, R455). -/
def State.modeOpen (s : State) : State := s.leaseExpire.fenceOpen.removeOpen.grantOpen

/-! ## Commands that ask for a state (Table 1.4, R16) -/

/-- A trip with action 4, 5 or 6 is active (R450). -/
def State.tripActive (s : State) : Bool :=
  (List.range 24).any (fun e => bitN (s.fld R.LNT_STATUS_ACTIVE) e == 1 && decide (4 ≤ s.fld (R.LNT_TRIP_ACTION e)) &&
    decide (s.fld (R.LNT_TRIP_ACTION e) ≤ 6))

/-- The standby command. -/
def State.cmdStandby (s : State) : State :=
  if s.mode = .normal ∨ s.mode = .refuge then s.event 5 State.enterStandby else s.reject

/-- The restart command: from REFUGE to BOOT, as a cold boot whose PROF_SEL Lantern samples (`pins`); from QUIESCE as a
module compute reset (DEDUCED, log entry 30). -/
def State.cmdRestart (s : State) (pins : Nat) : State :=
  if s.mode = .refuge ∧ !s.tripActive then s.event 5 (fun s => s.coldBoot pins)
  else if s.mode = .quiesce then s.mcrRequest
  else s.reject

/-- A wake (R453). -/
def State.wake (s : State) (pins : Nat) : State :=
  if s.mode ≠ .standby ∨ s.pwr.removal ≠ 0 ∨ s.pwr.removeArmed then s
  else if s.tripActive then s.reject
  else s.coldBoot pins

/-- A removal is requested (R455): a command in the order of R17. From NORMAL it is carried out at the next Open, and the
state decides there. -/
def State.eject (s : State) : State :=
  if s.pwr.removal ≠ 0 then s
  else
    let arm (s : State) (n : Nat) : State :=
      (s.withPwr { s.pwr with removal := n }).setFld R.LNT_STATUS_EJECT 1
    match s.mode with
    | .off => s
    | .standby => (s.withPwr { s.pwr with removal := 6 }).setPin R.LNT_STATUS_OK2RM 0 1
    | .boot => s.event 5 (fun s => (arm s 1).enterRefuge)
    | .normal => arm s 1
    | .quiesce => arm s 3
    | .refuge => s.event 5 (fun s => (arm s 5).removeEnd)

end Sys2Proof.Machine
end

