-- ==== Sys2Proof/Machine/Power.lean ====
section
/-! DEFINITION. Power, cooling and Lantern (chapter 21): the governor (R438 to R442), the channels and their filters (R446,
R447), the trip table (R448 to R450), wake, insertion and removal (R452 to R457). -/

namespace Sys2Proof.Machine

/-! ## The governor -/

/-- The cap in force: PWR_CTRL.CAP as of the last Open, and the caps of active trips (R449). -/
def State.capNow (s : State) : Nat :=
  let base := s.pwr.capNext.getD (s.fld R.PWR_CTRL_CAP)
  (List.range 24).foldl (fun n e =>
    if bitN (s.fld R.LNT_STATUS_ACTIVE) e = 0 then n
    else match s.fld (R.LNT_TRIP_ACTION e) with
      | 1 => min n 1000
      | 2 => min n 900
      | _ => n) base

/-- CAP_IN_FORCE follows. -/
def State.setCap (s : State) : State := s.setFld R.PWR_STATUS_CAP_IN_FORCE s.capNow

/-- A fast throttle (R441). -/
def State.fastThrottle (s : State) : State :=
  if s.fld R.PWR_STATUS_FAST = 1 then s else (s.setFld R.PWR_STATUS_FAST 1).addFld R.PWR_CNT_FAST 1

/-- Milliseconds above 700 W in the last 24 h, from a die's list of 65536 * second + milliseconds. -/
def wearMs (now : Nat) (l : List Nat) : Nat :=
  (l.filter (fun x => decide (now < (x / 65536 + 86400) * 1000000000))).foldl (fun n x => n + x % 65536) 0

/-- One ms of a die above 700 W. -/
def wearAdd (now : Nat) (l : List Nat) : List Nat :=
  let t := now / 1000000000
  let old := l.filter (fun x => decide (now < (x / 65536 + 86400) * 1000000000))
  match old with
  | x :: xs => if x / 65536 = t then (x + 1) :: xs else (65536 * t + 1) :: old
  | [] => [65536 * t + 1]

/-- One die's rail power in this ms. -/
def State.dieTick (s : State) (d w : Nat) : State :=
  let l := s.pwr.wear.get d []
  let l := if 700 < w then wearAdd s.now l else l
  let ms := wearMs s.now l
  let s := s.withPwr { s.pwr with wear := s.pwr.wear.put d l [] }
  ((s.setFld (R.PWR_DIE_POWER d) w).setFld (R.PWR_DIE_WEAR_S d) (ms / 1000)).setFld (R.PWR_DIE_WEAR_OUT d)
    (b2n (decide (600000 ≤ ms)))

/-- Sum of a list. -/
def sumN (l : List Nat) : Nat := l.foldl (· + ·) 0

/-- The wear left on the most worn die, ms. -/
def State.wearLeft (s : State) : Nat :=
  (List.range 16).foldl (fun n d => min n (600000 - wearMs s.now (s.pwr.wear.get d []))) 600000

/-- The averages of a ms whose mean input power is `p1`, and the need to throttle. -/
def State.govMs (s : State) (p1 : Nat) : State :=
  let hist := (p1 :: s.pwr.p1s).take 10000
  let w10 := sumN hist / 10000
  let surge := if 120000000 < p1 then satAdd 12 (s.fld R.PWR_STATUS_SURGE_MS) 1 else 0
  let need := decide (s.fld R.PWR_STATUS_CAP_IN_FORCE * 100000 ≤ w10) || decide (150000000 < p1) ||
    (decide (0 < surge) && decide (min 2000 s.wearLeft ≤ surge))
  let stable := if need then 0 else s.pwr.stable + 1
  let up := s.pwr.up || need
  let s := s.withPwr { s.pwr with acc := [], p1s := hist, up := up, stable := stable }
  let s := ((s.setFld R.PWR_STATUS_P1 (p1 / 100000)).setFld R.PWR_STATUS_W10 (w10 / 100000)).setFld R.PWR_STATUS_SURGE_MS surge
  if need then s.fastThrottle else s

/-- One ms at the level in force is counted (R441). -/
def State.levelMs (s : State) : State :=
  if s.fld R.PWR_STATUS_LEVEL = 0 then s else s.addFld R.PWR_CNT_LEVEL_MS 1

/-- GOVERNOR_TICK: one ms: the averages, the surge, the need to throttle (R438); `dies` are the rail powers in W. Input
power is the mean of Lantern's samples of this ms, in units of 1e-4 W. -/
def execGovernorTick (dies : List Nat) (s : State) : Host.Outcome State Fault Refusal :=
  .next (
    let s := s.withNow (max s.now (s.pwr.govAt + 1000000))
    let s := s.withPwr { s.pwr with govAt := s.now }
    let s := ((dies.take 16).zipIdx).foldl (fun s p => s.dieTick p.2 p.1) s
    let p1 := if s.pwr.acc.isEmpty then 0 else sumN s.pwr.acc / s.pwr.acc.length
    s.levelMs.govMs p1)

/-- The level, the cap and the dies' steps at an Open (R438, R441, R442, R458). -/
def State.govOpen (s : State) : State :=
  let level := s.fld R.PWR_STATUS_LEVEL
  let next := if s.pwr.up then min (level + 1) 5
    else if s.fld R.PWR_STATUS_W10 + 50 < s.fld R.PWR_STATUS_CAP_IN_FORCE ∧ 100 ≤ s.pwr.stable then level - 1
    else level
  let hot := s.pwr.hot
  let s := hot.foldl (fun s p => s.setFld (R.PWR_DIE_STEP p.1) (min 2 (s.fld (R.PWR_DIE_STEP p.1) + 1))) s
  let s := s.withPwr { s.pwr with
    up := false, hot := [], fastDie := [], capNext := some (s.fld R.PWR_CTRL_CAP) }
  (((s.setFld R.PWR_STATUS_LEVEL next).setFld R.PWR_STATUS_FAST 0).setCap).setClocks

/-- DIE_THERMAL_THROTTLE: the hottest junction of a die reaches 100 °C (R442). -/
def execDieThermalThrottle (d tj : Nat) (s : State) : Host.Outcome State Fault Refusal :=
  .next (
    let s := s.setFld (R.PWR_DIE_TJ d) tj
    if tj < 100 then s
    else
      let s := s.withPwr { s.pwr with
        hot := s.pwr.hot.put d 1 0, fastDie := s.pwr.fastDie.put d 1 0, coolAt := s.pwr.coolAt.erase d }
      s.addFld R.PWR_CNT_FAST 1)

/-- DIE_THERMAL_RECOVER: a die has been below 95 °C for 100 ms. -/
def execDieThermalRecover (d tj : Nat) (s : State) : Host.Outcome State Fault Refusal :=
  .next (
    let s := s.setFld (R.PWR_DIE_TJ d) tj
    if tj < 95 then s.setFld (R.PWR_DIE_STEP d) (s.fld (R.PWR_DIE_STEP d) - 1) else s)

/-! ## Channels (R446, R447) -/

/-- Channels 2 and 3 are signed. -/
def chSigned (c : Nat) : Bool := c == 2 || c == 3

/-- A 16-bit sample as an integer. -/
def chInt (c v : Nat) : Int := if chSigned c then sextN 16 v else (v % 65536 : Nat)

/-- Insertion into a rising list. -/
def insInt (x : Int) : List Int → List Int
  | [] => [x]
  | y :: ys => if x ≤ y then x :: y :: ys else y :: insInt x ys

/-- The median of a list of samples. -/
def median (l : List Int) : Int :=
  let t := l.foldl (fun a x => insInt x a) []
  t.getD (t.length / 2) 0

/-- The last samples of a channel, newest first. -/
def State.rawHist (s : State) (c : Nat) : List Int := (s.pwr.hist.get c []).map (chInt c)

/-- Saturation to 16 bits. -/
def satCh (c : Nat) (v : Int) : Int :=
  if chSigned c then max (-32768) (min 32767 v) else max 0 (min 65535 v)

/-- One channel's new sample passes its filters. -/
def State.channel (s : State) (c raw : Nat) : State :=
  let h := (raw % 65536 :: s.pwr.hist.get c []).take 9
  let s := s.withPwr { s.pwr with hist := s.pwr.hist.put c h [] }
  let m := s.fld (R.LNT_CH_MEDIAN c)
  let x := median ((s.rawHist c).take (if 1 ≤ m ∧ m ≤ 4 then 2 * m + 1 else 1))
  let b := s.fld (R.LNT_CH_BIQ c)
  let s := s.setFld (R.LNT_CH_RAW c) raw
  if 1 ≤ b ∧ b ≤ 8 then
    let q (f : Fld) : Int := sextN 32 (s.fld f)
    let z := s.pwr.biq.get c [0, 0, 0, 0]
    let sum := q (R.LNT_BIQ0_B0 (b - 1)) * x + q (R.LNT_BIQ0_B1 (b - 1)) * z.getD 0 0 + q (R.LNT_BIQ1_B2 (b - 1)) * z.getD 1 0 -
      q (R.LNT_BIQ1_A1 (b - 1)) * z.getD 2 0 - q (R.LNT_BIQ2_A2 (b - 1)) * z.getD 3 0
    let y := satCh c (sextN 64 (toBits 64 sum) / 536870912)
    let s := s.withPwr { s.pwr with biq := s.pwr.biq.put c [x, z.getD 0 0, y, z.getD 2 0] [] }
    s.setFld (R.LNT_CH_VALUE c) (toBits 16 y)
  else s.setFld (R.LNT_CH_VALUE c) (toBits 16 (satCh c x))

/-! ## Trips (R448 to R450) -/

/-- Age of Bedrock's last heartbeat in ms, while the service die runs (R418, log entry 31). -/
def State.hbAge (s : State) : Nat := if s.svcUp then (s.now - s.fr.hbAt) / 1000000 else 0

/-- The value a trip entry compares. -/
def State.tripValue (s : State) (e : Nat) : Int :=
  let src := s.fld (R.LNT_TRIP_SRC e)
  if src < 16 then
    if e < 16 then median ((s.rawHist src).take 3) else chInt src (s.fld (R.LNT_CH_VALUE src))
  else match src with
    | 16 => (s.pwr.tj : Nat)
    | 17 => ((List.range 32).foldl (fun n k => max n (s.fld (R.MS_STATUS_TEMP k))) 0 : Nat)
    | 18 => (s.hbAge : Nat)
    | 19 => (b2n s.pwr.kill : Nat)
    | _ => 0

/-- The threshold, signed where its source is. -/
def State.tripThresh (s : State) (e : Nat) : Int :=
  chInt (s.fld (R.LNT_TRIP_SRC e)) (s.fld (R.LNT_TRIP_THRESH e))

/-- Lamps above 120 % of their rated power, by the median of three samples (trip 12). -/
def State.hotLamps (s : State) : List Nat :=
  (List.range 10).filter (fun k => decide (12 * ((s.lamp k).rated : Int) < 10 * median ((s.rawHist (6 + k)).take 3)))

/-- The condition of an entry holds. -/
def State.tripCond (s : State) (e : Nat) : Bool :=
  if e = 12 then !s.hotLamps.isEmpty
  else if 20 ≤ s.fld (R.LNT_TRIP_SRC e) then false
  else if s.fld (R.LNT_TRIP_DIR e) = 0 then decide (s.tripThresh e < s.tripValue e)
  else decide (s.tripValue e < s.tripThresh e)

/-- The value is on the safe side by the clearing margin. -/
def State.tripSafe (s : State) (e : Nat) : Bool :=
  let h : Int := (s.fld (R.LNT_TRIP_HYST e) : Nat)
  if e = 12 then s.hotLamps.isEmpty
  else if s.fld (R.LNT_TRIP_DIR e) = 0 then decide (s.tripValue e + h ≤ s.tripThresh e)
  else decide (s.tripThresh e + h ≤ s.tripValue e)

/-- Samples for which the condition must hold; trip 15's 10 s do not fit its field (log entry 31). -/
def State.tripPersist (s : State) (e : Nat) : Nat :=
  if e = 15 then 100000 else max 1 (s.fld (R.LNT_TRIP_PERSIST e))

/-- A record of Lantern: source 12. -/
def State.lntRec (s : State) (cls code : Nat) : State := s.raise (s.mkRec cls 12 code)

/-- REFUGE by a trip: only from BOOT, NORMAL and QUIESCE (R450); in BOOT bring-up fails (R372). -/
def State.tripRefuge (s : State) : State :=
  match s.mode with
  | .boot => (s.actOn 2).bootFail 3
  | .normal => s.event 2 State.enterRefuge
  | .quiesce => s.event 2 State.enterRefuge
  | _ => s

/-- A trip fires: its record and its action (Table 21.8). -/
def State.tripFire (s : State) (e : Nat) (lamps : List Nat) : State :=
  let a := s.fld (R.LNT_TRIP_ACTION e)
  let s := s.setFld R.LNT_STATUS_ACTIVE (setBitN (s.fld R.LNT_STATUS_ACTIVE) e)
  let s := s.withPwr { s.pwr with safe := s.pwr.safe.erase e }
  let s := s.lntRec (if a < 4 then CE else FATAL) e
  match a with
  | 1 => s.setCap
  | 2 => s.setCap
  | 3 => lamps.foldl (fun s k => s.lampFault k) s
  | 4 => s.tripRefuge
  | 5 => ((s.setFld R.LNT_STATUS_LEAK_LATCH 1).setPin R.LNT_STATUS_VALVE 1 1).tripRefuge
  | 6 => (s.actOn 1).enterOff
  | _ => s

/-- Lamps on which an entry acts. -/
def State.tripLamps (s : State) (e : Nat) : List Nat :=
  if e = 12 then s.hotLamps.filter (fun k => decide (100 ≤ s.pwr.persist.get (100 + k) 0))
  else
    let src := s.fld (R.LNT_TRIP_SRC e)
    if 6 ≤ src ∧ src < 16 then [src - 6] else []

/-- One sample of one entry. -/
def State.tripEval (s : State) (e : Nat) : State :=
  if s.fld (R.LNT_TRIP_VALID e) = 0 ∨ s.mode = .off then s
  else if s.tripCond e then
    let n := s.pwr.persist.get e 0 + 1
    let s := s.withPwr { s.pwr with persist := s.pwr.persist.put e n 0, safe := s.pwr.safe.erase e }
    let again := e == 12 && !(s.tripLamps 12).isEmpty
    let go := if e = 12 then again else decide (s.tripPersist e ≤ n)
    if go && (bitN (s.fld R.LNT_STATUS_ACTIVE) e == 0) then s.tripFire e (s.tripLamps e) else s
  else
    let s := s.withPwr { s.pwr with persist := s.pwr.persist.erase e }
    if bitN (s.fld R.LNT_STATUS_ACTIVE) e = 0 then s
    else if s.tripSafe e then
      if s.pwr.safe.get e 0 = 0 then (s.withPwr { s.pwr with safe := s.pwr.safe.put e (s.now + 1) 0 }) else s
    else s.withPwr { s.pwr with safe := s.pwr.safe.erase e }

/-- Consecutive samples of each lamp above 120 %. -/
def State.lampCounts (s : State) : State :=
  let hot := s.hotLamps
  (List.range 10).foldl (fun s k =>
    let n := if hot.contains k then s.pwr.persist.get (100 + k) 0 + 1 else 0
    let m := s.pwr.persist.put (100 + k) n 0
    (s.withPwr { s.pwr with persist := m })) s

/-- One sample's inputs pass the channels' filters. -/
def State.sampleIn (s : State) (i : Inputs) : State :=
  let s := s.withNow (max s.now (s.pwr.sampAt + 100000))
  let acc := s.pwr.acc ++ [i.raw.getD 0 0 * i.raw.getD 1 0]
  let s := s.withPwr { s.pwr with sampAt := s.now, tj := i.tj, kill := i.kill, samples := s.pwr.samples + 1, acc := acc }
  (i.raw.zipIdx).foldl (fun s p => s.channel p.2 p.1) s

/-- One sample: the channels, then the trip table. -/
def State.sample (s : State) (i : Inputs) : State :=
  (List.range 24).foldl (fun s e => s.tripEval e) (s.sampleIn i).lampCounts

/-- In REFUGE an outlet above 60 °C ends in STANDBY (R452). -/
def State.refugeHot (s : State) : State :=
  if s.mode = .refuge ∧ 6000 < median ((s.rawHist 3).take 3) then (s.lntRec CE 6).enterStandby else s

/-- LANTERN_SAMPLE: one sample period of 100 us: the channels, the trip table, and in REFUGE the outlet temperature
(R452). -/
def execLanternSample (i : Inputs) (s : State) : Host.Outcome State Fault Refusal :=
  .next (
    if s.mode = .off then s else (s.sample i).refugeHot)

/-- COMPARATOR_TRIP: a comparator opens the input disconnect: trips 0, 1 and 14. -/
def execComparatorTrip (e : Nat) (s : State) : Host.Outcome State Fault Refusal :=
  .next (
    if (e = 0 ∨ e = 1 ∨ e = 14) ∧ s.mode ≠ .off then
      let s := s.withPwr { s.pwr with kill := s.pwr.kill || e == 14, inputOk := e == 14 }
      ((s.lntRec FATAL e).actOn 1).enterOff
    else s)

/-- TRIP_CLEAR: a fired entry's value has been safe for 10 s; the leak trip stays until its latch clears (R448). -/
def execTripClear (e : Nat) (s : State) : Host.Outcome State Fault Refusal :=
  .next (
    match s.pwr.safe.get e 0 with
    | 0 => s
    | t + 1 =>
      if e = 9 ∨ bitN (s.fld R.LNT_STATUS_ACTIVE) e = 0 then s
      else
        let s := (s.withNow (max s.now (t + 10000000000))).withPwr { s.pwr with safe := s.pwr.safe.erase e }
        (s.setFld R.LNT_STATUS_ACTIVE (clrBitN (s.fld R.LNT_STATUS_ACTIVE) e)).setCap)

/-- LNT_CLR.LEAK is written 1: the latch and trip 9 clear if the rope reads above 2 MΩ (R448, Table 21.15). -/
def State.leakClear (s : State) : State :=
  if 2000 < median ((s.rawHist 5).take 3) then
    ((s.setFld R.LNT_STATUS_ACTIVE (clrBitN (s.fld R.LNT_STATUS_ACTIVE) 9)).setFld R.LNT_STATUS_LEAK_LATCH 0).setPin
      R.LNT_STATUS_VALVE 1 0
  else s

/-! ## Wake, insertion, removal (R453 to R457) -/

/-- WAKE_N_EDGE: a falling edge of WAKE_N held for 1 ms; PROF_SEL reads `pins`. -/
def execWakeNEdge (pins : Nat) (s : State) : Host.Outcome State Fault Refusal := .next (s.wake pins)

/-- WAKE_PACKET: a magic packet for a MAC address. -/
def execWakePacket (mac pins : Nat) (s : State) : Host.Outcome State Fault Refusal :=
  .next (if mac = Config.mgmtMac then s.wake pins else s)

/-- The input is within 260 to 410 V. -/
def inputInRange (i : Inputs) : Bool := decide (26000 ≤ i.raw.getD 0 0) && decide (i.raw.getD 0 0 ≤ 41000)

/-- The first check of R454 that fails: 1 input, 2 flow, 3 inlet, 4 rope, 5 KILL_N; 0 none. -/
def inputFirstBad (i : Inputs) : Nat :=
  let v := i.raw
  let inlet := sextN 16 (v.getD 2 0)
  if !inputInRange i then 1
  else if v.getD 4 0 < 1600 then 2
  else if inlet < 1700 ∨ 4500 < inlet then 3
  else if v.getD 5 0 ≤ 2000 then 4
  else if i.kill then 5
  else 0

/-- The checks of step 3 of Table 21.10; BOOT when they pass. -/
def State.insertTry (s : State) (i : Inputs) (pins : Nat) : State :=
  let b := inputFirstBad i
  if b ≠ 0 then
    let s := s.withPwr { s.pwr with waitInsert := true }
    s.raise { s.mkRec CE 14 0 with detail := leBytes 1 b ++ leBytes 11 0 }
  else (s.withPwr { s.pwr with waitInsert := false }).coldBoot pins

/-- OFF is left for STANDBY with the input in range and KILL_N released (Table 1.4). -/
def State.powerUp (s : State) (i : Inputs) : State :=
  let s := s.withPwr { s.pwr with kill := i.kill, inputOk := inputInRange i }
  if s.mode = .off ∧ s.pwr.present ∧ inputInRange i ∧ !i.kill then s.enter .standby else s

/-- INSERTION: PRSNT_N asserts in an unpowered slot position (R454). -/
def execInsertion (i : Inputs) (pins : Nat) (s : State) : Host.Outcome State Fault Refusal :=
  .next (
    if s.mode ≠ .off then s
    else
      let s := (s.withPwr { s.pwr with present := true, waitInsert := true, removal := 0 }).powerUp i
      if s.mode = .standby then s.insertTry i pins else s)

/-- INSERTION_CHECK_RETRY: the checks are repeated every second. -/
def execInsertionCheckRetry (i : Inputs) (pins : Nat) (s : State) : Host.Outcome State Fault Refusal :=
  .next (
    if s.mode = .standby ∧ s.pwr.waitInsert then (s.withNow (s.now + 1000000000)).insertTry i pins else s)

/-- INPUT_IN_RANGE: the input of an OFF module is in range. -/
def execInputInRange (i : Inputs) (s : State) : Host.Outcome State Fault Refusal := .next (s.powerUp i)

/-- KILL_N_DEASSERT: KILL_N is released. -/
def execKillNDeassert (i : Inputs) (s : State) : Host.Outcome State Fault Refusal :=
  .next ((s.withPwr { s.pwr with kill := false }).powerUp { i with kill := false })

/-- EJECT_REQUEST: EJECT_REQ_N has been asserted for 10 ms. -/
def execEjectRequest (s : State) : Host.Outcome State Fault Refusal := .next s.eject

/-- REMOVAL_DRAIN_END: operations issued before the freeze have completed, or DRAIN_MS has passed: held records are sent,
then REFUGE, STANDBY and OK2RM (Table 21.11). -/
def execRemovalDrainEnd (s : State) : Host.Outcome State Fault Refusal :=
  .next (
    if s.mode = .quiesce ∧ s.pwr.removal = 3 then
      let sent := s.host.held.filterMap (fun q => s.host.store.find? (fun r => r.seq == q))
      let up : Bool := s.fld R.MGMT_STATUS_LINK_UP == 1 && s.fld R.MGMT_CTRL_ENABLE == 1
      let s := if up then
          ((s.withOut (s.out ++ sent.map Out.record)).withHost { s.host with held := [] }).setFld R.MGMT_STATUS_HELD 0
        else s
      s.enterRefuge
    else s)

/-- SURPRISE_REMOVAL: PRSNT_N deasserts: the input current is interrupted and everything is lost (R456). -/
def execSurpriseRemoval (s : State) : Host.Outcome State Fault Refusal :=
  .next (
    let s := if s.mode = .off then s else s.enterOff
    (s.withPwr { s.pwr with present := false, removal := 0, waitInsert := false }))

end Sys2Proof.Machine
end

