-- ==== Sys2Proof/Machine/Control.lean ====
section
/-! DEFINITION. Control messages (R349, R350, Table 16.6), and the Redfish, MCTP, PLDM and SPDM services of the management
port and of SMBus (R355, R356). -/

namespace Sys2Proof.Machine

/-! ## Acceptance and answer -/

/-- The fleet key in a slot; none where no key is provisioned (R363: kind 1). -/
def State.fleetKey (s : State) (k : Nat) : Option (List Byte) :=
  if 2 ≤ k then none
  else match s.sec.keys.find? (256 + k) with
    | some [] => none
    | x => x

/-- The MAC of 96 bytes under a fleet key. -/
def ctrlMac (key raw : List Byte) : Nat := Config.hmacSha256 (leNat key) (raw.take 96) % 2 ^ 256

/-- The key under which Bedrock accepts a message (R349). -/
def State.ctrlKey (s : State) (raw : List Byte) : Option (List Byte) :=
  let k := leAt raw 4 4
  match s.fleetKey k with
  | none => none
  | some key =>
    if raw.length = 128 ∧ leAt raw 16 8 = s.sec.moduleId ∧ s.host.counters.get k 0 ≤ leAt raw 8 8 ∧
        s.dripNo ≤ leAt raw 24 8 % 2 ^ 48 ∧ leAt raw 96 32 = ctrlMac key raw then some key
    else none

/-- A message is rejected: counted, with at most one record per drip. -/
def State.ctrlRej (s : State) : State :=
  let s := s.addFld R.MGMT_CNT_CTRL_REJ 1
  if s.host.rejDrip = some s.dripNo then s
  else (s.withHost { s.host with rejDrip := some s.dripNo }).ce 14

/-- The answer to an accepted message (R350): the same OP, key, COUNTER and MODULE_ID, the status in bytes 32-33, what the
operation answers from byte 34 on, and a MAC; the place of the other fields is DEDUCED, log entry 29. -/
def ctrlAnswer (key raw : List Byte) (status : Nat) (extra : List Byte) : List Byte :=
  let b := raw.take 2 ++ [0, 0] ++ (raw.drop 4).take 20 ++ List.replicate 8 0 ++ leBytes 2 status ++ extra
  let b := b ++ List.replicate (96 - b.length) 0
  b ++ leBytes 32 (ctrlMac key b)

/-- Bytes of operands that an operation has. -/
def ctrlOperands (op : Nat) : Nat :=
  match op with
  | 1 => 4
  | 3 => 2
  | 6 => 6
  | 7 => 6
  | 8 => 18
  | _ => 0

/-- The reserved and the unused bytes of a message are zero. -/
def ctrlClean (op : Nat) (raw : List Byte) : Bool :=
  ((raw.drop 2).take 2 ++ ((raw.take 96).drop (32 + ctrlOperands op))).all (fun b => b == 0)

/-- Whether Bedrock receives messages on a path: the service die runs, and the management link is up for a datagram. -/
def State.ctrlUp (s : State) (m : CtrlMsg) : Bool := s.svcUp && (m.path.isSome || s.fld R.MGMT_STATUS_LINK_UP == 1)

/-- One control message of an operation. `act` gives the status, the bytes of the answer from byte 34 on, and the state
before the answer; `after` is what follows it. A reserved OP, or a reserved byte that is not zero, is answered
BAD_OPCODE. A message whose OP names another operation is that row's. -/
def State.ctrl (s : State) (op : Nat) (m : CtrlMsg) (act : State → List Byte → State × Nat × List Byte)
    (after : State → State) : State :=
  let got := leAt m.raw 0 2
  if (1 ≤ got ∧ got ≤ 8 ∧ got ≠ op) ∨ !s.ctrlUp m then s
  else match s.ctrlKey m.raw with
    | none => s.ctrlRej
    | some key =>
      let k := leAt m.raw 4 4
      let s := s.withHost { s.host with counters := s.host.counters.put k (leAt m.raw 8 8 + 1) 0 }
      if got ≠ op ∨ !ctrlClean op m.raw then s.emit (.answer (ctrlAnswer key m.raw 1 []) m.path)
      else
        let r := act s m.raw
        let s := r.1.emit (.answer (ctrlAnswer key m.raw r.2.1 r.2.2) m.path)
        if r.2.1 = 0 then after s else s

/-! ## The operations -/

/-- LEASE_GRANT: bytes 34-39 of the answer hold the expiry drip (R430). -/
def State.msgLeaseGrant (s : State) (m : CtrlMsg) : State :=
  s.ctrl 1 m (fun s raw =>
    let s := s.leaseGrant (leAt raw 32 4)
    (s, 0, leBytes 6 (if s.fld R.FR_LEASE_STATE = 1 then s.fld R.FR_LEASE_EXPIRY else 0))) id

/-- The row of that message. -/
def execLeaseGrant (m : CtrlMsg) (s : State) : Host.Outcome State Fault Refusal :=
  .next (s.msgLeaseGrant m)

/-- FENCE_ORDER: the lease is FENCED, and NORMAL goes to QUIESCE at the next Open (R430, R431). -/
def State.msgFenceOrder (s : State) (m : CtrlMsg) : State :=
  s.ctrl 2 m (fun s _ => (s.leaseFence, 0, [])) id

/-- The row of that message. -/
def execFenceOrder (m : CtrlMsg) (s : State) : Host.Outcome State Fault Refusal :=
  .next (s.msgFenceOrder m)

/-- SET_PROFILE (R369). -/
def State.msgSetProfile (s : State) (m : CtrlMsg) : State :=
  s.ctrl 3 m (fun s raw =>
    if 3 < leAt raw 32 1 ∨ 1 < leAt raw 33 1 then (s, 1, [])
    else
      let r := s.setProfile (leAt raw 32 1) (leAt raw 33 1 == 1)
      (r.1, if r.2 then 0 else 6, [])) id

/-- The row of that message. -/
def execSetProfile (m : CtrlMsg) (s : State) : Host.Outcome State Fault Refusal :=
  .next (s.msgSetProfile m)

/-- STANDBY (R16). -/
def State.msgStandby (s : State) (m : CtrlMsg) : State :=
  s.ctrl 4 m (fun s _ => (s, 0, [])) State.cmdStandby

/-- The row of that message. -/
def execStandby (m : CtrlMsg) (s : State) : Host.Outcome State Fault Refusal :=
  .next (s.msgStandby m)

/-- RESTART (R16, R450); what PROF_SEL reads then is a free value (log entry 30). -/
def State.msgRestart (s : State) (m : CtrlMsg) : State :=
  s.ctrl 5 m (fun s _ => (s, 0, [])) (fun s =>
    let r := s.takeFree
    r.2.cmdRestart (r.1 % 4))

/-- The row of that message. -/
def execRestart (m : CtrlMsg) (s : State) : Host.Outcome State Fault Refusal :=
  .next (s.msgRestart m)

/-- BIND_NETQ: a network command queue is bound to a port, a chamber and a flow. -/
def State.msgBindNetq (s : State) (m : CtrlMsg) : State :=
  s.ctrl 6 m (fun s raw =>
    let n := leAt raw 32 2
    let p := leAt raw 34 1
    let c := leAt raw 35 1
    let f := leAt raw 36 2
    if 16 ≤ n ∨ 32 ≤ p ∨ 16 ≤ c ∨ 2048 ≤ f then (s, 1, [])
    else if s.fld (R.FR_CHAMBER_STATE c) = 0 then (s, 4, [])
    else ((s.withHost { s.host with netqs := s.host.netqs.ins n ⟨p, c, f, []⟩ }), 0, [])) id

/-- The row of that message. -/
def execBindNetq (m : CtrlMsg) (s : State) : Host.Outcome State Fault Refusal :=
  .next (s.msgBindNetq m)

/-- RESEND: the records named that are still in the store wait to be sent again (R352). -/
def State.msgResend (s : State) (m : CtrlMsg) : State :=
  s.ctrl 7 m (fun s raw =>
    let first := leAt raw 32 4
    let n := leAt raw 36 2
    if n = 0 ∨ 4096 < n then (s, 1, [])
    else
      let found := (s.host.store.filter (fun r => decide ((r.seq + 2 ^ 32 - first) % 2 ^ 32 < n))).map (·.seq)
      let held := s.host.held ++ found.filter (fun q => !s.host.held.contains q)
      let s := (s.withHost { s.host with held := held }).setFld R.MGMT_STATUS_HELD (min held.length 0xFFFF)
      (s, 0, leBytes 4 found.length)) id

/-- The row of that message. -/
def execResend (m : CtrlMsg) (s : State) : Host.Outcome State Fault Refusal :=
  .next (s.msgResend m)

/-- COLLECTOR: the address of the collector, most significant byte first, and its port. -/
def State.msgCollector (s : State) (m : CtrlMsg) : State :=
  s.ctrl 8 m (fun s raw =>
    let s := (s.setReg (R.MGMT_COLLECT 0) (BitVec.ofNat 64 (beNat ((raw.drop 32).take 8)))).setReg (R.MGMT_COLLECT 1)
      (BitVec.ofNat 64 (beNat ((raw.drop 40).take 8)))
    (s.setFld R.MGMT_CTRL_REC_PORT (leAt raw 48 2), 0, [])) id

/-- The row of that message. -/
def execCollector (m : CtrlMsg) (s : State) : Host.Outcome State Fault Refusal :=
  .next (s.msgCollector m)

/-! ## Redfish (R355) -/

/-- The management port serves requests. -/
def State.mgmtUp (s : State) : Bool := s.svcUp && s.fld R.MGMT_STATUS_LINK_UP == 1

/-- The image of a component that booted. -/
def State.bootedImage (s : State) (comp : Nat) : List Byte :=
  let slot := s.sec.booted.get comp 0
  (s.sec.images.find? (8 * comp + slot)).getD (Config.factoryImage comp slot)

/-- The numbers in a resource of Table 16.9, by its place in the table. -/
def State.redfishBody (s : State) (r : Nat) : List Nat :=
  match r with
  | 1 => [s.mode.code, s.fld R.LCP_STATUS_LC_STATE]
  | 2 => (List.range 16).map (fun c => s.fld (R.LNT_CH_VALUE c)) ++ (List.range 16).map (fun d => s.fld (R.PWR_DIE_TJ d)) ++
      (List.range 32).map (fun k => s.fld (R.MS_STATUS_TEMP k))
  | 3 => [leAt (s.bootedImage 1) 8 8, leAt (s.bootedImage 2) 8 8, leAt (s.bootedImage 3) 8 8,
      (s.reg (R.MGMT_COLLECT 0)).toNat, (s.reg (R.MGMT_COLLECT 1)).toNat, s.fld R.MGMT_CTRL_REC_PORT]
  | 4 => s.host.store.map (fun r => leNat r.bytes)
  | 5 => s.host.subs.map (·.1)
  | 6 => [s.fld R.PROF_STATUS_IN_FORCE, s.fld R.PROF_STATUS_PEND_VALID, s.fld R.PROF_STATUS_PENDING]
  | 7 => [s.fld R.FR_LEASE_STATE, s.fld R.FR_LEASE_EXPIRY]
  | 8 => [s.fld R.HLT_MODULE_SCORE, s.fld R.HLT_MODULE_MEAN, s.fld R.HLT_MODULE_SPARES]
  | _ => []

/-- REDFISH_GET: a resource of Table 16.9. -/
def execRedfishGet (r : Nat) (s : State) : Host.Outcome State Fault Refusal :=
  .next (if s.mgmtUp then s.emit (.redfish 200 (s.redfishBody r)) else s)

/-- REDFISH_SET_PROFILE: the action SetProfile; 409 where it ends with BAD_IMAGE (R369). -/
def execRedfishSetProfile (prof : Nat) (now : Bool) (s : State) : Host.Outcome State Fault Refusal :=
  .next (
    if s.mgmtUp then
      let r := s.setProfile prof now
      r.1.emit (.redfish (if r.2 then 200 else 409) [])
    else s)

/-- EVENT_SUBSCRIPTION_CREATE: records are pushed to a subscriber from now on. -/
def execEventSubscriptionCreate (dest : Nat) (s : State) : Host.Outcome State Fault Refusal :=
  .next (
    if s.mgmtUp then
      let n := s.host.nextSub
      (s.withHost { s.host with subs := s.host.subs ++ [(n, dest)], nextSub := n + 1 }).emit (.redfish 201 [n])
    else s)

/-- EVENT_SUBSCRIPTION_DELETE: a subscription ends; 404 where there is none of that number. -/
def execEventSubscriptionDelete (id : Nat) (s : State) : Host.Outcome State Fault Refusal :=
  .next (
    if s.mgmtUp then
      if s.host.subs.any (fun x => x.1 == id) then
        (s.withHost { s.host with subs := s.host.subs.filter (fun x => x.1 != id) }).emit (.redfish 204 [])
      else s.emit (.redfish 404 [])
    else s)

/-! ## MCTP and PLDM (R356) -/

/-- SET_ENDPOINT_ID by the bus owner: 0 and 255 name no endpoint. -/
def execSetEndpointId (eid : Nat) (s : State) : Host.Outcome State Fault Refusal :=
  .next (
    if !s.svcUp then s
    else if eid = 0 ∨ eid = 255 then s.emit (.mctp [2])
    else (s.withHost { s.host with eid := eid }).emit (.mctp ([0, 0] ++ leBytes 1 eid)))

/-- GET_ENDPOINT_ID. -/
def execGetEndpointId (s : State) : Host.Outcome State Fault Refusal :=
  .next (if s.svcUp then s.emit (.mctp ([0] ++ leBytes 1 s.host.eid)) else s)

/-- GET_MESSAGE_TYPE_SUPPORT: MCTP control, PLDM, SPDM. -/
def execGetMessageTypeSupport (s : State) : Host.Outcome State Fault Refusal :=
  .next (if s.svcUp then s.emit (.mctp [0, 3, 0, 1, 5]) else s)

/-- An image of a component passes R360 with its key, hash, member and floor. -/
def State.imagePasses (s : State) (comp : Nat) (img : List Byte) : Bool :=
  let key := leAt img 6 1
  leAt img 0 4 == 0x4B545649 && leAt img 4 1 == comp && leAt img 5 1 == 9 && decide (key < 4) &&
    !Config.keapelRevoked key && decide (leAt img 20 4 = img.length - 512) && decide (512 ≤ img.length) &&
    Config.ecdsaVerify (Config.keapelKey key) (Config.sha384 (img.take 416)) (leAt img 416 96) &&
    leAt img 32 48 == Config.sha384 (img.drop 512) % 2 ^ 384 &&
    decide (s.sec.floors.get comp 0 ≤ leAt img 16 4)

/-- PLDM_FIRMWARE_UPDATE: the image, if Bedrock's checks pass, is staged in the slot that did not boot; it takes effect at the
next cold boot (R361). -/
def execPldmFirmwareUpdate (comp : Nat) (image : List Byte) (s : State) : Host.Outcome State Fault Refusal :=
  .next (
    if !s.svcUp then s
    else if 1 ≤ comp ∧ comp ≤ 4 ∧ s.imagePasses comp image then
      let slot := 1 - s.sec.booted.get comp 0
      (s.withSec { s.sec with images := s.sec.images.ins (8 * comp + slot) image }).emit (.mctp [0])
    else s.emit (.mctp [1]))

/-- PLDM_EVENT_ACKNOWLEDGE: the oldest event message is acknowledged; ALERT_N is released when none is left. -/
def execPldmEventAcknowledge (s : State) : Host.Outcome State Fault Refusal :=
  .next (
    if !s.svcUp ∨ s.host.events.isEmpty then s
    else
      let es := s.host.events.drop 1
      let s := s.withHost { s.host with events := es }
      if es.isEmpty then s.emit (.pin 2 false) else s)

/-! ## SPDM 1.3 (R356) -/

/-- A request that needs `need` steps of the handshake behind it: the response, and the step it reaches. A request out of
order is answered with an error. -/
def State.spdm (s : State) (need reach : Nat) (body : List Byte) : State :=
  if !s.svcUp then s
  else if s.host.spdm < need then s.emit (.spdm [0x13, 0x7F, 4, 0])
  else (s.withHost { s.host with spdm := if reach = 0 then s.host.spdm else reach }).emit (.spdm ([0x13] ++ body))

/-- GET_VERSION: 1.3; the handshake starts anew. -/
def execGetVersion (s : State) : Host.Outcome State Fault Refusal := .next (s.spdm 0 1 [0x04, 0, 0, 0, 1, 0x00, 0x13])

/-- GET_CAPABILITIES: certificates, challenge, measurements with a signature. -/
def execGetCapabilities (s : State) : Host.Outcome State Fault Refusal := .next (s.spdm 1 2 [0x61, 0, 0])

/-- NEGOTIATE_ALGORITHMS: ECDSA P-384 and SHA-384 and no others. -/
def execNegotiateAlgorithms (ecdsaP384 sha384 : Bool) (s : State) : Host.Outcome State Fault Refusal :=
  .next (
    if ecdsaP384 && sha384 then s.spdm 2 3 [0x63, 0, 0]
    else s.spdm 2 0 [0x7F, 1, 0])

/-- The digest of the certificate chain in slot 0. -/
def certDigest : List Byte := leBytes 48 (Config.sha384 Config.deviceCert)

/-- GET_DIGESTS: the digest of the chain in slot 0. -/
def execGetDigests (s : State) : Host.Outcome State Fault Refusal := .next (s.spdm 3 0 ([0x01, 0, 1] ++ certDigest))

/-- GET_CERTIFICATE: a part of the device certificate chain. -/
def execGetCertificate (off len : Nat) (s : State) : Host.Outcome State Fault Refusal :=
  .next (s.spdm 3 0 ([0x02, 0, 0] ++ (Config.deviceCert.drop off).take len))

/-- CHALLENGE: signed with the device key over the nonce and the chain's digest. -/
def execChallenge (nonce : List Byte) (s : State) : Host.Outcome State Fault Refusal :=
  .next (s.spdm 3 0 ([0x03, 0, 1] ++ certDigest ++
    leBytes 96 (Config.ecdsaSign Config.deviceKey (Config.sha384 (nonce ++ certDigest)))))

/-- A measurement register: 48 bytes, zero until extended. -/
def State.measure (s : State) (i : Nat) : List Byte := s.sec.meas.get i (List.replicate 48 0)

/-- GET_MEASUREMENTS: index i + 1 returns register i; 0 asks how many there are, 255 for all (R362). -/
def execGetMeasurements (i : Nat) (s : State) : Host.Outcome State Fault Refusal :=
  .next (
    if i = 0 then s.spdm 3 0 [0x60, 8, 0]
    else if i = 255 then s.spdm 3 0 ([0x60, 0, 8] ++ (List.range 8).flatMap s.measure)
    else if i ≤ 8 then s.spdm 3 0 ([0x60, 0, 1] ++ s.measure (i - 1))
    else s.spdm 3 0 [0x7F, 1, 0])

end Sys2Proof.Machine
end

