-- ==== Sys2Proof/Machine/Bedrock.lean ====
section
/-! DEFINITION. The Bedrock calls (R359, Tables 17.2 and 17.3): their queue, and the effect of each. A call's operands stand
for the fields of its argument block, whose layout the manual does not give (log entry 30). -/

namespace Sys2Proof.Machine

/-! ## Status (Table 17.3) -/

def bOk : Nat := 0
def bBadArg : Nat := 2
def bNotOwner : Nat := 3
def bState : Nat := 4
def bLifecycle : Nat := 5
def bBudget : Nat := 6
def bAuth : Nat := 7
def bBadImage : Nat := 8

/-! ## The queue (R359) -/

/-- The argument block of a call is aligned and lies in Flowstone's range (R358, R359). -/
def argOk (addr : Nat) : Bool := addr % 64 == 0 && decide (0x80000 ≤ addr) && decide (addr + 64 ≤ 0x400000)

/-- The status reaches the caller's D, if its context still waits for it (R359, R210). -/
def State.bcallEnd (s : State) (c : BCall) (st : Nat) : State :=
  let x := s.mctx c.ctx
  if x.st = .stalled (.bcall c.d) then
    s.setMctx c.ctx { x with st := .ready, s := if c.d = 0 then x.s else x.s.put c.d (BitVec.ofNat 64 st) 0 }
  else s

/-- Bedrock serves the call at the front of its queue, when that call has this number; with an empty queue the call is
Flowstone's own and its status leaves the model (log entry 30). A call that fails validation changes nothing. -/
def State.bcall (s : State) (num : Nat) (act : State → State × Nat) : State :=
  if !s.svcUp then s
  else match s.sec.calls with
    | [] =>
      let r := act s
      (if r.2 = bOk then r.1 else s).emit (.bcall num r.2)
    | c :: cs =>
      if c.num ≠ num then s
      else
        let s := s.withSec { s.sec with calls := cs }
        if !argOk c.addr then s.bcallEnd c bBadArg
        else
          let r := act s
          (if r.2 = bOk then r.1 else s).bcallEnd c r.2

/-! ## The repair log (R394) -/

/-- A site is retired: its kind-4 entry is present. -/
def State.retired (s : State) (site : Nat) : Bool := s.sec.log.any (fun e => e.kind == 4 && e.site == site)

/-- Entries of a die. -/
def State.dieLog (s : State) (d : Nat) : List LogEnt := s.sec.log.filter (fun e => dieOf e.site == d)

/-- The log of a site's die has room for `n` entries more. -/
def State.logRoom (s : State) (site n : Nat) : Bool := decide ((s.dieLog (dieOf site)).length + n ≤ 256)

/-- An entry is written. -/
def State.logAdd (s : State) (kind site unit repl : Nat) : State :=
  s.withSec { s.sec with log := s.sec.log ++ [⟨kind, site, unit, repl, false, s.dripNo, 1⟩] }

/-- Soft entries of a kind and a unit range of a site are replaced by others. -/
def State.logSet (s : State) (kind site lo hi : Nat) (es : List (Nat × Nat)) : State :=
  let keep := s.sec.log.filter (fun e => !(e.kind == kind && e.site == site && decide (lo ≤ e.unit) && decide (e.unit < hi) && !e.fuse))
  let new := es.map (fun p => (⟨kind, site, p.1, p.2, false, s.dripNo, 1⟩ : LogEnt))
  s.withSec { s.sec with log := keep ++ new }

/-! ## 1 FENCE, 2 BYPASS (R57, R108, R275, R382) -/

/-- A gallery is powered: its state is not OFF. -/
def State.galOn (s : State) (site : Nat) : Bool := s.fld (R.GAL_STATUS_STATE site) != 0

/-- A site's endpoints are fenced, or unfenced; a repaired site that is unfenced has a clear ladder at rung 0 (Table 19.4). -/
def State.galFence (s : State) (site : Nat) (on : Bool) : State :=
  if on then
    let s := s.setFld (R.GAL_CTRL_FENCE site) 1
    (if (s.gr site).busy then s else s.setFld (R.GAL_STATUS_STATE site) 3).rtrFence site true
  else if s.fld (R.GAL_CTRL_FENCE site) = 0 then s
  else
    let s := (s.setFld (R.GAL_CTRL_FENCE site) 0).rtrFence site false
    let s := if (s.gr site).busy then s
      else s.setFld (R.GAL_STATUS_STATE site) (if s.fld (R.GAL_CTRL_ENABLE site) = 1 then 2 else 1)
    ((s.setFld (R.TR_LADDER_SUSPECT site) 0).setFld (R.TR_LADDER_WATCH_LEFT site) 0).setRung site 0

/-- The physical core that a logical core runs on. -/
def State.physOf (s : State) (site core : Nat) : Nat := s.fld (R.GAL_CORE_MAP_PHYS site (core / 8) (core % 8))

/-- A core is fenced, which ends the tasks on it, or unfenced (R57). -/
def State.coreFence (s : State) (site core : Nat) (on : Bool) : State :=
  let was := s.fld (R.CORE_CTRL_FENCE site core)
  let s := s.setFld (R.CORE_CTRL_FENCE site core) (b2n on)
  if on && was == 0 then s.loseCore site core else s

/-- An MXE is fenced or unfenced. -/
def State.mxeFenceTo (s : State) (site j : Nat) (on : Bool) : State :=
  if on then s.mxeFence site j else s.setFld (R.MXE_CTRL_FENCE site j) 0

/-- FENCE of a unit: kinds 0 gallery, 1 core, 2 MXE, 3 router, 4 stack, 5 port, in the order of Table 17.2. -/
def State.callFence (s : State) (kind id sub : Nat) (on : Bool) : State × Nat :=
  let gal (ok : Bool) (faulty : Bool) (f : State) : State × Nat :=
    if !isGallerySite id || !ok then (s, bBadArg)
    else if !s.galOn id || (!on && faulty) then (s, bState)
    else (f, bOk)
  match kind with
  | 0 => gal true (s.retired id) (s.galFence id on)
  | 1 => gal (decide (sub < 32)) (bitN (s.fld (R.GAL_CORE_FAULT_FAULT id)) (s.physOf id sub) == 1) (s.coreFence id sub on)
  | 2 => gal (decide (sub < 2)) (s.fld (R.MXE_STATUS_STATE id sub) == 5) (s.mxeFenceTo id sub on)
  | 3 => if id < 480 then (s.rtrFence id on, bOk) else (s, bBadArg)
  | 4 => if id < 32 then (s.rtrFence (siteOfStack id) on, bOk) else (s, bBadArg)
  | 5 => if id < 32 then (s.rtrFence (448 + id) on, bOk) else (s, bBadArg)
  | _ => (s, bBadArg)

/-- Bedrock call 1, FENCE. -/
def execFence (kind id sub : Nat) (on : Bool) (s : State) : Host.Outcome State Fault Refusal :=
  .next (s.bcall 1 (fun s => s.callFence kind id sub on))

/-- Bedrock call 2, BYPASS (Table 12.4). -/
def execBypass (node : Nat) (on : Bool) (s : State) : Host.Outcome State Fault Refusal :=
  .next (s.bcall 2 (fun s =>
    if 480 ≤ node then (s, bBadArg)
    else if on ∧ s.rtrState node ≠ 1 then (s, bState)
    else match s.rtrBypass node on with
      | some s => (s, bOk)
      | none => (s, bState)))

/-! ## 3 CORE_MAP, 4 MXE_COLMAP (R56, R130) -/

/-- Entry `k` of four map words: valid, and physical core. -/
def mapEntry (ws : List Word) (k : Nat) : Bool × Nat :=
  let w := ws.getD (k / 8) 0
  (getBits w (8 * (k % 8) + 7) 1 == 1, getBits w (8 * (k % 8)) 6)

/-- A core map obeys R56 beside the gallery's state: no physical core twice, none faulty, none beyond 33. -/
def State.coreMapOk (s : State) (site : Nat) (ws : List Word) : Bool :=
  let ps := ((List.range 32).filter (fun k => (mapEntry ws k).1)).map (fun k => (mapEntry ws k).2)
  ps.all (fun p => decide (p < 34) && bitN (s.fld (R.GAL_CORE_FAULT_FAULT site)) p == 0) && !twice ps

/-- A core map is written; logical cores that do not run on their own physical core are in the repair log. -/
def State.coreMapSet (s : State) (site : Nat) (ws : List Word) : State :=
  let s := (List.range 4).foldl (fun s m => s.setReg (R.GAL_CORE_MAP site m) (ws.getD m 0 &&& 0xBFBFBFBFBFBFBFBF)) s
  let es := ((List.range 32).filter (fun k => (mapEntry ws k).1 && (mapEntry ws k).2 != k)).map
    (fun k => (k, (mapEntry ws k).2))
  s.logSet 1 site 0 32 es

/-- Bedrock call 3, CORE_MAP. -/
def execCoreMap (site : Nat) (w0 w1 w2 w3 : Word) (s : State) : Host.Outcome State Fault Refusal :=
  .next (s.bcall 3 (fun s =>
    let ws := [w0, w1, w2, w3]
    if !isGallerySite site then (s, bBadArg)
    else if s.fld (R.GAL_STATUS_STATE site) ≠ 1 then (s, bState)
    else if !s.coreMapOk site ws then (s, bBadArg)
    else if !s.logRoom site 2 then (s, bBudget)
    else (s.coreMapSet site ws, bOk)))

/-- The two entries that a write of a column map leaves: one set by fuse keeps its value. -/
def State.colEntries (s : State) (site j : Nat) (v : Word) : Nat × Nat :=
  let old := s.reg (R.MXE_COL_MAP site j)
  (if getBits old 14 1 = 1 then getBits old 0 16 else getBits v 0 16 &&& 0x807F,
    if getBits old 30 1 = 1 then getBits old 16 16 else getBits v 16 16 &&& 0x807F)

/-- A column map obeys R130 beside the gallery's state, judged as the write would leave it: no data column in both entries; no
column, data or spare, whose fault bit is 1. A fused entry, which a write leaves as it is, is not judged anew. -/
def State.colMapOk (s : State) (site j : Nat) (v : Word) : Bool :=
  let bad (c : Nat) : Bool := getBits (s.reg (R.MXE_COL_FAULT site j (c / 64))) (c % 64) 1 == 1
  let (e0, e1) := s.colEntries site j v
  let on (e : Nat) : Bool := bitN e 15 == 1
  let faulty (e spare : Nat) : Bool := on e && bitN e 14 == 0 && (bad (e % 128) || bad spare)
  !(on e0 && on e1 && e0 % 128 == e1 % 128) && !faulty e0 129 && !faulty e1 130

/-- A column map is written. -/
def State.colMapSet (s : State) (site j : Nat) (v : Word) : State :=
  let (e0, e1) := s.colEntries site j v
  let s := s.setReg (R.MXE_COL_MAP site j) (BitVec.ofNat 64 (e0 + 65536 * e1))
  let es := (if 0x8000 ≤ e0 ∧ e0 < 0xC000 then [(256 * j + e0 % 128, 129)] else []) ++
    (if 0x8000 ≤ e1 ∧ e1 < 0xC000 then [(256 * j + e1 % 128, 130)] else [])
  s.logSet 2 site (256 * j) (256 * j + 256) es

/-- Bedrock call 4, MXE_COLMAP. -/
def execMxeColmap (site j : Nat) (v : Word) (s : State) : Host.Outcome State Fault Refusal :=
  .next (s.bcall 4 (fun s =>
    if !isGallerySite site ∨ 2 ≤ j then (s, bBadArg)
    else if s.fld (R.GAL_STATUS_STATE site) ≠ 1 then (s, bState)
    else if !s.colMapOk site j v then (s, bBadArg)
    else if !s.logRoom site 2 then (s, bBudget)
    else (s.colMapSet site j v, bOk)))

/-! ## 5 GAL_STEP, 6 CHAMBER_RESET, 7 ASSIGN, 8 REGION -/

/-- Bedrock call 5, GAL_STEP: the ladder moves to the rung that the two steps add up to (R402, R404; log entry 30). -/
def execGalStep (site volt clk : Nat) (s : State) : Host.Outcome State Fault Refusal :=
  .next (s.bcall 5 (fun s =>
    let (v, c) := s.ladderLimits site
    if !isGallerySite site ∨ v < volt ∨ c < clk then (s, bBadArg)
    else if !s.galOn site then (s, bState)
    else (s.setRung site (volt + clk), bOk)))

/-- Bedrock call 6, CHAMBER_RESET: answered as the reset begins, or is held or absorbed (R379). -/
def execChamberReset (c : Nat) (s : State) : Host.Outcome State Fault Refusal :=
  .next (s.bcall 6 (fun s =>
    if 16 ≤ c ∨ s.fld (R.FR_CHAMBER_STATE c) = 0 then (s, bBadArg) else (s.chRequest c CE 0 false, bOk)))

/-- A gallery changes hands: the hand-over of R80 begins, at whose clean end it is the new chamber's (R81). -/
def State.assignGal (s : State) (site : Nat) (ch : Option Nat) : State :=
  let n := match ch with
    | some c => c + 1
    | none => 0
  (s.withSec { s.sec with toCh := s.sec.toCh.put site (n + 1) 0 }).handOver site

/-- A gallery whose hand-over by ASSIGN has ended clean is its new chamber's, with its ladder's limits. -/
def State.handedOver (s : State) (site : Nat) : State :=
  match s.sec.toCh.get site 0 with
  | 0 => s
  | n + 1 => (s.withSec { s.sec with siteCh := s.sec.siteCh.put site n 0, toCh := s.sec.toCh.erase site }).setTop site

/-- A scrub in progress ends, and with it a hand-over by ASSIGN unless it has failed. -/
def State.scrubDone (s : State) (site : Nat) (clean : Bool) : State :=
  let on : Bool := s.fld (R.GM_SCRUB_STATE site) == 2
  let s := s.scrubEnd site clean
  if on && clean then s.handedOver site else s

/-- SCRUB_COMPLETE: the fill and the read-back of a hand-over are over. -/
def execScrubComplete (site : Nat) (clean : Bool) (s : State) : Host.Outcome State Fault Refusal :=
  .next (s.scrubDone site clean)

/-- Bedrock call 7, ASSIGN (R366): a gallery in RESET, for a chamber that the profile marks valid, or for none. -/
def execAssign (site : Nat) (ch : Option Nat) (s : State) : Host.Outcome State Fault Refusal :=
  .next (s.bcall 7 (fun s =>
    let known : Bool := match ch with
      | some c => decide (c < 16) && prChValid s.sec.profile c
      | none => true
    if !isGallerySite site then (s, bBadArg)
    else if !known then (s, bNotOwner)
    else if s.fld (R.GAL_STATUS_STATE site) ≠ 1 ∨ (ch.isSome ∧ (s.retired site ∨ !s.siteFit site)) then (s, bState)
    else (s.assignGal site ch, bOk)))

/-- The region table's valid entries but one. -/
def State.otherRegions (s : State) (n : Nat) : List Nat :=
  s.regions.filterMap (fun p => if p.1 = n then none else some p.2.toNat)

/-- The rules of R290 on a write of a region entry. -/
def State.regionOk (s : State) (n v : Nat) : Bool :=
  let old := s.reg (R.MSMAP_REGION n)
  let (a, b, _, _) := regionUnits v
  let free := getBits old 63 1 == 0 || s.fld (R.FR_CHAMBER_STATE (getBits old 52 4)) == 2
  let failed := (List.range 32).any (fun k => decide (a ≤ k) && decide (k ≤ b) && s.fld (R.MS_STATUS_STATE k) == 4)
  free && (bitN v 63 == 0 || (regionForm v && !failed && (s.otherRegions n).all (fun w => !regionsMeet v w)))

/-- Bedrock call 8, REGION (R290, R366). -/
def execRegion (n : Nat) (v : Word) (s : State) : Host.Outcome State Fault Refusal :=
  .next (s.bcall 8 (fun s =>
    let w := v &&& 0xFFF00000000001FF
    if 512 ≤ n then (s, bBadArg)
    else if getBits w 63 1 = 1 ∧ !prChValid s.sec.profile (getBits w 52 4) then (s, bNotOwner)
    else if !s.regionOk n w.toNat then (s, bState)
    else (s.setReg (R.MSMAP_REGION n) w, bOk)))

/-! ## 9 BIST_RUN, 10 FUSE_REPAIR (R364, R395, R410) -/

/-- The 128 MiB units of READY stacks that no valid region uses: stack and unit. -/
def State.freeUnits (s : State) : List (Nat × Nat) :=
  let rs := (s.regions.map (fun p => p.2.toNat)).filter (fun v => bitN v 63 == 1)
  ((List.range 32).filter (fun k => s.fld (R.MS_STATUS_STATE k) == 2)).flatMap (fun k =>
    ((List.range 512).filter (fun u => rs.all (fun v =>
      let (a, b, c, d) := regionUnits v
      !(decide (a ≤ k) && decide (k ≤ b) && decide (c ≤ u) && decide (u ≤ d))))).map (fun u => (k, u)))

/-- Zero is written over a stack unit of 128 MiB. -/
def State.zeroUnit (s : State) (p : Nat × Nat) : State :=
  let lo := p.2 * 0x8000000
  let s := s.zeroRange (stackKey p.1 lo) (stackKey p.1 (lo + 0x8000000))
  s.withPoison (s.poison.filter (fun x => decide (x.1 < unitKey p.1 lo) || decide (unitKey p.1 (lo + 0x8000000) ≤ x.1)))

/-- A faulty column of an MXE: its fault bit, and FAILED where the witness column is faulty, or more data columns are that no
entry replaces than spares are free: not faulty and in no valid entry (R107). -/
def State.badColumn (s : State) (site j c : Nat) : State :=
  let a := R.MXE_COL_FAULT site j (c / 64)
  let s := s.setReg a (s.reg a ||| BitVec.ofNat 64 (1 <<< (c % 64)))
  let faulty (k : Nat) : Bool := getBits (s.reg (R.MXE_COL_FAULT site j (k / 64))) (k % 64) 1 == 1
  let m := s.reg (R.MXE_COL_MAP site j)
  let on (e : Nat) : Bool := getBits m (16 * e + 15) 1 == 1
  let named (k : Nat) : Bool := [0, 1].any (fun e => on e && !faulty (129 + e) && getBits m (16 * e) 7 == k)
  let bad := ((List.range 128).filter (fun k => faulty k && !named k)).length
  let free := ([0, 1].filter (fun e => !on e && !faulty (129 + e))).length
  if c = 128 ∨ free < bad then s.setFld (R.MXE_STATUS_STATE site j) 5 else s

/-- A faulty line of a slice takes a spare line, or the site is retired (R396). -/
def State.badLine (s : State) (site slice line : Nat) : State :=
  let k := 32 * site + slice
  let n := s.tst.spareLines.get k 0
  if n < 16 then
    (s.withTst { s.tst with spareLines := s.tst.spareLines.put k (n + 1) 0 }).logAdd 3 site (16384 * slice + line) n
  else if s.retired site then s
  else s.logAdd 4 site 0 0

/-- One failing item of a unit's test: a physical core; a column of an MXE, or from 131 on one of its data rows or its witness
row, which nothing replaces (R107); a straw row; a line (16384 * slice + line). -/
def State.bistItem (s : State) (site unit j x : Nat) : State :=
  match unit with
  | 1 => s.setFld (R.GAL_CORE_FAULT_FAULT site) (setBitN (s.fld (R.GAL_CORE_FAULT_FAULT site)) (x % 34))
  | 2 => if x % 512 < 131 then s.badColumn site j (x % 512) else s.setFld (R.MXE_STATUS_STATE site j) 5
  | 3 => if s.retired site then s else s.logAdd 4 site 0 0
  | 4 => s.badLine site (x / 16384 % 32) (x % 10240)
  | _ => s

/-- The results of a test; an item of a whole-site test is 2^24 * unit + 2^20 * MXE + the item (log entry 32). -/
def State.bistItems (s : State) (site unit idx : Nat) (bad : List Nat) : State :=
  bad.foldl (fun s x =>
    if unit = 0 then s.bistItem site (x / 2 ^ 24) (x / 2 ^ 20 % 2) (x % 2 ^ 20)
    else if unit = 1 then s.bistItem site 1 0 idx
    else s.bistItem site unit idx x) s

/-- BIST_RUN of one unit of a site: 0 the whole site, 1 a core, 2 an MXE, 3 the curtain, 4 the slices. -/
def State.callBist (s : State) (site unit idx : Nat) (bad : List Nat) : State × Nat :=
  let lc := s.fld R.LCP_STATUS_LC_STATE
  let moving : Bool := match s.tst.moveOn with
    | some (a, _) => a == site
    | none => false
  if !isGallerySite site ∨ 4 < unit ∨ (unit = 1 ∧ 34 ≤ idx) ∨ (unit = 2 ∧ 2 ≤ idx) then (s, bBadArg)
  else if lc = 4 then (s, bLifecycle)
  else if ((lc = 1 ∨ lc = 2) ∧ s.fld (R.GAL_CTRL_FENCE site) = 0) ∨ !s.galOn site ∨ moving then (s, bState)
  else match s.freeUnits with
    | u :: v :: _ =>
      if s.logRoom site (min bad.length 64) then (((s.bistItems site unit idx (bad.take 64)).zeroUnit u).zeroUnit v, bOk)
      else (s, bBudget)
    | _ => (s, bState)

/-- Bedrock call 9, BIST_RUN (R410). -/
def execBistRun (site unit idx : Nat) (bad : List Nat) (s : State) : Host.Outcome State Fault Refusal :=
  .next (s.bcall 9 (fun s => s.callBist site unit idx bad))

/-- Entry `e` of a die's log is burned as a fuse. -/
def fuseLog (d : Nat) : Nat → List LogEnt → List LogEnt
  | _, [] => []
  | e, x :: xs =>
    if dieOf x.site = d then
      match e with
      | 0 => { x with fuse := true } :: xs
      | n + 1 => x :: fuseLog d n xs
    else x :: fuseLog d e xs

/-- FUSE_REPAIR: an entry of a die's repair log is made permanent from the next cold boot on (R395). -/
def State.callFuse (s : State) (die entry : Nat) : State × Nat :=
  let lc := s.fld R.LCP_STATUS_LC_STATE
  let left := s.sub (R.TRM_FUSE (die / 8)) 7 (die % 8)
  if 16 ≤ die then (s, bBadArg)
  else match (s.dieLog die)[entry]? with
    | none => (s, bBadArg)
    | some e =>
      if lc = 4 then (s, bLifecycle)
      else if e.fuse then (s, bState)
      else if lc ≠ 0 ∧ left = 0 then (s, bBudget)
      else
        let s := s.withSec { s.sec with log := fuseLog die entry s.sec.log }
        (if lc = 0 then s else s.setSub (R.TRM_FUSE (die / 8)) 7 (die % 8) (left - 1), bOk)

/-- Bedrock call 10, FUSE_REPAIR. -/
def execFuseRepair (die entry : Nat) (s : State) : Host.Outcome State Fault Refusal :=
  .next (s.bcall 10 (fun s => s.callFuse die entry))

/-! ## 11 KEY_LOAD (R363) -/

/-- KEY0, KEY1 and OWNER_KEY follow the keys held. -/
def State.keyBits (s : State) : State :=
  let has (k : Nat) : Nat := b2n (!(s.sec.keys.get k []).isEmpty)
  ((s.setFld R.LCP_STATUS_KEY0 (has 256)).setFld R.LCP_STATUS_KEY1 (has 257)).setFld R.LCP_STATUS_OWNER_KEY (has 0)

/-- A key is installed in a slot; kind 0 is the owner key. A fleet key starts with a fresh COUNTER. -/
def State.keyPut (s : State) (kind slot ctr : Nat) (key : List Byte) : State :=
  let k := 256 * kind + slot
  let s := s.withSec { s.sec with keys := s.sec.keys.put k key [], keyCtr := s.sec.keyCtr.put k (ctr + 1) 0 }
  let s := if kind = 1 then (s.withHost { s.host with counters := s.host.counters.erase slot }) else s
  s.keyBits

/-- KEY_LOAD from a blob in flash. The owner key is installed once, in PROVISION, under its own signature (log entry 10). -/
def State.callKey (s : State) (addr : Nat) : State × Nat :=
  let lc := s.fld R.LCP_STATUS_LC_STATE
  match Config.openBlob (s.rdBytes (flashKey addr) 512) with
  | none => (s, bAuth)
  | some (kind, slot, mod, ctr, key, digest, sig) =>
    let slots := match kind with
      | 0 => 1
      | 1 => 2
      | 2 => 8
      | 3 => 16
      | _ => 0
    let signer := if kind = 0 then leNat key else leNat (s.sec.keys.get 0 [])
    let allowed : Bool := if kind = 0 then lc == 1 && s.fld R.LCP_STATUS_OWNER_KEY == 0 else lc == 1 || lc == 2
    if slots ≤ slot ∨ (kind = 1 ∧ !key.isEmpty ∧ key.length ≠ 32) then (s, bBadArg)
    else if !allowed then (s, bLifecycle)
    else if mod ≠ s.sec.moduleId ∨ ctr < s.sec.keyCtr.get (256 * kind + slot) 0 ∨ !Config.ecdsaVerify signer digest sig then
      (s, bAuth)
    else (s.keyPut kind slot ctr key, bOk)

/-- Bedrock call 11, KEY_LOAD. -/
def execKeyLoad (addr : Nat) (s : State) : Host.Outcome State Fault Refusal :=
  .next (s.bcall 11 (fun s => s.callKey addr))

/-! ## 12 PROFILE_WRITE, 13 SET_PROFILE (R367, R369) -/

/-- Bedrock call 12, PROFILE_WRITE: a slot of flash takes a record that passes every check of R367. -/
def execProfileWrite (slot addr : Nat) (s : State) : Host.Outcome State Fault Refusal :=
  .next (s.bcall 12 (fun s =>
    let r := s.rdBytes (flashKey addr) 8192
    let signed := Config.ecdsaVerify s.profKey (Config.sha384 (r.take 7168)) (leAt r 0x1C00 96)
    if 4 ≤ slot then (s, bBadArg)
    else if !signed then (s, bAuth)
    else if !s.profOk r then (s, bBadArg)
    else ((s.withSec { s.sec with slots := s.sec.slots.ins slot r }), bOk)))

/-- Bedrock call 13, SET_PROFILE. -/
def execBcallSetProfile (prof : Nat) (now : Bool) (s : State) : Host.Outcome State Fault Refusal :=
  .next (s.bcall 13 (fun s =>
    if 4 ≤ prof then (s, bBadArg)
    else
      let r := s.setProfile prof now
      (r.1, if r.2 then bOk else bBadImage)))

/-! ## 14 LC_TRANSITION (R365) -/

/-- The signer that a transition of Table 17.7 asks for: 0 Keapel, 1 the owner; none where the table has no such
transition. -/
def State.lcSigner (s : State) (target : Nat) : Option Nat :=
  match s.fld R.LCP_STATUS_LC_STATE, target with
  | 0, 1 => some 0
  | 1, 2 => if s.fld R.LCP_STATUS_OWNER_KEY = 1 then some 1 else none
  | 2, 3 => some 0
  | 1, 4 => some 1
  | 2, 4 => some 1
  | 3, 4 => some 0
  | _, _ => none

/-- The accepted transition: the state fuse, the counter, the keys erased (R365 steps 1 and 2). -/
def State.lcMove (s : State) (target : Nat) : State :=
  let from_ := s.fld R.LCP_STATUS_LC_STATE
  let s := (s.setFld R.LCP_STATUS_LC_STATE target).bumpFld R.LCP_STATUS_LC_COUNT 1
  let s := if target = 3 ∨ (target = 4 ∧ from_ ≠ 3) then
      ((s.withSec { s.sec with keys := [] }).withHost { s.host with counters := [] }).keyBits
    else s
  if target = 3 then (List.range 32).foldl (fun s k => s.setFld (R.MS_CTRL_RETAIN k) 0) s else s

/-- LC_TRANSITION by a token in flash. -/
def State.callLc (s : State) (addr : Nat) : State × Nat :=
  let (target, mod, ctr, digest, sig) := Config.tokenFields (s.rdBytes (flashKey addr) 160)
  match s.lcSigner target with
  | none => (s, bLifecycle)
  | some who =>
    let key := if who = 0 then Config.keapelKey 0 else leNat (s.sec.keys.get 0 [])
    if mod ≠ s.sec.moduleId ∨ ctr ≠ s.fld R.LCP_STATUS_LC_COUNT ∨ !Config.ecdsaVerify key digest sig then (s, bAuth)
    else (s.lcMove target, bOk)

/-- Bedrock call 14, LC_TRANSITION: after an accepted one the module enters REFUGE. -/
def execLcTransition (addr : Nat) (s : State) : Host.Outcome State Fault Refusal :=
  .next (
    let was := s.fld R.LCP_STATUS_LC_COUNT
    let s := s.bcall 14 (fun s => s.callLc addr)
    if s.fld R.LCP_STATUS_LC_COUNT = was then s
    else match s.mode with
      | .boot => s.event 5 State.enterRefuge
      | .normal => s.event 5 State.enterRefuge
      | .quiesce => s.event 5 State.enterRefuge
      | _ => s)

end Sys2Proof.Machine
end

