-- ==== Sys2Proof/Machine/TimeBase.lean ====
section
/-! DEFINITION. The time base and the drip's schedule (R19 to R22, R26 to R28, R326, R481): enabling, alignment to a
source, period changes and the instants of Seal and Close. -/

namespace Sys2Proof.Machine

/-! ## Instants -/

/-- The period in force, ns. -/
def State.periodNs (s : State) : Nat := s.fld R.DRIP_PERIOD_CUR_US * 1000

/-- The Seal's length, ns (R22). -/
def State.sealNs (s : State) : Nat := max (s.fld R.DRIP_PERIOD_CUR_US * 50) 5000

/-- The first multiple of `m` at or after `x`. -/
def alignUp (x : Int) (m : Nat) : Int := -((-x) / (m : Int)) * (m : Int)

/-- The epoch of the schedule, 0 before the drip is first enabled. -/
def State.epochNs (s : State) : Int := s.drip.epoch.getD 0

/-- The first instant at or after `t` that is a multiple of a period on a schedule of an epoch. -/
def onSchedule (epoch : Int) (period t : Nat) : Nat := (alignUp ((t : Int) - epoch) period + epoch).toNat

/-- The number that R20 gives the drip that opens at an instant, without its offset. -/
def rawNumber (epoch : Int) (period t : Nat) : Int := ((t : Int) - epoch) / (period : Int)

/-- A step is due at the next boundary (R27). -/
def State.stepDue (s : State) : Bool :=
  s.fld R.DRIP_STATUS_STEP_NEEDED == 1 && (s.drip.stepReq || s.fld R.DRIP_CTRL_AUTO_STEP == 1)

/-- The change that the drip in progress is to be lengthened for: its new period in ns. DESIGN CHOICE (log entry 33): an
armed change whose drip number a step skips, or falls in stopped time, stays armed. -/
def State.changeDue (s : State) : Option Nat :=
  match s.drip.armed with
  | some n => if n = s.dripNo then some (s.fld R.DRIP_PERIOD_NEXT_US * 1000) else none
  | none => none

/-- The epoch and the actual Close of the drip in progress: its normal Close, or later by a period change (R21) or a step
(R27). -/
def State.realClose (s : State) : Int × Nat :=
  let e := if s.stepDue then s.epochNs + s.drip.offsetNs else s.epochNs
  match s.changeDue with
  | some p => (e, onSchedule e p s.drip.closeAt)
  | none => (e, if s.stepDue then onSchedule e s.periodNs s.drip.closeAt else s.drip.closeAt)

/-! ## Alignment (R26 to R28) -/

/-- SYNC, STEP_NEEDED and OFFSET_NS follow an offset; crossing 10 µs raises a record. While the source is lost SYNC is not
set (R26, R28). -/
def State.setOffset (s : State) (ns : Int) : State :=
  let far := decide (10000 < ns) || decide (ns < -10000)
  let near := decide (-250 ≤ ns) && decide (ns ≤ 250)
  let sat : Int := max (-2147483648) (min 2147483647 ns)
  let new := far && s.fld R.DRIP_STATUS_STEP_NEEDED == 0
  let s := s.withDrip { s.drip with offsetNs := ns }
  let s := ((s.setFld R.DRIP_STATUS_OFFSET_NS (toBits 32 sat)).setFld R.DRIP_STATUS_STEP_NEEDED (b2n far)).setFld
    R.DRIP_STATUS_SYNC (if s.drip.lostAt.isNone then b2n near else s.fld R.DRIP_STATUS_SYNC)
  if new then s.ce 15 else s

/-- An offset of the schedule from the selected source has been measured: the source is there (R26, R28). The offset is
that of the schedule's time, `now` less its epoch, from the source's; for PTP and 1PPS that is TAI (R20, log entry 33). -/
def State.offsetMeasured (s : State) (ns : Int) : State :=
  let s := s.withDrip { s.drip with lostAt := none, timedOut := false, located := true }
  (s.setFld R.DRIP_STATUS_HOLDOVER 0).setOffset ns

/-- DRIP_CTRL.SRC takes a value: free-running is its own time base; any other source counts as lost until measured
(R26). No offset from the new source is known yet, and the one from the old is no reason to step (DEDUCED, log entry 33). -/
def State.selectSource (s : State) (src : Nat) : State :=
  let s := (s.setFld R.DRIP_CTRL_SRC src).withDrip
    { s.drip with lostAt := none, timedOut := false, ppsBad := 0, stepReq := false, located := false }
  let s := ((s.setFld R.DRIP_STATUS_HOLDOVER 0).setFld R.DRIP_STATUS_STEP_NEEDED 0).setOffset 0
  if src = 0 then s else (s.setFld R.DRIP_STATUS_SYNC 0).sourceLost

/-- PTP_OFFSET_MEASURED: the offset of the drip schedule from the PTP time base, in ns. -/
def execPtpOffsetMeasured (ns : Int) (s : State) : Host.Outcome State Fault Refusal :=
  .next (if s.fld R.DRIP_CTRL_SRC = 1 ∧ s.svcUp then s.offsetMeasured ns else s)

/-- SOURCE_LOST: the selected source is lost. -/
def execSourceLost (s : State) : Host.Outcome State Fault Refusal := .next s.sourceLost

/-- HOLDOVER_SYNC_TIMEOUT: 4 s of holdover have passed: SYNC clears, with a record (R28). -/
def execHoldoverSyncTimeout (s : State) : Host.Outcome State Fault Refusal :=
  .next (
    match s.drip.lostAt with
    | some t =>
      if s.drip.timedOut then s
      else
        let s := (s.withNow (max s.now (t + 4000000000))).withDrip { s.drip with timedOut := true }
        if s.fld R.DRIP_STATUS_SYNC = 0 then s else (s.setFld R.DRIP_STATUS_SYNC 0).ce 15
    | none => s)

/-- The offset that an edge of the 1PPS signal shows. The TAI second comes from operator software by the management port,
and no command carries it: until a first edge has been measured, how many seconds the schedule is off is a free value (log
entry 33). -/
def State.ppsOffset (s : State) (ns : Int) : Int × State :=
  if s.drip.located then (ns, s)
  else
    let (n, s) := s.takeFree
    let k : Int := if n % 2 = 0 then ((n / 2 : Nat) : Int) else -((n / 2 + 1 : Nat) : Int)
    (ns + 1000000000 * k, s)

/-- PPS_IN_EDGE: an edge of the 1PPS signal, `ns` from its expected second (Table 22.7). -/
def execPpsInEdge (ns : Int) (s : State) : Host.Outcome State Fault Refusal :=
  .next (
    if s.fld R.DRIP_CTRL_SRC ≠ 2 ∨ !s.svcUp then s
    else if ns < -1000000 ∨ 1000000 < ns then
      let n := s.drip.ppsBad + 1
      let s := (s.withDrip { s.drip with ppsBad := n }).ce 15
      if n = 3 then s.sourceLost else s
    else
      let (offset, s) := (s.withDrip { s.drip with ppsBad := 0 }).ppsOffset ns
      s.offsetMeasured offset)

/-! ## PTP (R326) -/

/-- The offset from the master once the four time stamps of an exchange are there. -/
def State.ptpDone (s : State) : State :=
  match s.ptp.t1, s.ptp.t2, s.ptp.t3, s.ptp.t4 with
  | some a, some b, some c, some d =>
    (s.withPtp { s.ptp with t1 := none, t2 := none, t3 := none, t4 := none }).offsetMeasured (((b - a) - (d - c)) / 2)
  | _, _, _, _ => s

/-- PTP_MESSAGE: a PTP message on a link. Only link 0 of the port in force takes it; the best master of the domain is
followed. -/
def execPtpMessage (p l : Nat) (m : Ptp) (s : State) : Host.Outcome State Fault Refusal :=
  .next (
    if !s.linkUp p l then s
    else if l ≠ 0 ∨ p ≠ s.ptp.port ∨ s.fld R.DRIP_CTRL_SRC ≠ 1 then s.rxDrop p
    else
      let s := s.rxFrame p
      let d := s.ptp.domain
      match m with
      | .announce dom rank =>
        if dom ≠ d then s
        else
          let best := match s.ptp.master with
            | some r => min r rank
            | none => rank
          s.withPtp { s.ptp with master := some best }
      | .sync dom t1 t2 =>
        if dom ≠ d ∨ s.ptp.master.isNone then s
        else (s.withPtp { s.ptp with t1 := t1, t2 := some t2 }).ptpDone
      | .followUp dom t1 => if dom ≠ d then s else (s.withPtp { s.ptp with t1 := some t1 }).ptpDone
      | .delayResp dom t3 t4 =>
        if dom ≠ d then s else (s.withPtp { s.ptp with t3 := some t3, t4 := some t4 }).ptpDone
      | .other => s)

/-- PTP_ANNOUNCE_TIMEOUT: three announce intervals have passed without an Announce message: the source is lost. -/
def execPtpAnnounceTimeout (s : State) : Host.Outcome State Fault Refusal :=
  .next (
    if s.fld R.DRIP_CTRL_SRC = 1 ∧ s.ptp.master.isSome then
      (s.withPtp { PtpSt.init with port := s.ptp.port, domain := s.ptp.domain }).sourceLost
    else s)

/-- The PTP port takes effect at a drip boundary; the source then counts as lost (R326). -/
def State.ptpBoundary (s : State) : State :=
  let p := s.fld R.DRIP_CTRL_PTP_PORT
  if s.ptp.port = p then s
  else
    let s := s.withPtp { PtpSt.init with port := p, domain := s.ptp.domain }
    if s.fld R.DRIP_CTRL_SRC = 1 then s.sourceLost else s

/-! ## Enabling (R481) -/

/-- The schedule of an epoch goes on at its next boundary after the last Open. -/
def State.dripResume (s : State) (e : Int) : State :=
  let past := if s.drip.opened then s.drip.openAt + 1 else 0
  s.withDrip { s.drip with epoch := some e, closeAt := onSchedule e s.periodNs (max s.now past) }

/-- DRIP_CTRL.ENABLE is set. The first time in a cold boot the schedule begins: on the epoch of the PTP or 1PPS source where
that has been measured, else with the epoch now (R20, R481). Later it resumes on its epoch at its next boundary. -/
def State.dripStart (s : State) : State :=
  let s := s.setFld R.DRIP_CTRL_ENABLE 1
  if s.drip.running then s
  else match s.drip.epoch with
    | none =>
      if s.fld R.DRIP_CTRL_SRC = 0 then (s.setFld R.DRIP_STATUS_SYNC 1).dripResume s.now
      else if s.drip.located then (s.dripResume s.drip.offsetNs).setOffset 0
      else s.dripResume s.now
    | some e => s.dripResume e

/-- DRIP_CTRL.ENABLE is cleared: the drip stops. DESIGN CHOICE (log entry 33): a period change that is committed, its
lengthened drip not yet ended, is kept and comes into force at the Open with which the schedule resumes; that Open lies on
the old period's schedule. -/
def State.dripStop (s : State) : State :=
  let s := (s.setFld R.DRIP_CTRL_ENABLE 0).setFld R.DRIP_STATUS_PHASE_SEAL 0
  s.withDrip { s.drip with running := false }

/-! ## Period changes (R21) -/

/-- DRIP_APPLY_AT is written. -/
def State.applyAt (s : State) (v : Nat) : State :=
  let n := v % 2 ^ 48
  let s := s.setReg R.DRIP_APPLY_AT (BitVec.ofNat 64 n)
  if s.fld R.DRIP_PERIOD_NEXT_US = s.fld R.DRIP_PERIOD_CUR_US then
    (s.withDrip { s.drip with armed := none }).setFld R.DRIP_STATUS_APPLY_PEND (b2n s.drip.committed.isSome)
  else
    let late := decide (n < s.dripNo + 2)
    let s := if late then s.setFld R.DRIP_STATUS_APPLY_LATE 1 else s
    (s.withDrip { s.drip with armed := some (if late then s.dripNo + 2 else n) }).setFld R.DRIP_STATUS_APPLY_PEND 1

/-! ## Seal and the boundary -/

/-- SEAL_START: the last part of Work is over (R22). The Seal of a drip that is to be lengthened starts before its actual
Close, which its normal Close may precede. -/
def execSealStart (s : State) : Host.Outcome State Fault Refusal :=
  .next (
    let close := s.realClose.2
    if !s.drip.running ∨ s.fld R.DRIP_STATUS_PHASE_SEAL = 1 ∨ s.drip.closeAt + s.sealNs < close then s
    else (s.withNow (max s.now (close - s.sealNs))).setFld R.DRIP_STATUS_PHASE_SEAL 1)

/-- The normal Close of a drip that a change or a step lengthens: the change is committed (R21), the schedule stepped (R27),
and the drip runs on to its actual Close. None where the drip ends here. -/
def State.lengthen (s : State) : Option State :=
  if s.drip.committed.isSome ∨ s.drip.stepping then none
  else
    let (e, close) := s.realClose
    let step := s.stepDue
    let change := s.changeDue
    if close = s.drip.closeAt ∧ !step ∧ change.isNone then none
    else
      let d := { s.drip with closeAt := close, epoch := some e, stepping := step, committed := change,
                             armed := if change.isSome then none else s.drip.armed
                             stepReq := s.drip.stepReq && !step }
      let s := (s.withNow (max s.now s.drip.closeAt)).withDrip d
      let s := if step then s.setOffset 0 else s
      some (s.setFld R.DRIP_STATUS_PHASE_SEAL (b2n (decide (close ≤ s.now + s.sealNs))))

/-- The drip that opens now: its number, its period, its Close, slewed by at most 1 µs (R20, R21, R26, R27). DESIGN CHOICE
(log entry 33): where the number that R20 gives after a step or a restart is not above every earlier one, OFFSET rises
until it is the next. -/
def State.openDrip (s : State) : State :=
  let t := s.drip.closeAt
  let e := s.epochNs
  let cur := s.dripNo
  let period := s.drip.committed.getD s.periodNs
  let raw := rawNumber e period t
  let next : Int := (cur : Int) + 1 - raw
  let off : Int := if !s.drip.opened then s.drip.offset
    else if s.drip.committed.isSome then next
    else max s.drip.offset next
  let n := (raw + off).toNat
  let live := s.fld R.DRIP_CTRL_SRC ≠ 0 ∧ s.drip.lostAt.isNone ∧ s.fld R.DRIP_STATUS_STEP_NEEDED = 0
  let slew : Int := if live then max (-1000) (min 1000 s.drip.offsetNs) else 0
  let left := s.drip.offsetNs - slew
  let d := { s.drip with openAt := t, closeAt := ((t : Int) + period + slew).toNat, running := true, opened := true,
                         committed := none, stepping := false, stepReq := false, offset := off,
                         epoch := some (e + slew) }
  let pend := b2n s.drip.armed.isSome
  let s := (s.withNow (max s.now t)).withDrip d
  let s := ((s.setFld R.DRIP_PERIOD_CUR_US (period / 1000)).setFld R.DRIP_NUMBER_NUMBER n).setFld R.DRIP_NUMBER_OFFSET
    (toBits 16 off)
  let s := (s.setFld R.DRIP_STATUS_PHASE_SEAL 0).setFld R.DRIP_STATUS_APPLY_PEND pend
  let s := s.addFld R.ROPE_STATUS_A_MSGS 1  -- the drip number goes out as one Class A broadcast (R284)
  if slew = 0 then s else s.setOffset left

end Sys2Proof.Machine
end

