-- ==== Sys2Proof/Machine/Boot.lean ====
section
/-! DEFINITION. Bring-up (R370 to R372), host-driven bring-up (R373, R374), raw accesses (R387) and the firmware broadcast
(R375 to R377). -/

namespace Sys2Proof.Machine

/-! ## Steps 3 to 5 -/

/-- The slot of a component that boots: of those that pass R360 the one of the higher VERSION. -/
def State.bootSlot (s : State) (comp : Nat) : Option Nat :=
  let img (k : Nat) : List Byte := (s.sec.images.find? (8 * comp + k)).getD (Config.factoryImage comp k)
  let ok0 := s.imagePasses comp (img 0)
  let ok1 := s.imagePasses comp (img 1)
  if ok0 && ok1 then some (if leAt (img 0) 8 8 < leAt (img 1) 8 8 then 1 else 0)
  else if ok0 then some 0
  else if ok1 then some 1
  else none

/-- A component boots from a slot: measurement register `m` takes its header, which holds the hash of its body. -/
def State.bootImage (s : State) (comp slot m : Nat) : State :=
  let s := s.withSec { s.sec with booted := s.sec.booted.put comp slot 0 }
  s.extend m (Config.sha384 ((s.bootedImage comp).take 512))

/-- Components of a list boot in order, each into the measurement register one below its number; none where one has no
image that passes. -/
def State.bootImages (s : State) : List Nat → Option State
  | [] => some s
  | c :: cs => match s.bootSlot c with
    | some k => (s.bootImage c k c).bootImages cs
    | none => none

/-- What measurement register 6 takes: life-cycle state, floors, fuse counts. -/
def State.lifeBytes (s : State) : List Byte :=
  leBytes 1 (s.fld R.LCP_STATUS_LC_STATE) ++ (List.range 5).flatMap (fun c => leBytes 4 (s.sec.floors.get c 0)) ++
    leBytes 8 (s.reg (R.TRM_FUSE 0)).toNat ++ leBytes 8 (s.reg (R.TRM_FUSE 1)).toNat

/-- Step 3: Bedrock is verified, and measurement registers 0 and 1 are extended. -/
def State.bootStep3 (s : State) (ok : Bool) : State :=
  if !ok then s.bootFail 1
  else match s.bootSlot 1 with
    | none => s.bootFail 1
    | some k => ((s.extend 0 Config.bootRomDigest).bootImage 1 k 1).setFld R.BRG_STATUS_STEP 4

/-- Step 4: the profile is selected, the other images are verified, registers 2 to 6 are extended. -/
def State.bootStep4 (s : State) (ok : Bool) : State :=
  if !ok ∨ s.fld R.LCP_STATUS_LC_STATE = 4 then s.bootFail 1
  else match s.selectProfile true with
    | (s, none) => s.bootFail 1
    | (s, some p) =>
      let s := s.adopt p
      let t := prPeriod s.sec.profile
      let s := (s.setFld R.DRIP_PERIOD_CUR_US t).setFld R.DRIP_PERIOD_NEXT_US t
      match s.bootImages [2, 3, 4] with
      | none => s.bootFail 1
      | some s =>
        let s := (s.extend 5 (Config.sha384 s.sec.profile)).extend 6 (Config.sha384 s.lifeBytes)
        s.setFld R.BRG_STATUS_STEP 5

/-- Every gallery site of the module. -/
def gallerySites : List Nat := (List.range 448).filter isGallerySite

/-- Units 0, 1, 2: what BRG_HOLD holds for a host-driven step. -/
def State.holdAll (s : State) : State :=
  if s.fld R.BRG_STATUS_DIAG = 1 then
    ((s.setFld R.BRG_HOLD_STACK (2 ^ 32 - 1)).setFld R.BRG_HOLD_OE 255).setFld R.BRG_HOLD_LAMP 1023
  else s

/-- Step 5: dies, routers and the Rope are on, galleries stand in RESET, the drip is enabled (R370). -/
def State.bootStep5 (s : State) (ok : Bool) : State :=
  if !ok then s.bootFail 2
  else
    let s := (s.setFld R.BRG_CLK_DIE 0xFFFF).setFld R.BRG_CLK_FABRIC 1
    let s := gallerySites.foldl (fun s site =>
      if s.fld (R.GAL_STATUS_STATE site) = 0 then s.setFld (R.GAL_STATUS_STATE site) 1 else s) s
    (s.setClocks.dripStart.setFld R.BRG_STATUS_STEP 6).holdAll

/-! ## Steps 6 and 7 -/

/-- The cells of a stack are zero, and no unit of it is poisoned. -/
def State.stackZero (s : State) (k : Nat) : State :=
  let s := s.zeroRange (stackKey k 0) (stackKey (k + 1) 0)
  (s.withPoison (s.poison.filter (fun p => p.1 / 2 ^ 30 != k))).withUeLog (s.ueLog.filter (fun u => u / 2 ^ 30 != k))

/-- A trained stack: its soft repairs become hard (R298), its cells are kept or zeroed (R300), READY. -/
def State.stackReady (s : State) (k : Nat) : State :=
  let m := s.ms k
  let s := s.setMs k { m with soft := [], hard := m.hard ++ m.soft }
  let s := if s.boot.fromRefuge && s.fld (R.MS_CTRL_RETAIN k) == 1 then s else s.stackZero k
  let s := s.setFld R.BRG_CLK_STACK (setBitN (s.fld R.BRG_CLK_STACK) k)
  s.setFld (R.MS_STATUS_STATE k) 2

/-- The stacks of step 6 that the module itself takes through it. -/
def State.bootStacks (s : State) (bad : List Nat) : State :=
  if s.fld R.BRG_STATUS_DIAG = 1 then s
  else (List.range 32).foldl (fun s k =>
    if bad.contains k then s.setFld (R.MS_STATUS_STATE k) 4 else s.stackReady k) s

/-- A chamber is left without galleries. -/
def State.leaveEmpty (s : State) (cls c : Nat) : State :=
  (s.raise (s.recCh cls 14 c)).setFld (R.FR_CHAMBER_STATE c) 3

/-- Step 6: stacks, regions, and the chambers that lose a region (R371). -/
def State.bootStep6 (s : State) (bad rows : List Nat) : State :=
  let s := s.bootStacks bad
  let s := (List.range 32).foldl (fun s k =>
    if s.fld (R.MS_STATUS_STATE k) = 2 then s.setFld (R.MS_STATUS_PPR_LEFT k) (min 4 (rows.getD k 4)) else s) s
  let s := s.loadRegions
  let s := if s.boot.fromRefuge then s.zeroChanged s.boot.oldRegions else s
  let s := s.lostChambers.foldl (fun s c => if prChValid s.sec.profile c then s.leaveEmpty UECHAMBER c else s) s
  s.setFld R.BRG_STATUS_STEP 7

/-- Step 7: lamps, engines and ports; every port in its profile mode (R321). -/
def State.bootStep7 (s : State) : State :=
  let diag := s.fld R.BRG_STATUS_DIAG == 1
  let s := if diag then s else
    ((List.range 10).foldl (fun s k => s.setFld (R.LAMP_CTRL_ENABLE k) 1) s).setFld R.BRG_CLK_OE 255
  let s := (List.range 32).foldl (fun s p =>
    let m := prPort s.sec.profile p
    (s.setFld (R.PORT_CTRL_MODE p) m).setFld (R.PORT_CTRL_LINK_EN p) (2 ^ linksOf m - 1)) s
  s.setFld R.BRG_STATUS_STEP 8

/-! ## Step 8 -/

/-- A site that a chamber may have: not failed, not retired, not fenced, its cores and MXEs fit (R57, R108), its images not missing (log entry 30). -/
def State.siteUsable (s : State) (bad : List Nat) (site : Nat) : Bool :=
  isGallerySite site && !bad.contains site && !s.retired site && s.fld (R.GAL_CTRL_FENCE site) == 0 && s.siteFit site &&
    s.fld (R.GAL_STATUS_STATE site) != 0 && s.fld (R.GAL_BOOT_STATE site) != 1 && s.fld (R.GAL_BOOT_STATE site) != 3

/-- The sites of a chamber's logical galleries, with their numbers; none where one is on no usable site. -/
def State.placed (s : State) (bad : List Nat) : List Nat → Option (List (Nat × Nat))
  | [] => some []
  | lg :: lgs => match s.siteOfLg lg, s.placed bad lgs with
    | some site, some r => if s.siteUsable bad site then some ((lg, site) :: r) else none
    | _, _ => none

/-- Entry 0 takes the first record of the runtime's image, as a load's entry takes its own (R158, R179). -/
def State.rtLoad (s : State) (lg site : Nat) : State :=
  match (imageRecs s.boot.runtime).head? with
  | none => s
  | some (_, r) =>
    match s.giveBlocks site 0 (List.range 512) (recBlocks r) [], s.givePlaces site (recWins 0 r) (s.usedCells lg site) [] with
    | some g, some bases => (s.fillWins site s.boot.runtime [(0, r)] bases).installTask site 0 r g bases
    | _, _ => s

/-- The runtime of a gallery is started: an S-mode task in entry 0 whose VALID takes effect at the next Open (R158). -/
def State.rtStart (s : State) (lg site : Nat) : State :=
  let s := (s.setDir lg { s.dir lg with restart := true }).rtLoad lg site
  (s.setTask (site * 64) { s.task (site * 64) with priv := 1 }).setFld (mValid (taskM site 0)) 1

/-- A gallery is assigned to a chamber in step 8, with the hand-over of R80 and its slices as the profile's map says. -/
def State.handTo (s : State) (c lg site : Nat) : State :=
  let s := s.withSec { s.sec with siteCh := s.sec.siteCh.put site (c + 1) 0 }
  let s := s.zeroRange (galKey site 0) (galKey (site + 1) 0)
  let s := (s.withGpoison (s.gpoison.filter (fun p => p.1 / 2 ^ 25 != site))).boardClear site
  let s := ((s.setFld (R.GM_SCRUB_VERIFY_FAIL site) 0).setFld (R.GM_SCRUB_STATE site) 0).setTop site
  let map := prSram s.sec.profile lg
  let s := (List.range 32).foldl (fun s k => s.setSlice site k (if bitN map k = 1 then 2 else 0)) s
  (((s.setFld (R.GAL_CTRL_ENABLE site) 1).setFld (R.GAL_STATUS_STATE site) 2).unitsOn site).rtStart lg site

/-- A valid chamber starts, or is left without galleries (R371). -/
def State.bootChamber (s : State) (bad : List Nat) (c : Nat) : State :=
  if !prChValid s.sec.profile c ∨ s.lostChambers.contains c then s
  else
    let lgs := (List.range 384).filter (fun lg => bitN (prMap s.sec.profile c) lg == 1)
    match s.placed bad lgs with
    | none => s.leaveEmpty CE c
    | some gs => (gs.foldl (fun s g => s.handTo c g.1 g.2) s).setFld (R.FR_CHAMBER_STATE c) 1

/-- Ready (R371): step 9, and the lease lets the module leave BOOT (R430). -/
def State.bootReady (s : State) : State :=
  ((s.setFld R.BRG_STATUS_STEP 9).setFld R.BRG_STATUS_READY 1).leaseReady

/-- Step 8: remaps, hand-overs, runtimes. -/
def State.bootStep8 (s : State) (bad : List Nat) : State :=
  let s := s.sec.log.foldl (fun s e => s.softRemap e) s
  ((List.range 16).foldl (fun s c => s.bootChamber bad c) s.setClocks).bootReady

/-- BRINGUP_STEP_COMPLETE: the step in progress ends with the results `r`, and the next starts (R370). Steps 6 and 7 do not
end while a unit is held (R373). -/
def execBringupStepComplete (r : StepRes) (s : State) : Host.Outcome State Fault Refusal :=
  .next (
    if s.mode ≠ .boot then s
    else
      let held : Bool := s.reg R.BRG_HOLD != 0
      match s.fld R.BRG_STATUS_STEP with
      | 0 => s.setFld R.BRG_STATUS_STEP 3
      | 1 => s.setFld R.BRG_STATUS_STEP 3
      | 2 => s.setFld R.BRG_STATUS_STEP 3
      | 3 => s.bootStep3 r.verifyOk
      | 4 => s.bootStep4 r.verifyOk
      | 5 => s.bootStep5 r.linkOk
      | 6 => if held then s else s.bootStep6 r.badStacks r.spareRows
      | 7 => if held then s else s.bootStep7
      | 8 => s.bootStep8 r.badSites
      | _ => s)

/-! ## Bounds (R372) -/

/-- Bounds of Table 18.1, ms from insertion. -/
def stepBound (n : Nat) : Nat :=
  match n with
  | 3 => 1500
  | 4 => 3000
  | 5 => 5000
  | 6 => 15000
  | 7 => 15000
  | 8 => 40000
  | _ => 45000

/-- The instant by which the step in progress must have ended, ns: from the entry to BOOT, 0.7 s after insertion; after a
host-driven step from the host's last release; of a module compute reset 25 s from its start. -/
def State.stepDue_ (s : State) : Nat :=
  let n := s.fld R.BRG_STATUS_STEP
  if s.boot.mcr then s.boot.entryAt + 25000000000
  else match s.boot.holdReleasedAt with
    | some t => t + stepBound n * 1000000
    | none => s.boot.entryAt + (stepBound n - 700) * 1000000

/-- BRINGUP_STEP_TIMEOUT: the step in progress has not ended within its bound. The bound of a step that holds a unit is
suspended. -/
def execBringupStepTimeout (s : State) : Host.Outcome State Fault Refusal :=
  .next (
    if s.mode ≠ .boot ∨ s.fld R.BRG_STATUS_READY = 1 ∨ s.reg R.BRG_HOLD ≠ 0 then s
    else (s.withNow (max s.now s.stepDue_)).bootFail 4)

/-! ## Raw accesses (R387) -/

/-- The clock of a lamp's controller (Table 18.5). -/
def State.lampClock (s : State) (k : Nat) : Bool :=
  s.fld (R.LAMP_CTRL_ENABLE k) == 1 && s.lampState k != 0 && s.mode != .standby && s.mode != .off

/-- The clock of a unit: 0 stack, 1 engine, 2 lamp. -/
def State.unitClock (s : State) (u i : Nat) : Bool :=
  match u with
  | 0 => bitN (s.fld R.BRG_CLK_STACK) i == 1
  | 1 => bitN (s.fld R.BRG_CLK_OE) i == 1
  | _ => s.lampClock i

/-- How many units a kind has. -/
def unitTotal (u : Nat) : Nat :=
  match u with
  | 0 => 32
  | 1 => 8
  | 2 => 10
  | _ => 0

/-- A raw access is performed. -/
def State.rawDo (s : State) (u i off : Nat) (w : Option Nat) : State :=
  match w with
  | some v => s.wrNat (rawKey u i off) 8 v
  | none => s.emit (.regRead (s.rdNat (rawKey u i off) 8))

/-- Hung accesses are performed in order, up to the first whose unit's clock is off. -/
def State.unhangs (s : State) : List (Nat × Nat × Nat × Option Nat) → State
  | [] => s.withBoot { s.boot with hung := [] }
  | x :: xs =>
    if s.unitClock x.1 x.2.1 then (s.rawDo x.1 x.2.1 x.2.2.1 x.2.2.2).unhangs xs
    else s.withBoot { s.boot with hung := x :: xs }

def State.unhang (s : State) : State := s.unhangs s.boot.hung

/-- Whether raw accesses of a source are accepted: with DIAG = 1, and Bedrock's in FAB and RETURN (R392). -/
def State.rawOpen (s : State) (src : Src) : Bool :=
  s.fld R.BRG_STATUS_DIAG == 1 ||
    (src == .bedrock && (s.fld R.LCP_STATUS_LC_STATE == 0 || s.fld R.LCP_STATUS_LC_STATE == 3))

/-- A source that may reach BRG_HOST_CMD, BRG_RAW_SEL and the raw window. -/
def rawSource (src : Src) : Bool :=
  match src with
  | .bedrock => true
  | .flowstone => true
  | .host => true
  | _ => false

/-- An access at offset `off` of the BRG_RAW window: a write of `w`, or a read. -/
def State.rawAccess (s : State) (src : Src) (off : Nat) (w : Option Nat) : State :=
  let u := s.fld R.BRG_RAW_SEL_UNIT
  let i := s.fld R.BRG_RAW_SEL_INDEX
  if !s.svcUp then s
  else if !rawSource src then
    match w with
    | some v => s.refuse src 16 (R.BRG_CTRL + 0x10000 + off) v
    | none => s.emit (.regRead 0)
  else if !s.rawOpen src ∨ unitTotal u ≤ i then
    match w with
    | some _ => s
    | none => s.emit (.regRead 0)
  else if s.boot.hung ≠ [] ∨ !s.unitClock u i then
    s.withBoot { s.boot with hung := s.boot.hung ++ [(u, i, off, w)] }
  else s.rawDo u i off w

/-- RAW_ACCESS. -/
def execRawAccess (src : Src) (off : Nat) (w : Option Nat) (s : State) : Host.Outcome State Fault Refusal :=
  .next (s.rawAccess src off w)

/-! ## Host-driven actions (R373, R374) -/

/-- The hold bit of a unit. -/
def holdFld (u : Nat) : Fld :=
  match u with
  | 0 => R.BRG_HOLD_STACK
  | 1 => R.BRG_HOLD_OE
  | _ => R.BRG_HOLD_LAMP

/-- BRG_HOST_CMD is written (R374). -/
def State.hostCmd (s : State) (v : Nat) : State :=
  let u := v / 2 ^ 14 % 4
  let i := v / 2 ^ 9 % 32
  let a := v % 8
  if s.fld R.BRG_STATUS_DIAG = 0 ∨ s.fld R.BRG_HOST_RESULT_RESULT = 1 ∨ u = 3 then s
  else
    let s := s.setReg R.BRG_HOST_RESULT (BitVec.ofNat 64 (u * 2 ^ 14 + i * 2 ^ 9))
    if 4 ≤ a ∨ unitTotal u ≤ i then s.setFld R.BRG_HOST_RESULT_RESULT 5
    else if bitN (s.fld (holdFld u)) i = 0 then s.setFld R.BRG_HOST_RESULT_RESULT 2
    else if a ≠ 0 ∧ !s.unitClock u i then s.setFld R.BRG_HOST_RESULT_RESULT 3
    else
      let s := if u = 0 ∧ a = 1 then s.setFld (R.MS_STATUS_STATE i) 1 else s
      (s.withBoot { s.boot with hostCmd := some (u, i, a) }).setFld R.BRG_HOST_RESULT_RESULT 1

/-- A unit leaves the hold. -/
def State.unhold (s : State) (u i : Nat) : State :=
  let s := s.setFld (holdFld u) (clrBitN (s.fld (holdFld u)) i)
  if s.reg R.BRG_HOLD = 0 then (s.withBoot { s.boot with holdReleasedAt := some s.now }) else s

/-- The effect of an action of Table 18.2 that succeeds. -/
def State.hostAct (s : State) (u i a : Nat) : State :=
  match u, a with
  | 0, 0 => (s.setFld R.BRG_CLK_STACK (setBitN (s.fld R.BRG_CLK_STACK) i)).unhang
  | 0, 1 => s
  | 0, 2 => (s.stackReady i).unhold 0 i
  | 0, _ => (s.setFld (R.MS_STATUS_STATE i) 4).unhold 0 i
  | 1, 0 => (s.setFld R.BRG_CLK_OE (setBitN (s.fld R.BRG_CLK_OE) i)).unhang
  | 1, 1 => (List.range 4).foldl (fun s k =>
      let m := prPort s.sec.profile (4 * i + k)
      (s.setFld (R.PORT_CTRL_MODE (4 * i + k)) m).setFld (R.PORT_CTRL_LINK_EN (4 * i + k)) (2 ^ linksOf m - 1)) s
  | 1, 2 => s.unhold 1 i
  | 1, _ => ((List.range 4).foldl (fun s k => s.linksDown (4 * i + k)) (s.setLight i 2)).unhold 1 i
  | _, 0 => (s.setFld (R.LAMP_CTRL_ENABLE i) 1).unhang
  | _, 1 => if s.lampState i = 2 then s.lampReady i else s
  | _, 2 => s.unhold 2 i
  | _, _ =>
    let s := if s.lampState i = 0 then (s.setFld (R.LAMP_STATUS_STATE i) 5).healthEv (2 * (480 + i) + 1) 1 else s.lampFault i
    s.unhold 2 i

/-- HOST_CMD_COMPLETE: the action in progress ends; DETAIL is the worst eye margin of a stack's TRAIN. -/
def execHostCmdComplete (ok : Bool) (detail : Nat) (s : State) : Host.Outcome State Fault Refusal :=
  .next (
    match s.boot.hostCmd with
    | none => s
    | some (u, i, a) =>
      let s := s.withBoot { s.boot with hostCmd := none }
      let s := s.setFld R.BRG_HOST_RESULT_DETAIL (if u = 0 ∧ a = 1 then detail else 0)
      if ok then (s.hostAct u i a).setFld R.BRG_HOST_RESULT_RESULT 0 else s.setFld R.BRG_HOST_RESULT_RESULT 4)

/-! ## Firmware broadcast (R375 to R377) -/

/-- BRG_FW follows the boot units. -/
def State.fwCounts (s : State) : State :=
  let n (st : Nat) : Nat := (s.boot.units.filter (fun p => s.fld (R.GAL_BOOT_STATE p.1) == st)).length
  let top := (s.boot.units.map (fun p => s.fld (R.GAL_BOOT_ATTEMPT p.1))).foldl max 0
  ((s.setFld R.BRG_FW_DONE (n 2)).setFld R.BRG_FW_FAILED (n 3)).setFld R.BRG_FW_ATTEMPT top

/-- The boot unit of a site starts to receive an image, unless it is receiving it. -/
def State.fwBegin (s : State) (site img total : Nat) : State :=
  let same : Bool := match s.boot.units.find? site with
    | some u => u.image == img && u.total == total && s.fld (R.GAL_BOOT_STATE site) == 1
    | none => false
  if same then s
  else
    let s := s.withBoot { s.boot with units := s.boot.units.ins site ⟨img, total, [], 0⟩ }
    let s := s.setReg (R.GAL_BOOT site) (BitVec.ofNat 64 (total * 2 ^ 48 + img * 2 ^ 32 + 2 ^ 28))
    (s.setFld R.BRG_FW_IMAGE_ID img).setFld R.BRG_FW_BLOCKS total

/-- FIRMWARE_BLOCK_RECEIVE: a block of 4 KiB reaches the boot unit of a gallery that stands in RESET. A block whose CRC fails
is missing. -/
def execFirmwareBlockReceive (site img blk total : Nat) (data : List Byte) (crc : Nat) (s : State) :
    Host.Outcome State Fault Refusal :=
  .next (
    if !isGallerySite site ∨ s.fld (R.GAL_STATUS_STATE site) ≠ 1 ∨ s.fld (R.GAL_BOOT_STATE site) = 3 ∨ total ≤ blk ∨
        data.length ≠ 4096 then s
    else
      let s := s.fwBegin site img total
      if crc ≠ crc32 data then s.fwCounts
      else match s.boot.units.find? site with
        | none => s
        | some u =>
          let blocks := if u.blocks.contains blk then u.blocks else u.blocks ++ [blk]
          let s := (s.wrBytes (galKey site (4096 * blk)) data).setFld (R.GAL_BOOT_MISSING site) (total - blocks.length)
          (s.withBoot { s.boot with units := s.boot.units.ins site { u with blocks := blocks } }).fwCounts)

/-- An attempt of a site has failed: its bitmap is cleared; after the third it is FAILED. -/
def State.fwFail (s : State) (site : Nat) : State :=
  let n := s.fld (R.GAL_BOOT_ATTEMPT site) + 1
  let s := (s.bootUnitClear site).setFld (R.GAL_BOOT_ATTEMPT site) n
  if 3 ≤ n then s.setFld (R.GAL_BOOT_STATE site) 3 else s

/-- END_MARKER: every receiving site reports; one that still misses blocks after three rounds ends its attempt (R376). -/
def execEndMarker (s : State) : Host.Outcome State Fault Refusal :=
  .next ((s.boot.units.foldl (fun s p =>
    if s.fld (R.GAL_BOOT_STATE p.1) ≠ 1 ∨ s.fld (R.GAL_BOOT_MISSING p.1) = 0 then s
    else if p.2.rounds < 3 then
      s.withBoot { s.boot with units := s.boot.units.ins p.1 { p.2 with rounds := p.2.rounds + 1 } }
    else s.fwFail p.1) s).fwCounts)

/-- BOOT_HASH_COMPLETE: the SHA-384 of an image of which no block is missing is compared (R377). -/
def execBootHashComplete (site : Nat) (s : State) : Host.Outcome State Fault Refusal :=
  .next (
    match s.boot.units.find? site with
    | none => s
    | some u =>
      if s.fld (R.GAL_BOOT_STATE site) ≠ 1 ∨ s.fld (R.GAL_BOOT_MISSING site) ≠ 0 then s
      else if Config.sha384 (s.rdBytes (galKey site 0) (4096 * u.total)) = Config.imageHash u.image then
        (s.setFld (R.GAL_BOOT_STATE site) 2).fwCounts
      else (s.fwFail site).fwCounts)

end Sys2Proof.Machine
end

