-- ==== Sys2Proof/Machine/Encoding.lean ====
section
/-! DEFINITION. Which instruction words are defined ones (R181, R183, Tables 9.1 to 9.8): class and opcode, and the bits that
an opcode does not use. A command says which instruction a context issues; the word at its program counter says whether
that is a word at all (log entry 42). -/

namespace Sys2Proof.Machine

/-- Bits that must be zero in a word of a class and opcode, where it is a defined one: every field that the opcode does not
use, and the high bits of a field that names a `v` or `p` register. The fields of classes V and X are operands of their
commands. `m`: on Leriq-M (R209, Table 9.11). -/
def unusedBits (m : Bool) (cls op : Nat) : Option Nat :=
  let when_ (ok : Bool) (bits : Nat) : Option Nat := if ok then some bits else none
  match cls with
  | 0 =>
    if op ≤ 0x10 then some 0x7FF
    else match op with
      | 0x11 => some 0x7FFF
      | 0x12 => some 0x7FFF
      | 0x18 => some 0x787FF
      | 0x19 => some 0x7FFF
      | 0x1A => when_ (!m) 0x7E7FF
      | 0x1B => when_ (!m) 0x607FFF
      | 0x30 => when_ m 0x7FFF
      | 0x31 => when_ m 0x7FF
      | _ => none
  | 1 => if 4 ≤ op ∧ op ≤ 6 then some 0x7FC0 else when_ (decide (op ≤ 9)) 0
  | 2 =>
    if op ≤ 6 ∨ 8 ≤ op ∧ op ≤ 0xB then some 0
    else match op with
      | 0x10 => when_ (!m) 0x400000
      | 0x11 => when_ (!m) 0x400000
      | 0x18 => some 0x7800
      | 0x19 => some 0x7800
      | 0x1A => some 0
      | _ => none
  | 3 =>
    if op ≤ 5 ∨ op = 8 ∨ op = 9 then some 0
    else when_ (!m && decide (0xC ≤ op) && decide (op ≤ 0xE)) 0x678000
  | 4 => when_ (!m && (decide (op ≤ 0x16) || (decide (0x20 ≤ op) && decide (op ≤ 0x28)) ||
      (decide (0x30 ≤ op) && decide (op ≤ 0x33)))) 0
  | 5 => when_ (!m && decide (op ≤ 0xA)) 0
  | _ => none

/-- A word takes ILLEGAL_INSTR: classes 6 and 7, a reserved opcode, or an unused field that is not zero. -/
def wordIll (m : Bool) (w : Nat) : Bool :=
  match unusedBits m (fldN w 31 29) (fldN w 28 23) with
  | none => true
  | some bits => w &&& bits != 0

end Sys2Proof.Machine
end

