-- ==== Sys2Proof/Machine/Test.lean ====
section
/-! DEFINITION. Continual test and repair (R397 to R413): patrol, known answers, link retries, arbitration of held tiles,
on-demand tests, re-placement. -/

namespace Sys2Proof.Machine

/-! ## Known answers (R398) -/

/-- An MXE, or the curtain (unit 2), of a site is idle: no task's work is queued or running on it. -/
def State.unitIdle (s : State) (site u : Nat) : Bool :=
  if u < 2 then (s.mxe (2 * site + u)).queue.isEmpty && (s.mxe (2 * site + u)).run.isEmpty
  else (s.cur site).item.isNone && (s.cur site).waiting.isEmpty

/-- A unit runs, or no longer runs, patrol work. -/
def State.setPatrol (s : State) (site u : Nat) (on : Bool) : State :=
  if u < 2 then s.setMxe (2 * site + u) { s.mxe (2 * site + u) with patrol := on }
  else s.setCur site { s.cur site with patrol := on }

/-- A unit runs patrol work. -/
def State.patrols (s : State) (site u : Nat) : Bool :=
  if u < 2 then (s.mxe (2 * site + u)).patrol else (s.cur site).patrol

/-- A known-answer failure of a unit is counted. -/
def State.kaCount (s : State) (site u : Nat) : State :=
  if u < 2 then s.addFld (R.TR_PATROL_CNT_MXE_FAIL site) 1 else s.addFld (R.TR_PATROL_CNT_CUR_FAIL site) 1

/-- A first failure: it is to be run again. -/
def State.kaFirst (s : State) (site u : Nat) : State :=
  let s := s.addFld (R.HLT_SITE_CNT_PATROL site) 1
  s.withTst { s.tst with kaFail := s.tst.kaFail.ins (4 * site + u) s.dripNo }

/-- KNOWN_ANSWER_COMPLETE: the patrol work of a unit (0, 1 an MXE; 2 the curtain) ends. -/
def execKnownAnswerComplete (site u : Nat) (pass : Bool) (s : State) : Host.Outcome State Fault Refusal :=
  .next (
    if !s.patrols site u then s
    else
      let s := (s.setPatrol site u false).addFld (R.TR_PATROL_CNT_RUNS site) 1
      if pass then s else (s.kaCount site u).kaFirst site u)

/-- KNOWN_ANSWER_RERUN: a failed run is repeated on the idle unit. A second failure in the same or the next drip is an
offence; a later one counts as a first failure again (DEDUCED, log entry 34). -/
def execKnownAnswerRerun (site u : Nat) (pass : Bool) (s : State) : Host.Outcome State Fault Refusal :=
  .next (
    match s.tst.kaFail.find? (4 * site + u) with
    | none => s
    | some d =>
      if !s.unitIdle site u ∨ !s.patrolOk site then s
      else
        let s := s.withTst { s.tst with kaFail := s.tst.kaFail.erase (4 * site + u) }
        let s := (s.setPatrol site u false).addFld (R.TR_PATROL_CNT_RUNS site) 1
        if pass then s.healthRec site 0
        else
          let s := s.kaCount site u
          if s.dripNo ≤ d + 1 then s.offence site (if u < 2 then 2 else 3) else (s.healthRec site 0).kaFirst site u)

/-! ## Patrol reads (R62, Table 19.2) -/

/-- Gallery-local offset of a line of a slice (R60). -/
def State.lineOff (s : State) (site slice i : Nat) : Nat :=
  let g := slice / 4
  if bitN (s.fld (R.GM_GROUP_ILV_ILV site)) g = 0 then slice * 0x500000 + 512 * i
  else g * 0x1400000 + (4 * i + slice % 4) * 512

/-- An uncorrectable word of gallery memory is met: counted, marked, and contained by the mode of the owning chamber (R62,
R295). -/
def State.galBad (s : State) (site off : Nat) : State :=
  (((s.addFld (R.GM_ECC_CNT_UE site) 1).setFld (R.GM_ERR_STATUS_UE_SEEN site) 1).markWord site off true).consume site true

/-- PATROL_READ: patrol reads the next line of an ON or CACHE slice; `chk` 1 a corrected word, 2 an uncorrectable one, whose
place in the line is a free value; 0 no new upset. An upset that a word of the line already carries is met too. -/
def execPatrolRead (site slice chk : Nat) (s : State) : Host.Outcome State Fault Refusal :=
  .next (
    let st := s.slice site slice
    if !s.patrolOk site ∨ (st ≠ 2 ∧ st ≠ 5) then s
    else
      let k := 32 * site + slice
      let i := s.tst.patrolLine.get k 0
      let s := s.withTst { s.tst with patrolLine := s.tst.patrolLine.put k ((i + 1) % 10240) 0 }
      let off := s.lineOff site slice i
      let new := (s.marksIn site off 512).any (fun p => p.2 == 3)
      let s := (s.eccRead site off 512).consume site new
      if chk = 1 then s.galCe site slice
      else if chk = 2 then
        let (w, s) := s.takeFree
        s.galBad site (off + 8 * (w % 64))
      else s)

/-! ## Link retries (R399) -/

/-- One direction of a router is checked: above the limit in three drips in a row it is reported, once. -/
def State.retryDir (s : State) (node dir : Nat) : State :=
  let n := s.fld (retryFld (rtrBase node) dir)
  let x := s.rtr node
  let much := decide (s.fld R.TRM_CTRL_LINK_RETRY < n - x.last.get dir 0)
  let c := if much then x.exceed.get dir 0 + 1 else 0
  let s := s.setRtr node { x with last := x.last.put dir n 0, exceed := x.exceed.put dir c 0 }
  if c = 3 then s.raise { s.mkRec CE 7 0 with reg := R.RTR_RETRY_CNT (rtrBase node), site := some node } else s

/-- Nodes whose retry count, or its last reading, is not zero. -/
def State.retryNodes (s : State) : List Nat :=
  ((List.range 484).filter (fun n => s.reg (R.RTR_RETRY_CNT (rtrBase n)) != 0 || !(s.rtr n).exceed.isEmpty))

/-- LINK_RETRY_CHECK: every router's counts are read, once per drip. -/
def execLinkRetryCheck (s : State) : Host.Outcome State Fault Refusal :=
  .next (
    if (s.mode = .normal ∨ s.mode = .quiesce) ∧ s.fld R.TRM_CTRL_PATROL_EN = 1 then
      s.retryNodes.foldl (fun s n => (List.range 4).foldl (fun s d => s.retryDir n d) s) s
    else s)

/-- WATCH_EXPIRY: the watch of a SUSPECT site is over: CLEAR, with its rung kept (Table 19.4). -/
def execWatchExpiry (site : Nat) (s : State) : Host.Outcome State Fault Refusal :=
  .next (
    if s.fld (R.TR_LADDER_SUSPECT site) = 1 ∧ s.fld (R.TR_LADDER_WATCH_LEFT site) = 0 then
      s.setFld (R.TR_LADDER_SUSPECT site) 0
    else s)

/-! ## Arbitration (R405 to R407) -/

/-- The tile of an arbitration is still held. -/
def State.arbHeld (s : State) (site j : Nat) (a : ArbSt) : Bool :=
  match (s.mxe (2 * site + j)).held with
  | some r => r.t.op == a.tile.op
  | none => false

/-- The checksums that a run of an arbitrated tile delivers on a site that holds its sources; `chk` stand in where the array
or the checker is faulty (R125, R406). -/
def State.runSums (s : State) (site : Nat) (a : ArbSt) (chk : List WitSum) : List WitSum :=
  let act := s.actVal site a.tile
  deviate (s.checksums site a.tile act (s.tileRows site a.tile act).1) chk

/-- Some checksum of a run fails its check. -/
def State.badSums (s : State) (site j : Nat) (a : ArbSt) (chk : List WitSum) : List WitSum :=
  chk.filter (fun w => !witPasses w (s.tolOf site j a.tile) a.tile.k)

/-- The arbitration ends with a RESULT of Table 19.11: ROT is restored. -/
def State.arbDone (s : State) (site j : Nat) (a : ArbSt) (result : Nat) : State :=
  let s := s.withTst { s.tst with arbs := s.tst.arbs.erase (2 * site + j) }
  ((s.setFld (R.TR_ARB_STAGE site) 5).setFld (R.TR_ARB_RESULT site) result).setFld (R.MXE_CTRL_ROT site j) a.rot

/-- Bedrock writes MXE_ARB with an outcome, if the tile is still held (step 6). -/
def State.arbRelease (s : State) (site j : Nat) (a : ArbSt) (outcome : Nat) : State :=
  if s.arbHeld site j a then (s.setFld (R.MXE_ARB_OUTCOME site j) outcome).mxeRelease site j outcome else s

/-- The arbitration is not run to its end (R407): outcome 2, no offence. -/
def State.arbStop (s : State) (site j : Nat) (a : ArbSt) : State := (s.arbDone site j a 6).arbRelease site j a 2

/-- A step of an arbitration ends: abandoned if the hold ended by a release, or with its task; else `act`. -/
def State.arbStep (s : State) (site j stage : Nat) (act : State → ArbSt → State) : State :=
  match s.tst.arbs.find? (2 * site + j) with
  | none => s
  | some a =>
    if s.fld (R.TR_ARB_STAGE site) ≠ stage ∨ s.fld (R.TR_ARB_MXE site) ≠ j then s
    else if a.exceed = 2 ∨ (a.exceed = 0 ∧ !s.arbHeld site j a) then s.arbDone site j a 6
    else act s a

/-- A spare site that is idle (R366): of no chamber, not retired, not fenced, with no replay on it. -/
def State.spareIdle (s : State) (site : Nat) : Bool :=
  isGallerySite site && (s.chamberOf site).isNone && !s.retired site && s.fld (R.GAL_STATUS_STATE site) == 1 &&
    !(s.fr.echo.any (fun e => e.site == site)) && !(s.tst.moveOn.any (fun m => m.2 == site))

/-- ARB_RUN1_COMPLETE: run 1 ends; the copy starts, if the sources are at most 32 MiB and a spare site is idle. -/
def execArbRun1Complete (site j : Nat) (chk : List WitSum) (s : State) : Host.Outcome State Fault Refusal :=
  .next (s.arbStep site j 1 (fun s a =>
    let chk := s.runSums site a chk
    let cols := (s.badSums site j a chk).filter (fun w => !w.isRow)
    let c := firstOf cols false
    let s := if cols ≠ [] ∧ c = (s.fld (R.MXE_WIT_STATUS_FIRST_COL site j) + 64) % 128 then
      s.setFld (R.TR_ARB_FAULT_COL1 site) c else s
    let s := s.withTst { s.tst with arbs := s.tst.arbs.ins (2 * site + j) { a with s1 := chk } }
    let size : Nat := ((a.tile.srcs).map (·.2)).foldl (· + ·) 0
    if decide (0x2000000 < size) || !((List.range 448).any (fun x => s.spareIdle x)) then s.arbStop site j a
    else s.setFld (R.TR_ARB_STAGE site) 2))

/-- ARB_COPY_COMPLETE: the sources are on the spare site; run 2 starts there. -/
def execArbCopyComplete (site j spare : Nat) (s : State) : Host.Outcome State Fault Refusal :=
  .next (s.arbStep site j 2 (fun s a =>
    if !s.spareIdle spare then s
    else
      let s := (a.tile.srcs).foldl (fun s r => s.wrGal spare r.1 (s.rdGal site r.1 r.2)) s
      let s := s.withTst { s.tst with arbs := s.tst.arbs.ins (2 * site + j) { a with spare := spare } }
      ((s.setFld (R.TR_ARB_STAGE site) 3).setFld (R.TR_ARB_SPARE_COL site) (colOf spare)).setFld
        (R.TR_ARB_SPARE_ROW site) (rowOf spare)))

/-- The sums, and the witness sums, of a run. -/
def sumsOf (l : List WitSum) : List (Bool × Nat × Nat) := l.map (fun w => (w.isRow, w.index, w.sum))
def witsOf (l : List WitSum) : List (Bool × Nat × Nat) := l.map (fun w => (w.isRow, w.index, w.wit))

/-- Run 3 starts: the array's rows enter the stream queue again, and the tile waits for its epilogue (R406, step 5). -/
def State.run3Start (s : State) (site j : Nat) (a : ArbSt) : State :=
  let x := s.mxe (2 * site + j)
  match x.held with
  | none => s
  | some r =>
    let rows := (s.tileRows site a.tile (s.actVal site a.tile)).1
    let s := s.setMxe (2 * site + j) { x with
      rows := x.rows.put a.tile.op rows [], held := some { r with written := false } }
    let c := s.cur site
    if c.waiting.contains a.tile.op then s else s.setCur site { c with waiting := c.waiting ++ [a.tile.op] }

/-- ARB_RUN2_COMPLETE: run 2 ends, and Bedrock decides by Table 19.5. After a hold that its limit ended, there is no run 3 and
no release. -/
def execArbRun2Complete (site j : Nat) (chk : List WitSum) (s : State) : Host.Outcome State Fault Refusal :=
  .next (s.arbStep site j 3 (fun s a =>
    let chk := s.runSums a.spare a chk
    if s.fld (R.TR_ARB_DIRTY site) = 1 then s.arbStop site j a
    else if !(s.badSums site j a chk).isEmpty then ((s.arbDone site j a 5).arbRelease site j a 2).healthRec a.spare 0
    else if sumsOf chk = sumsOf a.s0 then ((s.arbDone site j a 1).arbRelease site j a 0).offence site 5
    else if witsOf chk = witsOf a.s0 then
      if sumsOf a.s1 = sumsOf chk ∧ a.exceed = 0 then (s.run3Start site j a).setFld (R.TR_ARB_STAGE site) 4
      else ((s.arbDone site j a 3).arbRelease site j a 2).offence site 4
    else ((s.arbDone site j a 4).arbRelease site j a 2).offence site 9))

/-- ARB_RUN3_COMPLETE: run 3 has written the destination through the curtain, and the tile is released. A curtain of another
generation than the tile's ends it with outcome 2 (R407). -/
def execArbRun3Complete (site j : Nat) (s : State) : Host.Outcome State Fault Refusal :=
  .next (s.arbStep site j 4 (fun s a =>
    let held := (s.mxe (2 * site + j)).held
    let same : Bool := match held with
      | some r => r.gen == s.fld (R.CUR_STATUS_GEN site)
      | none => false
    let done : Bool := match held with
      | some r => r.written
      | none => false
    if a.exceed = 1 then (s.arbDone site j a 3).offence site 4
    else if !same then s.arbStop site j a
    else if !done then s
    else ((s.arbDone site j a 2).arbRelease site j a 1).offence site 4))

/-! ## On-demand tests (R408, R409) -/

/-- A read at a module address of a stack or a gallery, and a write there, as the management core makes them: with the gate,
the check bits and the poison that any read meets (R62, R79, R80, R294). -/
def State.svcRead (s : State) (a n : Nat) : State × Got :=
  match placeOf a with
  | .stack x => s.stackRead x n
  | .gal lg off => match s.siteOfLg lg with
    | some site => s.galRead site off n
    | none => (s, ⟨8, [], false⟩)
  | _ => (s, ⟨8, [], false⟩)
def State.svcWrite (s : State) (a : Nat) (bs : List Byte) : State :=
  match placeOf a with
  | .stack x => (s.stackWrite x bs).1
  | .gal lg off => match s.siteOfLg lg with
    | some site => (s.galPut site off bs false).1
    | none => s
  | _ => s

/-- TEST_REQ: relayed to Flowstone, which checks the operands and starts the tests. -/
def execTestReq (lg : Nat) (s : State) : Host.Outcome State Fault Refusal :=
  .next (s.runCmd lg (fun c => c.opc == 0x30) (fun s _ c =>
    let s := s.emit (.relay c.raw)
    let tests := leAt c.raw 16 2
    let rep := leAt c.raw 18 1
    let map := fldN (c.word 3) 47 0
    let res := fldN (c.word 4) 47 0
    if 16 ≤ tests ∨ rep = 0 ∨ 16 < rep then some (s.cmdEnd c 1 0)
    else if !s.chOwns c.chamber map 48 then some (s.cmdEnd c 4 0)
    else match s.svcRead map 48 with
    | (s, g) =>
      let bits := leNat g.data
      let lgs := (List.range 384).filter (fun n => bitN bits n == 1)
      let own (n : Nat) : Bool := match s.siteOfLg n with
        | some x => s.chamberOf x == some c.chamber
        | none => false
      if g.status ≠ 0 ∨ g.poison then some (s.cmdEnd c 4 0)
      else if !lgs.all own || !(s.chOwns c.chamber res (8 * lgs.length)) then some (s.cmdEnd c 4 0)
      else if tests = 0 ∨ lgs = [] then
        some ((s.svcWrite res (lgs.flatMap (fun _ => leBytes 8 0))).cmdEnd c 0 0)
      else some (s.withTst { s.tst with reqs := s.tst.reqs ++ [⟨c, lg, tests, rep, s.dripNo, lgs, res, [], []⟩] })))

/-- Tests asked of each gallery. -/
def TestSt.asked (t : TestSt) : List Nat := (List.range 4).filter (fun k => bitN t.tests k == 1)

/-- Every test has run. -/
def TestSt.exceed (t : TestSt) : Bool := t.lgs.all (fun n => t.asked.all (fun k => decide (t.rep ≤ t.runs.get (16 * n + k) 0)))

/-- The entry of a gallery in the result list: tests asked, run and failed. -/
def TestSt.entry (t : TestSt) (n : Nat) : List Byte :=
  let ran := (t.asked.filter (fun k => decide (t.rep ≤ t.runs.get (16 * n + k) 0))).length
  let bad := (t.asked.filter (fun k => t.fails.get (16 * n + k) 0 != 0)).length
  leBytes 2 t.asked.length ++ leBytes 2 ran ++ leBytes 2 bad ++ leBytes 2 0

/-- The command of a request completes with its result list. -/
def State.testEnd (s : State) (t : TestSt) : State :=
  let s := s.withTst { s.tst with reqs := s.tst.reqs.filter (fun x => x.cmd != t.cmd) }
  (s.svcWrite t.result (t.lgs.flatMap t.entry)).cmdEnd t.cmd 0 0

/-- A request that a list index names, with its element replaced. -/
def setAt {α : Type} : List α → Nat → α → List α
  | [], _, _ => []
  | _ :: xs, 0, y => y :: xs
  | x :: xs, n + 1, y => x :: setAt xs n y

/-- The unit of a test (R408) is idle: an MXE or the curtain without work; for a core test and a memory read the site is in
RUN. -/
def State.testIdle (s : State) (site t : Nat) : Bool :=
  s.fld (R.GAL_STATUS_STATE site) == 2 && (match t with
    | 0 => s.unitIdle site 0 || s.unitIdle site 1
    | 1 => s.unitIdle site 2
    | _ => true)

/-- ON_DEMAND_TEST_RUN: test `t` of request `k` runs once on gallery `lg`. A test fails with its first run that fails, which
is an offence of kind 8. -/
def execOnDemandTestRun (k lg t : Nat) (pass : Bool) (s : State) : Host.Outcome State Fault Refusal :=
  .next (
    match s.tst.reqs[k]?, s.siteOfLg lg with
    | some x, some site =>
      let key := 16 * lg + t
      if !x.lgs.contains lg || bitN x.tests t == 0 || decide (x.rep ≤ x.runs.get key 0) || !s.testIdle site t then s
      else
        let first : Bool := !pass && x.fails.get key 0 == 0
        let y := { x with runs := x.runs.put key (x.runs.get key 0 + 1) 0
                          fails := if first then x.fails.put key 1 0 else x.fails }
        let s := s.withTst { s.tst with reqs := setAt s.tst.reqs k y }
        let s := if first then s.offence site 8 else s
        if y.exceed then s.testEnd y else s
    | _, _ => s)

/-- Tests that have not run within 16 drips count as not run. -/
def State.testExpire (s : State) : State :=
  (s.tst.reqs.filter (fun t => decide (t.drip + 16 ≤ s.dripNo))).foldl (fun s t => s.testEnd t) s

/-! ## Re-placement (R411 to R413) -/

/-- Nothing of a site is under way: engines idle, no record unanswered. -/
def State.siteQuiet (s : State) (site : Nat) : Bool :=
  s.unitIdle site 0 && s.unitIdle site 1 && s.unitIdle site 2 && (s.mxe (2 * site)).held.isNone &&
    (s.mxe (2 * site + 1)).held.isNone && (s.tfe site).queue.isEmpty && (s.tfe site).active.isEmpty &&
    s.unans.all (fun p => p.1 / 1024 != site || p.2.isEmpty)

/-- TRM_MOVE is written with GO = 1. -/
def State.moveGo (s : State) : State :=
  let a := s.fld R.TRM_MOVE_SRC_COL + 56 * s.fld R.TRM_MOVE_SRC_ROW
  let b := s.fld R.TRM_MOVE_DST_COL + 56 * s.fld R.TRM_MOVE_DST_ROW
  if isGallerySite a && isGallerySite b && s.fld (R.GAL_STATUS_STATE a) == 3 && s.siteQuiet a &&
      s.fld (R.GAL_STATUS_STATE b) == 1 && (s.chamberOf a).isSome && s.chamberOf a == s.chamberOf b &&
      s.tst.moveOn.isNone then
    let s := (s.setFld R.TRM_MOVE_STATUS_STATE 1).setFld R.TRM_MOVE_STATUS_LINES_DONE 0
    s.withTst { s.tst with moveOn := some (a, b) }
  else s.setFld R.TRM_MOVE_STATUS_STATE 5

/-- A map in which the entries of `[lo, lo + n)` replace those of `[dst, dst + n)`, as copies. -/
def SMap.copyTo {α : Type} (m : SMap α) (lo n dst : Nat) : SMap α :=
  let old := m.filter (fun p => !(decide (dst ≤ p.1) && decide (p.1 < dst + n)))
  m.foldl (fun (acc : SMap α) p => if lo ≤ p.1 ∧ p.1 < lo + n then acc.ins (p.1 - lo + dst) p.2 else acc) old

/-- Registers of a site's frame from an offset up, copied to another site's frame. -/
def State.copyRegs (s : State) (a b off n : Nat) : State :=
  let lo := siteFrame a + off
  let t := s.clearRange (siteFrame b + off) (siteFrame b + off + n)
  (s.csr.filter (fun p => decide (lo ≤ p.1) && decide (p.1 < lo + n))).foldl
    (fun s p => s.setReg (p.1 - lo + siteFrame b + off) p.2) t

/-- What a move copies as registers: CTXBLK entries; master entries; the interleave map and the slices' states; scoreboard
entries; windows; completion rings, rings and lines; the curtain's status. -/
def movedRegs : List (Nat × Nat) := [
  (0x1000, 0x1000), (0x4100, 0xE00), (0x20000, 8), (0x20018, 0x20), (0x20400, 0x200), (0x24000, 0x10000), (0x40100, 0x300),
  (0x50000, 0x4000), (0x60000, 0x8000), (0x7008, 0x10)]

/-- Every ON line, with its poison. -/
def State.copyLines (s : State) (a b : Nat) : State :=
  let cells := s.mem.filter (fun c => decide (galKey a 0 ≤ c.1) && decide (c.1 < galKey a 0 + cellsEnd) &&
    s.slice a (s.sliceOf a (c.1 - galKey a 0)) == 2)
  let words := s.gpoison.filter (fun p => decide (wordKey a 0 ≤ p.1) && decide (p.1 < wordKey a 0 + cellsEnd / 8) &&
    s.slice a (s.sliceOf a (8 * (p.1 - wordKey a 0))) == 2)
  let s := s.zeroRange (galKey b 0) (galKey (b + 1) 0)
  let s := s.withGpoison (s.gpoison.filter (fun p => p.1 / 2 ^ 25 != b))
  let s := cells.foldl (fun s c => s.wrByte (c.1 - galKey a 0 + galKey b 0) c.2) s
  s.withGpoison (words.foldl (fun (m : SMap Nat) p => m.ins (p.1 - wordKey a 0 + wordKey b 0) p.2) s.gpoison)

/-- Slices of a site that are ON. -/
def State.onSlices (s : State) (site : Nat) : Nat := ((List.range 32).filter (fun k => s.slice site k == 2)).length

/-- The state of site `a` is copied to site `b` (R412); the destination keeps its generations. -/
def State.moveCopy (s : State) (a b : Nat) : State :=
  let gens := (List.range 50).map (fun i => (i, s.fld (mGen (taskM b i))))
  let s := s.copyLines a b
  let s := movedRegs.foldl (fun s r => s.copyRegs a b r.1 r.2) s
  let s := gens.foldl (fun s g => s.setFld (mGen (taskM b g.1)) g.2) s
  let here := { s.gm a with cache := [] }
  let s := s.withCtxs (s.ctxs.copyTo (4096 * a) 4096 (4096 * b))
  let s := s.withTasks (s.tasks.copyTo (64 * a) 64 (64 * b))
  let s := s.withForce (s.force.copyTo (taskM a 0) 0x1000 (taskM b 0))
  let s := s.withCurs (s.curs.copyTo a 1 b)
  let s := s.withRings (s.rings.copyTo (1024 * a) 1024 (1024 * b))
  let s := s.withUnans (s.unans.copyTo (1024 * a) 1024 (1024 * b))
  let s := s.withCqs (s.cqs.copyTo (64 * a) 64 (64 * b))
  let s := s.withFr { s.fr with issued := s.fr.issued.copyTo (4096 * a) 4096 (4096 * b) }
  let rs : SMap RingSt := s.rings.map (fun (p : Nat × RingSt) => (p.1, if p.2.site = a then { p.2 with site := b } else p.2))
  let s := s.withRings rs
  s.setGm b here

/-- MOVE_COMPLETE: a move ends DONE (0), ABORT_DST (1) or ABORT_SRC (2); the last loses the chamber's state. -/
def execMoveComplete (outcome : Nat) (s : State) : Host.Outcome State Fault Refusal :=
  .next (
    match s.tst.moveOn with
    | none => s
    | some (a, b) =>
      let s := s.withTst { s.tst with moveOn := none }
      match outcome with
      | 0 =>
        let s := (s.moveCopy a b).setFld R.TRM_MOVE_STATUS_STATE 2
        s.setFld R.TRM_MOVE_STATUS_LINES_DONE (10240 * s.onSlices a)
      | 1 => s.setFld R.TRM_MOVE_STATUS_STATE 4
      | _ =>
        let s := s.setFld R.TRM_MOVE_STATUS_STATE 3
        let seq := s.fld R.MGMT_STATUS_SEQ
        let s := s.raise (s.recAt (s.mkRec UECHAMBER 13 0) a)
        match s.chamberOf a with
        | some c => s.chRequest c UECHAMBER seq true
        | none => s)

end Sys2Proof.Machine
end

