-- ==== Sys2Proof/Machine/Fault.lean ====
section
/-! DEFINITION. Resets as they proceed (R379 to R383, R421), pearls (R422 to R424), watchdogs (R417, R418), echo replay
(R425 to R427), health scores (R428, R429). -/

namespace Sys2Proof.Machine

/-! ## Cores and galleries -/

/-- ICINV_COMPLETE: the invalidation of a core's instruction cache has taken effect (R51). -/
def execIcinvComplete (site core : Nat) (s : State) : Host.Outcome State Fault Refusal :=
  .next (
    if s.fld (R.CORE_STATUS_ICINV_BUSY site core) = 0 then s
    else
      let k := coreKey site core
      (s.setCore k { s.core k with lines := [] }).setFld (R.CORE_STATUS_ICINV_BUSY site core) 0)

/-- CORE_RESET_COMPLETE: a core reset ends: answers are in, or 5 µs have passed (R380). -/
def execCoreResetComplete (site core : Nat) (s : State) : Host.Outcome State Fault Refusal :=
  .next (if s.fld (R.CORE_STATUS_RESETTING site core) = 1 ∧ !(s.gr site).busy then s.coreDone site core else s)

/-- GALLERY_RESET_DRAIN_END: the outbound drain of a gallery reset is over; steps 4 and 5 of Table 18.4 follow. The galleries
of a chamber reset follow that reset's steps. -/
def execGalleryResetDrainEnd (site : Nat) (s : State) : Host.Outcome State Fault Refusal :=
  .next (if (s.gr site).busy && !s.inChReset site then (s.galDrained site).galDone site else s)

/-- RESET_HOLD_EXPIRY: a reset that was held starts, 1 ms after the last one of its domain began (R379). A module compute
reset is never held: in BOOT none is accepted. -/
def execResetHoldExpiry (dom : ResetDom) (s : State) : Host.Outcome State Fault Refusal :=
  .next (
    match dom with
    | .core site core =>
      let x := s.core (coreKey site core)
      if !x.held then s
      else
        let s := s.withNow (max s.now (x.lastReset.getD 0 + resetGap))
        if (s.gr site).busy then s.setCore (coreKey site core) { x with held := false } else s.coreStart site core
    | .gallery site =>
      let g := s.gr site
      if !g.held || g.busy then s
      else
        let s := s.withNow (max s.now (g.lastAt.getD 0 + resetGap))
        if s.inChReset site then s.setGr site { g with held := false } else s.galStart site true
    | .chamber c =>
      let x := s.fr.chs.get c ChSt.init
      match x.held with
      | none => s
      | some seq =>
        if s.fld (R.FR_CHAMBER_STATE c) = 2 then s
        else
          let s := s.withNow (max s.now (x.startAt + resetGap))
          s.chStart c (if seq = 0 ∧ !x.lostAll then CE else UECHAMBER) seq x.lostAll
    | .compute => s)

/-! ## Pearls (R422 to R424) -/

/-- The key of a pearl: ECDH and the key derivation of NIST SP 800-56C with SHA-384, one step (log entry 5). -/
def pearlKey (priv tenant : Nat) : Nat :=
  Config.sha384 (beBytes 4 1 ++ beBytes 48 (Config.p384Ecdh priv tenant)) % 2 ^ 256

/-- Step 4: the pearl is written, if R422 is met. The ephemeral private key and the nonce are free values. -/
def State.pearlWrite (s : State) (c : Nat) : State :=
  let x := s.fr.chs.get c ChSt.init
  let sections := x.pearl.drop 4
  let base := s.fld (R.FR_CHAMBER_PEARL_BASE c) * 65536
  let tenant := s.sec.keys.get (3 * 256 + c) []
  if s.fld (R.FR_CHAMBER_PEARL_EN c) = 0 ∨ tenant = [] ∨ !isStackAddr base ∨
      !s.chOwns c base (256 + sections.length) then s.setFld (R.FR_CHAMBER_PEARL_OK c) 0
  else
    let (priv, s) := s.takeFree
    let (nonce, s) := s.takeFree
    let key := pearlKey priv (leNat tenant)
    let head := leBytes 4 0x4B50524C ++ leBytes 1 1 ++ leBytes 1 c ++ leBytes 2 (sections.length / 65536) ++
      leBytes 8 (x.trigDrip % 2 ^ 48) ++ leBytes 4 x.seq ++ x.pearl.take 4
    let tag := Config.gcmTag key (nonce % 2 ^ 96) (leNat (head ++ sections))
    let text := leBytes sections.length (Config.gcmEncrypt key (nonce % 2 ^ 96) (leNat sections))
    let pub := beBytes 97 (4 * 2 ^ 768 + Config.p384Public priv % 2 ^ 768)
    let bytes := head ++ pub ++ leBytes 12 nonce ++ leBytes 16 tag ++ List.replicate 107 0 ++ text
    (s.stackWrite base bytes).1.setFld (R.FR_CHAMBER_PEARL_OK c) 1

/-! ## Chamber reset (R421) -/

/-- Keys of units of a list that lie in a chamber's regions. -/
def State.unitsIn (s : State) (c : Nat) (l : List Nat) : List Nat :=
  l.filter (fun u => s.chamberOfLoc (u / 2 ^ 30) (64 * (u % 2 ^ 30)) == some c)

/-- Units logged as uncorrectable in a chamber's regions are zeroed (R294). -/
def State.zeroLogged (s : State) (c : Nat) : State :=
  let us := s.unitsIn c s.ueLog
  let old := s.unitsIn c s.zeroed
  let s := us.foldl (fun s u =>
    let k := stackKey (u / 2 ^ 30) (64 * (u % 2 ^ 30))
    (s.zeroRange k (k + 64)).withPoison (s.poison.erase u)) s
  (s.withUeLog (s.ueLog.filter (fun u => !us.contains u))).withZeroed (s.zeroed.filter (fun u => !old.contains u) ++ us)

/-- A row takes soft repair, or its pages are retired where its bank has no spare row left (R298). -/
def State.softRepair (s : State) (k row : Nat) : State :=
  let m := s.ms k
  let bank := bankOfRow row
  let m := { m with toRepair := m.toRepair.filter (· != row) }
  let n := m.used.get bank 0
  if 4 ≤ n then s.setMs k { m with retired := m.retired ++ [row / 4] }
  else
    let s := s.setMs k { m with soft := m.soft ++ [row], used := m.used.put bank (n + 1) 0 }
    s.setFld (R.MS_STATUS_PPR_LEFT k) (min (s.fld (R.MS_STATUS_PPR_LEFT k)) (4 - (n + 1)))

/-- Step 6: units zeroed, at most 8 rows repaired; further rows wait. -/
def State.chRepair (s : State) (c : Nat) : State :=
  let s := s.zeroLogged c
  let rows := (List.range 32).flatMap (fun k =>
    ((s.ms k).toRepair.filter (fun r => s.chamberOfLoc k (1024 * r) == some c)).map (fun r => (k, r)))
  (rows.take 8).foldl (fun s p => s.softRepair p.1 p.2) s

/-- Step 5: the scrub of every gallery; one whose scrub has failed stays held, and so does one of `bad`, whose read-back
fails now (R81). -/
def State.chScrub (s : State) (c : Nat) (bad : List Nat) : State :=
  (s.chSites c).foldl (fun s site =>
    if s.fld (R.GM_SCRUB_VERIFY_FAIL site) = 1 then s else (s.scrubGo site).scrubDone site (!bad.contains site)) s

/-- Step 7: runtimes are started, routers stop absorbing. -/
def State.chRuntimes (s : State) (c : Nat) : State :=
  let s := (s.chGals c).foldl (fun s g => s.rtStart g.1 g.2) s
  (s.chSites c).foldl (fun s site => s.galDone site) s

/-- NO_CH_RESET is 1 again when no chamber is in reset. -/
def State.chCond (s : State) : State :=
  (s.setFld R.CLASSA_COND_NO_CH_RESET (b2n (s.fld R.BRG_RESET_CH_IN_RESET == 0))).syncCond

/-- Step 8: RUN, or EMPTY for a chamber that holds no gallery. -/
def State.chEnd (s : State) (c : Nat) : State :=
  let s := (s.setFld (R.FR_CHAMBER_STATE c) (if (s.chGals c).isEmpty then 3 else 1)).setStep c 0
  let s := (s.setFld R.BRG_RESET_CH_IN_RESET (clrBitN (s.fld R.BRG_RESET_CH_IN_RESET) c)).chCond
  s.raise (s.recCh CE 15 c)

/-- CHAMBER_RESET_STEP: the step of Table 20.3 in progress ends, and the next starts. -/
def execChamberResetStep (x : ChamberStep) (s : State) : Host.Outcome State Fault Refusal :=
  let c := x.c
  .next (
    if s.fld (R.FR_CHAMBER_STATE c) ≠ 2 then s
    else match s.fld (R.FR_CHAMBER_STEP c) with
      | 2 => s.setStep c 3
      | 3 => ((s.chSites c).foldl (fun s site => s.galDrained site) s).setStep c 4
      | 4 => (s.pearlWrite c).setStep c 5
      | 5 => (s.chScrub c x.bad).setStep c 6
      | 6 => (s.chRepair c).setStep c 7
      | 7 => (s.chRuntimes c).setStep c 8
      | 8 => s.chEnd c
      | _ => s)

/-! ## Watchdogs (R417, R418) -/

/-- A context counts towards its watchdog: READY or STALLED, and not FROZEN. -/
def State.watched (s : State) (k : Nat) : Bool :=
  !s.frozen (taskM (siteOfKey k) (s.taskOf k)) && (match (s.ctx k).st with
    | .ready => true
    | .stalled _ => true
    | _ => false)

/-- CONTEXT_WATCHDOG_EXPIRY: a context has gone LIMIT_US without an issue: WATCHDOG fault. -/
def execContextWatchdogExpiry (site core ctx : Nat) (s : State) : Host.Outcome State Fault Refusal :=
  .next (
    let k := ctxKey site core ctx
    let lim := s.fld (R.GAL_WDOG_LIMIT_US site)
    if lim = 0 ∨ !s.watched k then s
    else
      let s := s.withNow (max s.now (s.fr.issued.get k 0 + 1000 * lim))
      (s.addFld (R.GAL_WDOG_TRIPS site) 1).ctxFault k 8)

/-- Flowstone is restarted from its verified image: its health buckets are lost. -/
def State.fwRestart (s : State) : State :=
  (s.withFr { s.fr with
    kickAt := s.now, buckets := [], sampled := []
    restarts := s.fr.restarts.filter (fun t => decide (s.now < t + 600000000000)) ++ [s.now] })

/-- FLOWSTONE_WATCHDOG_EXPIRY: FW_WDOG_MS have passed without a kick. The third restart within 600 s is FATAL (Table
20.2). -/
def execFlowstoneWatchdogExpiry (s : State) : Host.Outcome State Fault Refusal :=
  .next (
    if !s.svcUp then s
    else
      let s := s.withNow (max s.now (s.fr.kickAt + 1000000 * s.fld R.FR_CTRL_FW_WDOG_MS))
      let s := s.fwRestart.ce 14
      if 3 ≤ s.fr.restarts.length then s.fatalMcr else s)

/-- BEDROCK_HEARTBEAT: Bedrock signals Lantern, every 10 ms. -/
def execBedrockHeartbeat (s : State) : Host.Outcome State Fault Refusal :=
  .next (
    if s.svcUp then
      let t := max s.now (s.fr.hbAt + 10000000)
      (s.withNow t).withFr { s.fr with hbAt := t }
    else s)

/-! ## Echo replay (R426, R427) -/

/-- The task record that a replay runs, and its image; none where the image is not in the chamber's regions, or the record
not in the image (log entry 35). -/
def State.echoRec (s : State) : Option (List Byte × List Byte) :=
  let c := s.fld R.FR_ECHO_CHAMBER
  let a := s.fld R.FR_ECHO_IMG_ADDR
  if !isStackAddr a ∨ !s.chOwns c a 64 then none
  else
    let len := leAt (s.rdStack a 64) 12 4
    if !s.chOwns c a len then none
    else
      let img := s.rdStack a len
      match (imageRecs img).find? (fun p => p.1 == s.fld R.FR_ECHO_RECORD) with
      | some p => if recOk len (leAt img 2 2) p.2 then some (img, p.2) else none
      | none => none

/-- The site of a replay, handed over, takes one task in entry 1; none where it does not fit. -/
def State.echoLoad (s : State) (site : Nat) (img r : List Byte) : Option State :=
  match s.giveAll site [(1, r)] [], s.givePlaces site (recWins 1 r) (s.usedCells 511 site) [] with
  | some g, some bases =>
    let s := (s.fillWins site img [(1, r)] bases).installTask site 1 r g bases
    let s := (List.range 32).foldl (fun s c => s.icInv site c) s
    some ((s.setFld (R.GAL_STATUS_STATE site) 2).unitsOn site)
  | _, _ => none

/-- FR_ECHO is written with GO = 1. -/
def State.echoGo (s : State) : State :=
  let site := s.fld R.FR_ECHO_SITE_COL + 56 * s.fld R.FR_ECHO_SITE_ROW
  let refused := (s.setFld R.FR_ECHO_STATUS_STATE 4).setFld R.FR_ECHO_STATUS_RESULT 0
  if !isGallerySite site || (s.chamberOf site).isSome || s.fld (R.GAL_STATUS_STATE site) != 1 || s.tst.moveOn.isSome ||
      s.fr.echo.isSome then refused
  else match s.echoRec with
    | none => refused
    | some _ =>
      let s := s.withFr { s.fr with echo := some ⟨site, s.fld R.FR_ECHO_CHAMBER, false, 0, false, 0⟩ }
      let s := (s.setFld R.FR_ECHO_STATUS_STATE 1).setFld R.FR_ECHO_STATUS_RESULT 0
      let s := s.handOver site
      s.setGm site { s.gm site with held := (s.gm site).held ++ [(true, 2 ^ 32 - 1)] }

/-- The site of a replay is handed over and all its slices are ON. -/
def State.echoReady (s : State) (site : Nat) : Bool :=
  s.fld (R.GM_SCRUB_STATE site) == 0 && (List.range 32).all (fun k => s.slice site k == 2)

/-- The Open at which a replay's task is loaded and starts: `DRIPS` + 1 drips follow (R426). -/
def State.echoOpen (s : State) : State :=
  match s.fr.echo with
  | none => s
  | some e =>
    if e.loaded || !s.echoReady e.site then s
    else match (s.echoRec.bind (fun p => s.echoLoad e.site p.1 p.2)) with
      | none => s.echoEnd 3
      | some s =>
        let e := { e with loaded := true, endDrip := s.dripNo + s.fld R.FR_ECHO_DRIPS + 1 }
        (s.withFr { s.fr with echo := some e }).setFld R.FR_ECHO_STATUS_STATE 2

/-- ECHO_REPLAY_END: the replay has seen its record, has run all its drips, or is aborted since the site is needed. -/
def execEchoReplayEnd (abort : Bool) (s : State) : Host.Outcome State Fault Refusal :=
  .next (
    match s.fr.echo with
    | none => s
    | some e =>
      if abort then s.echoEnd 3
      else if e.seen then s.echoEnd 1
      else if e.loaded && decide (e.endDrip ≤ s.dripNo) then s.echoEnd 2
      else s)

/-! ## Health (R428, R429) -/

/-- The counters of a unit, in the order of Table 20.6, and their weights. -/
def State.healthCounts (s : State) (u : Nat) : List Nat :=
  let ev (k : Nat) : Nat := s.fr.events.get k 0
  if u < 448 then
    if isStackSite u then
      let k := stackOfSite u
      [s.fld (R.MS_ECC_CNT_CE k), 0, b2n (s.fld (R.MS_STATUS_STATE k) == 4), 0, s.fld (R.MS_ECC_CNT_UE k)]
    else [s.fld (R.HLT_SITE_CNT_CE u), s.fld (R.HLT_SITE_CNT_RETRY u), 0, s.fld (R.HLT_SITE_CNT_PATROL u),
      s.fld (R.HLT_SITE_CNT_OFFENCE u)]
  else if u < 480 then
    let p := u - 448
    [s.fld (R.PORT_FEC_CNT_CORR p) / 2 ^ 20, s.fld (R.PORT_SFT_CNT_RETX p), ev (2 * u), 0, s.fld (R.PORT_FEC_CNT_UNCORR p)]
  else [0, 0, ev (2 * u), 0, ev (2 * u + 1)]
def healthWeights : List Nat := [16, 8, 32, 48, 96]

/-- Hourly buckets, newest first, moved on by some hours. -/
def bucketsOn (h : Nat) (l : List Nat) : List Nat := (List.replicate (min h 24) 0 ++ l).take 24

/-- The increase of a counter joins the newest bucket. -/
def bucketAdd (n : Nat) : List Nat → List Nat
  | [] => if n = 0 then [] else [n]
  | x :: xs => (x + n) :: xs

/-- One counter (key 8 * unit + its place) is sampled. -/
def State.healthSample (s : State) (hours key n : Nat) : State :=
  let last := s.fr.sampled.get key 0
  let inc := if last ≤ n then n - last else n
  let b := bucketAdd inc (bucketsOn hours (s.fr.buckets.get key []))
  let b := if b.all (· == 0) then [] else b
  s.withFr { s.fr with sampled := s.fr.sampled.put key n 0, buckets := s.fr.buckets.put key b [] }

/-- floor(log2 (n + 1)). -/
def lgOf (n : Nat) : Nat := Nat.log2 (n + 1)

/-- A unit is fenced, FAILED or retired. -/
def State.unitDown (s : State) (u : Nat) : Bool :=
  if u < 448 then
    s.rtrState u != 0 || (if isStackSite u then s.fld (R.MS_STATUS_STATE (stackOfSite u)) == 4
      else s.fld (R.GAL_CTRL_FENCE u) == 1 || s.retired u)
  else if u < 480 then s.rtrState u != 0
  else s.lampState (u - 480) == 5

/-- The score of a unit (R429). -/
def State.score (s : State) (u : Nat) : Nat :=
  if s.unitDown u then 0
  else
    let terms := (List.range 5).map (fun i =>
      healthWeights.getD i 0 * lgOf ((s.fr.buckets.get (8 * u + i) []).foldl (· + ·) 0))
    let rung := if u < 448 && !isStackSite u then 40 * s.fld (R.TR_LADDER_RUNG u) else 0
    1023 - min 1023 (terms.foldl (· + ·) 0 + rung)

/-- Usable spare gallery sites. -/
def State.spares (s : State) : Nat :=
  min 32 ((gallerySites.filter (fun x => (s.lgOfSite x).isNone && !s.unitDown x)).length)

/-- HEALTH_SCORE_UPDATE: Flowstone samples the counters, once per second, and writes the scores. -/
def execHealthScoreUpdate (s : State) : Host.Outcome State Fault Refusal :=
  .next (
    if !s.svcUp then s
    else
      let t := max s.now (s.fr.sampleAt + 1000000000)
      let hours := t / 3600000000000 - s.fr.sampleAt / 3600000000000
      let s := (s.withNow t).withFr { s.fr with sampleAt := t }
      let s := (List.range 490).foldl (fun s u =>
        (List.range 5).foldl (fun s i => s.healthSample hours (8 * u + i) ((s.healthCounts u).getD i 0)) s) s
      let scores := (List.range 490).map (fun u => s.score u)
      let s := (List.range 490).foldl (fun s u =>
        let s := (s.setFld (R.HLT_SCORE_VALID (u / 4) (u % 4)) 1).setFld (R.HLT_SCORE_DOWN (u / 4) (u % 4)) (b2n (s.unitDown u))
        s.setFld (R.HLT_SCORE_SCORE (u / 4) (u % 4)) (scores.getD u 0)) s
      let m := scores.foldl (· + ·) 0 / 490
      let g := s.spares
      ((s.setFld R.HLT_MODULE_MEAN m).setFld R.HLT_MODULE_SPARES g).setFld R.HLT_MODULE_SCORE (min m (32 * g + 31)))

end Sys2Proof.Machine
end

