-- ==== Sys2Proof/Machine/View.lean ====
section
/-! DEFINITION. What a read of a register gives (R6): the value it holds, with the RO fields that show what another part of
the state holds computed from there. -/

namespace Sys2Proof.Machine

/-! ## Fields that are computed (Tables 3.10, 3.16, 3.17, 4.15, 6.8, 7.16, 11.9, 11.12, 11.14, 11.16) -/

/-- Usable physical cores not in the map, at most 2. -/
def State.sparesLeft (s : State) (site : Nat) : Nat :=
  let ws := (List.range 4).map (fun m => s.reg (R.GAL_CORE_MAP site m))
  let used := ((List.range 32).filter (fun k => (mapEntry ws k).1)).map (fun k => (mapEntry ws k).2)
  min 2 (((List.range 34).filter (fun p =>
    bitN (s.fld (R.GAL_CORE_FAULT_FAULT site)) p == 0 && !used.contains p)).length)

/-- The contexts of a core that are listed, that is, not at their initial record. -/
def State.ctxsOn (s : State) (site core : Nat) : List (Nat × Ctx) :=
  s.ctxs.filter (fun p => decide (ctxKey site core 0 ≤ p.1) && decide (p.1 < ctxKey site core 0 + 128))

/-- A context that is PARKED. -/
def Ctx.parked (c : Ctx) : Bool :=
  match c.st with
  | .parkedWait _ _ => true
  | .parkedDispatch => true
  | _ => false

/-- Contexts of half `h` of a core that are not FREE, one bit each. -/
def State.liveBits (s : State) (site core h : Nat) : Nat :=
  (s.ctxsOn site core).foldl (fun n p =>
    let k := p.1 % 128
    if k / 64 = h ∧ p.2.st ≠ .free then setBitN n (k % 64) else n) 0

/-- State of an MXE (Table 6.8). -/
def State.mxeState (s : State) (site j : Nat) : Nat :=
  let x := s.mxe (2 * site + j)
  if s.fld (R.MXE_STATUS_STATE site j) = 5 then 5
  else if s.fld (R.MXE_CTRL_FENCE site j) = 1 then 4
  else if s.fld (R.MXE_CTRL_ENABLE site j) = 0 then 0
  else if x.held.isSome then 3
  else if x.queue.isEmpty && x.run.isEmpty && x.draining.isEmpty && !x.patrol then 1
  else 2

/-- State of a curtain (Table 7.16). -/
def State.curState (s : State) (site : Nat) : Nat :=
  let c := s.cur site
  if s.fld (R.CUR_STATUS_STATE site) = 5 then 5
  else if c.loadAt.isSome then (if c.item.isSome || c.tokens != 0 then 3 else 4)
  else if c.progs.isEmpty then 0
  else if c.item.isSome || c.patrol then 2
  else 1

/-- PROG and ITEM_KIND of a curtain. -/
def State.curItem (s : State) (site : Nat) : Nat × Nat :=
  match (s.cur site).item with
  | none => (0, 0)
  | some i => (i.prog, match i.kind with
    | .run _ => 1
    | _ => 0)

/-- State of a TFE (Table 11.16). -/
def State.tfeState (s : State) (site : Nat) : Nat :=
  let t := s.tfe site
  if s.fld (R.TFE_CTRL_ENABLE site) = 0 then 0
  else if s.frozen (tfeM site) then 3
  else if t.queue.isEmpty && t.active.isEmpty then 1
  else 2

/-- Records of a ring in a state. -/
def RingSt.count (g : RingSt) (st : Nat) : Nat := (g.recs.filter (fun x => x.st == st)).length

/-- Records present in every receive ring and completion ring of a site. -/
def State.presentAll (s : State) (site : Nat) : Nat :=
  let a := s.rings.foldl (fun (n : Nat) (p : Nat × RingSt) => if p.1 / 1024 = site then n + p.2.count 0 else n) 0
  s.cqs.foldl (fun (n : Nat) (p : Nat × List CqRec) =>
    if p.1 / 64 = site then n + (p.2.filter (fun x => x.st == 1)).length else n) a

/-- Lines in DEAD or STUCK. -/
def State.stuckLines (s : State) (site : Nat) : Nat :=
  (s.validWords (R.MU_LINE0 site 0) 32 1024 (fun w => getBits w 61 2 != 0)).length

/-- A word with a field replaced. -/
def putFld (w : Word) (f : Fld) (n : Nat) : Word := putBits w f.lo f.width n

/-- The place of a register among those of its row: which of the first and of the second repetition. -/
def Found.place (f : Found) (a : Nat) : Nat × Nat :=
  let o := a - f.base - f.row.off
  match f.row.dims with
  | [] => (0, 0)
  | [d] => (o / d.2, 0)
  | d :: e :: _ => (o / d.2, o % d.2 / e.2)

/-- The MXE of a register's block. -/
def mxeOf (a : Nat) : Nat := a % 0x1000 / 0x100

/-- The node of an RTR block. -/
def nodeOfRtr (base : Nat) : Nat :=
  if 0x200010000000 ≤ base then siteAt base else (spineOf ((base - 0x200000030000) / 0x100)).getD 0

/-- The RW bits of a register: those of its table, less what is reserved at this place (R6). Of HLT_SCORE 122 units 490 and
491 (Table 20.13); of SFT_FLOW word 3 all of it while the flow receives (Table 15.18). -/
def State.rwBits (s : State) (f : Found) (a : Nat) : Nat :=
  match f.row.reg with
  | .HLT_SCORE => if (f.place a).1 = 122 then f.row.rw % 2 ^ 32 else f.row.rw
  | .SFT_FLOW3 => if getBits (s.reg (a - 24)) 62 1 = 1 then 0 else f.row.rw
  | _ => f.row.rw

/-- The port of a port frame's register. -/
def portAt (a : Nat) : Nat := (a - 0x200002000000) / 0x400000

/-- What a read of a register gives. -/
def State.viewOf (s : State) (f : Found) (a : Nat) : Word :=
  let w := s.reg a
  let site := siteAt f.base
  let (i, h) := f.place a
  let j := mxeOf a
  match f.row.reg with
  | .GAL_ID => putFld w (R.GAL_ID_LG site) ((s.lgOfSite site).getD 511)
  | .GAL_STATUS =>
    putFld (putFld w (R.GAL_STATUS_CORES_OK site) (s.coresOk site)) (R.GAL_STATUS_SPARES_LEFT site) (s.sparesLeft site)
  | .CORE_STATUS =>
    let cs := (s.ctxsOn site i).filter (fun p => !s.frozen (taskM site (s.taskOf p.1)))
    let w := putFld w (R.CORE_STATUS_PHYS site i) (s.physOf site i)
    let w := putFld w (R.CORE_STATUS_READY site i) (cs.filter (fun p => p.2.st == .ready)).length
    let w := putFld w (R.CORE_STATUS_PARKED site i) (cs.filter (fun p => p.2.parked)).length
    putFld w (R.CORE_STATUS_FENCED site i) (s.fld (R.CORE_CTRL_FENCE site i))
  | .CORE_LIVE => BitVec.ofNat 64 (s.liveBits site i h)
  | .MXE_STATUS =>
    let x := s.mxe (2 * site + j)
    let w := putFld w (R.MXE_STATUS_STATE site j) (s.mxeState site j)
    putFld (putFld w (R.MXE_STATUS_QDEPTH site j) x.queue.length) (R.MXE_STATUS_PATROL site j) (b2n x.patrol)
  | .CUR_STATUS =>
    let (prog, kind) := s.curItem site
    let w := putFld (putFld w (R.CUR_STATUS_STATE site) (s.curState site)) (R.CUR_STATUS_PROG site) prog
    let w := putFld (putFld w (R.CUR_STATUS_RUNQ site) (s.cur site).runs.length) (R.CUR_STATUS_ITEM_KIND site) kind
    putFld w (R.CUR_STATUS_RUN_SUSP site) (b2n (s.cur site).susp.isSome)
  | .TFE_STATUS =>
    let t := s.tfe site
    let w := putFld w (R.TFE_STATUS_STATE site) (s.tfeState site)
    putFld (putFld w (R.TFE_STATUS_QDEPTH site) t.queue.length) (R.TFE_STATUS_ACTIVE site) t.active.length
  | .GM_SB_STATUS =>
    let n := (s.claimList site).length
    putFld (putFld w (R.GM_SB_STATUS_IN_USE site) n) (R.GM_SB_STATUS_FULL site) (b2n (n == 64))
  | .MU_STATUS =>
    putFld (putFld w (R.MU_STATUS_PRESENT site) (s.presentAll site)) (R.MU_STATUS_STUCK site) (s.stuckLines site)
  | .MU_RING1 =>
    let g := s.ring (site * 1024 + i)
    putFld (putFld w (R.MU_RING1_PRESENT site i) (g.count 0)) (R.MU_RING1_INHAND site i) (g.count 2)
  | .MU_LINE3 => putFld w (R.MU_LINE3_INFLIGHT site i) ((s.una (site * 1024 + i)).filter (fun u => !u.resv)).length
  | .RTR_STATUS => putFld w (R.RTR_STATUS_EPOCH f.base) s.epoch
  | .SFT_FLOW3 => if getBits (s.reg (a - 24)) 62 1 = 1 then 0 else w
  | .PORT_SQ => putFld w (R.PORT_SQ_DEPTH (portAt a) i h) ((s.port (portAt a)).sqs.get (64 * i + h) []).length
  | .LCP_STATUS => putFld w R.LCP_STATUS_BCALL_DEPTH s.sec.calls.length
  | .LNT_STATUS => putFld w R.LNT_STATUS_HB_AGE (min 255 (s.hbAge / 10))
  | .BRG_STATUS => putFld w R.BRG_STATUS_ELAPSED_MS (min 0xFFFFFFFF ((s.now - s.boot.entryAt) / 1000000))
  | .BRG_CLK1 =>
    putFld w R.BRG_CLK1_LAMP ((List.range 10).foldl (fun n k => if s.lampClock k then setBitN n k else n) 0)
  | _ => w

/-- What a read of the 8 bytes at a module address in CSR space gives; none where there is no register. -/
def State.csrView (s : State) (a : Nat) : Option Word := (regAt a).map (fun f => s.viewOf f a)

end Sys2Proof.Machine
end

