-- ==== Sys2Proof/Machine/RegWrite.lean ====
section
/-! DEFINITION. A write to a register, from whatever source: where it goes, who may make it, what its block's rules refuse,
and what it does (R6 to R9, R460, R461, R477, R478 and each block's own rules). Every command that is a write of one
register comes here. -/

namespace Sys2Proof.Machine

/-! ## Sources (R59, R130, R156, R159, R254, R287, R301, R339, R341, R357, R392, R414, R433, R458, R480) -/

/-- What a source counts as for the blocks' rules. -/
inductive Who where
  | bedrock
  | flowstone
  /-- The S-mode gallery runtime of a gallery of this chamber. -/
  | runtime (c : Nat)
  /-- The host while HOST_CSR_WR = 0. -/
  | host
  | nobody
deriving DecidableEq, Repr

/-- What a source counts as. -/
def State.who (s : State) (src : Src) : Who :=
  match src with
  | .bedrock => .bedrock
  | .flowstone => .flowstone
  | .host => if s.fld R.HIF_CTRL_HOST_CSR_WR = 1 then .flowstone else .host
  | .gallery site core c =>
    if (s.ctx (ctxKey site core c)).priv = 1 then
      match s.chamberOf site with
      | some ch => .runtime ch
      | none => .nobody
    else .nobody
  | .lantern => .nobody

/-- The chamber of a port's queue or flow entry, as the write at `a` leaves it. -/
def State.entryChamber (s : State) (f : Found) (a : Nat) (new : Word) : Nat :=
  match f.row.reg with
  | .PORT_SQ => getBits new 56 4
  | .SFT_FLOW0 => getBits new 56 4
  | .SFT_FLOW1 => getBits (s.reg (a - 8)) 56 4
  | .SFT_FLOW2 => getBits (s.reg (a - 16)) 56 4
  | _ => getBits (s.reg (a - 24)) 56 4

/-- Some field of the register at `a` may be written by a writer, if the write leaves `new` there. -/
def State.mayWrite (s : State) (w : Who) (f : Found) (a : Nat) (new : Word) : Bool :=
  match w with
  | .bedrock => true
  | .flowstone =>
    match f.blk with
    | .TR => false
    | .MSMAP => false
    | .SEC => false
    | .LNT => f.row.reg != .LNT_CLR
    | _ => true
  | .runtime c =>
    let mine : Bool := s.chamberOf (siteAt f.base) == some c
    match f.blk with
    | .GAL => mine
    | .GM => mine
    | .MXE => mine
    | .CUR => mine
    | .MU => mine
    | .TFE => mine
    | .MSTR => decide (0x200010000000 ≤ f.base) && mine
    | .PORT =>
      match f.row.reg with
      | .PORT_SQ => s.entryChamber f a new == c
      | .SFT_FLOW0 => s.entryChamber f a new == c
      | .SFT_FLOW1 => s.entryChamber f a new == c
      | .SFT_FLOW2 => s.entryChamber f a new == c
      | .SFT_FLOW3 => s.entryChamber f a new == c
      | _ => false
    | .FR => f.row.reg == .FR_CHAMBER && (a - R.FR_CHAMBER 0) / 8 == c
    | _ => false
  | .host =>
    match f.blk with
    | .HIF => true
    | .BRG => f.row.reg == .BRG_HOST_CMD || f.row.reg == .BRG_RAW_SEL
    | _ => false
  | .nobody => false

/-- The bits of a register that a writer who may write the register may not write (R477). -/
def State.restricted (s : State) (w : Who) (f : Found) : Word :=
  match w with
  | .bedrock => 0
  | .runtime _ => BitVec.ofNat 64 (f.row.bed ||| (if f.row.reg = .FR_CHAMBER then 2 ^ 57 else 0))
  | .host =>
    let q := if f.row.reg = .HQ0 ∧ s.fld R.HIF_CTRL_HOST_BIND = 0 then 0x8780000000000000 else 0
    BitVec.ofNat 64 (f.row.bed ||| q)
  | _ => BitVec.ofNat 64 f.row.bed

/-! ## Blocks that do not answer (R9) -/

/-- The domain of a block is power-gated, stopped or held in reset (R9, R465, Table 18.5). Two registers' rules need an answer
there (DEDUCED, log entry 36): GAL_CTRL in OFF, whose ENABLE leaves it, and GM in the hand-over of a chamber reset, where R78
and R80 take requests. -/
def State.gated (s : State) (f : Found) : Bool :=
  if f.base < 0x200010000000 then
    let off : Bool := f.blk != .LNT && !s.svcUp
    match f.blk with
    | .PORT => off || bitN (s.fld R.BRG_CLK_OE) (portAt f.base / 4) == 0
    | .MSTR => off || (decide (0x200002000000 ≤ f.base) && bitN (s.fld R.BRG_CLK_OE) (portAt f.base / 4) == 0)
    | .MS => off || bitN (s.fld R.BRG_CLK_STACK) ((f.base - R.MS_CTRL 0) / 0x1000) == 0
    | .RTR => off || s.fld R.BRG_CLK_FABRIC == 0
    | _ => off
  else
    let site := siteAt f.base
    let dark := bitN (s.fld R.BRG_CLK_DIE) (dieOf site) == 0
    let off := s.fld (R.GAL_STATUS_STATE site) == 0
    match f.blk with
    | .RTR => s.fld R.BRG_CLK_FABRIC == 0
    | .GAL => dark || (s.gr site).busy || (off && f.row.reg != .GAL_CTRL)
    | .GM => dark || off || ((s.gr site).busy && s.fld (R.GM_SCRUB_STATE site) == 0)
    | _ => dark || off || (s.gr site).busy

/-! ## What a write does, block by block. `none`: the block's rule discards it. -/

/-- A write that has been let through to its block: the register, its place, its site; its value before, the value that
its RW and W1C bits take, the WO bits written 1, the bits covered, and the source. -/
structure CsrWr where
  src : Src
  reg : Reg
  a : Nat
  base : Nat
  i : Nat
  h : Nat
  site : Nat
  old : Word
  new : Word
  wo : Word
  cover : Word
deriving DecidableEq, Repr

/-- The write covers some bit of a field. -/
def CsrWr.covers (w : CsrWr) (lo n : Nat) : Bool := getBits w.cover lo n != 0

/-- A WO bit is written 1. -/
def CsrWr.asks (w : CsrWr) (b : Nat) : Bool := getBits w.wo b 1 == 1

/-- A field of the value that results. -/
def CsrWr.get (w : CsrWr) (lo n : Nat) : Nat := getBits w.new lo n

/-- A field of the value before. -/
def CsrWr.was (w : CsrWr) (lo n : Nat) : Nat := getBits w.old lo n

/-- The value that results, stored. -/
def State.keep (s : State) (w : CsrWr) : State := s.setReg w.a w.new

/-- DRIP (R19 to R21, R27, R480, Table 2.13). -/
def State.wrDrip (s : State) (w : CsrWr) : Option State :=
  match w.reg with
  | .DRIP_CTRL =>
    if w.get 1 2 = 3 then none
    else
      let s := s.setReg w.a (putBits (putBits w.new 1 2 (w.was 1 2)) 0 1 (w.was 0 1))
      let s := if w.get 1 2 ≠ w.was 1 2 then s.selectSource (w.get 1 2) else s
      let s := if w.get 0 1 = w.was 0 1 then s else if w.get 0 1 = 1 then s.dripStart else s.dripStop
      some (if w.asks 4 && s.fld R.DRIP_STATUS_STEP_NEEDED == 1 then s.withDrip { s.drip with stepReq := true } else s)
  | .DRIP_PERIOD => if w.get 16 16 < 50 then none else some (s.keep w)
  | .DRIP_APPLY_AT => some (s.applyAt (w.get 0 48))
  | _ => some (s.keep w)

/-- ROPE, MSMAP, MGMT, HLT, MS, LCP: plain storage but for R287 and R290. -/
def State.wrPlain (s : State) (w : CsrWr) : Option State :=
  match w.reg with
  | .ROPE_CTRL => if w.get 0 16 = 0 then none else some (s.keep w)
  | .MSMAP_REGION => if s.regionOk w.i w.new.toNat then some (s.keep w) else none
  | _ => some (s.keep w)

/-- HIF (R341, R345, Table 16.12). A write of HQ word 2 that covers PROD is a doorbell. -/
def State.wrHif (s : State) (w : CsrWr) : Option State :=
  match w.reg with
  | .HIF_CSRWIN =>
    let x := w.get 25 23 * 2 ^ 25
    if csrBase ≤ x ∧ x < csrBase + 2 ^ 32 then some (s.keep w) else none
  | .HQ0 =>
    some (if w.get 63 1 = 1 && w.covers 63 1 then (s.keep w).hqStart w.i else if w.was 63 1 = 1 && w.get 63 1 == 0 then (s.keep w).hqStop w.i else s.keep w)
  | .HQ2 => if w.covers 48 16 && !s.bellOk w.i then none else some (s.keep w)
  | _ => some (s.keep w)

/-- TRM, FR, PWR and LNT (R412, R417, R426, R433, R447, R455, R458). -/
def State.wrCare (s : State) (w : CsrWr) : Option State :=
  match w.reg with
  | .TRM_CTRL => if w.get 24 8 = 0 then none else some (s.keep w)
  | .TRM_MOVE => some (if w.asks 63 then (s.keep w).moveGo else s.keep w)
  | .FR_CTRL =>
    if w.get 0 8 < 10 ∧ w.get 0 8 ≠ w.was 0 8 then some s
    else
      let s := s.keep w
      some (if w.asks 8 then (s.withFr { s.fr with kickAt := s.now }) else s)
  | .FR_ECHO => some (if w.asks 63 then (s.keep w).echoGo else s.keep w)
  | .PWR_CTRL =>
    if w.get 16 11 ≠ w.was 16 11 ∧ (w.get 16 11 < 100 ∨ prCap s.sec.profile < w.get 16 11) then none
    else some (if w.asks 0 then (s.keep w).eject else s.keep w)
  | .LNT_CLR => some (if w.asks 0 then s.leakClear else s)
  | .LNT_TRIP => if w.i < 16 ∨ 6 ≤ w.get 52 3 then none else some (s.keep w)
  | .LNT_CH => some ((s.keep w).withPwr { s.pwr with biq := s.pwr.biq.erase w.i })
  | _ => some (s.keep w)

/-- BRG (R374, R383, R392). The three of R392 are discarded unless DIAG = 1. -/
def State.wrBrg (s : State) (w : CsrWr) : Option State :=
  match w.reg with
  | .BRG_CTRL => some (if w.asks 0 then s.mcrRequest else s)
  | .BRG_HOST_CMD => some (s.hostCmd w.wo.toNat)
  | .BRG_RAW_SEL => some (if s.rawOpen w.src then s.keep w else s)
  | _ => some (s.keep w)

/-- SV (R278 to R281). -/
def State.wrSv (s : State) (w : CsrWr) : Option State :=
  match w.reg with
  | .SV_CTRL =>
    let s := s.keep w
    let s := if w.asks 1 then s.svLoad else s
    let s : Option State := if w.asks 2 then s.svFlip else some s
    s.map (fun s => if w.asks 3 then s.svForce else s)
  | .SV_MAP => (s.svEntry w.a).map (fun s => s.keep w)
  | .SV_GROUP => (s.svEntry w.a).map (fun s => s.keep w)
  | .SV_PASSAGE0 => (s.svEntry w.a).map (fun s => s.keep w)
  | .SV_PASSAGE1 => (s.svEntry w.a).map (fun s => s.keep w)
  | .SV_PASSAGE2 => (s.svEntry w.a).map (fun s => s.keep w)
  | .SV_PASSAGE3 => s.svEntry w.a
  | _ => some (s.keep w)

/-- What a write to a word of a bindable entry is (R254, R339): `v` is the entry's VALID before. -/
inductive EntryWr where
  /-- The entry is not valid and stays so, or a word without VALID of such an entry is written. -/
  | store
  | bind
  | unbind
  | bad
deriving DecidableEq, Repr

/-- The kind of a write to word 0 of a bindable entry, VALID in bit 63. -/
def CsrWr.entry (w : CsrWr) : EntryWr :=
  match w.was 63 1, w.get 63 1 with
  | 0, 0 => .store
  | 0, _ => .bind
  | _, 0 => if putBits w.old 63 1 0 = w.new then .unbind else .bad
  | _, _ => .bad

/-- Links of a port that are no longer enabled are down. -/
def State.linksCut (s : State) (p : Nat) : State :=
  let up := s.fld (R.PORT_STATUS_LINK_UP p)
  let on := s.fld (R.PORT_CTRL_LINK_EN p)
  let s1 := s.setFld (R.PORT_STATUS_LINK_UP p) (up &&& on)
  let s1 := s1.healthEv (2 * (448 + p)) ((List.range 4).filter (fun l => bitN up l == 1 && bitN on l == 0)).length
  if bitN up 0 = 1 ∧ bitN on 0 = 0 then s1.ptpDown p else s1

/-- A gate entry overlaps another valid entry of its link. -/
def State.gateClash (s : State) (p l e : Nat) (v : Word) : Bool :=
  getBits v 63 1 == 1 && (List.range 8).any (fun k =>
    let x := s.reg (R.PORT_QBV p l k)
    k != e && getBits x 63 1 == 1 && decide (getBits x 16 16 < getBits v 16 16 + getBits v 0 16) &&
      decide (getBits v 16 16 < getBits x 16 16 + getBits x 0 16))

/-- A flow loses its binding: its transfers end with KILLED (log entry 28). -/
def State.flowEnd (s : State) (p f : Nat) : State :=
  ((s.flow p f).xfers.foldl (fun s t => s.xferEnd p f t 13) s).setFlow p f FlowSt.init

/-- PORT and OPT (R318, R321, R331, R339). -/
def State.wrPort (s : State) (w : CsrWr) : Option State :=
  let p := portAt w.a
  match w.reg with
  | .PORT_CTRL =>
    let s := (s.keep w).linksCut p
    some (if w.asks 6 then (s.linksDown p).setFld (R.PORT_CTRL_MODE p) (prPort s.sec.profile p) else s)
  | .PORT_QBV => if s.gateClash p w.i w.h w.new then none else some (s.keep w)
  | .PORT_SQ => if w.entry = .bad then none else some (s.keep w)
  | .SFT_FLOW0 =>
    match w.entry with
    | .bad => none
    | .store => some (s.keep w)
    | .bind => some ((((s.keep w).bumpFld (R.SFT_FLOW0_GEN p w.i) 1).setFld (R.SFT_FLOW0_STATE p w.i) 0).setFlow p w.i FlowSt.init)
    | .unbind => some ((s.keep w).flowEnd p w.i)
  | .SFT_FLOW1 => if s.fld (R.SFT_FLOW0_VALID p w.i) = 1 then none else some (s.keep w)
  | .SFT_FLOW2 => if s.fld (R.SFT_FLOW0_VALID p w.i) = 1 then none else some (s.keep w)
  | .SFT_FLOW3 => if s.fld (R.SFT_FLOW0_VALID p w.i) = 1 then none else some (s.keep w)
  | .LAMP_CTRL => some (if w.asks 1 then (s.keep w).lampReplace w.i else s.keep w)
  | _ => some (s.keep w)

/-- A CTXBLK entry may take a value (R55). -/
def State.ctxblkOk (s : State) (site b : Nat) (old new : Word) : Bool :=
  (blockCtxs site b).all (fun k => (s.ctx k).st == .free) && decide (getBits new 0 6 < 48) &&
    !(getBits old 15 1 == 1 && getBits new 15 1 == 1)

/-- GAL (R51, R55, R56, R57, R58, R59, R379, R381). -/
def State.wrGalBlk (s : State) (w : CsrWr) : Option State :=
  let site := w.site
  match w.reg with
  | .GAL_CTRL =>
    let s := s.setFld (R.GAL_CTRL_ENABLE site) (w.get 0 1)
    let s := if w.get 3 1 ≠ w.was 3 1 then s.galFence site (w.get 3 1 == 1) else s
    let st := s.fld (R.GAL_STATUS_STATE site)
    let s := if w.get 0 1 = 1 && !(s.gr site).busy && decide (st ≤ 1) then s.setFld (R.GAL_STATUS_STATE site) 2 else s
    some (if w.asks 2 then s.galRequest site else s)
  | .GAL_CORE_MAP =>
    let ws := (List.range 4).map (fun m => if m = w.i then w.new else s.reg (R.GAL_CORE_MAP site m))
    if s.fld (R.GAL_STATUS_STATE site) = 1 && s.coreMapOk site ws then some (s.coreMapSet site ws) else none
  | .CTXBLK => if s.ctxblkOk site w.i w.old w.new then some (s.keep w) else none
  | .CORE_CTRL =>
    let s := if w.get 1 1 ≠ w.was 1 1 then s.coreFence site w.i (w.get 1 1 == 1) else s
    let s := if w.asks 3 then s.icInv site w.i else s
    some (if w.asks 2 then s.coreRequest site w.i else s)
  | _ => some (s.keep w)

/-- MXE (R106, R127, R130). -/
def State.wrMxe (s : State) (w : CsrWr) : Option State :=
  let site := w.site
  let j := mxeOf w.a
  match w.reg with
  | .MXE_CTRL =>
    let s := s.setReg w.a (putBits w.new 2 1 (w.was 2 1))
    some (if w.get 2 1 ≠ w.was 2 1 then s.mxeFenceTo site j (w.get 2 1 == 1) else s)
  | .MXE_COL_MAP =>
    if s.fld (R.GAL_STATUS_STATE site) = 1 && s.colMapOk site j w.new then some (s.colMapSet site j w.new) else none
  | .MXE_ARB =>
    if w.get 1 2 = 3 then none
    else if w.asks 0 then
      if (s.mxe (2 * site + j)).held.isNone then none
      else some (((s.keep w).arbOver site j 2).mxeRelease site j (w.get 1 2))
    else some (s.keep w)
  | _ => some (s.keep w)

/-- A window register may take a value: BASE and SIZE as they would be, VALID as it would be (R67). -/
def State.winOk (s : State) (site core slot win : Nat) (valid : Bool) (base size : Nat) : Bool :=
  let busy : Bool := (s.ctxsOn site core).any (fun p => p.2.win == slot && (match p.2.st with
    | .ready => true
    | .stalled _ => true
    | _ => false))
  !busy && !(valid && decide (cellsEnd < 512 * (base + size))) && !s.ringsOutside site core slot win valid (512 * size)

/-- GM (R61, R67, R68, R75, R76, R78, R80). -/
def State.wrGm (s : State) (w : CsrWr) : Option State :=
  let site := w.site
  let o := w.a - R.WIN_BASE site 0 0 0
  let core := o / 0x800
  let slot := o % 0x800 / 0x80
  let win := o % 0x80 / 0x10
  match w.reg with
  | .GM_GROUP_ILV =>
    let (s, bad) := s.ilvWrite site (w.get 0 8)
    some (if bad then s.refuse w.src 16 w.a w.new.toNat else s)
  | .GM_PWR_OFF_REQ => s.pwrReq site false (getBits w.wo 0 32)
  | .GM_PWR_ON_REQ => s.pwrReq site true (getBits w.wo 0 32)
  | .GM_CACHE_NEXT => if s.cacheNextOk site (w.get 0 32) then some (s.keep w) else none
  | .GM_CACHE_CTRL => some (if w.asks 0 then s.cacheInv site else s)
  | .GM_SCRUB => some (if w.asks 2 then s.scrubGo site else s)
  | .GM_SB_MOVE1 => if w.asks 63 then (s.sbMove site w.new).map (fun s => s.keep w) else some (s.keep w)
  | .WIN_BASE =>
    if s.winOk site core slot win (w.get 63 1 == 1) (w.get 0 19) (s.fld (R.WIN_LIM_SIZE site core slot win)) then
      some (s.keep w) else none
  | .WIN_LIM =>
    if s.winOk site core slot win (s.fld (R.WIN_BASE_VALID site core slot win) == 1)
        (s.fld (R.WIN_BASE_BASE site core slot win)) (w.get 0 19) then some (s.keep w) else none
  | _ => some (s.keep w)

/-- MU (R234, R235, R242, R244, R254). -/
def State.wrMu (s : State) (w : CsrWr) : Option State :=
  let site := w.site
  let n := w.i
  match w.reg with
  | .MU_RING0 =>
    match w.entry with
    | .bad => none
    | .store => some (s.keep w)
    | .bind => if s.ringBindOk site n w.new then some (s.ringBind site n w.new) else none
    | .unbind => some (s.ringInvalid site n)
  | .MU_LINE0 =>
    match w.entry with
    | .bad => none
    | .store => some (s.keep w)
    | .bind => if s.lineBindOk site n w.new then some (s.lineBind site n w.new) else none
    | .unbind => some (s.lineInvalid site n)
  | .MU_RING1 => if s.fld (R.MU_RING0_VALID site n) = 1 then none else some s
  | .MU_LINE2 => if s.fld (R.MU_LINE0_VALID site n) = 1 then none else some s
  | .MU_LINE3 => if s.fld (R.MU_LINE0_VALID site n) = 1 then none else some s
  | .MU_CQ1 => if s.fld (R.MU_CQ0_VALID site n) = 1 then none else some s
  | .MU_LINE1 => if s.fld (R.MU_LINE0_VALID site n) = 1 then none else some (s.keep w)
  | .MU_CQ0 =>
    match w.entry with
    | .bad => none
    | .store => some (s.keep w)
    | .bind => if s.cqBindOk site n w.new then some (s.cqBind site n w.new) else none
    | .unbind => some (s.cqInvalid site n)
  | _ => some (s.keep w)

/-- MSTR (Table 2.8, R31): budgets and control bits come into force at the next Open; FREEZE and THAW act at once, FREEZE
alone where both are written. In QUIESCE nothing thaws (R431, log entry 30). -/
def State.wrMstr (s : State) (w : CsrWr) : Option State :=
  match w.reg with
  | .MSTR_CTRL =>
    let m := w.a - 0x20
    let s := s.keep w
    some (if w.asks 4 then s.freeze m 6 32 else if w.asks 5 && s.mode != .quiesce then s.thawRx m else s)
  | _ => some (s.keep w)

/-- The effect of a write on its block. -/
def State.wrBlock (s : State) (b : Blk) (w : CsrWr) : Option State :=
  match b with
  | .DRIP => s.wrDrip w
  | .HIF => s.wrHif w
  | .TRM => s.wrCare w
  | .FR => s.wrCare w
  | .PWR => s.wrCare w
  | .LNT => s.wrCare w
  | .BRG => s.wrBrg w
  | .SV => s.wrSv w
  | .PORT => s.wrPort w
  | .OPT => s.wrPort w
  | .GAL => s.wrGalBlk w
  | .MXE => s.wrMxe w
  | .GM => s.wrGm w
  | .MU => s.wrMu w
  | .MSTR => s.wrMstr w
  | .RTR => s.rtrBypass (nodeOfRtr w.base) (w.get 0 1 == 1)
  | _ => s.wrPlain w

/-! ## The write -/

/-- A write of `size` bytes at `addr` has a size and alignment that R461 accepts: 8 or 4 bytes, or the 2 bytes of PROD or
of CRD (R345). -/
def sizeOk (addr size : Nat) : Bool :=
  (size == 8 && addr % 8 == 0) || (size == 4 && addr % 4 == 0) ||
    (size == 2 && addr % 2 == 0 && decide (4 ≤ addr % 8) && (match regAt (addr - addr % 8) with
      | some f => f.row.reg == .HQ2
      | none => false))

/-- A word without a writable bit of an entry that a block's rules protect as a whole (R254, R277, R339). -/
def Reg.ofEntry (r : Reg) : Bool :=
  match r with
  | .MU_RING1 => true
  | .MU_LINE2 => true
  | .MU_LINE3 => true
  | .MU_CQ1 => true
  | .SFT_FLOW3 => true
  | .SV_PASSAGE3 => true
  | _ => false

/-- A write that reaches a register `f` at `a`: `v` the bits written at their places, `cover` the bits covered. The access
codes of R6, the source's rights, R477, then the block's rules; a write that is discarded is recorded. -/
def State.regPut (s : State) (src : Src) (f : Found) (a : Nat) (cover v : Word) (addr value : Nat) : State :=
  let old := s.reg a
  let rw := BitVec.ofNat 64 (s.rwBits f a)
  let w1c := BitVec.ofNat 64 f.row.w1c
  let wo := BitVec.ofNat 64 f.row.wo
  let merged (c : Word) : Word := ((old &&& ~~~(rw &&& c)) ||| (v &&& rw &&& c)) &&& ~~~(v &&& w1c &&& c)
  let who := s.who src
  if !s.mayWrite who f a (merged cover) then s.refuse src 16 addr value
  else
    let res := s.restricted who f
    let hits : Word := ((merged cover ^^^ old) ||| (v &&& wo)) &&& res
    if hits ≠ 0 then s.refuse src 16 addr value
    else
      let c := cover &&& ~~~res
      if c &&& (rw ||| w1c ||| wo) = 0 && !f.row.reg.ofEntry then s
      else
        let (i, h) := f.place a
        match s.wrBlock f.blk ⟨src, f.row.reg, a, f.base, i, h, siteAt f.base, old, merged c, v &&& wo &&& c, c⟩ with
        | some s => s
        | none => s.refuse src 16 addr value

/-- The write at a register of a block, or at no register (R460). -/
def State.regWriteAt (s : State) (src : Src) (a addr size value : Nat) : State :=
  if !sizeOk addr size then s.refuse src 18 addr value
  else match regAt a with
    | none => s.refuse src 18 addr value
    | some f =>
      if s.gated f then s.refuse src 17 addr value
      else
        let lo := 8 * (addr % 8)
        s.regPut src f a (putBits 0 lo (8 * size) (2 ^ (8 * size) - 1)) (putBits 0 lo (8 * size) value) addr value

/-- A register write of `size` bytes of `value` at `addr`. Accesses to the service die from another die wait while a raw
access hangs (R387): such a write is not performed. -/
def State.regWrite (s : State) (src : Src) (addr size value : Nat) : State :=
  let a := addr - addr % 8
  let value := value % 2 ^ (8 * size)
  let outside : Bool := match src with
    | .host => true
    | .gallery _ _ _ => true
    | _ => false
  if src = .host ∧ !s.pcieUp then s
  else if outside ∧ s.boot.hung ≠ [] ∧ addr < csrBase + 0x2000000 then s
  else match blockAt addr with
    | some (.SEC, _) => if src = .bedrock then s else s.refuse src 16 addr value
    | some (.BRG, base) =>
      if 0x10000 ≤ addr - base then s.rawAccess src (addr - base - 0x10000) (some value)
      else s.regWriteAt src a addr size value
    | _ => s.regWriteAt src a addr size value
end Sys2Proof.Machine
end

