-- ==== Sys2Proof/Machine/RegRows.lean ====
section
/-! DEFINITION. The commands that are a write of one register by name. Each is that register's write of 8 bytes, judged as
any write is (Machine/RegWrite.lean); what the write does is decided by the value, as the registers' tables say. -/

namespace Sys2Proof.Machine

/-- REGISTER_WRITE: a write of `size` bytes at a module address. -/
def execRegisterWrite (src : Src) (addr size value : Nat) (s : State) : Host.Outcome State Fault Refusal :=
  .next (s.regWrite src addr size value)

/-- MSTR_FREEZE: a write of MSTR_CTRL of entry `i` of the MSTR block at `mb`; FREEZE freezes the master (Table 2.8). -/
def execMstrFreeze (src : Src) (mb i : Nat) (v : Word) (s : State) : Host.Outcome State Fault Refusal :=
  .next (if blockAt mb = some (.MSTR, mb) then s.regWrite src (R.MSTR_CTRL mb i) 8 v.toNat
    else s.refuse src 18 (R.MSTR_CTRL mb i) v.toNat)

/-- MSTR_THAW: the same write; THAW thaws the master (Table 2.8). -/
def execMstrThaw (src : Src) (mb i : Nat) (v : Word) (s : State) : Host.Outcome State Fault Refusal :=
  .next (if blockAt mb = some (.MSTR, mb) then s.regWrite src (R.MSTR_CTRL mb i) 8 v.toNat
    else s.refuse src 18 (R.MSTR_CTRL mb i) v.toNat)

/-- HQ_DOORBELL: a 2-byte write of PROD of a command queue (R345). -/
def execHqDoorbell (src : Src) (q prod : Nat) (s : State) : Host.Outcome State Fault Refusal :=
  .next (s.regWrite src (R.HQ2 q + 6) 2 prod)

/-- DRIP_ENABLE_WRITE: a write of DRIP_CTRL, whose ENABLE starts or stops the drip (R481). -/
def execDripEnableWrite (src : Src) (v : Word) (s : State) : Host.Outcome State Fault Refusal :=
  .next (s.regWrite src R.DRIP_CTRL 8 v.toNat)

/-- DRIP_SRC_WRITE: a write of DRIP_CTRL, whose SRC selects the time source (R26, R28). -/
def execDripSrcWrite (src : Src) (v : Word) (s : State) : Host.Outcome State Fault Refusal :=
  .next (s.regWrite src R.DRIP_CTRL 8 v.toNat)

/-- RESYNC: a write of DRIP_CTRL, whose RESYNC asks for a step (R27). -/
def execResync (src : Src) (v : Word) (s : State) : Host.Outcome State Fault Refusal :=
  .next (s.regWrite src R.DRIP_CTRL 8 v.toNat)

/-- DRIP_APPLY_AT_WRITE: a write of DRIP_APPLY_AT, which arms or cancels a period change (R21). -/
def execDripApplyAtWrite (src : Src) (v : Word) (s : State) : Host.Outcome State Fault Refusal :=
  .next (s.regWrite src R.DRIP_APPLY_AT 8 v.toNat)

/-- ICINV: a write of CORE_CTRL, whose ICINV invalidates the instruction cache (R51). -/
def execIcinv (src : Src) (site core : Nat) (v : Word) (s : State) : Host.Outcome State Fault Refusal :=
  .next (s.regWrite src (R.CORE_CTRL site core) 8 v.toNat)

/-- CORE_RESET: a write of CORE_CTRL, whose RESET asks for a core reset (R58, R379). -/
def execCoreReset (src : Src) (site core : Nat) (v : Word) (s : State) : Host.Outcome State Fault Refusal :=
  .next (s.regWrite src (R.CORE_CTRL site core) 8 v.toNat)

/-- GALLERY_RESET: a write of GAL_CTRL, whose RESET asks for a gallery reset (R379, R381). -/
def execGalleryReset (src : Src) (site : Nat) (v : Word) (s : State) : Host.Outcome State Fault Refusal :=
  .next (s.regWrite src (R.GAL_CTRL site) 8 v.toNat)

/-- GM_GROUP_ILV_WRITE: a write of GM_GROUP_ILV (R61). -/
def execGmGroupIlvWrite (src : Src) (site : Nat) (v : Word) (s : State) : Host.Outcome State Fault Refusal :=
  .next (s.regWrite src (R.GM_GROUP_ILV site) 8 v.toNat)

/-- SLICE_OFF_REQUEST: a write of GM_PWR_OFF_REQ (R78). -/
def execSliceOffRequest (src : Src) (site : Nat) (v : Word) (s : State) : Host.Outcome State Fault Refusal :=
  .next (s.regWrite src (R.GM_PWR_OFF_REQ site) 8 v.toNat)

/-- SLICE_ON_REQUEST: a write of GM_PWR_ON_REQ (R78). -/
def execSliceOnRequest (src : Src) (site : Nat) (v : Word) (s : State) : Host.Outcome State Fault Refusal :=
  .next (s.regWrite src (R.GM_PWR_ON_REQ site) 8 v.toNat)

/-- CACHE_INVALIDATE: a write of GM_CACHE_CTRL, whose INV invalidates the cache lines (R76). -/
def execCacheInvalidate (src : Src) (site : Nat) (v : Word) (s : State) : Host.Outcome State Fault Refusal :=
  .next (s.regWrite src (R.GM_CACHE_CTRL site) 8 v.toNat)

/-- SB_MOVE_SUSPEND: a write of GM_SB_MOVE1; with OP = 0 claims are suspended (R68). -/
def execSbMoveSuspend (src : Src) (site : Nat) (v : Word) (s : State) : Host.Outcome State Fault Refusal :=
  .next (s.regWrite src (R.GM_SB_MOVE1 site) 8 v.toNat)

/-- SB_MOVE_REBASE: a write of GM_SB_MOVE1; with OP = 1 suspended claims are rebased (R68). -/
def execSbMoveRebase (src : Src) (site : Nat) (v : Word) (s : State) : Host.Outcome State Fault Refusal :=
  .next (s.regWrite src (R.GM_SB_MOVE1 site) 8 v.toNat)

/-- SCRUB_GO: a write of GM_SCRUB, whose GO starts the hand-over scrub (R80). -/
def execScrubGo (src : Src) (site : Nat) (v : Word) (s : State) : Host.Outcome State Fault Refusal :=
  .next (s.regWrite src (R.GM_SCRUB site) 8 v.toNat)

/-- MXE_RELEASE_AS_COMPUTED: a write of MXE_ARB; OUTCOME 0 releases the held tile as computed (R127). -/
def execMxeReleaseAsComputed (src : Src) (site j : Nat) (v : Word) (s : State) : Host.Outcome State Fault Refusal :=
  .next (s.regWrite src (R.MXE_ARB site j) 8 v.toNat)

/-- MXE_RELEASE_REWRITE: a write of MXE_ARB; OUTCOME 1 releases the held tile after a rewrite (R127). -/
def execMxeReleaseRewrite (src : Src) (site j : Nat) (v : Word) (s : State) : Host.Outcome State Fault Refusal :=
  .next (s.regWrite src (R.MXE_ARB site j) 8 v.toNat)

/-- MXE_RELEASE_ERROR: a write of MXE_ARB; OUTCOME 2 ends the held tile in ERROR (R127). -/
def execMxeReleaseError (src : Src) (site j : Nat) (v : Word) (s : State) : Host.Outcome State Fault Refusal :=
  .next (s.regWrite src (R.MXE_ARB site j) 8 v.toNat)

/-- CTXBLK_WRITE: a write of a CTXBLK entry (R55). -/
def execCtxblkWrite (src : Src) (site b : Nat) (v : Word) (s : State) : Host.Outcome State Fault Refusal :=
  .next (s.regWrite src (R.CTXBLK site b) 8 v.toNat)

/-- HQ_BIND: a write of HQ word 0; VALID = 1 binds the queue (Table 16.2). -/
def execHqBind (src : Src) (q : Nat) (v : Word) (s : State) : Host.Outcome State Fault Refusal :=
  .next (s.regWrite src (R.HQ0 q) 8 v.toNat)

/-- HQ_UNBIND: a write of HQ word 0; VALID = 0 unbinds the queue (Table 16.2). -/
def execHqUnbind (src : Src) (q : Nat) (v : Word) (s : State) : Host.Outcome State Fault Refusal :=
  .next (s.regWrite src (R.HQ0 q) 8 v.toNat)

/-- RING_BIND: a write of MU_RING word 0; VALID = 1 binds the ring (R234). -/
def execRingBind (src : Src) (site r : Nat) (v : Word) (s : State) : Host.Outcome State Fault Refusal :=
  .next (s.regWrite src (R.MU_RING0 site r) 8 v.toNat)

/-- RING_UNBIND: a write of MU_RING word 0; VALID = 0 makes the ring invalid (R244). -/
def execRingUnbind (src : Src) (site r : Nat) (v : Word) (s : State) : Host.Outcome State Fault Refusal :=
  .next (s.regWrite src (R.MU_RING0 site r) 8 v.toNat)

/-- LINE_BIND: a write of MU_LINE word 0; VALID = 1 binds the line (R235). -/
def execLineBind (src : Src) (site l : Nat) (v : Word) (s : State) : Host.Outcome State Fault Refusal :=
  .next (s.regWrite src (R.MU_LINE0 site l) 8 v.toNat)

/-- LINE_UNBIND: a write of MU_LINE word 0; VALID = 0 makes the line INVALID (R244). -/
def execLineUnbind (src : Src) (site l : Nat) (v : Word) (s : State) : Host.Outcome State Fault Refusal :=
  .next (s.regWrite src (R.MU_LINE0 site l) 8 v.toNat)

/-- CQ_BIND: a write of MU_CQ word 0; VALID = 1 binds the completion ring (R242). -/
def execCqBind (src : Src) (site t : Nat) (v : Word) (s : State) : Host.Outcome State Fault Refusal :=
  .next (s.regWrite src (R.MU_CQ0 site t) 8 v.toNat)

/-- CQ_UNBIND: a write of MU_CQ word 0; VALID = 0 makes the completion ring invalid (R244). -/
def execCqUnbind (src : Src) (site t : Nat) (v : Word) (s : State) : Host.Outcome State Fault Refusal :=
  .next (s.regWrite src (R.MU_CQ0 site t) 8 v.toNat)

/-- LOAD_DONE: a write of SV_CTRL, whose LOAD_DONE starts the load check (R277, R279). -/
def execLoadDone (src : Src) (v : Word) (s : State) : Host.Outcome State Fault Refusal :=
  .next (s.regWrite src R.SV_CTRL 8 v.toNat)

/-- FLIP: a write of SV_CTRL, whose FLIP arms the flip (R280). -/
def execFlip (src : Src) (v : Word) (s : State) : Host.Outcome State Fault Refusal :=
  .next (s.regWrite src R.SV_CTRL 8 v.toNat)

/-- FORCE_FREE: a write of SV_CTRL, whose FORCE_FREE frees the DRAINING bank (R282). -/
def execForceFree (src : Src) (v : Word) (s : State) : Host.Outcome State Fault Refusal :=
  .next (s.regWrite src R.SV_CTRL 8 v.toNat)

/-- REPLACE: a write of LAMP_CTRL, whose REPLACE releases the lamp (R318, R319). -/
def execReplace (src : Src) (k : Nat) (v : Word) (s : State) : Host.Outcome State Fault Refusal :=
  .next (s.regWrite src (R.LAMP_CTRL k) 8 v.toNat)

/-- RETRAIN: a write of PORT_CTRL, whose RETRAIN takes every link of the port down (R321). -/
def execRetrain (src : Src) (p : Nat) (v : Word) (s : State) : Host.Outcome State Fault Refusal :=
  .next (s.regWrite src (R.PORT_CTRL p) 8 v.toNat)

/-- HOST_CMD_POWER_ON: a write of BRG_HOST_CMD; ACTION 0 turns the held unit's clock on (R374). -/
def execHostCmdPowerOn (src : Src) (v : Word) (s : State) : Host.Outcome State Fault Refusal :=
  .next (s.regWrite src R.BRG_HOST_CMD 8 v.toNat)

/-- HOST_CMD_TRAIN: a write of BRG_HOST_CMD; ACTION 1 trains the held unit (R374). -/
def execHostCmdTrain (src : Src) (v : Word) (s : State) : Host.Outcome State Fault Refusal :=
  .next (s.regWrite src R.BRG_HOST_CMD 8 v.toNat)

/-- HOST_CMD_RELEASE: a write of BRG_HOST_CMD; ACTION 2 releases the held unit (R374). -/
def execHostCmdRelease (src : Src) (v : Word) (s : State) : Host.Outcome State Fault Refusal :=
  .next (s.regWrite src R.BRG_HOST_CMD 8 v.toNat)

/-- HOST_CMD_MARK_FAILED: a write of BRG_HOST_CMD; ACTION 3 marks the held unit FAILED (R374). -/
def execHostCmdMarkFailed (src : Src) (v : Word) (s : State) : Host.Outcome State Fault Refusal :=
  .next (s.regWrite src R.BRG_HOST_CMD 8 v.toNat)

/-- MCR: a write of BRG_CTRL, whose MCR asks for a module compute reset (R384, R416). -/
def execMcr (src : Src) (v : Word) (s : State) : Host.Outcome State Fault Refusal :=
  .next (s.regWrite src R.BRG_CTRL 8 v.toNat)

/-- TRM_MOVE_GO: a write of TRM_MOVE, whose GO starts a move (R412). -/
def execTrmMoveGo (src : Src) (v : Word) (s : State) : Host.Outcome State Fault Refusal :=
  .next (s.regWrite src R.TRM_MOVE 8 v.toNat)

/-- KICK: a write of FR_CTRL, whose KICK restarts the firmware watchdog (R418). -/
def execKick (src : Src) (v : Word) (s : State) : Host.Outcome State Fault Refusal :=
  .next (s.regWrite src R.FR_CTRL 8 v.toNat)

/-- ECHO_GO: a write of FR_ECHO, whose GO starts a replay (R426). -/
def execEchoGo (src : Src) (v : Word) (s : State) : Host.Outcome State Fault Refusal :=
  .next (s.regWrite src R.FR_ECHO 8 v.toNat)

/-- LEAK: a write of LNT_CLR, whose LEAK clears the leak latch (R448). -/
def execLeak (src : Src) (v : Word) (s : State) : Host.Outcome State Fault Refusal :=
  .next (s.regWrite src R.LNT_CLR 8 v.toNat)

/-- EJECT: a write of PWR_CTRL, whose EJECT requests removal (R455). -/
def execEject (src : Src) (v : Word) (s : State) : Host.Outcome State Fault Refusal :=
  .next (s.regWrite src R.PWR_CTRL 8 v.toNat)

end Sys2Proof.Machine
end

