-- ==== Sys2Proof/Machine/SftCtrl.lean ====
section
/-! DEFINITION. Control messages that arrive as SFT frames (R331, R349). -/

namespace Sys2Proof.Machine

/-- A control message is that of the operation it names; one that names none is judged as any other, and answered
BAD_OPCODE. -/
def State.ctrlAny (s : State) (m : CtrlMsg) : State :=
  match leAt m.raw 0 2 with
  | 2 => s.msgFenceOrder m
  | 3 => s.msgSetProfile m
  | 4 => s.msgStandby m
  | 5 => s.msgRestart m
  | 6 => s.msgBindNetq m
  | 7 => s.msgResend m
  | 8 => s.msgCollector m
  | _ => s.msgLeaseGrant m

/-- SFT_CTRL: a frame of TYPE 5 on a link passes its control message to Bedrock. One that is not of 128 bytes is dropped
and counted. A control message is no data: QUIESCE and a module compute reset do not drop it (R431, Table 15.13, log
entry 28); REFUGE does. -/
def execSftCtrl (p l : Nat) (f : Frame) (s : State) : Host.Outcome State Fault Refusal :=
  .next (
    if !s.linkUp p l then s
    else if s.mode = .refuge then s.rxFrame p
    else match sftOf f.raw with
      | some (h, b) =>
        if h.type = 5 ∧ b.length = 128 then (s.rxFrame p).ctrlAny ⟨b, some (p, h.sflow)⟩ else (s.rxFrame p).rxDrop p
      | none => (s.rxFrame p).rxDrop p)

end Sys2Proof.Machine
end

