-- ==== Sys2Proof/Machine/Operands.lean ====
section
/-! DEFINITION. Operands of Leriq instructions: the registers of a context (R47), lanes and their widening (R184), address
forms (R163, R189). -/

namespace Sys2Proof.Machine

/-! ## Registers of a context -/

/-- A scalar register: `s0` reads zero (R47). -/
def Ctx.rs (c : Ctx) (i : Nat) : Word := if i = 0 then 0 else c.s.get i 0

/-- The context with a scalar register written: a write to `s0` is discarded (R47). -/
def Ctx.ws (c : Ctx) (i : Nat) (w : Word) : Ctx := if i = 0 then c else { c with s := c.s.put i w 0 }

/-- A vector register, and the context with one written. -/
def Ctx.rv (c : Ctx) (i : Nat) : Vec := c.v.get i 0
def Ctx.wv (c : Ctx) (i : Nat) (w : Vec) : Ctx := { c with v := c.v.put i w 0 }

/-- A predicate register, and the context with one written. -/
def Ctx.rp (c : Ctx) (i : Nat) : BitVec 16 := c.p.get i 0
def Ctx.wp (c : Ctx) (i : Nat) (w : BitVec 16) : Ctx := { c with p := c.p.put i w 0 }

/-! ## The context of a hardware thread -/

/-- A context of a Leriq-M core that has not run yet: context 0 of the management core is Bedrock's, at B and at the start
of Bedrock's range; the others are Flowstone's, at S and at the start of Flowstone's range; Lantern's are at B (log
entry 38). -/
def mCtxStart (h : Hart) : Ctx :=
  match h with
  | .mgmt 0 => { Ctx.init with st := .ready, priv := 2 }
  | .mgmt _ => { Ctx.init with st := .ready, priv := 1, pc := 0x80000 }
  | _ => { Ctx.init with st := .ready, priv := 2 }

/-- Where a Leriq-M context is kept. -/
def mIdx : Hart → Nat
  | .gal _ _ c => c
  | .mgmt c => c
  | .lantern c => 64 + c

/-- A Leriq-M context that nothing has set stands at its start. -/
def orStart (h : Hart) (x : Ctx) : Ctx := if x.st = .free then mCtxStart h else x

/-- A context of a Leriq-M core, at its start while it is not listed. -/
def State.mHart (s : State) (h : Hart) : Ctx := orStart h (s.mctx (mIdx h))

/-- The context that executes an instruction. -/
def State.hctx (s : State) (h : Hart) : Ctx :=
  match h with
  | .gal site core c => s.ctx (ctxKey site core c)
  | _ => s.mHart h

/-- The state with that context set. -/
def State.setHctx (s : State) (h : Hart) (x : Ctx) : State :=
  match h with
  | .gal site core c => s.setCtx (ctxKey site core c) x
  | _ => s.setMctx (mIdx h) x

/-- The state with that context changed. -/
def State.modHctx (s : State) (h : Hart) (f : Ctx → Ctx) : State := s.setHctx h (f (s.hctx h))

/-- The source that a context's register accesses count as. -/
def State.hartSrc (s : State) (h : Hart) : Src :=
  match h with
  | .gal site core c => .gallery site core c
  | .mgmt _ => if (s.mHart h).priv = 2 then .bedrock else .flowstone
  | .lantern _ => .lantern

/-! ## Lanes (R184) -/

/-- Width of a lane of a format: 0 FP32, 1 FP16, 2 BF16, 3 INT32, 4 INT8, 5 INT4. -/
def laneWidth (fmt : Nat) : Nat :=
  match fmt with
  | 0 => 32
  | 1 => 16
  | 2 => 16
  | 3 => 32
  | 4 => 8
  | _ => 4

/-- The floating format of a lane. -/
def laneFmt (fmt : Nat) : FFmt :=
  match fmt with
  | 0 => fmtFP32
  | 1 => fmtFP16
  | _ => fmtBF16

/-- The code in lane `i` of a register that holds a format. -/
def laneCode (fmt : Nat) (v : Vec) (i : Nat) : Nat := v.toNat / 2 ^ (laneWidth fmt * i) % 2 ^ laneWidth fmt

/-- Lane `i` widened to 32 bits: to FP32, exactly and with every NaN canonical (R90, R91), or sign-extended to INT32. FP32
and INT32 lanes stand as they are. -/
def laneWide (fmt : Nat) (v : Vec) (i : Nat) : Nat :=
  let c := laneCode fmt v i
  match fmt with
  | 0 => c
  | 1 => (toF32 0 0 (decodeF fmtFP16 c)).1
  | 2 => (toF32 0 0 (decodeF fmtBF16 c)).1
  | 3 => c
  | w => toBits 32 (sextN (laneWidth w) c)

/-- Lane `i` as an instruction that moves lanes delivers it: widened, and a NaN in the canonical pattern (R91). -/
def laneMoved (fmt : Nat) (v : Vec) (i : Nat) : Nat := if fmt < 3 then canon (laneWide fmt v i) else laneWide fmt v i

/-- A register as 16 lanes of 32 bits. -/
def vecOf (l : List Nat) : Vec := BitVec.ofNat 512 (leNat (l.flatMap (leBytes 4)))

/-- A register as 16 lanes of `w` bits, zeros above them. -/
def vecOfW (w : Nat) (l : List Nat) : Vec := BitVec.ofNat 512 (l.foldr (fun c n => c % 2 ^ w + 2 ^ w * n) 0)

/-- Lane `i` is active (R185). -/
def Ctx.active (c : Ctx) (x : VOp) (i : Nat) : Bool := x.ge == 0 || (c.rp x.gp).getLsbD i

/-! ## Addresses (R163, R189) -/

/-- A register's value with a displacement added within the offset field of its form; none for form 3, and for a carry
or a borrow out of the field. -/
def effAddr (a : Word) (disp : Int) : Option Nat :=
  let n := a.toNat
  let w := if n / 2 ^ 62 = 2 then 48 else 28
  let off : Int := (n % 2 ^ w : Nat) + disp
  if n / 2 ^ 62 = 3 ∨ off < 0 ∨ (2 : Int) ^ w ≤ off then none else some (n / 2 ^ w * 2 ^ w + off.toNat)

/-- The module address that a value of form 2 holds; none where bits [61:48] are not zero. -/
def moduleAddr (a : Nat) : Option Nat := if a / 2 ^ 62 = 2 ∧ a % 2 ^ 62 / 2 ^ 48 = 0 then some (a % 2 ^ 48) else none

end Sys2Proof.Machine
end

