-- ==== Sys2Proof/Machine/Flags.lean ====
section
/-! DEFINITION. What vector arithmetic leaves in a context beside its result: the sticky flags (R102, R103), the rounding
mode (R92) and the draws of stochastic rounding (R94, R95). -/

namespace Sys2Proof.Machine

/-- The context with flags set: settings are ORed, none is lost (R103). -/
def Ctx.addFlags (c : Ctx) (fl : Nat) : Ctx := { c with flags := c.flags ||| fl % 32 }

/-- The 16 draws of a vector instruction under mode 2, lane 0 first, and the generator after them; no draw is made in
another mode (R95, R185). -/
def Ctx.draw16 (c : Ctx) : List Nat × Nat := if c.rnd = 2 then draws 16 c.rng else ([], c.rng)

/-- The draw that an operation handed to a unit seeds its own generator with: one under mode 2, none otherwise (R95). -/
def Ctx.draw1 (c : Ctx) (mode : Nat) : Nat × Ctx :=
  if mode = 2 then (xorshift c.rng, { c with rng := xorshift c.rng }) else (0, c)

/-- A lane holds a signalling NaN in its own format (R102, R194). -/
def laneSNan (fmt : Nat) (v : Vec) (i : Nat) : Bool := decide (fmt < 3) && isSNan (decodeF (laneFmt fmt) (laneCode fmt v i))

/-- The invalid flag for a signalling operand. -/
def sNanFlag (b : Bool) : Nat := if b then flagInvalid else 0

/-- The union of the flags of the lanes that are active (R185). -/
def laneFlags (c : Ctx) (x : VOp) (l : List (Nat × Nat)) : Nat :=
  (l.mapIdx (fun i p => if c.active x i then p.2 else 0)).foldl (· ||| ·) 0

end Sys2Proof.Machine
end

