-- ==== Sys2Proof/Machine/Ops.lean ====
section
/-! DEFINITION. The issue of one Leriq instruction: selection, fetch, the checks of Table 9.9, the charge, and what a fault
or a stall leaves (R43 to R51, R66, R172, R173, R196 to R198). A command of an instruction stands for the selection of its
context with that instruction at its program counter; the word in memory is not compared (log entry 37). -/

namespace Sys2Proof.Machine

/-- What the checks of an instruction decide. -/
inductive Issue where
  /-- A synchronous fault (Table 8.6). -/
  | fault (code : Nat)
  /-- A narrow access is rejected by its slice: the rejection is counted, then SLICE_CLOSED (Table 4.4). -/
  | closed (g : Gate)
  /-- The issue consumes an uncorrectable or poisoned word of `[off, off + n)`: POISON in T6-compatibility, its containment
  and no issue in native mode (R62, R295, Table 13.3). -/
  | bad (off n : Nat)
  /-- Stalled before the budgets (Table 9.9, step 3). -/
  | wait
  /-- Held in Seal (step 5). -/
  | seal
  /-- Stalled by a resource (step 7): the charge that step 6 judges, and the scoreboard entries waited on. -/
  | blocked (ch : Charge) (waits : Nat)
  /-- Issued (step 8): the charge, and the effect on the state in which the program counter has advanced. -/
  | go (ch : Charge) (eff : State → State)

/-- An issue that does something more first. -/
def Issue.also (i : Issue) (g : State → State) : Issue :=
  match i with
  | .go ch eff => .go ch (fun s => eff (g s))
  | i => i

/-- The charge of an issue: one cycle (R29). -/
def Charge.issue : Charge := ⟨1, 0, 0, 0⟩

/-- Where the fetch of a context stands: its line is cached and holds a word, or the state after a miss or a fault. -/
inductive Fetched where
  | hit (word : Nat)
  | no (s : State)

/-- The bytes of a line that a core has cached. -/
def CoreSt.line (q : CoreSt) (n : Nat) : Option (List Byte) := (q.lines.find? (fun l => l.1 == n)).map (·.2)

/-- The core's cached lines without one. -/
def CoreSt.dropLine (q : CoreSt) (n : Nat) : CoreSt := { q with lines := q.lines.filter (fun l => l.1 != n) }

/-- The fetch of the 8 bytes that hold a context's program counter (R50, R66, Table 4.2). -/
def State.fetch (s : State) (site core k : Nat) (x : Ctx) : Fetched :=
  let q := s.core (coreKey site core)
  let line := x.pc / 512
  let miss (s : State) : State :=
    (s.setCtx k { x with st := .stalled (.icache line), waitsOn := 0 }).bumpFld (R.CORE_ICMISS_CNT_COUNT site core) 1
  if !s.fetchOk site core x.win (x.pc / 8 * 8) then .no (s.ctxFault k 1)
  else match q.line line with
  | some bs => .hit (leAt bs (x.pc % 512) 4)
  | none =>
    if q.fills.contains line then .no (miss s)
    else
    let w := s.blockers site [⟨false, 512 * line, 512⟩]
    if w ≠ 0 then .no (s.setCtx k { x with st := .stalled .issue, waitsOn := w })
    else match s.gate site (512 * line) 512 with
      | .ok => .no (miss (s.setCore (coreKey site core) { q with fills := q.fills ++ [line] }))
      | .noCell => .no (s.ctxFault k 1)
      | g => .no ((s.nack site g).ctxFault k 6)

/-- The classes that pair (Table 3.3). -/
def Lane.pairs : Lane → Lane → Bool
  | .alone, _ => false
  | _, .alone => false
  | .m, .m => false
  | .v, .v => false
  | _, _ => true

/-- An instruction of use `u` at `pc` of context `k` joins the group that its core has issued in this clock: the two are the
instructions of one aligned pair of words, and they pair by R45. The stalls that latency gives a second instruction are
timing (log entry 1). -/
def Group.takes (g : Group) (k pc now : Nat) (u : Use) : Bool :=
  g.ctx == k && g.pc == pc && g.at_ == now && pc % 8 == 4 && g.use.lane.pairs u.lane &&
    g.use.writes.all (fun r => !u.reads.contains r)

/-- The instruction at a context's program counter would be the second of a group (R43, R45). -/
def State.joins (s : State) (site core k : Nat) (u : Use) : Bool :=
  match (s.core (coreKey site core)).group with
  | some g => g.takes k (s.ctx k).pc s.now u
  | none => false

/-- The core's record of its last group: an instruction at a multiple of 8 may be joined, any other may not. -/
def State.setGroup (s : State) (site core : Nat) (g : Option Group) : State :=
  s.setCore (coreKey site core) { s.core (coreKey site core) with group := g }

/-- A context may be selected: its core runs, its task's entry is in force and not FROZEN, and it is READY or its issue is
stalled (R43, R179). An issue held for the next Open is tried again only outside Seal. -/
def State.selectable (s : State) (site core k : Nat) : Bool :=
  let m := taskM site (s.taskOf k)
  decide (2 ≤ s.fld (R.GAL_STATUS_STATE site)) && s.fld (R.CORE_CTRL_FENCE site core) == 0 &&
    s.fld (R.CORE_STATUS_RESETTING site core) == 0 && getBits (s.blkOf k) 15 1 == 1 && (s.bud m).valid &&
    !s.frozen m && (match (s.ctx k).st with
      | .ready => true
      | .stalled .issue => true
      | .stalled .seal => s.fld R.DRIP_STATUS_PHASE_SEAL == 0
      | _ => false)

/-- A clock of the drip in which an issue stalls on the scoreboard: how many there are is open (Table 4.15, log entry
22). -/
def State.sbStall (s : State) (site waits : Nat) : State :=
  if waits = 0 then s
  else
    let (n, s) := s.takeFree
    s.addFld (R.GM_SB_STATUS_STALL_CLKS site) (1 + n % 2 ^ 32)

/-- The instant of a context's last issue, which its watchdog reads (R417). -/
def State.stampIssue (s : State) (k : Nat) : State := s.withFr { s.fr with issued := s.fr.issued.put k s.now 0 }

/-- The charge of an instruction: the second of a group costs no cycle of its own (R29, R55). -/
def Charge.second (ch : Charge) : Charge := { ch with cycles := 0 }

/-- An issue is counted: a group of one in CORE_ISSUE_CNT; a second instruction makes it a group of two (Table 3.18). -/
def State.countIssue (s : State) (site core : Nat) (joined : Bool) : State :=
  if joined then s.bumpFld (R.CORE_DUAL_CNT_COUNT site core) 1 else s.bumpFld (R.CORE_ISSUE_CNT_COUNT site core) 1

/-- The issue of an instruction by a context of a gallery. `u`: what its pairing sees of it; `wide`: class X, which starts at
a multiple of 8 (R182); `ill`: the encoding is not a defined one (R183). -/
def State.leriq (s : State) (site core c : Nat) (u : Use) (wide ill : Bool) (body : State → Ctx → Issue) : State :=
  let k := ctxKey site core c
  let x := s.ctx k
  let m := taskM site (s.taskOf k)
  let joined := s.joins site core k u
  let stall (s : State) (why : Stall) (w : Nat) : State :=
    (s.setGroup site core none).setCtx k { x with st := .stalled why, waitsOn := w }
  if !s.selectable site core k then s
  else if x.sbFault then s.ctxFault k 5
  else match s.fetch site core k x with
    | .no s => s
    | .hit word =>
      if wordIll false word || ill || (wide && x.pc % 8 != 0) then s.ctxFault k 3
      else match body s x with
        | .fault code => s.ctxFault k code
        | .closed g => (s.nack site g).ctxFault k 6
        | .bad off n =>
          let s := s.eccRead site off n
          if s.siteT6 site then s.ctxFault k 7 else s.galUe site
        | .wait => stall s .issue 0
        | .seal => stall s .seal 0
        | .blocked ch w =>
          match s.charge m ch with
          | .ok _ => (stall s .issue w).sbStall site w
          | .held s => stall s .seal 0
          | .violation cause causes => s.freeze m cause causes
        | .go ch eff =>
          match s.charge m (if joined then ch.second else ch) with
          | .held s => stall s .seal 0
          | .violation cause causes => s.freeze m cause causes
          | .ok s =>
            let pc := x.pc + (if wide then 8 else 4)
            let s := s.setCtx k { x with st := .ready, waitsOn := 0, pc := pc }
            let s := s.setGroup site core (if joined then none else some ⟨k, pc, s.now, u⟩)
            eff ((s.stampIssue k).countIssue site core joined)

/-! ## Leriq-M (R209, Table 9.11) -/

/-- The size of the local memory of a Leriq-M core. -/
def mLocal : Hart → Nat
  | .lantern _ => 0x40000
  | _ => 0x400000

/-- The key of a byte of a Leriq-M core's local memory. -/
def mKey (h : Hart) (o : Nat) : Nat :=
  match h with
  | .lantern _ => lanternKey o
  | _ => mgmtKey o

/-- A fetch of a Leriq-M context lies in its range (R358): at S in Flowstone's, at B in Bedrock's; Lantern's in its local
memory. -/
def mFetchOk (h : Hart) (x : Ctx) : Bool :=
  match h with
  | .lantern _ => decide (x.pc + 4 ≤ mLocal h)
  | _ => if x.priv = 2 then decide (x.pc + 4 ≤ 0x80000) else decide (0x80000 ≤ x.pc) && decide (x.pc + 4 ≤ 0x400000)

/-- A Leriq-M core runs: the management core with the service die, Lantern in every state but OFF (R479). -/
def State.mRuns (s : State) (h : Hart) : Bool :=
  match h with
  | .lantern _ => s.mode != .off
  | _ => s.svcUp

/-- A Leriq-M context takes a synchronous fault: the record carries the code and the program counter, and the context
stops. No task ends, as none runs there (log entry 38). -/
def State.mFault (s : State) (h : Hart) (code : Nat) : State :=
  let x := s.mHart h
  let r := s.mkRec UETASK 2 code
  (s.setHctx h { x with st := .stopped }).raise { r with detail := leBytes 4 x.pc ++ leBytes 8 0 }

/-- A Leriq-M context parked by WFE: whether an event of its mask has occurred is open, as the manual numbers none; a free
value says which (R210, log entry 38). -/
def State.mWake (s : State) (h : Hart) : State :=
  match (s.mHart h).st with
  | .parkedEvent mask d =>
    let (n, s) := s.takeFree
    let e := BitVec.ofNat 64 (n % 2 ^ 64) &&& BitVec.ofNat 64 mask
    if e = 0 then s else s.modHctx h (fun x => { x.ws d e with st := .ready })
  | _ => s

/-- The issue of an instruction by a Leriq-M context. -/
def State.leriqM (s : State) (h : Hart) (ill : Bool) (body : State → Ctx → Issue) : State :=
  if !s.mRuns h then s
  else
    let s := s.mWake h
    let x := s.mHart h
    if x.st ≠ .ready ∧ x.st ≠ .stalled .issue then s
    else if !mFetchOk h x then s.mFault h 1
    else if wordIll true (s.rdNat (mKey h x.pc) 4) || ill then s.mFault h 3
    else match body s x with
      | .fault code => s.mFault h code
      | .closed _ => s.mFault h 6
      | .go _ eff => eff (s.setHctx h { x with st := .ready, pc := x.pc + 4 })
      | _ => s.setHctx h { x with st := .stalled .issue }

/-- The issue of an instruction of class A, I, M or B. -/
def State.run (s : State) (h : Hart) (u : Use) (ill : Bool) (body : State → Ctx → Issue) : State :=
  match h with
  | .gal site core c => s.leriq site core c u false ill body
  | _ => s.leriqM h ill body

/-- What pairing sees of an instruction of class B or X: nothing pairs with it. -/
def Use.alone : Use := ⟨.alone, [], []⟩

/-- The issue of an instruction of class V or X: every such word is ILLEGAL_INSTR on Leriq-M (R209). -/
def State.runVX (s : State) (h : Hart) (u : Use) (wide ill : Bool) (body : Nat → Nat → Nat → State → Ctx → Issue) : State :=
  match h with
  | .gal site core c => s.leriq site core c u wide ill (body site core c)
  | _ => s.leriqM h true (fun _ _ => .wait)

/-- The numbers of a `v` register, a `p` register and a special register among the registers of pairing. -/
def vecReg (i : Nat) : Nat := 16 + i
def predReg (i : Nat) : Nat := 24 + i
def specialReg (i : Nat) : Nat := 32 + i

/-- Scalar instructions of class A or I that read `rs` and write `s`D; a write to `s0` is none (R47). -/
def Use.ai (rs : List Nat) (d : Nat) : Use := ⟨.ai, rs, if d = 0 then [] else [d]⟩

/-- An instruction that only changes its own context: from the context at issue, the context after it. -/
def Issue.ctx (h : Hart) (f : Ctx → Ctx) : Issue := .go Charge.issue (fun s => s.modHctx h f)

/-- The hart is a Leriq-M one. -/
def isM : Hart → Bool
  | .gal _ _ _ => false
  | _ => true

/-! ## The instruction cache (R50) -/

/-- A line enters a core's instruction cache. Which line of a full set goes is open: a free value names it (log entry
14). -/
def State.icInsert (s : State) (k line : Nat) (bs : List Byte) : State :=
  let q := (s.core k).dropLine line
  let same := q.lines.filter (fun l => Config.icacheSet l.1 % 32 == Config.icacheSet line % 32)
  if same.length < 4 then s.setCore k { q with lines := q.lines ++ [(line, bs)] }
  else
    let (f, s) := s.takeFree
    let q := q.dropLine ((same.map (·.1)).getD (f % same.length) line)
    s.setCore k { q with lines := q.lines ++ [(line, bs)] }

/-- The parity of a line fails on read: the line is invalidated and fetched again, recorded and counted (R52; source 5 of
the record: log entry 43). -/
def State.icParity (s : State) (site core line : Nat) : State :=
  let k := coreKey site core
  let q := s.core k
  let s := s.setCore k { q.dropLine line with fills := q.fills.filter (fun l => l != line) ++ [line] }
  (s.addFld (R.HLT_SITE_CNT_CE site) 1).raise { s.recAt (s.mkRec CE 5 0) site with reg := R.HLT_SITE_CNT site }

/-- ICACHE_FILL_RETURN: a fill in flight returns: its line is valid, with the bytes of gallery memory, and the contexts that
missed it are READY (R50, Table 3.5); upsets of the line are met (R62). A fill that an invalidation has discarded is not installed (R51). With `bad`, a line that is valid, or that this fill
brings, fails its parity on read, and a new fill is in flight (R52). -/
def execIcacheFillReturn (site core line : Nat) (bad : Bool) (s : State) : Host.Outcome State Fault Refusal :=
  .next (
    let k := coreKey site core
    let q := s.core k
    if bad then (if q.fills.contains line || (q.line line).isSome then s.icParity site core line else s)
    else if !q.fills.contains line then s
    else
      let s := s.setCore k { q with fills := q.fills.filter (fun l => l != line) }
      let bad := s.galPoisoned site (512 * line) 512
      let s := (s.eccRead site (512 * line) 512).consume site bad
      let s := s.icInsert k line (s.rdGal site (512 * line) 512)
      (s.withCtxs (s.ctxs.map (fun p =>
          if p.1 / 128 = k ∧ p.2.st = .stalled (.icache line) then (p.1, { p.2 with st := .ready }) else p))))

end Sys2Proof.Machine
end

