-- ==== Sys2Proof/Machine/Scalar.lean ====
section
/-! DEFINITION. Scalar instructions: classes A and I (R186 to R188), and the two of Leriq-M (R210). -/

namespace Sys2Proof.Machine

abbrev OUT := Host.Outcome State Fault Refusal

/-- D ← f(A, B). -/
def State.alu (s : State) (h : Hart) (d a b : Nat) (f : Word → Word → Word) : State :=
  s.run h (Use.ai [a, b] d) false (fun _ x => Issue.ctx h (fun c => c.ws d (f (x.rs a) (x.rs b))))

/-- Comparisons give 1 or 0. -/
def boolW (b : Bool) : Word := if b then 1 else 0

/-- High halves of the 128-bit products (Table 9.2). -/
def mulhS (a b : Word) : Word := BitVec.ofInt 64 (a.toInt * b.toInt / 2 ^ 64)
def mulhU (a b : Word) : Word := BitVec.ofNat 64 (a.toNat * b.toNat / 2 ^ 64)

/-- Shifts by B[5:0]. -/
def shCount (b : Word) : Nat := b.toNat % 64

/-- Leading zeros of a word: 64 for zero. -/
def clz (a : Word) : Nat := if a = 0 then 64 else 63 - Nat.log2 a.toNat

/-- Ones in a word. -/
def popc (a : Word) : Nat := ((List.range 64).filter (fun i => a.getLsbD i)).length

def execOpAdd (h : Hart) (d a b : Nat) (s : State) : OUT := .next (s.alu h d a b (fun x y => x + y))
def execOpSub (h : Hart) (d a b : Nat) (s : State) : OUT := .next (s.alu h d a b (fun x y => x - y))
def execOpAnd (h : Hart) (d a b : Nat) (s : State) : OUT := .next (s.alu h d a b (fun x y => x &&& y))
def execOpOr (h : Hart) (d a b : Nat) (s : State) : OUT := .next (s.alu h d a b (fun x y => x ||| y))
def execOpXor (h : Hart) (d a b : Nat) (s : State) : OUT := .next (s.alu h d a b (fun x y => x ^^^ y))
def execOpSll (h : Hart) (d a b : Nat) (s : State) : OUT := .next (s.alu h d a b (fun x y => x <<< shCount y))
def execOpSrl (h : Hart) (d a b : Nat) (s : State) : OUT := .next (s.alu h d a b (fun x y => x >>> shCount y))
def execOpSra (h : Hart) (d a b : Nat) (s : State) : OUT := .next (s.alu h d a b (fun x y => x.sshiftRight (shCount y)))
def execOpSlt (h : Hart) (d a b : Nat) (s : State) : OUT := .next (s.alu h d a b (fun x y => boolW (x.slt y)))
def execOpSltu (h : Hart) (d a b : Nat) (s : State) : OUT := .next (s.alu h d a b (fun x y => boolW (x.ult y)))
def execOpMul (h : Hart) (d a b : Nat) (s : State) : OUT := .next (s.alu h d a b (fun x y => x * y))
def execOpMulh (h : Hart) (d a b : Nat) (s : State) : OUT := .next (s.alu h d a b mulhS)
def execOpMulhu (h : Hart) (d a b : Nat) (s : State) : OUT := .next (s.alu h d a b mulhU)
def execOpMin (h : Hart) (d a b : Nat) (s : State) : OUT := .next (s.alu h d a b (fun x y => if x.slt y then x else y))
def execOpMax (h : Hart) (d a b : Nat) (s : State) : OUT := .next (s.alu h d a b (fun x y => if x.slt y then y else x))
def execOpMinu (h : Hart) (d a b : Nat) (s : State) : OUT := .next (s.alu h d a b (fun x y => if x.ult y then x else y))
def execOpMaxu (h : Hart) (d a b : Nat) (s : State) : OUT := .next (s.alu h d a b (fun x y => if x.ult y then y else x))
def execOpClz (h : Hart) (d a : Nat) (s : State) : OUT := .next (s.alu h d a 0 (fun x _ => BitVec.ofNat 64 (clz x)))
def execOpPopc (h : Hart) (d a : Nat) (s : State) : OUT := .next (s.alu h d a 0 (fun x _ => BitVec.ofNat 64 (popc x)))

/-! ## Special registers (R187, Table 9.3; Table 9.11) -/

/-- What a read of a special register gives, and the state after it: CLOCK counts clocks, which the model does not, and
the form of THREAD on a Leriq-M core is not given; their values are free (log entries 22, 38). GEN of a Leriq-M core is 0:
only a cold boot resets its domain, and there every generation restarts at 0 (Table 18.3, DEDUCED, log entry 38). None: no
such register. -/
def State.rdsr (s : State) (h : Hart) (x : Ctx) (i : Nat) : Option (State × Nat) :=
  let clock : Option (State × Nat) := let (n, s) := s.takeFree; some (s, n % 2 ^ 48)
  match h with
  | .gal site core c =>
    match i with
    | 0 => some (s, s.threadAddr site core c)
    | 1 => some (s, s.dripNo)
    | 2 => clock
    | 3 => some (s, x.flags)
    | 4 => some (s, x.rnd)
    | 5 => some (s, x.rng)
    | 6 => some (s, s.taskOf (ctxKey site core c))
    | 7 => some (s, s.fld (R.CORE_STATUS_GEN site core))
    | 8 => some (s, x.priv)
    | _ => none
  | .mgmt c =>
    match i with
    | 0 => some (s, Config.mgmtThread 0 c % 2 ^ 21)
    | 1 => some (s, s.dripNo)
    | 2 => clock
    | 7 => some (s, 0)
    | 8 => some (s, x.priv)
    | _ => none
  | .lantern c =>
    match i with
    | 0 => some (s, Config.mgmtThread 1 c % 2 ^ 21)
    | 1 => some (s, 0)
    | 2 => clock
    | 7 => some (s, 0)
    | 8 => some (s, x.priv)
    | _ => none

/-- RDSR. -/
def execOpRdsr (h : Hart) (d b : Nat) (s : State) : OUT :=
  .next (s.run h (Use.ai [specialReg b] d) false (fun s x => match s.rdsr h x b with
    | none => .fault 3
    | some _ => .go Charge.issue (fun s => match s.rdsr h x b with
      | none => s
      | some (s, n) => s.modHctx h (fun c => c.ws d (BitVec.ofNat 64 n)))))

/-- WRSR: FLAGS, RND and RNGSTATE of a gallery context are the only registers that are written; code 3 is no rounding mode
(R92), a generator state of zero is replaced (R94). -/
def execOpWrsr (h : Hart) (d a : Nat) (s : State) : OUT :=
  .next (s.run h ⟨.ai, [a], [specialReg d]⟩ (isM h) (fun _ x =>
    let v := (x.rs a).toNat
    match d with
    | 3 => Issue.ctx h (fun c => { c with flags := v % 32 })
    | 4 => if v % 4 = 3 then .fault 4 else Issue.ctx h (fun c => { c with rnd := v % 4 })
    | 5 => Issue.ctx h (fun c => { c with rng := rngSeed (v % 2 ^ 32) })
    | _ => .fault 3))

/-- MOVPS: D ← zero-extended `p`B. -/
def execOpMovps (h : Hart) (d b : Nat) (s : State) : OUT :=
  .next (s.run h (Use.ai [predReg b] d) (isM h || decide (4 ≤ b)) (fun _ x => Issue.ctx h (fun c => c.ws d ((x.rp b).setWidth 64))))

/-- MOVSP: `p`D ← A[15:0]. -/
def execOpMovsp (h : Hart) (d a : Nat) (s : State) : OUT :=
  .next (s.run h ⟨.ai, [a], [predReg d]⟩ (isM h || decide (4 ≤ d)) (fun _ x => Issue.ctx h (fun c => c.wp d ((x.rs a).setWidth 16))))

/-! ## Leriq-M (R210) -/

/-- WFE: the context parks until an event of A's mask occurs. ILLEGAL_INSTR on a Leriq core. -/
def execOpWfe (h : Hart) (d a : Nat) (s : State) : OUT :=
  .next (s.run h Use.alone (!isM h) (fun _ x => Issue.ctx h (fun c => { c with st := .parkedEvent (x.rs a).toNat d })))

/-- BCALL: the call enters Bedrock's queue of 16, in issue order; a full queue stalls the issue; a reserved number is
answered BAD_CALL at once (R359). ILLEGAL_INSTR on a Leriq core, in Lantern and at level B. -/
def execOpBcall (h : Hart) (d a b : Nat) (s : State) : OUT :=
  .next (match h with
    | .mgmt k => s.leriqM h ((s.mHart h).priv == 2) (fun s x =>
        let num := (x.rs a).toNat % 2 ^ 16
        if num = 0 ∨ 15 ≤ num then Issue.ctx h (fun c => c.ws d 1)
        else if 16 ≤ s.sec.calls.length then .wait
        else .go Charge.issue (fun s =>
          let s := s.modHctx h (fun c => { c with st := .stalled (.bcall d) })
          (s.withSec { s.sec with calls := s.sec.calls ++ [⟨k, d, num, (x.rs b).toNat⟩] })))
    | _ => s.run h Use.alone true (fun _ _ => .wait))

/-! ## Class I (R188, Table 9.4) -/

/-- IMM15 sign-extended and zero-extended. -/
def imm15s (imm : Nat) : Word := BitVec.ofInt 64 (sextN 15 imm)
def imm15z (imm : Nat) : Word := BitVec.ofNat 64 (imm % 2 ^ 15)

/-- D ← f(A); `ill`: the immediate is not an encodable one. -/
def State.alui (s : State) (h : Hart) (d a : Nat) (ill : Bool) (f : Word → Word) : State :=
  s.run h (Use.ai [a] d) ill (fun _ x => Issue.ctx h (fun c => c.ws d (f (x.rs a))))

/-- IMM15[14:6] of a shift must be zero. -/
def badShift (imm : Nat) : Bool := decide (64 ≤ imm)

def execOpAddi (h : Hart) (d a imm : Nat) (s : State) : OUT := .next (s.alui h d a false (fun x => x + imm15s imm))
def execOpAndi (h : Hart) (d a imm : Nat) (s : State) : OUT := .next (s.alui h d a false (fun x => x &&& imm15s imm))
def execOpOri (h : Hart) (d a imm : Nat) (s : State) : OUT := .next (s.alui h d a false (fun x => x ||| imm15z imm))
def execOpXori (h : Hart) (d a imm : Nat) (s : State) : OUT := .next (s.alui h d a false (fun x => x ^^^ imm15z imm))
def execOpSlli (h : Hart) (d a imm : Nat) (s : State) : OUT :=
  .next (s.alui h d a (badShift imm) (fun x => x <<< (imm % 64)))
def execOpSrli (h : Hart) (d a imm : Nat) (s : State) : OUT :=
  .next (s.alui h d a (badShift imm) (fun x => x >>> (imm % 64)))
def execOpSrai (h : Hart) (d a imm : Nat) (s : State) : OUT :=
  .next (s.alui h d a (badShift imm) (fun x => x.sshiftRight (imm % 64)))
def execOpSlti (h : Hart) (d a imm : Nat) (s : State) : OUT := .next (s.alui h d a false (fun x => boolW (x.slt (imm15s imm))))
def execOpSltiu (h : Hart) (d a imm : Nat) (s : State) : OUT :=
  .next (s.alui h d a false (fun x => boolW (x.ult (imm15s imm))))
def execOpShin (h : Hart) (d a imm : Nat) (s : State) : OUT := .next (s.alui h d a false (fun x => (x <<< 15) ||| imm15z imm))

end Sys2Proof.Machine
end

