-- ==== Sys2Proof/Machine/Narrow.lean ====
section
/-! DEFINITION. Narrow memory: class M (R163 to R168, R189 to R192), and the end of a narrow access in module form. -/

namespace Sys2Proof.Machine

/-! ## Where a narrow access goes -/

inductive Target where
  /-- Cells of the own gallery, at a gallery-local offset. -/
  | cells (off : Nat)
  /-- The local memory of a Leriq-M core, as a memory key. -/
  | own (key : Nat)
  /-- A module address: the access is answered later. -/
  | module (a : Nat)
deriving DecidableEq, Repr

/-- A module address that a narrow access of a gallery context may name (R164). -/
def State.modOk (s : State) (site priv a : Nat) : Bool :=
  match placeOf a with
  | .stack y => s.ownStack site y
  | .csr _ => decide (1 ≤ priv)
  | .host _ => decide (1 ≤ priv)
  | _ => false

/-- A module address that the management core may name: the whole module map (Table 9.11). -/
def State.mModOk (s : State) (a : Nat) : Bool :=
  match placeOf a with
  | .stack y => s.fld (R.MSMAP_REGION_VALID (y / 0x100000000)) == 1
  | .csr _ => true
  | .host _ => true
  | .gal _ _ => true
  | _ => false

/-- The target of an access of `n` bytes at an address that a register holds; none is a BOUNDS fault (R63, R163, R164,
R358, Table 9.11). -/
def State.target (s : State) (h : Hart) (x : Ctx) (a n : Nat) (write : Bool) : Option Target :=
  if a % n ≠ 0 then none
  else match h with
    | .gal site core _ =>
      if a / 2 ^ 62 < 2 then (s.localAddr site core x a n write).map .cells
      else match moduleAddr a with
        | some m => if s.modOk site x.priv m then some (.module m) else none
        | none => none
    | .mgmt _ =>
      let o := a % 2 ^ 62
      if a / 2 ^ 62 = 1 then
        if o + n ≤ mLocal h ∧ (x.priv = 2 ∨ 0x80000 ≤ o) then some (.own (mgmtKey o)) else none
      else match moduleAddr a with
        | some m => if s.mModOk m then some (.module m) else none
        | none => none
    | .lantern _ =>
      let o := a % 2 ^ 62
      if a / 2 ^ 62 = 1 ∧ o + n ≤ mLocal h then some (.own (lanternKey o)) else none

/-- An access of the own gallery's cells: the scoreboard, then the slice, then, where the access consumes what the cells
hold, their poison (R71, Table 4.4, Table 13.3, R295). -/
def State.cellsIssue (s : State) (site off n : Nat) (write reads : Bool) (eff : State → State) : Issue :=
  let w := s.blockers site [⟨write, off, n⟩]
  if w ≠ 0 then .blocked Charge.issue w
  else match s.gate site off n with
    | .ok =>
      if reads && s.galPoisoned site off n then .bad off n
      else (Issue.go Charge.issue eff).also (fun s => if reads then s.eccRead site off n else s)
    | .noCell => .fault 1
    | g => .closed g

/-- The value of `n` loaded bytes. -/
def loadExt (signed : Bool) (n v : Nat) : Word :=
  if signed then BitVec.ofInt 64 (sextN (8 * n) v) else BitVec.ofNat 64 (v % 2 ^ (8 * n))

/-! ## Loads (R165, R190) -/

/-- Units of 64 B that a narrow load in module form is charged: one for a stack load, none for a hit in cache mode, eight
for a miss (R165, R76). -/
def State.loadUnits (s : State) (h : Hart) (a : Nat) : Nat :=
  match h, placeOf a with
  | .gal site _ _, .stack y =>
    if s.cacheOn site then (if (s.cached site (y / 512)).isSome then 0 else 8) else 1
  | _, _ => 0

/-- The lookup of a stack load in the cache, counted with its charge (R76). -/
def State.loadLookup (s : State) (h : Hart) (a : Nat) : State :=
  match h, placeOf a with
  | .gal site _ _, .stack y => if s.cacheOn site then s.cacheCount site (y / 512) else s
  | _, _ => s

/-- An access of the service die to a gallery window is injected; one that is not placed is not (R261, R278, R285). -/
def State.windowInj (s : State) (a : Nat) : State :=
  match placeOf a with
  | .gal lg _ => if (s.siteOfLg lg).isSome then s.noteInj svcNode s.epoch else s
  | _ => s

/-- The site of a window access that was injected in epoch `e`, whose bank still serves it: the state after its end there. -/
def State.windowEnd (s : State) (e lg : Nat) : State × Option Nat :=
  match s.siteOfLgIn e lg with
  | none => (s, none)
  | some d => if s.bank e < 2 then (s.overrun d, none) else (s.noteEnd d e, some d)

/-- The issue of a load of `n` bytes into D. -/
def State.loadIssue (s : State) (h : Hart) (x : Ctx) (d a disp n : Nat) (signed : Bool) : Issue :=
  match effAddr (x.rs a) (sextN 15 disp) with
  | none => .fault 1
  | some addr =>
    match s.target h x addr n false with
    | none => .fault 1
    | some (.cells off) =>
      let site := match h with
        | .gal site _ _ => site
        | _ => 0
      s.cellsIssue site off n false true (fun s =>
        s.modHctx h (fun c => c.ws d (loadExt signed n (leNat (s.rdGal site off n)))))
    | some (.own k) => .go Charge.issue (fun s => s.modHctx h (fun c => c.ws d (loadExt signed n (s.rdNat k n))))
    | some (.module m) =>
      .go { Charge.issue with stack := s.loadUnits h m } (fun s =>
        ((s.loadLookup h m).windowInj m).modHctx h (fun c => { c with st := .stalled (.load d n signed m s.epoch) }))

def State.load (s : State) (h : Hart) (d a disp n : Nat) (signed : Bool) : State :=
  s.run h ⟨.m, [a], if d = 0 then [] else [d]⟩ false (fun s x => s.loadIssue h x d a disp n signed)

def execOpLd8 (h : Hart) (d a disp : Nat) (s : State) : OUT := .next (s.load h d a disp 1 true)
def execOpLd16 (h : Hart) (d a disp : Nat) (s : State) : OUT := .next (s.load h d a disp 2 true)
def execOpLd32 (h : Hart) (d a disp : Nat) (s : State) : OUT := .next (s.load h d a disp 4 true)
def execOpLd64 (h : Hart) (d a disp : Nat) (s : State) : OUT := .next (s.load h d a disp 8 true)
def execOpLdu8 (h : Hart) (d a disp : Nat) (s : State) : OUT := .next (s.load h d a disp 1 false)
def execOpLdu16 (h : Hart) (d a disp : Nat) (s : State) : OUT := .next (s.load h d a disp 2 false)
def execOpLdu32 (h : Hart) (d a disp : Nat) (s : State) : OUT := .next (s.load h d a disp 4 false)

/-! ## Stores (R190) -/

/-- Bytes stored into the own gallery's cells. A store of part of a poisoned word is discarded in T6-compatibility
(R295). -/
def State.cellsStore (s : State) (site off : Nat) (bs : List Byte) : State :=
  if bs.length % 8 = 0 then s.wrGal site off bs
  else
    let bad := s.galPoisoned site off bs.length
    let s := s.eccRead site off bs.length
    if bad then s.ceAt 5 site else s.wrGal site off bs

/-- The issue of a store of the low `n` bytes of D. -/
def State.storeIssue (s : State) (h : Hart) (x : Ctx) (d a disp n : Nat) : Issue :=
  let v := (x.rs d).toNat % 2 ^ (8 * n)
  match effAddr (x.rs a) (sextN 15 disp) with
  | none => .fault 1
  | some addr =>
    match s.target h x addr n true, h with
    | none, _ => .fault 1
    | some (.cells off), .gal site _ _ =>
      s.cellsIssue site off n true (decide (n < 8) && !s.siteT6 site) (fun s => s.cellsStore site off (leBytes n v))
    | some (.cells _), _ => .fault 1
    | some (.own k), _ => .go Charge.issue (fun s => s.wrNat k n v)
    | some (.module m), _ =>
      let gen := match h with
        | .gal site core _ => s.fld (R.CORE_STATUS_GEN site core)
        | _ => s.epoch
      let units := match h, placeOf m with
        | .gal _ _ _, .stack _ => 1
        | _, _ => 0
      .go { Charge.issue with stack := units } (fun s =>
        (s.windowInj m).modHctx h (fun c => { c with stores := c.stores ++ [(gen, m, n, v)] }))

def State.store (s : State) (h : Hart) (d a disp n : Nat) : State :=
  s.run h ⟨.m, [d, a], []⟩ false (fun s x => s.storeIssue h x d a disp n)

def execOpSt8 (h : Hart) (d a disp : Nat) (s : State) : OUT := .next (s.store h d a disp 1)
def execOpSt16 (h : Hart) (d a disp : Nat) (s : State) : OUT := .next (s.store h d a disp 2)
def execOpSt32 (h : Hart) (d a disp : Nat) (s : State) : OUT := .next (s.store h d a disp 4)
def execOpSt64 (h : Hart) (d a disp : Nat) (s : State) : OUT := .next (s.store h d a disp 8)

/-! ## VLD and VST (R191) -/

/-- The cells that a VLD, a VST or an atomic names: forms 0 and 1 only; none is a BOUNDS fault. -/
def State.cellsOf (s : State) (site core : Nat) (x : Ctx) (a : Nat) (disp : Int) (n : Nat) (write : Bool) : Option Nat :=
  match effAddr (x.rs a) disp with
  | none => none
  | some addr => if addr % n ≠ 0 ∨ 2 ≤ addr / 2 ^ 62 then none else s.localAddr site core x addr n write

/-- VLD: `v`D ← 64 bytes. -/
def execOpVld (h : Hart) (d a disp : Nat) (s : State) : OUT :=
  .next (match h with
    | .gal site core c => s.leriq site core c ⟨.m, [a], [vecReg d]⟩ false (decide (8 ≤ d)) (fun s x =>
        match s.cellsOf site core x a (sextN 15 disp) 64 false with
        | none => .fault 1
        | some off => s.cellsIssue site off 64 false true (fun s =>
            s.modHctx h (fun c => c.wv d (BitVec.ofNat 512 (leNat (s.rdGal site off 64))))))
    | _ => s.leriqM h true (fun _ _ => .wait))

/-- VST: 64 bytes ← `v`D. -/
def execOpVst (h : Hart) (d a disp : Nat) (s : State) : OUT :=
  .next (match h with
    | .gal site core c => s.leriq site core c ⟨.m, [a, vecReg d], []⟩ false (decide (8 ≤ d)) (fun s x =>
        match s.cellsOf site core x a (sextN 15 disp) 64 true with
        | none => .fault 1
        | some off => s.cellsIssue site off 64 true false (fun s => s.wrGal site off (leBytes 64 (x.rv d).toNat)))
    | _ => s.leriqM h true (fun _ _ => .wait))

/-! ## Atomics (R192) -/

/-- One read-modify-write of an 8 B word: `f` gives the word's new value from its old one; D receives the old one. On a
Leriq-M core in its local memory (Table 9.11). -/
def State.atomic (s : State) (h : Hart) (d a b disp : Nat) (ill : Bool) (f : Ctx → Word → Word) : State :=
  match h with
  | .gal site core c => s.leriq site core c ⟨.m, [d, a, b], if d = 0 then [] else [d]⟩ false ill (fun s x =>
      match s.cellsOf site core x a (sextN 11 disp) 8 false, s.cellsOf site core x a (sextN 11 disp) 8 true with
      | some off, some _ => s.cellsIssue site off 8 true true (fun s =>
          let old := BitVec.ofNat 64 (leNat (s.rdGal site off 8))
          (s.wrGal site off (leBytes 8 (f x old).toNat)).modHctx h (fun c => c.ws d old))
      | _, _ => .fault 1)
  | _ => s.leriqM h ill (fun s x =>
      match effAddr (x.rs a) (sextN 11 disp) with
      | none => .fault 1
      | some addr =>
        match s.target h x addr 8 true with
        | some (.own k) => .go Charge.issue (fun s =>
            let old := BitVec.ofNat 64 (s.rdNat k 8)
            (s.wrNat k 8 (f x old).toNat).modHctx h (fun c => c.ws d old))
        | _ => .fault 1)

/-- AADD: old ← m; m ← old + D; D ← old. -/
def execOpAadd (h : Hart) (d a b disp : Nat) (s : State) : OUT :=
  .next (s.atomic h d a b disp (b != 0) (fun x old => old + x.rs d))

/-- ASWAP: old ← m; m ← D; D ← old. -/
def execOpAswap (h : Hart) (d a b disp : Nat) (s : State) : OUT := .next (s.atomic h d a b disp (b != 0) (fun x _ => x.rs d))

/-- ACAS: old ← m; if old = B then m ← D; D ← old. -/
def execOpAcas (h : Hart) (d a b disp : Nat) (s : State) : OUT :=
  .next (s.atomic h d a b disp false (fun x old => if old = x.rs b then x.rs d else old))

/-! ## The answer to a load in module form (R165, R9, R460, R461, R387) -/

/-- What the data of a load are: a value; a fault of its context; nothing yet. -/
inductive Loaded where
  | val (s : State) (v : Nat)
  | fault (s : State) (code : Nat)
  | none (s : State)

/-- A read of the raw window (R387): it hangs while its unit's clock is off, or behind another that hangs. -/
def State.rawLoad (s : State) (src : Src) (off n : Nat) : Loaded :=
  let u := s.fld R.BRG_RAW_SEL_UNIT
  let i := s.fld R.BRG_RAW_SEL_INDEX
  let e := (u, i, off - off % 8, (Option.none : Option Nat))
  if !rawSource src || !s.rawOpen src || decide (unitTotal u ≤ i) then .val s 0
  else if s.boot.hung ≠ [] || !s.unitClock u i then
    .none (if s.boot.hung.contains e then s else (s.withBoot { s.boot with hung := s.boot.hung ++ [e] }))
  else .val s (s.rdNat (rawKey u i (off - off % 8)) 8 / 2 ^ (8 * (off % 8)) % 2 ^ (8 * n))

/-- A read of CSR space. -/
def State.csrLoad (s : State) (h : Hart) (a n : Nat) : Loaded :=
  let src := s.hartSrc h
  let plain : Loaded :=
    if n < 4 then .val (s.refuse src 18 a 0) 0
    else match regAt (a - a % 8) with
      | none => .val (s.refuse src 18 a 0) 0
      | some f =>
        if s.gated f then .val (s.refuse src 17 a 0) 0
        else .val s ((s.viewOf f (a - a % 8)).toNat / 2 ^ (8 * (a % 8)) % 2 ^ (8 * n))
  if !isM h && decide (s.boot.hung ≠ []) && decide (a < csrBase + 0x2000000) then .none s
  else match blockAt a with
    | some (.SEC, _) => if src = .bedrock then .val s 0 else .val (s.refuse src 16 a 0) 0
    | some (.BRG, base) => if 0x10000 ≤ a - base then s.rawLoad src (a - base - 0x10000) n else plain
    | _ => plain

/-- What a read gives as a load's data: an access in native mode that consumes an uncorrectable unit delivers nothing, as
its chamber resets (R294). -/
def StackRd.loaded (g : StackRd) (s : State) : Loaded :=
  match g.status with
  | 0 => if g.poison then .fault s 7 else .val s (leNat g.data)
  | 4 => .fault s 6
  | 5 => .fault s 6
  | 11 => .none s
  | _ => .fault s 1

/-- The data of a load at a module address, injected in survey epoch `e`. A window of no placed gallery, or of a bank that
has been freed meanwhile, ends in error (R261, Table 12.5). -/
def State.loadData (s : State) (h : Hart) (x : Ctx) (a n e : Nat) : Loaded :=
  match placeOf a with
  | .stack y =>
    let cached : Option Nat := match h with
      | .gal site _ _ => if s.cacheOn site then some site else Option.none
      | _ => Option.none
    (match cached with
    | some site => let (s, g) := s.cachedRead site false y n; g.loaded s
    | Option.none => let (s, r) := s.stackRead y n; r.loaded s)
  | .csr y => s.csrLoad h y n
  | .host p =>
    let sand : Bool := match h with
      | .gal site _ _ => s.sandboxed site
      | _ => false
    if sand then .val s.sandDrop 0
    else if s.hostOpen then .val s (s.rdNat (hostKey p) n) else .none s
  | .gal lg off =>
    (match s.windowEnd e lg with
    | (s, Option.none) => .fault s 1
    | (s, some d) =>
      if s.gate d off n = .scrubbing ∧ x.priv = 2 then .val s (leNat (s.rdGal d off n))
      else let (s, g) := s.galRead d off n; g.loaded s)
  | _ => .fault s 1

/-- A context takes a synchronous fault at a program counter. -/
def State.hartFault (s : State) (h : Hart) (pc code : Nat) : State :=
  let s := s.modHctx h (fun c => { c with pc := pc })
  match h with
  | .gal site core c => s.ctxFault (ctxKey site core c) code
  | _ => s.mFault h code

/-- The task of a context is FROZEN: it meets no synchronous fault (R174). -/
def State.hartFrozen (s : State) (h : Hart) : Bool :=
  match h with
  | .gal site core c => s.frozen (taskM site (s.taskOf (ctxKey site core c)))
  | _ => false

/-- NARROW_LOAD_RETURN: the answer to a context's load in module form returns and the context is READY. An answer to a
context of a core that has been reset is dropped (R385). -/
def execNarrowLoadReturn (h : Hart) (s : State) : OUT :=
  .next (
    let x := s.hctx h
    match x.st, h with
    | .stalled (.load d n sg a e), _ =>
      (match s.loadData h x a n e with
      | .none s => s
      | .fault s' code => if s.hartFrozen h then s else s'.hartFault h (x.pc - 4) code
      | .val s v => s.modHctx h (fun c => { c.ws d (loadExt sg n v) with st := .ready }))
    | _, .gal site core _ =>
      let q := s.core (coreKey site core)
      if q.stale = 0 then s
      else (s.setCore (coreKey site core) { q with stale := q.stale - 1 }).addFld (R.RTR_DROP_CNT_GEN (rtrBase site)) 1
    | _, _ => s)

/-! ## The acknowledgement of a store in module form (R167) -/

/-- A register write by a gallery context that was at S when it issued the store, whether or not it still lives. -/
def State.regWriteS (s : State) (h : Hart) (a n v : Nat) : State :=
  match h with
  | .gal site core c =>
    let k := ctxKey site core c
    if (s.ctx k).priv = 0 then
      let s := (s.setCtx k { s.ctx k with priv := 1 }).regWrite (.gallery site core c) a n v
      s.setCtx k { s.ctx k with priv := 0 }
    else s.regWrite (.gallery site core c) a n v
  | _ => s.regWrite (s.hartSrc h) a n v

/-- A store in module form, injected in survey epoch `e`, is performed; none while its target cannot answer. One to a window
that ends in error is discarded. -/
def State.storeDo (s : State) (h : Hart) (a n v e : Nat) : Option State :=
  let sand : Bool := match h with
    | .gal site _ _ => s.sandboxed site
    | _ => false
  match placeOf a with
  | .stack y =>
    if sand then some s.sandDrop
    else
      let (s, st) := s.stackWrite y (leBytes n v)
      some (match h with
        | .gal site _ _ => if st = 0 then s.cacheUpdate site y (leBytes n v) else s
        | _ => s)
  | .csr y =>
    if sand then some s.sandDrop
    else if !isM h && decide (s.boot.hung ≠ []) && decide (y < csrBase + 0x2000000) then none
    else some (s.regWriteS h y n v)
  | .host p =>
    if sand then some s.sandDrop
    else if s.hostOpen then some (if s.hostWrOk then s.wrNat (hostKey p) n v else s) else none
  | .gal lg off =>
    match s.windowEnd e lg with
    | (s, none) => some s
    | (s, some d) => some (s.galPut d off (leBytes n v) false).1
  | _ => some s

/-- MODULE_STORE_ACK: the context's oldest store in module form has been performed and its acknowledgement returns; one
for a core that has been reset meanwhile is dropped (R385). -/
def execModuleStoreAck (h : Hart) (s : State) : OUT :=
  .next (
    match (s.hctx h).stores with
    | [] => s
    | (gen, a, n, v) :: rest =>
      match (s.modHctx h (fun c => { c with stores := rest })).storeDo h a n v gen with
      | none => s
      | some s' =>
        match h with
        | .gal site core _ =>
          if gen ≠ s.fld (R.CORE_STATUS_GEN site core) then s'.addFld (R.RTR_DROP_CNT_GEN (rtrBase site)) 1 else s'
        | _ => s')

/-! ## The Rope timeout (R286) -/

/-- A module address is reached by a Rope request: registers, host memory, gallery windows. -/
def ropeAddr (a : Nat) : Bool :=
  match placeOf a with
  | .gal _ _ => true
  | .csr _ => true
  | .host _ => true
  | _ => false

/-- ROPE_TIMEOUT: a register access of a context has had no answer within ROPE_CTRL.TIMEOUT_US: it is counted and
recorded; a load returns zero, a store is discarded. -/
def execRopeTimeout (h : Hart) (store : Bool) (s : State) : OUT :=
  .next (
    let x := s.hctx h
    let src := s.hartSrc h
    if store then
      match List.find? (fun (e : Nat × Nat × Nat × Nat) => ropeAddr e.2.1) x.stores with
      | none => s
      | some e =>
        ((s.setHctx h { x with stores := x.stores.erase e }).addFld R.ROPE_STATUS_TIMEOUTS 1).refuse src 19 e.2.1 e.2.2.2
    else
      match x.st with
      | .stalled (.load d _ _ a _) =>
        if ropeAddr a then
          ((s.setHctx h { x.ws d 0 with st := .ready }).addFld R.ROPE_STATUS_TIMEOUTS 1).refuse src 19 a 0
        else s
      | _ => s)

end Sys2Proof.Machine
end

