-- ==== Sys2Proof/Machine/Branch.lean ====
section
/-! DEFINITION. Branches: class B (R193). -/

namespace Sys2Proof.Machine

/-- A branch target may be taken: a multiple of 4 whose 8 bytes lie in an X window of the set. A Leriq-M core has no
windows; its range is checked at the fetch (Table 9.11). -/
def State.targetOk (s : State) (h : Hart) (x : Ctx) (t : Int) : Bool :=
  decide (0 ≤ t) && decide (t % 4 = 0) && (match h with
    | .gal site core _ => s.fetchOk site core x.win (t.toNat / 8 * 8)
    | _ => decide (t < 2 ^ 28))

/-- The issue of a branch: taken or not, its target, and the register that takes PC + 4. A taken branch with a bad target
takes a BOUNDS fault and writes nothing; an untaken one checks no target. -/
def State.branchIssue (s : State) (h : Hart) (x : Ctx) (taken : Bool) (t : Int) (link : Option Nat) : Issue :=
  if !taken then Issue.ctx h id
  else if !s.targetOk h x t then .fault 1
  else Issue.ctx h (fun c =>
    let c := match link with
      | some d => c.ws d (BitVec.ofNat 64 (x.pc + 4))
      | none => c
    { c with pc := t.toNat })

/-- A target relative to the program counter. -/
def pcRel (x : Ctx) (w off : Nat) : Int := (x.pc : Int) + 4 * sextN w off

/-- A conditional branch on two scalar registers. -/
def State.branchIf (s : State) (h : Hart) (a b off : Nat) (f : Word → Word → Bool) : State :=
  s.run h Use.alone false (fun s x => s.branchIssue h x (f (x.rs a) (x.rs b)) (pcRel x 15 off) none)

def execOpBeq (h : Hart) (a b off : Nat) (s : State) : OUT := .next (s.branchIf h a b off (fun x y => x == y))
def execOpBne (h : Hart) (a b off : Nat) (s : State) : OUT := .next (s.branchIf h a b off (fun x y => x != y))
def execOpBlt (h : Hart) (a b off : Nat) (s : State) : OUT := .next (s.branchIf h a b off (fun x y => x.slt y))
def execOpBge (h : Hart) (a b off : Nat) (s : State) : OUT := .next (s.branchIf h a b off (fun x y => !x.slt y))
def execOpBltu (h : Hart) (a b off : Nat) (s : State) : OUT := .next (s.branchIf h a b off (fun x y => x.ult y))
def execOpBgeu (h : Hart) (a b off : Nat) (s : State) : OUT := .next (s.branchIf h a b off (fun x y => !x.ult y))

/-- JAL: D ← PC + 4; PC ← PC + 4 × sext(OFF19). -/
def execOpJal (h : Hart) (d off : Nat) (s : State) : OUT :=
  .next (s.run h Use.alone false (fun s x => s.branchIssue h x true (pcRel x 19 off) (some d)))

/-- JALR: D ← PC + 4; PC ← A + sext(OFF15). -/
def execOpJalr (h : Hart) (d a off : Nat) (s : State) : OUT :=
  .next (s.run h Use.alone false (fun s x =>
    s.branchIssue h x true ((x.rs a + BitVec.ofInt 64 (sextN 15 off)).toNat : Int) (some d)))

/-- A branch on a predicate register; a Leriq-M core has none, so its word is ILLEGAL_INSTR (Table 9.11, log entry 38). -/
def State.branchP (s : State) (h : Hart) (a off : Nat) (f : BitVec 16 → Bool) : State :=
  s.run h Use.alone (isM h || decide (4 ≤ a)) (fun s x => s.branchIssue h x (f (x.rp a)) (pcRel x 15 off) none)

def execOpBpany (h : Hart) (a off : Nat) (s : State) : OUT := .next (s.branchP h a off (fun p => p != 0))
def execOpBpall (h : Hart) (a off : Nat) (s : State) : OUT := .next (s.branchP h a off (fun p => p == 0xFFFF))
def execOpBpnone (h : Hart) (a off : Nat) (s : State) : OUT := .next (s.branchP h a off (fun p => p == 0))

end Sys2Proof.Machine
end

