-- ==== Sys2Proof/Machine/Vector.lean ====
section
/-! DEFINITION. Vector and predicate instructions: class V (R184, R185, R194, R195). Every vector instruction (opcodes 0x00
to 0x28) draws 16 times under mode 2, exact ones too (R95, R194, log entry 37). -/

namespace Sys2Proof.Machine

/-! ## Encoding (R183) -/

/-- The fields name `v` registers where the instruction has a `v` operand, and are zero where it has none. -/
def vaV (x : VOp) : Bool := decide (x.a < 8)
def vbV (x : VOp) : Bool := decide (x.b < 8)
def vbZ (x : VOp) : Bool := x.b == 0
def vctl (x : VOp) (n : Nat) : Bool := decide (x.ctl < n)

/-- Two `v` sources and no CTL; one `v` source and no CTL. -/
def vform2 (x : VOp) : Bool := (vaV x) && (vbV x) && vctl x 1
def vform1 (x : VOp) : Bool := (vaV x) && (vbZ x) && vctl x 1

/-- Formats that an opcode accepts (R195). -/
def vfmtF (x : VOp) : Bool := decide (x.fmt < 3)
def vfmtI (x : VOp) : Bool := decide (3 ≤ x.fmt) && decide (x.fmt < 6)
def vfmtAny (x : VOp) : Bool := decide (x.fmt < 6)

/-! ## Issue -/

/-- What pairing sees of a class V instruction (R45): beside `rs` and `ws` its guard, RND and FLAGS, and under mode 2
RNGSTATE. It counts as a reader of FLAGS, whose bits it adds to, and of RND, which says whether it draws. -/
def State.vecUse (s : State) (h : Hart) (x : VOp) (rs ws : List Nat) : Use :=
  let rng := if (s.hctx h).rnd = 2 then [specialReg 5] else []
  ⟨.v, rs ++ (if x.ge = 1 then [predReg x.gp] else []) ++ [specialReg 3, specialReg 4] ++ rng, ws ++ [specialReg 3] ++ rng⟩

/-- The issue of a class V instruction that reads `rs` and writes `ws`: `legal`, its encoding is a defined one; `fmtOk`, it
accepts the format; `f`, its effect on the context, given the draws. -/
def State.vecWith (s : State) (h : Hart) (x : VOp) (rs ws : List Nat) (legal fmtOk : Bool) (f : Ctx → List Nat → Ctx) : State :=
  s.runVX h (s.vecUse h x rs ws) false (!legal) (fun _ _ _ _ _ =>
    if !fmtOk then .fault 4
    else Issue.ctx h (fun c =>
      let (ds, r) := c.draw16
      f { c with rng := r } ds))

/-- A class V instruction on `v` registers, and a compare, which writes `p`VD. -/
def State.vec (s : State) (h : Hart) (x : VOp) : Bool → Bool → (Ctx → List Nat → Ctx) → State :=
  s.vecWith h x [vecReg x.a, vecReg x.b, vecReg x.vd] [vecReg x.vd]
def State.vecCmp (s : State) (h : Hart) (x : VOp) : Bool → Bool → (Ctx → List Nat → Ctx) → State :=
  s.vecWith h x [vecReg x.a, vecReg x.b, predReg x.vd] [predReg x.vd]

/-- The result lanes enter VD where they are active, and the flags of active lanes are set. -/
def Ctx.lanesOut (c : Ctx) (x : VOp) (rs : List (Nat × Nat)) : Ctx :=
  let old := c.rv x.vd
  let v := vecOf ((List.range 16).map (fun i => if c.active x i then (rs.getD i (0, 0)).1 else laneCode 0 old i))
  (c.wv x.vd v).addFlags (laneFlags c x rs)

/-- Compare results enter `p`VD where lanes are active. -/
def Ctx.predOut (c : Ctx) (x : VOp) (rs : List (Bool × Nat)) : Ctx :=
  let old := c.rp x.vd
  let n := (List.range 16).foldl (fun n i =>
    if (if c.active x i then (rs.getD i (false, 0)).1 else old.getLsbD i) then setBitN n i else n) 0
  (c.wp x.vd (BitVec.ofNat 16 n)).addFlags (laneFlags c x (rs.map (fun p => (0, p.2))))

/-- A floating operation on two sources: mode, draw, widened lanes. -/
def Ctx.flt2 (c : Ctx) (x : VOp) (ds : List Nat) (f : Nat → Nat → Nat → Nat → Nat × Nat) : Ctx :=
  let a := c.rv x.a
  let b := c.rv x.b
  c.lanesOut x ((List.range 16).map (fun i =>
    let r := f c.rnd (ds.getD i 0) (laneWide x.fmt a i) (laneWide x.fmt b i)
    (r.1, r.2 ||| sNanFlag (laneSNan x.fmt a i || laneSNan x.fmt b i))))

/-- A floating operation on one source. -/
def Ctx.flt1 (c : Ctx) (x : VOp) (f : Nat → Nat × Nat) : Ctx :=
  let a := c.rv x.a
  c.lanesOut x ((List.range 16).map (fun i =>
    let r := f (laneWide x.fmt a i)
    (r.1, r.2 ||| sNanFlag (laneSNan x.fmt a i))))

/-- A data movement or an integer operation: lanes without flags. -/
def Ctx.move (c : Ctx) (x : VOp) (f : Nat → Nat) : Ctx := c.lanesOut x ((List.range 16).map (fun i => (f i % 2 ^ 32, 0)))

/-- A compare of floating lanes. -/
def Ctx.cmp2 (c : Ctx) (x : VOp) (f : Nat → Nat → Bool × Nat) : Ctx :=
  let a := c.rv x.a
  let b := c.rv x.b
  c.predOut x ((List.range 16).map (fun i =>
    let r := f (laneWide x.fmt a i) (laneWide x.fmt b i)
    (r.1, r.2 ||| sNanFlag (laneSNan x.fmt a i || laneSNan x.fmt b i))))

/-! ## Arithmetic (Table 9.7) -/

def execOpVadd (h : Hart) (x : VOp) (s : State) : OUT := .next (s.vec h x (vform2 x) (vfmtF x) (fun c ds => c.flt2 x ds addF32))
def execOpVsub (h : Hart) (x : VOp) (s : State) : OUT := .next (s.vec h x (vform2 x) (vfmtF x) (fun c ds => c.flt2 x ds subF32))
def execOpVmul (h : Hart) (x : VOp) (s : State) : OUT := .next (s.vec h x (vform2 x) (vfmtF x) (fun c ds => c.flt2 x ds mulF32))

/-- VFMA: VD ← A × B + VD, rounded once; VD is read as FP32 (R184). -/
def execOpVfma (h : Hart) (x : VOp) (s : State) : OUT :=
  .next (s.vec h x (vform2 x) (vfmtF x) (fun c ds =>
    let a := c.rv x.a
    let b := c.rv x.b
    let d := c.rv x.vd
    c.lanesOut x ((List.range 16).map (fun i =>
      let r := fmaF32 c.rnd (ds.getD i 0) (laneWide x.fmt a i) (laneWide x.fmt b i) (laneCode 0 d i)
      (r.1, r.2 ||| sNanFlag (laneSNan x.fmt a i || laneSNan x.fmt b i || laneSNan 0 d i))))))

def execOpVmax (h : Hart) (x : VOp) (s : State) : OUT :=
  .next (s.vec h x (vform2 x) (vfmtF x) (fun c ds => c.flt2 x ds (fun _ _ a b => maxF32 a b)))
def execOpVmin (h : Hart) (x : VOp) (s : State) : OUT :=
  .next (s.vec h x (vform2 x) (vfmtF x) (fun c ds => c.flt2 x ds (fun _ _ a b => minF32 a b)))

/-- VABS and VNEG are exact; a NaN result is canonical (R91). -/
def execOpVabs (h : Hart) (x : VOp) (s : State) : OUT :=
  .next (s.vec h x (vform1 x) (vfmtF x) (fun c _ => c.move x (fun i => canon (laneWide x.fmt (c.rv x.a) i % 2 ^ 31))))
def execOpVneg (h : Hart) (x : VOp) (s : State) : OUT :=
  .next (s.vec h x (vform1 x) (vfmtF x) (fun c _ => c.move x (fun i => canon (laneWide x.fmt (c.rv x.a) i ^^^ 2 ^ 31))))

/-! ## Compares and selection -/

/-- `p`VD names a predicate register. -/
def vpD (x : VOp) : Bool := decide (x.vd < 4)

def execOpVcmplt (h : Hart) (x : VOp) (s : State) : OUT :=
  .next (s.vecCmp h x ((vform2 x) && (vpD x)) (vfmtF x) (fun c _ => c.cmp2 x cmpLtF32))
def execOpVcmple (h : Hart) (x : VOp) (s : State) : OUT :=
  .next (s.vecCmp h x ((vform2 x) && (vpD x)) (vfmtF x) (fun c _ => c.cmp2 x cmpLeF32))
def execOpVcmpeq (h : Hart) (x : VOp) (s : State) : OUT :=
  .next (s.vecCmp h x ((vform2 x) && (vpD x)) (vfmtF x) (fun c _ => c.cmp2 x cmpEqF32))

/-- VSEL: VD ← `p`CTL[1:0] bit ? A : B. -/
def execOpVsel (h : Hart) (x : VOp) (s : State) : OUT :=
  .next (s.vecWith h x [vecReg x.a, vecReg x.b, vecReg x.vd, predReg x.ctl] [vecReg x.vd] ((vaV x) && (vbV x) && vctl x 4) (vfmtF x) (fun c _ => c.move x (fun i =>
    if (c.rp x.ctl).getLsbD i then laneMoved x.fmt (c.rv x.a) i else laneMoved x.fmt (c.rv x.b) i)))

/-! ## Conversion (R90, R91, R195) -/

/-- The value in a lane of any format. -/
def laneVal (fmt : Nat) (v : Vec) (i : Nat) : FV :=
  if fmt < 3 then decodeF (laneFmt fmt) (laneCode fmt v i) else ofInt (sextN (laneWidth fmt) (laneCode fmt v i)) 0

/-- A value converted to the format of a code of R184: its code and the flags. -/
def cvtTo (to_ mode draw : Nat) (v : FV) : Nat × Nat :=
  if to_ < 3 then encodeF (laneFmt to_) mode draw v
  else
    let r := toIntSat (laneWidth to_) mode draw v
    (toBits (laneWidth to_) r.1, r.2)

/-- VCVT: VD ← A converted to format CTL[2:0], with zeros above its 16 lanes; an inactive lane keeps what its place in VD
held. CTL[2:0] of 6 or 7 is an illegal operand. -/
def execOpVcvt (h : Hart) (x : VOp) (s : State) : OUT :=
  .next (s.vec h x ((vaV x) && (vbZ x) && vctl x 8) ((vfmtAny x) && vctl x 6) (fun c ds =>
    let w := laneWidth x.ctl
    let rs := (List.range 16).map (fun i => cvtTo x.ctl c.rnd (ds.getD i 0) (laneVal x.fmt (c.rv x.a) i))
    let old := c.rv x.vd
    (c.wv x.vd (vecOfW w ((List.range 16).map (fun i =>
      if c.active x i then (rs.getD i (0, 0)).1 else laneCode x.ctl old i)))).addFlags (laneFlags c x rs)))

/-! ## Special functions (R104) -/

def execOpVrcp (h : Hart) (x : VOp) (s : State) : OUT := .next (s.vec h x (vform1 x) (vfmtF x) (fun c _ => c.flt1 x rcpF32))
def execOpVrsq (h : Hart) (x : VOp) (s : State) : OUT := .next (s.vec h x (vform1 x) (vfmtF x) (fun c _ => c.flt1 x rsqF32))
def execOpVexp2 (h : Hart) (x : VOp) (s : State) : OUT := .next (s.vec h x (vform1 x) (vfmtF x) (fun c _ => c.flt1 x exp2F32))
def execOpVlog2 (h : Hart) (x : VOp) (s : State) : OUT := .next (s.vec h x (vform1 x) (vfmtF x) (fun c _ => c.flt1 x log2F32))

/-! ## Reductions (R194) -/

/-- One level of the pairwise order: sums of adjacent lanes, with the draws not used yet and the flags so far. -/
def pairLevel (f : Nat → Nat → Nat → Nat × Nat) : List Nat → List Nat → Nat → List Nat × List Nat × Nat
  | a :: b :: rest, ds, fl =>
    let r := f (ds.headD 0) a b
    let (xs, ds, fl) := pairLevel f rest ds.tail (fl ||| r.2)
    (r.1 :: xs, ds, fl)
  | xs, ds, fl => (xs, ds, fl)

/-- The four levels over 16 lanes: the result and the flags. -/
def pairTree (f : Nat → Nat → Nat → Nat × Nat) (xs ds : List Nat) : Nat × Nat :=
  let (xs, ds, fl) := pairLevel f xs ds 0
  let (xs, ds, fl) := pairLevel f xs ds fl
  let (xs, ds, fl) := pairLevel f xs ds fl
  let (xs, _, fl) := pairLevel f xs ds fl
  (xs.headD 0, fl)

/-- A reduction: every active lane takes the result over all 16 lanes of A. -/
def Ctx.reduce (c : Ctx) (x : VOp) (ds : List Nat) (f : Nat → Nat → Nat → Nat × Nat) : Ctx :=
  let a := c.rv x.a
  let r := pairTree f ((List.range 16).map (laneWide x.fmt a)) ds
  let fl := r.2 ||| sNanFlag ((List.range 16).any (laneSNan x.fmt a))
  c.lanesOut x ((List.range 16).map (fun _ => (r.1, fl)))

/-- VHSUM: the fixed pairwise order, one rounding per addition, draws in evaluation order. -/
def execOpVhsum (h : Hart) (x : VOp) (s : State) : OUT :=
  .next (s.vec h x (vform1 x) (vfmtF x) (fun c ds => c.reduce x ds (fun draw a b => addF32 c.rnd draw a b)))

/-- VHMAX. -/
def execOpVhmax (h : Hart) (x : VOp) (s : State) : OUT :=
  .next (s.vec h x (vform1 x) (vfmtF x) (fun c ds => c.reduce x ds (fun _ a b => maxF32 a b)))

/-! ## Data movement (R195) -/

/-- VPERM: VD lane i ← A lane (B lane i mod 16); B is read as INT32 lanes. -/
def execOpVperm (h : Hart) (x : VOp) (s : State) : OUT :=
  .next (s.vec h x (vform2 x) (vfmtAny x) (fun c _ => c.move x (fun i =>
    laneMoved x.fmt (c.rv x.a) (laneCode 3 (c.rv x.b) i % 16))))

/-- VBCAST: every lane ← `s`A[31:0]. -/
def execOpVbcast (h : Hart) (x : VOp) (s : State) : OUT :=
  .next (s.vecWith h x [x.a, vecReg x.vd] [vecReg x.vd] ((vbZ x) && vctl x 1 && x.fmt == 0) true (fun c _ => c.move x (fun _ => (c.rs x.a).toNat)))

/-- VEXT: `s`A ← zero-extended lane CTL[3:0] of `v`B. It writes no lane, so the guard has nothing to act on (log entry
37). -/
def execOpVext (h : Hart) (x : VOp) (s : State) : OUT :=
  .next (s.vecWith h x [vecReg x.b] (if x.a = 0 then [] else [x.a]) ((vbV x) && x.vd == 0 && vctl x 16) (vfmtAny x) (fun c _ =>
    c.ws x.a (BitVec.ofNat 64 (laneMoved x.fmt (c.rv x.b) x.ctl))))

/-- VINS: lane CTL[3:0] of VD ← `s`A[31:0], where that lane is active. -/
def execOpVins (h : Hart) (x : VOp) (s : State) : OUT :=
  .next (s.vecWith h x [x.a, vecReg x.vd] [vecReg x.vd] ((vbZ x) && vctl x 16 && x.fmt == 0) true (fun c _ => c.move x (fun i =>
    if i = x.ctl then (c.rs x.a).toNat else laneCode 0 (c.rv x.vd) i)))

/-! ## Integer lanes -/

/-- An integer operation on two sources of 32-bit lanes. -/
def State.vint (s : State) (h : Hart) (x : VOp) (f : Nat → Nat → Nat) : State :=
  s.vec h x (vform2 x) (vfmtI x) (fun c _ => c.move x (fun i => f (laneWide x.fmt (c.rv x.a) i) (laneWide x.fmt (c.rv x.b) i)))

/-- A shift by CTL[4:0]. -/
def State.vshift (s : State) (h : Hart) (x : VOp) (f : Nat → Nat) : State :=
  s.vec h x ((vaV x) && (vbZ x) && vctl x 32) (vfmtI x) (fun c _ => c.move x (fun i => f (laneWide x.fmt (c.rv x.a) i)))

def execOpViadd (h : Hart) (x : VOp) (s : State) : OUT := .next (s.vint h x (fun a b => a + b))
def execOpVisub (h : Hart) (x : VOp) (s : State) : OUT := .next (s.vint h x (fun a b => a + 2 ^ 32 - b))
def execOpVimul (h : Hart) (x : VOp) (s : State) : OUT := .next (s.vint h x (fun a b => a * b))
def execOpVand (h : Hart) (x : VOp) (s : State) : OUT := .next (s.vint h x (fun a b => a &&& b))
def execOpVor (h : Hart) (x : VOp) (s : State) : OUT := .next (s.vint h x (fun a b => a ||| b))
def execOpVxor (h : Hart) (x : VOp) (s : State) : OUT := .next (s.vint h x (fun a b => a ^^^ b))
def execOpVshl (h : Hart) (x : VOp) (s : State) : OUT := .next (s.vshift h x (fun a => a * 2 ^ x.ctl))
def execOpVsra (h : Hart) (x : VOp) (s : State) : OUT := .next (s.vshift h x (fun a => toBits 32 (sextN 32 a / 2 ^ x.ctl)))

/-- VICMPLT: `p`VD bit ← A < B, signed. -/
def execOpVicmplt (h : Hart) (x : VOp) (s : State) : OUT :=
  .next (s.vecCmp h x ((vform2 x) && (vpD x)) (vfmtI x) (fun c _ => c.predOut x ((List.range 16).map (fun i =>
    (decide (sextN 32 (laneWide x.fmt (c.rv x.a) i) < sextN 32 (laneWide x.fmt (c.rv x.b) i)), 0)))))

/-! ## Predicate operations: never guarded, all 16 bits (R195) -/

def State.pred (s : State) (h : Hart) (x : VOp) (f : BitVec 16 → BitVec 16 → BitVec 16) : State :=
  let legal := decide (x.vd < 4) && decide (x.a < 4) && decide (x.b < 4) && x.ge == 0 && x.gp == 0 && x.fmt == 0 &&
    x.ctl == 0
  s.runVX h ⟨.v, [predReg x.a, predReg x.b], [predReg x.vd]⟩ false (!legal) (fun _ _ _ _ _ => Issue.ctx h (fun c => c.wp x.vd (f (c.rp x.a) (c.rp x.b))))

def execOpPand (h : Hart) (x : VOp) (s : State) : OUT := .next (s.pred h x (fun a b => a &&& b))
def execOpPor (h : Hart) (x : VOp) (s : State) : OUT := .next (s.pred h x (fun a b => a ||| b))
def execOpPxor (h : Hart) (x : VOp) (s : State) : OUT := .next (s.pred h x (fun a b => a ^^^ b))
def execOpPandn (h : Hart) (x : VOp) (s : State) : OUT := .next (s.pred h x (fun a b => a &&& ~~~b))

end Sys2Proof.Machine
end

