-- ==== Sys2Proof/Machine/Extended.lean ====
section
/-! DEFINITION. Class X instructions (R196 to R208): the issue of tiles, descriptors, combines, runs and messages; budgets,
waits, software-owned claims. Choices among readings: log entry 39. -/

namespace Sys2Proof.Machine

/-! ## Common to class X -/

/-- Bits `hi` to `lo` of the instruction's per-opcode field, which holds its bits [8:0]. -/
def xbits (x : XOp) (hi lo : Nat) : Nat := fldN x.per hi lo

/-- An instruction that issues no traffic has CLS = 0, word 1 and its unused fields zero (R183, R196). -/
def xplain (x : XOp) (d b per : Bool) : Bool :=
  x.cls == 0 && x.w1 == 0 && (d || x.d == 0) && (b || x.b == 0) && (per || x.per == 0)

/-- The address in register A. -/
def Ctx.addrA (c : Ctx) (x : XOp) : Nat := (c.rs x.a).toNat

/-- The first non-zero check of a list of tests that ask for ILLEGAL_OPERAND. -/
def operand (ok : Bool) : Except Issue Unit := if ok then .ok () else .error (.fault 4)

/-- A range that must lie in memory that the context may name: BOUNDS where it does not. -/
def bounds (o : Option Nat) : Except Issue Nat :=
  match o with
  | some x => .ok x
  | none => .error (.fault 1)

/-- The outcome of step 4: a fault or a stall, or what the checks have read. -/
def Issue.of {α : Type} (e : Except Issue α) (f : α → Issue) : Issue :=
  match e with
  | .ok v => f v
  | .error i => i

/-- A block of 64 B that an issue reads: its slice and its poison are judged as for a narrow load (Table 4.4, R295). -/
def State.blockRead (s : State) (site off : Nat) : Except Issue (List Byte) :=
  match s.gate site off 64 with
  | .ok => if s.galPoisoned site off 64 then .error (.bad off 64) else .ok (s.rdGal site off 64)
  | .noCell => .error (.fault 1)
  | g => .error (.closed g)

/-- The descriptor at an address: a multiple of 64 in form 0 or 1 (R199 to R201). -/
def State.descRead (s : State) (site core : Nat) (c : Ctx) (a : Nat) : Except Issue (List Byte) := do
  let off ← bounds (if a % 64 = 0 then s.localAddr site core c a 64 false else none)
  s.blockRead site off

/-- The upsets that the read of a descriptor meets (R62). -/
def State.descEcc (s : State) (site core : Nat) (c : Ctx) (a : Nat) : State :=
  match s.localAddr site core c a 64 false with
  | some off => s.eccRead site off 64
  | none => s

/-- Group `i` of 8 B of a descriptor (R5). -/
def word8 (bs : List Byte) (i : Nat) : Nat := leAt bs (8 * i) 8

/-- A window range of a context: window, window-relative offset, length. -/
def State.winRange (s : State) (site core : Nat) (c : Ctx) (w o n : Nat) (write : Bool) : Except Issue Nat :=
  bounds (s.winAddr site core c.win w o n write)

/-- Steps 7 and 8 over a list of claims: the stalls of Table 4.2 and R73. -/
def State.claimRoom (s : State) (site : Nat) (ch : Charge) (ws : List Want) (eff : State → State) : Issue :=
  let ws := ws.filter (fun w => w.n != 0)
  let b := s.blockers site ws
  if b ≠ 0 then .blocked ch b
  else if s.freeEntries site < ws.length then .blocked ch 0
  else .go ch eff

/-- The generation of the core of a context. -/
def State.coreGenOf (s : State) (site core : Nat) : Nat := s.fld (R.CORE_STATUS_GEN site core)

/-! ## MX.ISSUE (R199, R211 to R219) -/

/-- A floating-point or block format that may be an operand of the array (R110). -/
def isFloatOperand (f : Nat) : Bool := (decide (1 ≤ f) && decide (f ≤ 10)) || f == 13

/-- The two operands of a tile may combine (R110, R112). -/
def pairOk (a w : Nat) (sparse : Bool) : Bool :=
  ((isFloatOperand a && isFloatOperand w) || (isInt a && isInt w)) && !(sparse && isBsi w)

/-- An epilogue of the configuration in force reads `ARG0` or `ARG1` (Table 10.2). -/
def CurSt.readsArgs (c : CurSt) (e : Nat) : Bool :=
  let p := c.progs.get e 0
  getBits p 63 1 == 1 && !pRun p && (c.instrs p).any (fun t => (iSrcs t.2.2).any (fun k => k == 0x18 || k == 0x19))

/-- `AUX` words that a program may write over an item of some rows (R135). -/
def CurSt.auxWords (c : CurSt) (e rows : Nat) : Nat :=
  let p := c.progs.get e 0
  if getBits p 63 1 = 0 then 0
  else
    (((pEntries p).filter (fun i => iDst ((c.straw 63).imem.get i 0) == 0x1D && iOpc ((c.straw 63).imem.get i 0) != 0)).length
      * (4 * rows / c.wordsOf p))

/-- Bytes of a destination, its `AUX` words included (R135, R218). -/
def CurSt.dstLen (c : CurSt) (e f m n stride : Nat) : Nat :=
  let aux := c.auxWords e m
  max (outLen f m n stride) (if aux = 0 then 0 else m * stride + 16 * aux)

/-- A bound of a tile (R214): 0 from a register or the parameter block makes the tile empty. -/
def boundOf (src imm reg pb lim : Nat) : Except Issue Nat :=
  let v := match src with
    | 0 => imm
    | 1 => reg
    | _ => pb
  if v ≤ lim ∧ (src ≠ 0 ∨ v ≠ 0) then .ok v else .error (.fault 4)

/-- A range word of a tile descriptor: VALID is 1 and reserved bits are 0. -/
def rangeOk (w : Nat) : Bool := bitN w 60 == 1 && fldN w 59 56 == 0

/-- USE of a compact field matches Table 10.2 (R212). -/
def useOk (c : Nat) (need : Bool) : Bool := (bitN c 28 == 1) == need

/-- Whether a tile descriptor names a parameter block. -/
def State.needsParam (s : State) (site : Nat) (bs : List Byte) : Bool :=
  let w0 := word8 bs 0
  let w1 := word8 bs 1
  bitN w0 45 == 1 || fldN w1 63 62 == 2 || fldN w1 61 60 == 2 || fldN w1 59 58 == 2 ||
    (s.cur site).readsArgs (fldN w0 43 40)

/-- The fields of a tile descriptor (R211, R212, R143, R92). -/
def State.tileFields (s : State) (site : Nat) (bs : List Byte) : Bool :=
  let w (i : Nat) : Nat := word8 bs i
  let c (i : Nat) : Nat := leAt bs (40 + 4 * i) 4
  let fa := fldN (w 0) 63 60
  let fw := fldN (w 0) 59 56
  let fd := fldN (w 0) 55 52
  fldN (w 0) 39 0 == 0 && fldN (w 1) 8 0 == 0 && rangeOk (w 2) && rangeOk (w 3) && rangeOk (w 4) &&
    decide (fldN (w 0) 51 50 < 2) && fldN (w 0) 49 48 != 3 && pairOk fa fw (bitN (w 0) 47 == 1) && decide (fd < 14) &&
    fldN (w 1) 63 62 != 3 && fldN (w 1) 61 60 != 3 && fldN (w 1) 59 58 != 3 &&
    useOk (c 0) (isMx fa) && useOk (c 1) (isMx fw) && useOk (c 2) (bitN (w 0) 47 == 1) && useOk (c 3) (bitN (w 0) 46 == 1) &&
    useOk (c 4) (isMx fd) && useOk (c 5) (s.needsParam site bs) &&
    (fldN (w 0) 43 40 != 0 || fd == 0) && (!isBsi fd || fldN (w 4) 27 0 == 0) &&
    (!isMx fa || fldN (w 2) 27 0 % (4 * fmtBits fa) == 0)

/-- The parameter block (R213): an overlapping W claim stalls; with none named, zeros and full masks. -/
def State.paramRead (s : State) (site core : Nat) (c : Ctx) (bs : List Byte) : Except Issue (List Byte) := do
  let p := leAt bs 60 4
  if bitN p 28 = 0 then return []
  let off ← s.winRange site core c (fldN p 31 29) (fldN p 27 0) 64 false
  if fldN p 27 0 % 64 ≠ 0 then throw (.fault 1)
  let b := s.blockers site [⟨false, off, 64⟩]
  if b ≠ 0 then throw (.blocked Charge.none b)
  s.blockRead site off

/-- The upsets that the reads of a tile's descriptor and parameter block meet (R62). -/
def State.tileEcc (s : State) (site core : Nat) (c : Ctx) (a : Nat) : State :=
  let p := match s.localAddr site core c a 64 false with
    | some off => leAt (s.rdGal site off 64) 60 4
    | none => 0
  let s := s.descEcc site core c a
  if bitN p 28 = 0 then s
  else match s.winAddr site core c.win (fldN p 31 29) (fldN p 27 0) 64 false with
    | some off => s.eccRead site off 64
    | none => s

/-- All 128 bits of a mask. -/
def fullMask : Nat := 2 ^ 128 - 1

/-- The tile of a descriptor with the bounds and masks read at this selection; its ranges are not translated yet. -/
def State.tileRead (s : State) (site core : Nat) (x : Ctx) (bs : List Byte) : Except Issue Tile := do
  let w (i : Nat) : Nat := word8 bs i
  operand (s.tileFields site bs)
  let pb ← s.paramRead site core x bs
  let reg (r : Nat) : Nat := (x.rs r).toNat
  let bw := leAt pb 0 8
  let m ← boundOf (fldN (w 1) 63 62) (fldN (w 1) 57 50) (reg (fldN (w 1) 20 17)) (fldN bw 63 56) 128
  let n ← boundOf (fldN (w 1) 61 60) (fldN (w 1) 49 42) (reg (fldN (w 1) 16 13)) (fldN bw 55 48) 128
  let k ← boundOf (fldN (w 1) 59 58) (fldN (w 1) 41 21) (reg (fldN (w 1) 12 9)) (fldN bw 20 0) (2 ^ 20)
  let masked := bitN (w 0) 45 == 1
  return {
    op := 0, task := 0, ctx := 0, coreGen := 0, cls := 0, either := false,
    fmtA := fldN (w 0) 63 60, fmtW := fldN (w 0) 59 56, fmtD := fldN (w 0) 55 52, os := fldN (w 0) 51 50 == 1,
    rnd := fldN (w 0) 49 48, seed := 0, sparse := bitN (w 0) 47 == 1, acc := bitN (w 0) 46 == 1, pad := bitN (w 0) 44 == 1,
    epi := fldN (w 0) 43 40, m := m, n := n, k := k,
    aR := ⟨0, fldN (w 2) 27 0⟩, wR := ⟨0, fldN (w 3) 27 0⟩, dR := ⟨0, fldN (w 4) 27 0⟩,
    asc := 0, wsc := 0, metaBase := 0, start := 0, dsc := 0,
    rowMask := if masked then leAt pb 8 16 else fullMask, colMask := if masked then leAt pb 24 16 else fullMask,
    arg0 := leAt pb 40 4, arg1 := leAt pb 44 4 }

/-- Bytes of a tile's destination. -/
def State.tileDst (s : State) (site : Nat) (t : Tile) : Nat :=
  (s.cur site).dstLen t.epi t.fmtD t.m t.n t.dR.stride

/-- The destination ranges of a tile: the destination and, where it is named, its scale array (R135). -/
def State.tileDsts (s : State) (site : Nat) (t : Tile) : List (Nat × Nat) :=
  (t.dR.base, s.tileDst site t) :: (if isMx t.fmtD then [(t.dsc, 4 * t.m)] else [])

/-- The ranges of a tile are translated, each over the bytes it covers (R66, R67, R218). An empty tile has none. -/
def State.tilePlace (s : State) (site core : Nat) (x : Ctx) (bs : List Byte) (t : Tile) : Except Issue Tile := do
  if t.empty then return t
  let rng (i n : Nat) (write : Bool) : Except Issue Nat :=
    let w := word8 bs i
    s.winRange site core x (fldN w 63 61) (fldN w 55 28) n write
  let cmp (i n : Nat) (on write : Bool) : Except Issue Nat :=
    let c := leAt bs (40 + 4 * i) 4
    if on then s.winRange site core x (fldN c 31 29) (fldN c 27 0) n write else .ok 0
  let a ← rng 2 t.aLen false
  let w ← rng 3 t.wLen false
  let d ← rng 4 (s.tileDst site t) true
  let asc ← cmp 0 t.ascLen (isMx t.fmtA) false
  let wsc ← cmp 1 t.wscLen (isMx t.fmtW) false
  let met ← cmp 2 t.metaLen t.sparse false
  let st ← cmp 3 t.startLen t.acc false
  let dsc ← cmp 4 (4 * t.m) (isMx t.fmtD) true
  let t := { t with
    aR := { t.aR with base := a }, wR := { t.wR with base := w }, dR := { t.dR with base := d },
    asc := asc, wsc := wsc, metaBase := met, start := st, dsc := dsc }
  operand (!(s.tileDsts site t).any (fun r => ({ t with acc := false } : Tile).srcs.any (rangesMeet r)))
  return t

/-- The claims of a tile (Table 4.1, R120): none of an empty one. -/
def State.tileWants (s : State) (site : Nat) (t : Tile) : List Want :=
  if t.empty then []
  else (s.tileDsts site t).map (fun r => ⟨true, r.1, r.2⟩) ++ t.srcs.map (fun r => ⟨false, r.1, r.2⟩)

/-- A tile enters the queue of an MXE: its claims are made, and under mode 2 one draw seeds it (R95). One that reaches a
fenced MXE goes on as Table 6.4 says. -/
def State.tileQueue (s : State) (site core c d j : Nat) (t : Tile) : State :=
  let k := ctxKey site core c
  let task := s.taskOf k
  let (seed, x) := (s.ctx k).draw1 t.rnd
  let (op, s) := (s.setCtx k (x.ws d (BitVec.ofNat 64 j))).newOp site
  let s := (s.claimAll site task op (s.tileWants site t)).noteIssue site j task
  let q := s.mxe (2 * site + j)
  let t := { t with op := op, task := task, ctx := k, coreGen := s.coreGenOf site core, seed := seed }
  let s := s.setMxe (2 * site + j) { q with queue := q.queue ++ [t] }
  if s.fld (R.MXE_CTRL_FENCE site j) = 1 then s.mxeFence site j else s

/-- MX.ISSUE: one tile to MXE0, to MXE1, or to the one with fewer queued tiles. -/
def execMxIssue (h : Hart) (x : XOp) (s : State) : OUT :=
  .next (s.runVX h Use.alone true (!(x.w1 == 0 && x.b == 0 && xbits x 6 0 == 0)) (fun site core c s r =>
    let sel := xbits x 8 7
    if r.stores ≠ [] then .wait
    else if x.cls = 3 ∨ sel = 3 then .fault 4
    else Issue.of (do
        let bs ← s.descRead site core r (r.addrA x)
        s.tilePlace site core r bs (← s.tileRead site core r bs))
      (fun t =>
        if s.sealHolds x.cls then .seal
        else
          let n (j : Nat) : Nat := (s.mxe (2 * site + j)).queue.length
          let j := if sel = 2 then (if n 1 < n 0 then 1 else 0) else sel
          if 4 ≤ n j then .blocked Charge.issue 0
          else (s.claimRoom site Charge.issue (s.tileWants site t) (fun s =>
            s.tileQueue site core c x.d j { t with cls := x.cls, either := sel == 2 })).also (fun s =>
              s.tileEcc site core r (r.addrA x)))))

/-! ## TF.ISSUE: kinds 0 to 3 (R246 to R251) -/

/-- What the checks of step 4 make of an address of a descriptor: the address as the TFE holds it, and the status with
which the descriptor will end if its chamber may not reach it (R247). -/
def State.tfeAddr (s : State) (site core : Nat) (c : Ctx) (a n : Nat) (write : Bool) : Except Issue (Nat × Nat) := do
  if a / 2 ^ 62 < 2 then
    let off ← bounds (s.localAddr site core c a n write)
    return (localBase + off, 0)
  let m ← bounds (moduleAddr a)
  let p := s.resolve site m
  return (p, if n = 0 then 0 else s.owns site c.priv p n)

/-- The claim on a range that lies in the own gallery. -/
def nearWant (write : Bool) (a n : Nat) : List Want :=
  match placeOf a with
  | .near off => [⟨write, off, n⟩]
  | _ => []

/-- A descriptor of kinds 0 to 3 with its fields, before its addresses. -/
def descOfBytes (bs : List Byte) : Desc :=
  let w (i : Nat) : Nat := word8 bs i
  { op := 0, task := 0, ctx := 0, coreGen := 0, cls := 0, kind := fldN (w 0) 63 60, cache := bitN (w 0) 59 == 1,
    msg := bitN (w 0) 58 == 1, padz := bitN (w 0) 57 == 1, rows := fldN (w 0) 47 24, rbytes := fldN (w 0) 23 0,
    src := w 1, dst := w 2, sstride := fldN (w 3) 63 32, dstride := fldN (w 3) 31 0,
    vrows := fldN (w 4) 63 40, vbytes := fldN (w 4) 39 16, thread := fldN (w 5) 52 32, tag := fldN (w 5) 31 16,
    xtra := w 6, priv := 0, done := 0, bytes := 0, status := 0, members := [], got := [], answers := [], pte := 0, pteData := [],
    put := none, ended := false, startAt := 0, cmd := none }

/-- The fields that every kind shares (Table 11.5). -/
def descFields (bs : List Byte) : Bool :=
  fldN (word8 bs 0) 56 48 == 0 && fldN (word8 bs 4) 15 0 == 0 && fldN (word8 bs 5) 63 53 == 0 &&
    fldN (word8 bs 5) 15 0 == 0 && word8 bs 7 == 0 && fldN (word8 bs 0) 47 24 != 0

/-- The fields of each kind; one that the kind does not use is zero (R246 to R251). -/
def Desc.kindOk (d : Desc) : Bool :=
  let noPad := !d.padz && d.vrows == 0 && d.vbytes == 0
  match d.kind with
  | 0 => d.xtra == 0 && (d.padz || noPad)
  | 1 => noPad && d.msg && decide (d.dst < 2 ^ 28) && decide (d.xtra < 2 ^ 16)
  | 2 => d.sstride == 0 && d.vrows == 0 && (d.padz || noPad) && d.rbytes % 64 == 0
  | 3 => d.rows == 1 && decide (1 ≤ d.rbytes) && decide (d.rbytes ≤ 4096) && d.sstride == 0 && d.dstride == 0 &&
      noPad && d.msg && d.xtra == 0 && fldN d.dst 47 21 == 0
  | _ => false

/-- Bytes from the first that a descriptor reads of its source to the last; padding is not read (R248). -/
def Desc.srcSpan (d : Desc) : Nat :=
  let r := if d.padz then min d.rows d.vrows else d.rows
  let b := if d.padz then min d.rbytes d.vbytes else d.rbytes
  if r = 0 ∨ b = 0 then 0 else (r - 1) * d.sstride + b

/-- Bytes from the first that a descriptor writes to the last. -/
def Desc.dstSpan (d : Desc) : Nat := if d.rbytes = 0 then 0 else (d.rows - 1) * d.dstride + d.rbytes

/-- A descriptor with its addresses translated, and its claims. -/
abbrev Placed := Desc × List Want

/-- COPY (R248). -/
def State.placeCopy (s : State) (site core : Nat) (c : Ctx) (d : Desc) : Except Issue Placed := do
  let (a, e) ← s.tfeAddr site core c d.src d.srcSpan false
  let (b, f) ← s.tfeAddr site core c d.dst d.dstSpan true
  operand (d.msg || decide (localBase ≤ b))
  return ({ d with src := a, dst := b, status := if e = 0 then f else e },
    nearWant false a d.srcSpan ++ nearWant true b d.dstSpan)

/-- GATHER (R249): the page table by its module address, the index list in window form. -/
def State.placeGather (s : State) (site core : Nat) (c : Ctx) (d : Desc) : Except Issue Placed := do
  let m ← bounds (if d.src / 2 ^ 48 = 0 then some d.src else moduleAddr d.src)
  let a := s.resolve site m
  let (b, f) ← s.tfeAddr site core c d.dst d.dstSpan true
  let i ← bounds (if d.xtra / 2 ^ 31 = 0 then s.localAddr site core c d.xtra (2 * d.rows) false else none)
  operand (d.msg || decide (localBase ≤ b))
  let e := s.owns site c.priv a 8
  return ({ d with src := a, dst := b, xtra := localBase + i, status := if e = 0 then f else e },
    ⟨false, i, 2 * d.rows⟩ :: nearWant true b d.dstSpan)

/-- BCAST (R250, R272): its members by mask bit; XTRA then holds the group, its axis and its ring. -/
def State.placeBcast (s : State) (site core : Nat) (c : Ctx) (d : Desc) : Except Issue Placed := do
  let (a, e) ← s.tfeAddr site core c d.src d.srcSpan false
  let w := s.reg (R.SV_GROUP s.epoch d.xtra)
  let axis := getBits w 62 1
  let ring := getBits w 56 6
  operand (decide (d.xtra < 1024) && getBits w 63 1 == 1 && (groupStops axis ring).contains site)
  let ms := (List.range 56).filter (fun i => getBits w i 1 == 1)
  let own := ms.any (fun m => groupNode axis ring m == site)
  return ({ d with src := a, xtra := 128 * d.xtra + 64 * axis + ring, members := ms, status := e },
    nearWant false a d.srcSpan ++ (if own then [⟨true, d.dst, d.dstSpan⟩] else []))

/-- PUT (R251). -/
def State.placePut (s : State) (site core : Nat) (c : Ctx) (d : Desc) : Except Issue Placed := do
  let (a, e) ← s.tfeAddr site core c d.src d.rbytes false
  return ({ d with src := a, status := e }, nearWant false a d.rbytes)

/-- Step 4 for kinds 0 to 3. One that may not reach an address ends with its status, and claims nothing. -/
def State.placeDesc (s : State) (site core : Nat) (c : Ctx) (bs : List Byte) : Except Issue Placed := do
  let d := descOfBytes bs
  operand (descFields bs && d.kindOk)
  let (d, ws) ← match d.kind with
    | 0 => s.placeCopy site core c d
    | 1 => s.placeBcast site core c d
    | 2 => s.placeGather site core c d
    | _ => s.placePut site core c d
  return ({ d with ended := d.status != 0, priv := c.priv }, if d.status = 0 then ws else [])

/-- A descriptor is accepted: claims, and its place in the queue. -/
def State.descQueue (s : State) (site core c : Nat) (d : Desc) (ws : List Want) (f : Nat → State → State × Option (Nat × Nat × Nat × Nat)) :
    State :=
  let k := ctxKey site core c
  let task := s.taskOf k
  let (op, s) := s.newOp site
  let (s, put) := f op ((s.claimAll site 48 op ws).noteIssue site 3 task)
  let d := { d with op := op, task := task, ctx := k, coreGen := s.coreGenOf site core, put := put, startAt := s.now }
  let t := s.tfe site
  s.setTfe site { t with queue := t.queue ++ [d] }

/-- Slots of a put record (Table 11.1). -/
def putSlots (n : Nat) : Nat := 1 + ceilDiv n 64

/-- The place of a put record on its line: a pad of `p` slots goes first, then the put takes the next SEQ and its slots
(R237). It is sent when its data have been read. -/
def State.putAlloc (s : State) (site l p : Nat) (thread : Nat) (d : Desc) (op : Nat) :
    State × Option (Nat × Nat × Nat × Nat) :=
  let n := putSlots d.rbytes
  let dst := fldN d.dst 20 0
  let tag := fldN d.dst 63 48
  let u : Unans := ⟨0, n, false, true, d.tag, dst, true, some op, s.now, false, d.cls, d.thread⟩
  let pad : Rec := {
    kind := 1, cls := d.cls, slots := p, dst := dst, src := thread, tag := tag, seq := 0, gen := 0, status := 0, ring := 0,
    data := 0, info := 0, payload := [], site := site, line := l, lgen := 0, ggen := 0, slot := 0, dsite := none,
    epoch := 0, core := none, hop := 0 }
  let s := if p = 0 then s
    else s.linePush site l pad { u with isPad := true, cpl := false, reserved := false, op := none }
  let seq := s.fld (R.MU_LINE2_SEQ site l)
  let slot := s.fld (R.MU_LINE2_WR site l) % 2 ^ s.fld (R.MU_LINE1_SIZE_LOG2 site l)
  let s := (s.bumpFld (R.MU_LINE2_SEQ site l) 1).bumpFld (R.MU_LINE2_WR site l) n
  let s := s.setUna (site * 1024 + l) (s.una (site * 1024 + l) ++ [{ u with seq := seq }])
  (s, some (l, s.fld (R.MU_LINE1_LGEN site l), seq, slot))

/-- Steps 5 to 8 of a PUT (R235, R236, R242, R251). -/
def State.putGo (s : State) (site core c : Nat) (d : Desc) (ws : List Want) : Issue :=
  let task := s.taskOf (ctxKey site core c)
  let thread := s.threadAddr site core c
  let n := putSlots d.rbytes
  match s.lineOf site task (fldN d.dst 20 0) with
  | none => .fault 4
  | some l =>
    let size := 2 ^ s.fld (R.MU_LINE1_SIZE_LOG2 site l)
    if 384 ≤ fldN d.dst 20 12 ∨ size < 2 * n ∨ s.fld (R.MU_CQ0_VALID site task) = 0 then .fault 4
    else if s.sealHolds d.cls then .seal
    else if s.tfeFull site ∨ !s.cqFree site task then .blocked Charge.issue 0
    else
      let exceed (st : Nat) : Issue := .go Charge.issue (fun s =>
        s.descQueue site core c { d with ended := true, status := st } [] (fun _ s =>
          (s.cqReserve site task, some (l, s.fld (R.MU_LINE1_LGEN site l), s.fld (R.MU_LINE2_SEQ site l), 0))))
      if d.ended then exceed d.status
      else match s.lineDead site l with
        | some st => exceed st
        | none =>
          match s.lineRoom site l n with
          | none => .blocked Charge.issue 0
          | some p => s.claimRoom site Charge.issue ws (fun s =>
              s.descQueue site core c d ws (fun op s => (s.cqReserve site task).putAlloc site l p thread d op))

/-- What a completion message asks of an issue; none is asked where none is sent. A thread address of gallery 384 to 511
names no context: ILLEGAL_OPERAND (R53). -/
def State.msgRoom (s : State) (site task : Nat) (msg : Bool) (thread : Nat) : Option CplRoom :=
  if msg then some (if 384 ≤ fldN thread 20 12 then .fault else s.cplRoom site task thread) else none

/-- Its reservation is made. -/
def State.msgTake (s : State) (site task op : Nat) (r : Option CplRoom) : State :=
  match r with
  | some r => s.cplTake site task op r
  | none => s

/-- Steps 5 to 8 of COPY, GATHER and BCAST. -/
def State.descGo (s : State) (site core c : Nat) (d : Desc) (ws : List Want) : Issue :=
  let task := s.taskOf (ctxKey site core c)
  let room := s.msgRoom site task d.msg d.thread
  if room = some .fault then .fault 4
  else if s.sealHolds d.cls then .seal
  else if s.tfeFull site ∨ room = some .stall then .blocked Charge.issue 0
  else s.claimRoom site Charge.issue ws (fun s =>
    s.descQueue site core c d ws (fun op s => (s.msgTake site task op room, none)))

/-! ## TF.ISSUE: combines (R224 to R228) -/

/-- The fields of a combine descriptor (Table 10.5) that are reserved, and the values that no combine may have. -/
def combFields (bs : List Byte) : Bool :=
  let w (i : Nat) : Nat := word8 bs i
  let m := fldN (w 0) 38 31
  let n := fldN (w 0) 30 23
  fldN (w 0) 22 20 == 0 && fldN (w 0) 7 0 == 0 && fldN (w 1) 59 56 == 0 && fldN (w 2) 59 56 == 0 && fldN (w 2) 27 0 == 0 &&
    fldN (w 3) 59 56 == 0 && fldN (w 4) 59 56 == 0 && fldN (w 4) 27 0 == 0 && fldN (w 6) 62 53 == 0 && fldN (w 6) 15 0 == 0 &&
    w 7 == 0 && fldN (w 0) 56 55 != 3 && decide (fldN (w 0) 50 47 < 14) && decide (1 ≤ m) && decide (m ≤ 128) &&
    decide (1 ≤ n) && decide (n ≤ 128) && (fldN (w 0) 54 51 != 0 || fldN (w 0) 50 47 == 0)

/-- The partials, the LA block, and the output are named where the form uses them, and only there (Table 10.6). -/
def combForm (bs : List Byte) : Bool :=
  let w (i : Nat) : Nat := word8 bs i
  let np := fldN (w 0) 19 8
  let p := bitN (w 1) 60 == 1 && fldN (w 1) 27 0 % 512 == 0
  let la := bitN (w 2) 60 == 1 && fldN (w 2) 55 28 % 512 == 0
  let fd := fldN (w 0) 50 47
  let out := bitN (w 3) 60 == 1 && (bitN (w 4) 60 == 1) == isMx fd && (isMx fd || w 4 == 0) &&
    (!isBsi fd || fldN (w 3) 27 0 == 0)
  match fldN (w 0) 59 57 with
  | 0 => np != 0 && p && w 2 == 0 && out && fldN (w 0) 46 39 == 0
  | 4 | 6 => np != 0 && p && la && w 3 == 0 && w 4 == 0 && w 5 == 0 && fldN (w 0) 56 47 == 0
  | 5 => np == 0 && w 1 == 0 && la && out && fldN (w 0) 46 39 == 0
  | _ => false

/-- A combine from its descriptor: its ranges, translated as R66 checks them. -/
def State.combRead (s : State) (site core : Nat) (c : Ctx) (bs : List Byte) : Except Issue Combine := do
  let w (i : Nat) : Nat := word8 bs i
  operand (combFields bs && combForm bs)
  let long := bitN (w 0) 59 == 1
  let final := bitN (w 0) 57 == 1
  let q : Combine := {
    op := 0, task := 0, ctx := 0, coreGen := 0, cls := 0, long := long, first := bitN (w 0) 58 == 1, final := final,
    rnd := fldN (w 0) 56 55, seed := 0, epi := fldN (w 0) 54 51, fmtD := fldN (w 0) 50 47,
    anchor := sextN 8 (fldN (w 0) 46 39), m := fldN (w 0) 38 31, n := fldN (w 0) 30 23, npart := fldN (w 0) 19 8,
    p := ⟨0, fldN (w 1) 27 0⟩, la := 0, d := ⟨0, fldN (w 3) 27 0⟩, dsc := 0,
    arg0 := fldN (w 5) 31 0, arg1 := fldN (w 5) 63 32,
    msg := if bitN (w 6) 63 = 1 then some (fldN (w 6) 52 32, fldN (w 6) 31 16) else none }
  let rng (i n : Nat) (on write : Bool) : Except Issue Nat :=
    if on then s.winRange site core c (fldN (w i) 63 61) (fldN (w i) 55 28) n write else .ok 0
  let p ← rng 1 q.pRange.2 (q.npart != 0) false
  let la ← rng 2 (512 + 2560 * q.m) long (!final)
  let _ ← rng 2 (512 + 2560 * q.m) (long && !q.first) false
  let d ← rng 3 ((s.cur site).dstLen q.epi q.fmtD q.m q.n q.d.stride) (!long || final) true
  let dsc ← rng 4 (4 * q.m) (isMx q.fmtD) true
  return { q with p := { q.p with base := p }, la := la, d := { q.d with base := d }, dsc := dsc }

/-- The claims of a combine (Table 10.6). -/
def State.combWants (s : State) (site : Nat) (q : Combine) : List Want :=
  let out : List Want := ⟨true, q.d.base, (s.cur site).dstLen q.epi q.fmtD q.m q.n q.d.stride⟩ ::
    (if isMx q.fmtD then [⟨true, q.dsc, 4 * q.m⟩] else [])
  let part : Want := ⟨false, q.pRange.1, q.pRange.2⟩
  if !q.long then part :: out
  else if q.final then ⟨false, q.la, 512 + 2560 * q.m⟩ :: out
  else [part, ⟨true, q.la, 512 + 2560 * q.m⟩]

/-- Why a combine is rejected at issue (R227): a status of Table 10.8, 0 for none. FIRST starts a block whatever its
header holds (R228). -/
def State.combReject (s : State) (site : Nat) (q : Combine) : Nat :=
  let hd (o n : Nat) : Nat := s.rdNat (galKey site (q.la + o)) n
  if !q.long || q.first || s.gate site q.la 512 != .ok then 0
  else if hd 5 1 = 1 then 3
  else if q.final then 0
  else if sextN 8 (hd 4 1) ≠ q.anchor then 2
  else if 32768 < hd 0 4 + q.npart then 1
  else 0

/-- The place that a combine takes among the descriptors of the TFE (R224, R245). -/
def Combine.place (q : Combine) (now : Nat) : Desc :=
  { op := q.op, task := q.task, ctx := q.ctx, coreGen := q.coreGen, cls := q.cls, kind := 15, cache := false, msg := false,
    padz := false, rows := 0, rbytes := 0, src := 0, dst := 0, sstride := 0, dstride := 0, vrows := 0, vbytes := 0,
    thread := 0, tag := 0, xtra := 0, priv := 0, done := 0, bytes := 0, status := 0, members := [], got := [],
    answers := [], pte := 0, pteData := [], put := none, ended := false, startAt := now, cmd := none }

/-- A combine is accepted: it claims, and takes its place in the TFE; or it is rejected, with its completion and a record of
class CE (R227). -/
def State.combQueue (s : State) (site core c : Nat) (q : Combine) (room : Option CplRoom) : State :=
  let k := ctxKey site core c
  let task := s.taskOf k
  let (op, s) := s.newOp site
  let st := s.combReject site q
  if st ≠ 0 then
    let s := s.msgTake site task op room
    let q := { q with op := op, task := task, ctx := k, coreGen := s.coreGenOf site core }
    (s.engRec CE site 3 st).combineEnd site q st 0 false
  else
    let (seed, x) := (s.ctx k).draw1 q.rnd
    let s := (s.setCtx k x).claimAll site 48 op (s.combWants site q)
    let s := ((s.msgTake site task op room).noteIssue site 3 task).noteIssue site 2 task
    let q := { q with op := op, task := task, ctx := k, coreGen := s.coreGenOf site core, seed := seed }
    let u := s.cur site
    let s := s.setCur site { u with combines := u.combines ++ [q] }
    let t := s.tfe site
    s.setTfe site { t with queue := t.queue ++ [q.place s.now] }

/-- Steps 5 to 8 of a combine. -/
def State.combGo (s : State) (site core c : Nat) (q : Combine) : Issue :=
  let task := s.taskOf (ctxKey site core c)
  let room := s.msgRoom site task q.msg.isSome ((q.msg.getD (0, 0)).1)
  if room = some .fault then .fault 4
  else if s.sealHolds q.cls then .seal
  else if s.tfeFull site ∨ room = some .stall then .blocked Charge.issue 0
  else s.claimRoom site Charge.issue (s.combWants site q) (fun s => s.combQueue site core c q room)

/-- TF.ISSUE: one descriptor to the gallery's TFE. -/
def execTfIssue (h : Hart) (x : XOp) (s : State) : OUT :=
  .next (s.runVX h Use.alone true (!(x.w1 == 0 && x.d == 0 && x.b == 0 && x.per == 0)) (fun site core c s r =>
    if r.stores ≠ [] then .wait
    else if x.cls = 3 then .fault 4
    else Issue.of (s.descRead site core r (r.addrA x)) (fun bs =>
      match fldN (word8 bs 0) 63 60 with
      | 15 => Issue.of (s.combRead site core r bs) (fun q =>
          (s.combGo site core c { q with cls := x.cls }).also (fun s => s.descEcc site core r (r.addrA x)))
      | k => Issue.of (s.placeDesc site core r bs) (fun p =>
          let d := { p.1 with cls := x.cls }
          (if k = 3 then s.putGo site core c d p.2 else s.descGo site core c d p.2).also (fun s =>
            s.descEcc site core r (r.addrA x))))))

/-! ## CUR.GO and CUR.LOAD (R145, R151, R201) -/

/-- The fields of a run descriptor (R145, Table 7.6). -/
def runFields (bs : List Byte) : Bool :=
  let w (i : Nat) : Nat := word8 bs i
  let fmt (i : Nat) : Nat := fldN (w i) 59 56
  let inOk (i : Nat) : Bool := decide (fmt i < 14) && (bitN (w i) 60 == 0 || (!isMx (fmt i) && !isBsi (fmt i)))
  fldN (w 0) 55 47 == 0 && fldN (w 0) 39 24 == 0 && fldN (w 0) 59 58 != 3 && fldN (w 0) 23 0 != 0 && inOk 1 && inOk 2 &&
    decide (fmt 3 < 14) && fldN (w 5) 62 53 == 0 && fldN (w 5) 15 0 == 0 &&
    fldN (w 6) 60 28 == 0 && w 7 == 0

/-- Bytes of a run's input. -/
def runLen (f rows cols stride : Nat) : Nat := (rows - 1) * stride + ceilDiv (cols * fmtBits f) 8

/-- A run from its descriptor, its windows checked by R66, and its R claims. -/
def State.runRead (s : State) (site core : Nat) (c : Ctx) (bs : List Byte) : Except Issue (CRun × List Want) := do
  let w (i : Nat) : Nat := word8 bs i
  operand (runFields bs)
  let rows := fldN (w 0) 23 0
  let cols := fldN (w 0) 46 40 + 1
  let prog := fldN (w 0) 63 60
  let on (i : Nat) : Bool := bitN (w i) 60 == 1
  let fmt (i : Nat) : Nat := fldN (w i) 59 56
  let len (i : Nat) : Nat := runLen (fmt i) rows cols (fldN (w i) 27 0)
  let rng (i n : Nat) (write : Bool) : Except Issue (Option (Nat × Rng)) := do
    if on i then
      let b ← s.winRange site core c (fldN (w i) 63 61) (fldN (w i) 55 28) n write
      return some (fmt i, ⟨b, fldN (w i) 27 0⟩)
    return none
  let a ← rng 1 (len 1) false
  let b ← rng 2 (len 2) false
  let d ← rng 3 ((s.cur site).dstLen prog (fmt 3) rows cols (fldN (w 3) 27 0)) true
  let sc ← if on 3 && isMx (fmt 3) then s.winRange site core c (fldN (w 6) 63 61) (fldN (w 6) 27 0) (4 * rows) true
    else .ok 0
  let want (i : Nat) (r : Option (Nat × Rng)) : List Want := (r.map (fun p => (⟨false, p.2.base, len i⟩ : Want))).toList
  return ({
    op := 0, task := 0, ctx := 0, coreGen := 0, cls := fldN (w 0) 57 56, prog := prog, rnd := fldN (w 0) 59 58, seed := 0,
    cols := cols - 1, rows := rows, inA := a, inB := b, out := d, arg0 := fldN (w 4) 31 0, arg1 := fldN (w 4) 63 32,
    msg := if bitN (w 5) 63 = 1 then some (fldN (w 5) 52 32, fldN (w 5) 31 16) else none, scale := sc },
    want 1 a ++ want 2 b)

/-- A run is accepted: its claims, its draw, and its wait for the curtain. -/
def State.runQueue (s : State) (site core c : Nat) (q : CRun) (ws : List Want) (room : Option CplRoom) : State :=
  let k := ctxKey site core c
  let task := s.taskOf k
  let (seed, x) := (s.ctx k).draw1 q.rnd
  let (op, s) := (s.setCtx k x).newOp site
  let s := ((s.claimAll site 49 op ws).msgTake site task op room).noteIssue site 2 task
  let q := { q with op := op, task := task, ctx := k, coreGen := s.coreGenOf site core, seed := seed }
  let u := s.cur site
  s.setCur site { u with runs := u.runs ++ [q], waiting := u.waiting ++ [op] }

/-- CUR.GO: one run to the Curtain array, which takes none while its entry 49 is FROZEN (R35). -/
def execCurGo (h : Hart) (x : XOp) (s : State) : OUT :=
  .next (s.runVX h Use.alone true (!(x.w1 == 0 && x.d == 0 && x.b == 0 && x.per == 0)) (fun site core c s r =>
    if r.stores ≠ [] then .wait
    else if x.cls = 3 then .fault 4
    else Issue.of (do
        let bs ← s.descRead site core r (r.addrA x)
        s.runRead site core r bs)
      (fun p =>
        let task := s.taskOf (ctxKey site core c)
        let room := s.msgRoom site task p.1.msg.isSome ((p.1.msg.getD (0, 0)).1)
        if p.1.cls ≠ x.cls ∨ room = some .fault then .fault 4
        else if s.sealHolds x.cls then .seal
        else if 4 ≤ (s.cur site).runs.length ∨ room = some .stall ∨ s.frozen (curM site) then .blocked Charge.issue 0
        else (s.claimRoom site Charge.issue p.2 (fun s => s.runQueue site core c p.1 p.2 room)).also (fun s =>
          s.descEcc site core r (r.addrA x)))))

/-- CUR.LOAD: a configuration image, which takes effect at the next Open; S mode only. -/
def execCurLoad (h : Hart) (x : XOp) (s : State) : OUT :=
  .next (s.runVX h Use.alone true (!(xplain x false false false)) (fun site core _ s r =>
    let a := r.addrA x
    if r.priv = 0 then .fault 2
    else if r.stores ≠ [] then .wait
    else Issue.of (bounds (if a % 512 = 0 then s.localAddr site core r a imageLen false else none)) (fun off =>
      .go Charge.issue (fun s =>
        let u := s.cur site
        let s := s.setCur site { u with loadNext := u.loadAt.isSome }
        (s.setFld (R.CUR_LOAD_OFS site) off).setFld (R.CUR_STATUS_LOAD_PEND site) 1))))

/-! ## Messages (R202, R203) -/

/-- MSG.SEND: one message of up to 40 bytes. D receives its sequence number. -/
def execMsgSend (h : Hart) (x : XOp) (s : State) : OUT :=
  .next (s.runVX h Use.alone true (!(decide (x.b < 8) && xbits x 2 0 == 0)) (fun site core c s r =>
    let task := s.taskOf (ctxKey site core c)
    let len := xbits x 8 3
    let dst := r.addrA x % 2 ^ 21
    let cpl := bitN x.w1 15 == 1
    let ctag := 0x8000 + fldN x.w1 14 0
    if r.stores ≠ [] then .wait
    else if x.cls = 3 ∨ 40 < len ∨ 384 ≤ dst / 4096 then .fault 4
    else match s.lineOf site task dst with
      | none => .fault 4
      | some l =>
        if s.fld (R.MU_CQ0_VALID site task) = 0 then .fault 4
        else if s.sealHolds x.cls then .seal
        else
          let ch := { Charge.issue with classA := if x.cls = 0 then 1 else 0 }
          if s.fld (R.MU_CTRL_ENABLE site) = 0 ∨ !s.cqFree site task then .blocked ch 0
          else match s.lineDead site l with
            | some st => .go ch (fun s =>
                let tag := if cpl then ctag else s.fld (R.MU_LINE1_ERR_TAG site l)
                let n := s.fld (R.MU_LINE2_SEQ site l)
                ((s.cqReserve site task).cqWrite site task true (cplRec x.cls
                  (s.threadAddr site core c) dst tag n st 0 [])).modHctx h (fun k =>
                  k.ws x.d (BitVec.ofNat 64 n)))
            | none =>
              match s.lineRoom site l 1 with
              | none => .blocked ch 0
              | some p => .go ch (fun s =>
                  let m : Rec := {
                    kind := 0, cls := x.cls, slots := 1, dst := dst, src := s.threadAddr site core c,
                    tag := fldN x.w1 31 16, seq := 0, gen := 0, status := 0, ring := 0, data := 0, info := 0,
                    payload := leBytes len (r.rv x.b).toNat, site := site, line := l, lgen := 0, ggen := 0, slot := 0,
                    dsite := none, epoch := 0, core := some core, hop := 0 }
                  let u : Unans := ⟨0, 1, false, cpl, if cpl then ctag else 0, dst, true, none, s.now, false, x.cls,
                    s.threadAddr site core c⟩
                  let r := (s.cqReserve site task).lineSend site l p m u
                  r.1.modHctx h (fun k => k.ws x.d (BitVec.ofNat 64 r.2)))))

/-- MSG.RET: the handler's record is returned and its context parks for dispatch. -/
def execMsgRet (h : Hart) (x : XOp) (s : State) : OUT :=
  .next (s.runVX h Use.alone true (!(xplain x false false false && x.a == 0)) (fun site core c s r =>
    let k := ctxKey site core c
    if !s.isHandler k then .fault 3
    else if r.stores ≠ [] then .wait
    else .go Charge.issue (fun s =>
      let s := s.modHctx h (fun k => { k with st := .parkedDispatch, inHand := none })
      match r.inHand with
      | some p => s.ringReturn site p.1 p.2
      | none => s)))

/-! ## Waits and budgets (R204, R205) -/

/-- DRIP.WAIT: the context parks until the Open of drip max(n + 1, A). -/
def execDripWait (h : Hart) (x : XOp) (s : State) : OUT :=
  .next (s.runVX h Use.alone true (!(xplain x true false false)) (fun _ _ _ _ r =>
    .go Charge.issue (fun s => s.modHctx h (fun k => { k with st := .parkedWait (max (s.dripNo + 1) (r.addrA x)) x.d }))))

/-- A budget with component `i` set to `v`, a value below the one in force. -/
def Budget.lower (b : Budget) (i v : Nat) : Budget :=
  let b := { b with lowered := setBitN b.lowered i }
  match i with
  | 0 => { b with cycles := v }
  | 1 => { b with stack4k := v }
  | 2 => { b with passage := v }
  | _ => { b with classA := v }

/-- DRIP.BUDGET with SET = 1: min(budget in force, `v`) is in force from now on. -/
def State.lowerBud (s : State) (m i v : Nat) : State :=
  if v < s.inForce (s.bud m) i then s.setBud m ((s.bud m).lower i v) else s

/-- DRIP.BUDGET: the task's own budget in force, lowered with SET = 1; CONT for this drip's Close. -/
def execDripBudget (h : Hart) (x : XOp) (s : State) : OUT :=
  .next (s.runVX h Use.alone true (!(xplain x true false true && xbits x 4 0 == 0)) (fun site core c _ r =>
    .go Charge.issue (fun s =>
      let t := s.taskOf (ctxKey site core c)
      let m := taskM site t
      let comp := xbits x 8 7
      let s := if xbits x 5 5 = 1 then s.lowerBud m comp (r.addrA x) else s
      let k := s.task (site * 64 + t)
      let s := if xbits x 6 6 = 1 then s.setTask (site * 64 + t) { k with contNow := true } else s
      s.modHctx h (fun y => y.ws x.d (BitVec.ofNat 64 (s.inForce (s.bud m) comp))))))

/-! ## Software-owned claims and FENCE.WIN (R206 to R208) -/

/-- SB.CLAIM: a claim on the B bytes from the address in A up. D receives the handle. -/
def execSbClaim (h : Hart) (x : XOp) (s : State) : OUT :=
  .next (s.runVX h Use.alone true (!(xplain x true true true && xbits x 7 0 == 0)) (fun site core c s r =>
    let n := (r.rs x.b).toNat
    let write := xbits x 8 8 == 1
    if n = 0 then .fault 4
    else Issue.of (bounds (s.localAddr site core r (r.addrA x) n write)) (fun off =>
      s.claimRoom site Charge.issue [⟨write, off, n⟩] (fun s =>
        match s.claim site (s.taskOf (ctxKey site core c)) 0 true ⟨write, off, n⟩ with
        | (s, some e) =>
          let serial := ((s.gm site).claims.get e ⟨0, 0⟩).serial
          s.modHctx h (fun k => k.ws x.d (BitVec.ofNat 64 (e + 64 * serial)))
        | (s, none) => s))))

/-- SB.RETIRE: the claim that a handle names retires; one that has retired already is passed over; any other handle
raises a record (R207). -/
def execSbRetire (h : Hart) (x : XOp) (s : State) : OUT :=
  .next (s.runVX h Use.alone true (!(xplain x false false false)) (fun site core c _ r =>
    if r.stores ≠ [] then .wait
    else .go Charge.issue (fun s =>
      let hd := r.addrA x
      let e := fldN hd 5 0
      let w := s.reg (R.GM_SB_ENTRY site e)
      let same := decide (((s.gm site).claims.get e ⟨0, 0⟩).serial = fldN hd 13 6)
      if getBits w 63 1 = 0 && same then s
      else if getBits w 63 1 = 1 && getBits w 60 1 = 1 && same && getBits w 54 6 = s.taskOf (ctxKey site core c) then
        s.retire site e false
      else s.ceAt 5 site)))

/-- FENCE.WIN: narrow accesses to cells are performed at issue, so a window's fence finds them done; ALL waits until the
module-form stores are acknowledged (R167, R208). -/
def execFenceWin (h : Hart) (x : XOp) (s : State) : OUT :=
  .next (s.runVX h Use.alone true (!(xplain x false false true && x.a == 0 && xbits x 8 4 == 0 && (xbits x 3 3 == 0 || xbits x 2 0 == 0)))
    (fun _ _ _ _ r => if xbits x 3 3 = 1 ∧ r.stores ≠ [] then .wait else .go Charge.issue (fun s => s)))

end Sys2Proof.Machine
end

