-- ==== Sys2Proof/Machine/DripOpen.lean ====
section
/-! DEFINITION. The drip boundary (Table 2.1): Close, then the Open that follows at once, and everything that takes effect
at an Open. -/

namespace Sys2Proof.Machine

/-! ## Masters -/

/-- The master entry that a register address lies in. -/
def entryOf (a : Nat) : Option Nat :=
  let cut (lo n o : Nat) : Option Nat := if lo ≤ o ∧ o < lo + 0x40 * n then some (a - (o - lo) % 0x40) else none
  if siteFrame 0 ≤ a ∧ a < siteFrame 448 then cut 0x4100 50 ((a - siteFrame 0) % 0x100000)
  else if 0x200002000000 ≤ a ∧ a < 0x20000A000000 then cut 0x200100 16 ((a - 0x200002000000) % 0x400000)
  else cut (mstrHost + 0x100) 64 a

/-- Every master entry that holds anything, ascending. -/
def State.entries (s : State) : List Nat :=
  let m : SMap Nat := (s.csr.filterMap (fun p => entryOf p.1)).foldl (fun m k => m.put k 1 0) []
  ((s.force.map (·.1)).foldl (fun m k => m.put k 1 0) m).map (·.1)

/-! ## Close (R24, R34, R36, R440, Table 2.8) -/

/-- A context keeps its master active: it is neither FREE nor PARKED (R24, Table 3.5). -/
def Ctx.live (c : Ctx) : Bool :=
  match c.st with
  | .ready => true
  | .stalled _ => true
  | _ => false

/-- A master is active at Close: a context not parked, a queued descriptor, run or command, or a frame held. -/
def State.active (s : State) (m : Nat) : Bool :=
  match siteOfM m with
  | some site =>
    let i := idxOfM m
    if i < 48 then (s.ctxsOf site i).any (fun k => (s.ctx k).live)
    else if i = 48 then !(s.tfe site).queue.isEmpty
    else !(s.cur site).runs.isEmpty
  | none =>
    if m < 0x200002000000 then decide (s.fld (R.HQ2_PROD (idxOfM m)) ≠ s.fld (R.HQ3_CONS (idxOfM m)))
    else !(s.rxBuf (portOfM m) (idxOfM m)).isEmpty

/-- Only the governor's scaling holds what keeps the master active (R440). -/
def State.heldOnly (s : State) (m : Nat) : Bool :=
  (s.bud m).govHold && (match siteOfM m with
    | some site => decide (48 ≤ idxOfM m) || (s.ctxsOf site (idxOfM m)).all (fun k =>
        !(s.ctx k).live || (s.ctx k).st == .stalled .seal)
    | none => true)

/-- CONT in force at this Close, DRIP.BUDGET's among it (R36, R205). -/
def State.contAt (s : State) (m : Nat) : Bool :=
  (s.bud m).cont || s.heldOnly m || (match siteOfM m with
    | some site => decide (idxOfM m < 48) && (s.task (site * 64 + idxOfM m)).contNow
    | none => false)

/-- A third drip in a row with a freeze: SUSPECT, FROZEN, and the offence of its site or a record. -/
def State.suspect (s : State) (m : Nat) : State :=
  let s := ((s.setFld (mSuspect m) 1).setFld (mFrozen m) 1).hqFollow m 1 2
  match siteOfM m with
  | some site => s.offence site 1
  | none => s.raise (s.recM CE 0 m)

/-- The Close of a drip for one master. -/
def State.closeMaster (s : State) (m : Nat) : State :=
  if !(s.bud m).valid then s
  else
    let s := if s.active m && !s.contAt m then s.freeze m 5 16 else s
    let run := s.fld (mRun m)
    if (s.bud m).frozeNow || s.frozen m then
      let s := s.setFld (mRun m) (min 3 (run + 1))
      if run = 2 then s.suspect m else s
    else s.setFld (mRun m) 0

/-! ## Open for one master (R31, R161, R180, Table 2.8) -/

/-- The budgets and control bits that an entry's registers ask for. -/
def State.asked (s : State) (m : Nat) : Budget :=
  let b0 := s.reg (mBudget0 m)
  let b1 := s.reg (mBudget1 m)
  ⟨getBits b0 0 32, getBits b0 32 32, getBits b1 0 32, getBits b1 32 32, s.fld (mCont m) == 1, s.fld (mAutoThaw m) == 1,
    s.fld (mValid m) == 1, false, false, 0⟩

/-- The Open reaches a master: consumption is zero, what was written takes effect, a task starts or ends, AUTO_THAW thaws.
In QUIESCE nothing thaws by itself, and an entry that becomes valid is frozen (R431, log entry 30). -/
def State.openMaster (s : State) (m : Nat) : State :=
  let was := s.bud m
  let now := s.asked m
  let s := ((((s.setFld (mUsedCycles m) 0).setFld (mUsedStack m) 0).setFld (mUsedPassage m) 0).setFld (mUsedClassA m)
    0).setBud m now
  let s := match siteOfM m with
    | some site =>
      let i := idxOfM m
      if 48 ≤ i ∨ was.valid = now.valid then s
      else if now.valid then s.startTask site i else s.endTask site i
    | none => s
  let s := if s.mode = .quiesce ∧ now.valid ∧ !was.valid then s.freeze m 6 32 else s
  if s.frozen m && now.autoThaw && s.fld (mSuspect m) == 0 && s.mode != .quiesce then s.thaw m else s

/-- The contexts of every task see the Open (R204, R23). -/
def State.openCtxs (s : State) : State :=
  s.ctxs.foldl (fun s p =>
    let x := s.ctx p.1
    s.setCtx p.1 (x.open (s.frozen (taskM (siteOfKey p.1) (s.taskOf p.1))) s.dripNo)) s

/-! ## What else an Open does -/

/-- A site's part: a pending curtain load begins, a halted curtain resumes, counts of the drip are cleared, cache slices
switch (R75, R150, R152, Table 4.15), the watch of a SUSPECT site counts a drip without an offence (Table 19.4). `last` is
the drip that has closed. -/
def State.openSite (s : State) (site last : Nat) : State :=
  let s := s.setFld (R.GM_SB_STATUS_STALL_CLKS site) 0
  let s := s.setFld (R.CUR_SKEW_STALLS_DRIP site) 0
  let s := if s.fld (R.CUR_STATUS_STATE site) = 5 then s.setFld (R.CUR_STATUS_STATE site) 0 else s
  let s := if s.fld (R.CUR_STATUS_LOAD_PEND site) = 1 ∧ (s.cur site).loadAt.isNone then
      s.setCur site { s.cur site with loadAt := some s.now, loadOfs := s.fld (R.CUR_LOAD_OFS site) }
    else s
  let left := s.fld (R.TR_LADDER_WATCH_LEFT site)
  let s := if s.fld (R.TR_LADDER_SUSPECT site) = 1 ∧ s.tst.offDrip.get site 0 ≠ last + 1 then
      s.setFld (R.TR_LADDER_WATCH_LEFT site) (left - 1)
    else s
  s.cacheOpen site

/-- A chamber-scope apply: MSMAP_CONTAIN in the drip before, everything else at its Open; a chamber that was in reset
follows when its reset is over (R296, R369). -/
def State.profOpen (s : State) : State :=
  let reg := s.fld R.MSMAP_CONTAIN_T6
  let bit (c : Nat) : Nat := bitN (if s.sec.applyLate.contains c then s.fr.contain else reg) c
  let s := s.withFr { s.fr with contain := (List.range 16).foldl (fun n c => n + bit c * 2 ^ c) 0 }
  let late := s.sec.applyLate.filter (fun c => s.fld (R.FR_CHAMBER_STATE c) ≠ 2)
  let s := late.foldl (fun s c => s.applyCh c) (s.withSec { s.sec with
    applyLate := s.sec.applyLate.filter (fun c => !late.contains c) })
  match s.sec.apply with
  | none => s
  | some (prof, d) =>
    if s.dripNo + 1 = d then (if s.profOk (s.profRec prof) then s.applyContain prof else s)
    else if d ≤ s.dripNo then (s.withSec { s.sec with apply := none }).applyScope prof
    else s

/-- A port's part: gate schedules come into force, frames held are taken, and transfers that waited for budget go on. -/
def State.openPort (s : State) (p : Nat) : State :=
  let s := (s.qbvOpen p).rxDrainPort p
  let s := ((s.port p).flows.map (·.1)).foldl (fun s f => s.pump p f (s.unsent p f)) s
  ((s.port p).qps.map (·.1)).foldl (fun s q => s.qpGo p q) s

/-- A runtime's part: loads and ends that are due, and commits. -/
def State.openRt (s : State) (lg : Nat) : State := (s.rtOpen lg).updOpen lg

/-- The Close of the drip in progress. -/
def State.close (s : State) : State :=
  if s.drip.running then s.entries.foldl (fun s m => s.closeMaster m) s else s

/-- What takes effect at an Open, in the order: a replay's task, masters, contexts, sites, module state, governor, survey, profile,
runtimes, ports, tests. `last` is the drip that has closed. -/
def State.openAll (s : State) (last : Nat) : State :=
  let s := s.echoOpen
  let s := s.entries.foldl (fun s m => s.openMaster m) s
  let s := (s.tasks.map (·.1)).foldl (fun s k => s.setTask k { s.task k with contNow := false }) s
  let s := s.openCtxs
  let s := s.liveSites.foldl (fun s site => s.openSite site last) s
  let s := s.modeOpen.govOpen.svOpen.profOpen
  let s := (s.rts.map (·.1)).foldl (fun s lg => s.openRt lg) s
  let s := s.svReqs
  let s := (List.range 32).foldl (fun s p => s.openPort p) s
  let s := s.testExpire
  let iss : SMap (Nat × Nat) := s.fr.issuers.filterMap (fun p => if p.2.1 = 0 then none else some (p.1, (0, p.2.1)))
  ((s.withFr { s.fr with issuers := iss }).withTst { s.tst with corr := [] }).withSv { s.sv with demoted := [] }

/-- DRIP_OPEN: at a drip boundary the drip closes and the next one opens; at the normal Close of a drip that is lengthened
it runs on (R20, R21, R27). Nothing opens while the drip is stopped (R481). -/
def execDripOpen (s : State) : Host.Outcome State Fault Refusal :=
  .next (
    if s.fld R.DRIP_CTRL_ENABLE = 0 ∨ !s.svcUp then s
    else
      match (if s.drip.running then s.lengthen else none) with
      | some s => s
      | none =>
        let last := s.dripNo
        let s := s.withNow (max s.now s.drip.closeAt)
        (s.close.ptpBoundary.openDrip).openAll last)

end Sys2Proof.Machine
end

