-- ==== Sys2Proof/Machine/Dispatch.lean ====
section
/-! DEFINITION. Which meaning each command has: one arm per constructor of Instr. -/

namespace Sys2Proof.Machine

def exec (i : Instr) (s : State) : Host.Outcome State Fault Refusal :=
  match i with
  | .registerWrite src addr size value => Sys2Proof.Machine.execRegisterWrite src addr size value s
  | .dripOpen => Sys2Proof.Machine.execDripOpen s
  | .sealStart => Sys2Proof.Machine.execSealStart s
  | .dripEnableWrite src v => Sys2Proof.Machine.execDripEnableWrite src v s
  | .dripSrcWrite src v => Sys2Proof.Machine.execDripSrcWrite src v s
  | .resync src v => Sys2Proof.Machine.execResync src v s
  | .dripApplyAtWrite src v => Sys2Proof.Machine.execDripApplyAtWrite src v s
  | .ptpOffsetMeasured ns => Sys2Proof.Machine.execPtpOffsetMeasured ns s
  | .sourceLost => Sys2Proof.Machine.execSourceLost s
  | .holdoverSyncTimeout => Sys2Proof.Machine.execHoldoverSyncTimeout s
  | .ppsInEdge ns => Sys2Proof.Machine.execPpsInEdge ns s
  | .mstrFreeze src mb ix v => Sys2Proof.Machine.execMstrFreeze src mb ix v s
  | .mstrThaw src mb ix v => Sys2Proof.Machine.execMstrThaw src mb ix v s
  | .icacheFillReturn site core line bad => Sys2Proof.Machine.execIcacheFillReturn site core line bad s
  | .narrowLoadReturn h => Sys2Proof.Machine.execNarrowLoadReturn h s
  | .moduleStoreAck h => Sys2Proof.Machine.execModuleStoreAck h s
  | .icinv src site core v => Sys2Proof.Machine.execIcinv src site core v s
  | .icinvComplete site core => Sys2Proof.Machine.execIcinvComplete site core s
  | .coreReset src site core v => Sys2Proof.Machine.execCoreReset src site core v s
  | .coreResetComplete site core => Sys2Proof.Machine.execCoreResetComplete site core s
  | .galleryReset src site v => Sys2Proof.Machine.execGalleryReset src site v s
  | .galleryResetDrainEnd site => Sys2Proof.Machine.execGalleryResetDrainEnd site s
  | .resetHoldExpiry dom => Sys2Proof.Machine.execResetHoldExpiry dom s
  | .messageDispatch site ring => Sys2Proof.Machine.execMessageDispatch site ring s
  | .gmGroupIlvWrite src site v => Sys2Proof.Machine.execGmGroupIlvWrite src site v s
  | .sliceOffRequest src site v => Sys2Proof.Machine.execSliceOffRequest src site v s
  | .sliceOnRequest src site v => Sys2Proof.Machine.execSliceOnRequest src site v s
  | .sliceDrainComplete site slice => Sys2Proof.Machine.execSliceDrainComplete site slice s
  | .sliceDrainTimeout site slice => Sys2Proof.Machine.execSliceDrainTimeout site slice s
  | .sliceWakeComplete site slice => Sys2Proof.Machine.execSliceWakeComplete site slice s
  | .cacheInvalidate src site v => Sys2Proof.Machine.execCacheInvalidate src site v s
  | .cacheInvalidateComplete site => Sys2Proof.Machine.execCacheInvalidateComplete site s
  | .sbMoveSuspend src site v => Sys2Proof.Machine.execSbMoveSuspend src site v s
  | .sbMoveRebase src site v => Sys2Proof.Machine.execSbMoveRebase src site v s
  | .claimRetire site e err => Sys2Proof.Machine.execClaimRetire site e err s
  | .scrubGo src site v => Sys2Proof.Machine.execScrubGo src site v s
  | .scrubComplete site clean => Sys2Proof.Machine.execScrubComplete site clean s
  | .tileStart site j => Sys2Proof.Machine.execTileStart site j s
  | .tileOutputComplete site j chk => Sys2Proof.Machine.execTileOutputComplete site j chk s
  | .tileError site j status => Sys2Proof.Machine.execTileError site j status s
  | .mxeReleaseAsComputed src site j v => Sys2Proof.Machine.execMxeReleaseAsComputed src site j v s
  | .mxeReleaseRewrite src site j v => Sys2Proof.Machine.execMxeReleaseRewrite src site j v s
  | .mxeReleaseError src site j v => Sys2Proof.Machine.execMxeReleaseError src site j v s
  | .holdExpiry site j => Sys2Proof.Machine.execHoldExpiry site j s
  | .patrolTile site j => Sys2Proof.Machine.execPatrolTile site j s
  | .curtainItemStart site => Sys2Proof.Machine.execCurtainItemStart site s
  | .curtainItemEnd site => Sys2Proof.Machine.execCurtainItemEnd site s
  | .skewHalt site => Sys2Proof.Machine.execSkewHalt site s
  | .curtainLoadWaitExpiry site => Sys2Proof.Machine.execCurtainLoadWaitExpiry site s
  | .curtainLoadComplete site => Sys2Proof.Machine.execCurtainLoadComplete site s
  | .curtainPatrol site => Sys2Proof.Machine.execCurtainPatrol site s
  | .strawMov site x y e bad => Sys2Proof.Machine.execStrawMov site x y e bad s
  | .strawAdd site x y e bad => Sys2Proof.Machine.execStrawAdd site x y e bad s
  | .strawSub site x y e bad => Sys2Proof.Machine.execStrawSub site x y e bad s
  | .strawMul site x y e bad => Sys2Proof.Machine.execStrawMul site x y e bad s
  | .strawFma site x y e bad => Sys2Proof.Machine.execStrawFma site x y e bad s
  | .strawMax site x y e bad => Sys2Proof.Machine.execStrawMax site x y e bad s
  | .strawMin site x y e bad => Sys2Proof.Machine.execStrawMin site x y e bad s
  | .strawSel site x y e bad => Sys2Proof.Machine.execStrawSel site x y e bad s
  | .strawCmplt site x y e bad => Sys2Proof.Machine.execStrawCmplt site x y e bad s
  | .strawCmple site x y e bad => Sys2Proof.Machine.execStrawCmple site x y e bad s
  | .strawCmpeq site x y e bad => Sys2Proof.Machine.execStrawCmpeq site x y e bad s
  | .strawSwz site x y e bad => Sys2Proof.Machine.execStrawSwz site x y e bad s
  | .strawHmax site x y e bad => Sys2Proof.Machine.execStrawHmax site x y e bad s
  | .strawHsum site x y e bad => Sys2Proof.Machine.execStrawHsum site x y e bad s
  | .strawAbs site x y e bad => Sys2Proof.Machine.execStrawAbs site x y e bad s
  | .strawNeg site x y e bad => Sys2Proof.Machine.execStrawNeg site x y e bad s
  | .strawExp2 site x y e bad => Sys2Proof.Machine.execStrawExp2 site x y e bad s
  | .strawLog2 site x y e bad => Sys2Proof.Machine.execStrawLog2 site x y e bad s
  | .strawRcp site x y e bad => Sys2Proof.Machine.execStrawRcp site x y e bad s
  | .strawRsq site x y e bad => Sys2Proof.Machine.execStrawRsq site x y e bad s
  | .opAdd h d a b => Sys2Proof.Machine.execOpAdd h d a b s
  | .opSub h d a b => Sys2Proof.Machine.execOpSub h d a b s
  | .opAnd h d a b => Sys2Proof.Machine.execOpAnd h d a b s
  | .opOr h d a b => Sys2Proof.Machine.execOpOr h d a b s
  | .opXor h d a b => Sys2Proof.Machine.execOpXor h d a b s
  | .opSll h d a b => Sys2Proof.Machine.execOpSll h d a b s
  | .opSrl h d a b => Sys2Proof.Machine.execOpSrl h d a b s
  | .opSra h d a b => Sys2Proof.Machine.execOpSra h d a b s
  | .opSlt h d a b => Sys2Proof.Machine.execOpSlt h d a b s
  | .opSltu h d a b => Sys2Proof.Machine.execOpSltu h d a b s
  | .opMul h d a b => Sys2Proof.Machine.execOpMul h d a b s
  | .opMulh h d a b => Sys2Proof.Machine.execOpMulh h d a b s
  | .opMulhu h d a b => Sys2Proof.Machine.execOpMulhu h d a b s
  | .opMin h d a b => Sys2Proof.Machine.execOpMin h d a b s
  | .opMax h d a b => Sys2Proof.Machine.execOpMax h d a b s
  | .opMinu h d a b => Sys2Proof.Machine.execOpMinu h d a b s
  | .opMaxu h d a b => Sys2Proof.Machine.execOpMaxu h d a b s
  | .opClz h d a => Sys2Proof.Machine.execOpClz h d a s
  | .opPopc h d a => Sys2Proof.Machine.execOpPopc h d a s
  | .opRdsr h d b => Sys2Proof.Machine.execOpRdsr h d b s
  | .opWrsr h d a => Sys2Proof.Machine.execOpWrsr h d a s
  | .opMovps h d b => Sys2Proof.Machine.execOpMovps h d b s
  | .opMovsp h d a => Sys2Proof.Machine.execOpMovsp h d a s
  | .opWfe h d a => Sys2Proof.Machine.execOpWfe h d a s
  | .opBcall h d a b => Sys2Proof.Machine.execOpBcall h d a b s
  | .opAddi h d a imm => Sys2Proof.Machine.execOpAddi h d a imm s
  | .opAndi h d a imm => Sys2Proof.Machine.execOpAndi h d a imm s
  | .opOri h d a imm => Sys2Proof.Machine.execOpOri h d a imm s
  | .opXori h d a imm => Sys2Proof.Machine.execOpXori h d a imm s
  | .opSlli h d a imm => Sys2Proof.Machine.execOpSlli h d a imm s
  | .opSrli h d a imm => Sys2Proof.Machine.execOpSrli h d a imm s
  | .opSrai h d a imm => Sys2Proof.Machine.execOpSrai h d a imm s
  | .opSlti h d a imm => Sys2Proof.Machine.execOpSlti h d a imm s
  | .opSltiu h d a imm => Sys2Proof.Machine.execOpSltiu h d a imm s
  | .opShin h d a imm => Sys2Proof.Machine.execOpShin h d a imm s
  | .opLd8 h d a disp => Sys2Proof.Machine.execOpLd8 h d a disp s
  | .opLd16 h d a disp => Sys2Proof.Machine.execOpLd16 h d a disp s
  | .opLd32 h d a disp => Sys2Proof.Machine.execOpLd32 h d a disp s
  | .opLd64 h d a disp => Sys2Proof.Machine.execOpLd64 h d a disp s
  | .opLdu8 h d a disp => Sys2Proof.Machine.execOpLdu8 h d a disp s
  | .opLdu16 h d a disp => Sys2Proof.Machine.execOpLdu16 h d a disp s
  | .opLdu32 h d a disp => Sys2Proof.Machine.execOpLdu32 h d a disp s
  | .opSt8 h d a disp => Sys2Proof.Machine.execOpSt8 h d a disp s
  | .opSt16 h d a disp => Sys2Proof.Machine.execOpSt16 h d a disp s
  | .opSt32 h d a disp => Sys2Proof.Machine.execOpSt32 h d a disp s
  | .opSt64 h d a disp => Sys2Proof.Machine.execOpSt64 h d a disp s
  | .opVld h d a disp => Sys2Proof.Machine.execOpVld h d a disp s
  | .opVst h d a disp => Sys2Proof.Machine.execOpVst h d a disp s
  | .opAadd h d a b disp => Sys2Proof.Machine.execOpAadd h d a b disp s
  | .opAswap h d a b disp => Sys2Proof.Machine.execOpAswap h d a b disp s
  | .opAcas h d a b disp => Sys2Proof.Machine.execOpAcas h d a b disp s
  | .opBeq h a b off => Sys2Proof.Machine.execOpBeq h a b off s
  | .opBne h a b off => Sys2Proof.Machine.execOpBne h a b off s
  | .opBlt h a b off => Sys2Proof.Machine.execOpBlt h a b off s
  | .opBge h a b off => Sys2Proof.Machine.execOpBge h a b off s
  | .opBltu h a b off => Sys2Proof.Machine.execOpBltu h a b off s
  | .opBgeu h a b off => Sys2Proof.Machine.execOpBgeu h a b off s
  | .opJal h d off => Sys2Proof.Machine.execOpJal h d off s
  | .opJalr h d a off => Sys2Proof.Machine.execOpJalr h d a off s
  | .opBpany h a off => Sys2Proof.Machine.execOpBpany h a off s
  | .opBpall h a off => Sys2Proof.Machine.execOpBpall h a off s
  | .opBpnone h a off => Sys2Proof.Machine.execOpBpnone h a off s
  | .opVadd h x => Sys2Proof.Machine.execOpVadd h x s
  | .opVsub h x => Sys2Proof.Machine.execOpVsub h x s
  | .opVmul h x => Sys2Proof.Machine.execOpVmul h x s
  | .opVfma h x => Sys2Proof.Machine.execOpVfma h x s
  | .opVmax h x => Sys2Proof.Machine.execOpVmax h x s
  | .opVmin h x => Sys2Proof.Machine.execOpVmin h x s
  | .opVabs h x => Sys2Proof.Machine.execOpVabs h x s
  | .opVneg h x => Sys2Proof.Machine.execOpVneg h x s
  | .opVcmplt h x => Sys2Proof.Machine.execOpVcmplt h x s
  | .opVcmple h x => Sys2Proof.Machine.execOpVcmple h x s
  | .opVcmpeq h x => Sys2Proof.Machine.execOpVcmpeq h x s
  | .opVsel h x => Sys2Proof.Machine.execOpVsel h x s
  | .opVcvt h x => Sys2Proof.Machine.execOpVcvt h x s
  | .opVrcp h x => Sys2Proof.Machine.execOpVrcp h x s
  | .opVrsq h x => Sys2Proof.Machine.execOpVrsq h x s
  | .opVexp2 h x => Sys2Proof.Machine.execOpVexp2 h x s
  | .opVlog2 h x => Sys2Proof.Machine.execOpVlog2 h x s
  | .opVhsum h x => Sys2Proof.Machine.execOpVhsum h x s
  | .opVhmax h x => Sys2Proof.Machine.execOpVhmax h x s
  | .opVperm h x => Sys2Proof.Machine.execOpVperm h x s
  | .opVbcast h x => Sys2Proof.Machine.execOpVbcast h x s
  | .opVext h x => Sys2Proof.Machine.execOpVext h x s
  | .opVins h x => Sys2Proof.Machine.execOpVins h x s
  | .opViadd h x => Sys2Proof.Machine.execOpViadd h x s
  | .opVisub h x => Sys2Proof.Machine.execOpVisub h x s
  | .opVimul h x => Sys2Proof.Machine.execOpVimul h x s
  | .opVand h x => Sys2Proof.Machine.execOpVand h x s
  | .opVor h x => Sys2Proof.Machine.execOpVor h x s
  | .opVxor h x => Sys2Proof.Machine.execOpVxor h x s
  | .opVshl h x => Sys2Proof.Machine.execOpVshl h x s
  | .opVsra h x => Sys2Proof.Machine.execOpVsra h x s
  | .opVicmplt h x => Sys2Proof.Machine.execOpVicmplt h x s
  | .opPand h x => Sys2Proof.Machine.execOpPand h x s
  | .opPor h x => Sys2Proof.Machine.execOpPor h x s
  | .opPxor h x => Sys2Proof.Machine.execOpPxor h x s
  | .opPandn h x => Sys2Proof.Machine.execOpPandn h x s
  | .mxIssue h x => Sys2Proof.Machine.execMxIssue h x s
  | .tfIssue h x => Sys2Proof.Machine.execTfIssue h x s
  | .msgSend h x => Sys2Proof.Machine.execMsgSend h x s
  | .msgRet h x => Sys2Proof.Machine.execMsgRet h x s
  | .dripWait h x => Sys2Proof.Machine.execDripWait h x s
  | .dripBudget h x => Sys2Proof.Machine.execDripBudget h x s
  | .curLoad h x => Sys2Proof.Machine.execCurLoad h x s
  | .curGo h x => Sys2Proof.Machine.execCurGo h x s
  | .sbClaim h x => Sys2Proof.Machine.execSbClaim h x s
  | .sbRetire h x => Sys2Proof.Machine.execSbRetire h x s
  | .fenceWin h x => Sys2Proof.Machine.execFenceWin h x s
  | .ctxblkWrite src site b v => Sys2Proof.Machine.execCtxblkWrite src site b v s
  | .hqDoorbell src q prod => Sys2Proof.Machine.execHqDoorbell src q prod s
  | .hqBind src q v => Sys2Proof.Machine.execHqBind src q v s
  | .hqUnbind src q v => Sys2Proof.Machine.execHqUnbind src q v s
  | .commandFetch q => Sys2Proof.Machine.execCommandFetch q s
  | .loadProgram lg => Sys2Proof.Machine.execLoadProgram lg s
  | .loadProgramInstall lg => Sys2Proof.Machine.execLoadProgramInstall lg s
  | .endTasks lg => Sys2Proof.Machine.execEndTasks lg s
  | .move lg => Sys2Proof.Machine.execMove lg s
  | .taskCtrlFreeze lg => Sys2Proof.Machine.execTaskCtrlFreeze lg s
  | .taskCtrlThaw lg => Sys2Proof.Machine.execTaskCtrlThaw lg s
  | .taskCtrlKill lg => Sys2Proof.Machine.execTaskCtrlKill lg s
  | .surveyReq lg => Sys2Proof.Machine.execSurveyReq lg s
  | .testReq lg => Sys2Proof.Machine.execTestReq lg s
  | .onDemandTestRun k lg t pass => Sys2Proof.Machine.execOnDemandTestRun k lg t pass s
  | .updApply lg => Sys2Proof.Machine.execUpdApply lg s
  | .updCommit lg => Sys2Proof.Machine.execUpdCommit lg s
  | .updAbort lg => Sys2Proof.Machine.execUpdAbort lg s
  | .refreshStage lg => Sys2Proof.Machine.execRefreshStage lg s
  | .stagingComplete lg => Sys2Proof.Machine.execStagingComplete lg s
  | .commitCopyComplete lg => Sys2Proof.Machine.execCommitCopyComplete lg s
  | .rollForward lg => Sys2Proof.Machine.execRollForward lg s
  | .ringBind src site r v => Sys2Proof.Machine.execRingBind src site r v s
  | .ringUnbind src site r v => Sys2Proof.Machine.execRingUnbind src site r v s
  | .lineBind src site l v => Sys2Proof.Machine.execLineBind src site l v s
  | .lineUnbind src site l v => Sys2Proof.Machine.execLineUnbind src site l v s
  | .cqBind src site t v => Sys2Proof.Machine.execCqBind src site t v s
  | .cqUnbind src site t v => Sys2Proof.Machine.execCqUnbind src site t v s
  | .recordArrival k => Sys2Proof.Machine.execRecordArrival k s
  | .recordAnswer k => Sys2Proof.Machine.execRecordAnswer k s
  | .recordTimeout site l seq => Sys2Proof.Machine.execRecordTimeout site l seq s
  | .creditReturnTimer site r => Sys2Proof.Machine.execCreditReturnTimer site r s
  | .creditReturnReceive k => Sys2Proof.Machine.execCreditReturnReceive k s
  | .tfeDescriptorStart site => Sys2Proof.Machine.execTfeDescriptorStart site s
  | .tfeCopy site op => Sys2Proof.Machine.execTfeCopy site op s
  | .tfeBcast site op => Sys2Proof.Machine.execTfeBcast site op s
  | .tfeGather site op => Sys2Proof.Machine.execTfeGather site op s
  | .tfePut site op => Sys2Proof.Machine.execTfePut site op s
  | .combineFp32 site => Sys2Proof.Machine.execCombineFp32 site s
  | .combineAdd site => Sys2Proof.Machine.execCombineAdd site s
  | .combineFinish site => Sys2Proof.Machine.execCombineFinish site s
  | .tfeDescriptorComplete site op => Sys2Proof.Machine.execTfeDescriptorComplete site op s
  | .bcastTimeout site op => Sys2Proof.Machine.execBcastTimeout site op s
  | .packetArrival k bad => Sys2Proof.Machine.execPacketArrival k bad s
  | .linkCrcRetry node dir => Sys2Proof.Machine.execLinkCrcRetry node dir s
  | .noProgressTimeout k => Sys2Proof.Machine.execNoProgressTimeout k s
  | .ropeTimeout h store => Sys2Proof.Machine.execRopeTimeout h store s
  | .routerDrainComplete node => Sys2Proof.Machine.execRouterDrainComplete node s
  | .routerDrainTimeout node => Sys2Proof.Machine.execRouterDrainTimeout node s
  | .loadDone src v => Sys2Proof.Machine.execLoadDone src v s
  | .surveyLoadComplete => Sys2Proof.Machine.execSurveyLoadComplete s
  | .flip src v => Sys2Proof.Machine.execFlip src v s
  | .forceFree src v => Sys2Proof.Machine.execForceFree src v s
  | .inflightCountReport => Sys2Proof.Machine.execInflightCountReport s
  | .surveyDrainComplete => Sys2Proof.Machine.execSurveyDrainComplete s
  | .surveyDrainLate => Sys2Proof.Machine.execSurveyDrainLate s
  | .stackRequest x write en data chk => Sys2Proof.Machine.execStackRequest x write en data chk s
  | .stackScrubRead k chk => Sys2Proof.Machine.execStackScrubRead k chk s
  | .stackTempRead k temp => Sys2Proof.Machine.execStackTempRead k temp s
  | .lampInsert k rated => Sys2Proof.Machine.execLampInsert k rated s
  | .lampWarmed k power => Sys2Proof.Machine.execLampWarmed k power s
  | .lampWarmTimeout k => Sys2Proof.Machine.execLampWarmTimeout k s
  | .lampPowerLow k power => Sys2Proof.Machine.execLampPowerLow k power s
  | .lampPowerLoss k power removed => Sys2Proof.Machine.execLampPowerLoss k power removed s
  | .lampRemove k => Sys2Proof.Machine.execLampRemove k s
  | .lampFault k => Sys2Proof.Machine.execLampFault k s
  | .replace src k v => Sys2Proof.Machine.execReplace src k v s
  | .retrain src p v => Sys2Proof.Machine.execRetrain src p v s
  | .linkDown p l => Sys2Proof.Machine.execLinkDown p l s
  | .linkUp p l => Sys2Proof.Machine.execLinkUp p l s
  | .sftWrite p l q => Sys2Proof.Machine.execSftWrite p l q s
  | .sftCommand p l q => Sys2Proof.Machine.execSftCommand p l q s
  | .roceSend p l q => Sys2Proof.Machine.execRoceSend p l q s
  | .rdmaWrite p l q => Sys2Proof.Machine.execRdmaWrite p l q s
  | .rdmaRead p l q => Sys2Proof.Machine.execRdmaRead p l q s
  | .sqPostTimeout site op => Sys2Proof.Machine.execSqPostTimeout site op s
  | .portCompletionDrop p => Sys2Proof.Machine.execPortCompletionDrop p s
  | .sftData p l f => Sys2Proof.Machine.execSftData p l f s
  | .sftAck p l f => Sys2Proof.Machine.execSftAck p l f s
  | .sftNack p l f => Sys2Proof.Machine.execSftNack p l f s
  | .sftComplete p l f => Sys2Proof.Machine.execSftComplete p l f s
  | .sftCmd p l f => Sys2Proof.Machine.execSftCmd p l f s
  | .sftCtrl p l f => Sys2Proof.Machine.execSftCtrl p l f s
  | .sftAckTimer p fl => Sys2Proof.Machine.execSftAckTimer p fl s
  | .sftRtoExpiry p fl psn => Sys2Proof.Machine.execSftRtoExpiry p fl psn s
  | .roceSendReceive p l m => Sys2Proof.Machine.execRoceSendReceive p l m s
  | .rdmaWriteReceive p l m => Sys2Proof.Machine.execRdmaWriteReceive p l m s
  | .rdmaReadRequestReceive p l m => Sys2Proof.Machine.execRdmaReadRequestReceive p l m s
  | .rdmaReadResponseReceive p l m => Sys2Proof.Machine.execRdmaReadResponseReceive p l m s
  | .roceAckReceive p l m => Sys2Proof.Machine.execRoceAckReceive p l m s
  | .roceAckTimeout p qp => Sys2Proof.Machine.execRoceAckTimeout p qp s
  | .cnpReceive p qp => Sys2Proof.Machine.execCnpReceive p qp s
  | .roceRateIncrease p qp => Sys2Proof.Machine.execRoceRateIncrease p qp s
  | .pfcFrame p l prio pause => Sys2Proof.Machine.execPfcFrame p l prio pause s
  | .controlPathFrame p l raw => Sys2Proof.Machine.execControlPathFrame p l raw s
  | .ptpMessage p l m => Sys2Proof.Machine.execPtpMessage p l m s
  | .ptpAnnounceTimeout => Sys2Proof.Machine.execPtpAnnounceTimeout s
  | .qbvGateChange p l => Sys2Proof.Machine.execQbvGateChange p l s
  | .bar2Read off len => Sys2Proof.Machine.execBar2Read off len s
  | .bar2Write off data => Sys2Proof.Machine.execBar2Write off data s
  | .surpriseDown => Sys2Proof.Machine.execSurpriseDown s
  | .perstNAssert => Sys2Proof.Machine.execPerstNAssert s
  | .perstNDeassert => Sys2Proof.Machine.execPerstNDeassert s
  | .d3hotEntry => Sys2Proof.Machine.execD3hotEntry s
  | .msixCoalesceExpiry vec => Sys2Proof.Machine.execMsixCoalesceExpiry vec s
  | .msixUnmask vec => Sys2Proof.Machine.execMsixUnmask vec s
  | .recordSend => Sys2Proof.Machine.execRecordSend s
  | .foldWindowExpiry k => Sys2Proof.Machine.execFoldWindowExpiry k s
  | .mgmtLinkUp => Sys2Proof.Machine.execMgmtLinkUp s
  | .leaseGrant m => Sys2Proof.Machine.execLeaseGrant m s
  | .fenceOrder m => Sys2Proof.Machine.execFenceOrder m s
  | .setProfile m => Sys2Proof.Machine.execSetProfile m s
  | .standby m => Sys2Proof.Machine.execStandby m s
  | .restart m => Sys2Proof.Machine.execRestart m s
  | .bindNetq m => Sys2Proof.Machine.execBindNetq m s
  | .resend m => Sys2Proof.Machine.execResend m s
  | .collector m => Sys2Proof.Machine.execCollector m s
  | .redfishGet r => Sys2Proof.Machine.execRedfishGet r s
  | .redfishSetProfile prof now => Sys2Proof.Machine.execRedfishSetProfile prof now s
  | .eventSubscriptionCreate dest => Sys2Proof.Machine.execEventSubscriptionCreate dest s
  | .eventSubscriptionDelete id => Sys2Proof.Machine.execEventSubscriptionDelete id s
  | .setEndpointId eid => Sys2Proof.Machine.execSetEndpointId eid s
  | .getEndpointId => Sys2Proof.Machine.execGetEndpointId s
  | .getMessageTypeSupport => Sys2Proof.Machine.execGetMessageTypeSupport s
  | .pldmFirmwareUpdate comp image => Sys2Proof.Machine.execPldmFirmwareUpdate comp image s
  | .pldmEventAcknowledge => Sys2Proof.Machine.execPldmEventAcknowledge s
  | .getVersion => Sys2Proof.Machine.execGetVersion s
  | .getCapabilities => Sys2Proof.Machine.execGetCapabilities s
  | .negotiateAlgorithms ecdsaP384 sha384 => Sys2Proof.Machine.execNegotiateAlgorithms ecdsaP384 sha384 s
  | .getDigests => Sys2Proof.Machine.execGetDigests s
  | .getCertificate off len => Sys2Proof.Machine.execGetCertificate off len s
  | .challenge nonce => Sys2Proof.Machine.execChallenge nonce s
  | .getMeasurements ix => Sys2Proof.Machine.execGetMeasurements ix s
  | .fence kind id sub on => Sys2Proof.Machine.execFence kind id sub on s
  | .bypass node on => Sys2Proof.Machine.execBypass node on s
  | .coreMap site w0 w1 w2 w3 => Sys2Proof.Machine.execCoreMap site w0 w1 w2 w3 s
  | .mxeColmap site j v => Sys2Proof.Machine.execMxeColmap site j v s
  | .galStep site volt clk => Sys2Proof.Machine.execGalStep site volt clk s
  | .chamberReset c => Sys2Proof.Machine.execChamberReset c s
  | .chamberResetStep c => Sys2Proof.Machine.execChamberResetStep c s
  | .assign site ch => Sys2Proof.Machine.execAssign site ch s
  | .region n v => Sys2Proof.Machine.execRegion n v s
  | .bistRun site unit idx bad => Sys2Proof.Machine.execBistRun site unit idx bad s
  | .fuseRepair die entry => Sys2Proof.Machine.execFuseRepair die entry s
  | .keyLoad addr => Sys2Proof.Machine.execKeyLoad addr s
  | .profileWrite slot addr => Sys2Proof.Machine.execProfileWrite slot addr s
  | .bcallSetProfile prof now => Sys2Proof.Machine.execBcallSetProfile prof now s
  | .lcTransition addr => Sys2Proof.Machine.execLcTransition addr s
  | .insertion ix pins => Sys2Proof.Machine.execInsertion ix pins s
  | .insertionCheckRetry ix pins => Sys2Proof.Machine.execInsertionCheckRetry ix pins s
  | .inputInRange ix => Sys2Proof.Machine.execInputInRange ix s
  | .bringupStepComplete r => Sys2Proof.Machine.execBringupStepComplete r s
  | .bringupStepTimeout => Sys2Proof.Machine.execBringupStepTimeout s
  | .hostCmdPowerOn src v => Sys2Proof.Machine.execHostCmdPowerOn src v s
  | .hostCmdTrain src v => Sys2Proof.Machine.execHostCmdTrain src v s
  | .hostCmdRelease src v => Sys2Proof.Machine.execHostCmdRelease src v s
  | .hostCmdMarkFailed src v => Sys2Proof.Machine.execHostCmdMarkFailed src v s
  | .hostCmdComplete ok detail => Sys2Proof.Machine.execHostCmdComplete ok detail s
  | .rawAccess src off w => Sys2Proof.Machine.execRawAccess src off w s
  | .mcr src v => Sys2Proof.Machine.execMcr src v s
  | .firmwareBlockReceive site img blk total data crc => Sys2Proof.Machine.execFirmwareBlockReceive site img blk total data crc s
  | .endMarker => Sys2Proof.Machine.execEndMarker s
  | .bootHashComplete site => Sys2Proof.Machine.execBootHashComplete site s
  | .patrolRead site slice chk => Sys2Proof.Machine.execPatrolRead site slice chk s
  | .knownAnswerRerun site u pass => Sys2Proof.Machine.execKnownAnswerRerun site u pass s
  | .linkRetryCheck => Sys2Proof.Machine.execLinkRetryCheck s
  | .watchExpiry site => Sys2Proof.Machine.execWatchExpiry site s
  | .arbRun1Complete site j chk => Sys2Proof.Machine.execArbRun1Complete site j chk s
  | .arbCopyComplete site j spare => Sys2Proof.Machine.execArbCopyComplete site j spare s
  | .arbRun2Complete site j chk => Sys2Proof.Machine.execArbRun2Complete site j chk s
  | .arbRun3Complete site j => Sys2Proof.Machine.execArbRun3Complete site j s
  | .trmMoveGo src v => Sys2Proof.Machine.execTrmMoveGo src v s
  | .moveComplete outcome => Sys2Proof.Machine.execMoveComplete outcome s
  | .contextWatchdogExpiry site core ctx => Sys2Proof.Machine.execContextWatchdogExpiry site core ctx s
  | .kick src v => Sys2Proof.Machine.execKick src v s
  | .flowstoneWatchdogExpiry => Sys2Proof.Machine.execFlowstoneWatchdogExpiry s
  | .bedrockHeartbeat => Sys2Proof.Machine.execBedrockHeartbeat s
  | .echoGo src v => Sys2Proof.Machine.execEchoGo src v s
  | .echoReplayEnd abort => Sys2Proof.Machine.execEchoReplayEnd abort s
  | .healthScoreUpdate => Sys2Proof.Machine.execHealthScoreUpdate s
  | .leaseExpiry => Sys2Proof.Machine.execLeaseExpiry s
  | .governorTick dies => Sys2Proof.Machine.execGovernorTick dies s
  | .dieThermalThrottle d tj => Sys2Proof.Machine.execDieThermalThrottle d tj s
  | .dieThermalRecover d tj => Sys2Proof.Machine.execDieThermalRecover d tj s
  | .lanternSample ix => Sys2Proof.Machine.execLanternSample ix s
  | .comparatorTrip e => Sys2Proof.Machine.execComparatorTrip e s
  | .tripClear e => Sys2Proof.Machine.execTripClear e s
  | .leak src v => Sys2Proof.Machine.execLeak src v s
  | .wakeNEdge pins => Sys2Proof.Machine.execWakeNEdge pins s
  | .wakePacket mac pins => Sys2Proof.Machine.execWakePacket mac pins s
  | .ejectRequest => Sys2Proof.Machine.execEjectRequest s
  | .eject src v => Sys2Proof.Machine.execEject src v s
  | .removalDrainEnd => Sys2Proof.Machine.execRemovalDrainEnd s
  | .surpriseRemoval => Sys2Proof.Machine.execSurpriseRemoval s
  | .killNDeassert ix => Sys2Proof.Machine.execKillNDeassert ix s
  | .mgmtLinkDown => Sys2Proof.Machine.execMgmtLinkDown s
  | .pcieLinkUp speed width => Sys2Proof.Machine.execPcieLinkUp speed width s
  | .unclaimedFrame p l => Sys2Proof.Machine.execUnclaimedFrame p l s
  | .knownAnswerComplete site u pass => Sys2Proof.Machine.execKnownAnswerComplete site u pass s

end Sys2Proof.Machine
end

