-- ==== Sys2Proof/Machine/Step.lean ====
section
/-! DEFINITION. One step: take the command at the front of the queue and run it; idle on an empty queue. -/

namespace Sys2Proof.Machine

/-- The state with a command put at the front of its queue. -/
def State.pushFront (s : State) (i : Instr) : State := s.withPending (i :: s.pending)

/-- One step of the module: the command at the front of the queue runs on the state with the queue's rest. On an empty
queue the block idles: the state is unchanged (log entry 1). -/
def step (s : State) : Host.Outcome State Fault Refusal :=
  match s.pending with
  | [] => .next s
  | i :: rest => exec i (s.withPending rest)

/-- The state with the command that a word spells in front of its queue; unchanged where the word spells none. -/
def State.withFetchWord (s : State) (nbits w : Nat) : State :=
  match decodeTableWord nbits w with
  | some i => s.pushFront i
  | none => s

end Sys2Proof.Machine
end

