-- ==== Sys2Proof/Claims.lean ====
section
/-! DEFINITION. The terms in which the statements for the provers speak of an issue of an instruction and of what a command
leaves alone. -/

namespace Sys2Proof.Machine

/-! ## The issue of an instruction -/

/-- The master that a gallery context draws on (R43). -/
def State.masterOf (s : State) (site core c : Nat) : Nat := taskM site (s.taskOf (ctxKey site core c))

/-- A context may issue (R43, R50, R183, Table 9.9, steps 1 and 2): a gallery context is selected, no claim it waits on has
failed, its program counter lies in an X window, its line is cached and holds a defined word there; a Leriq-M context runs,
is READY, and fetches a defined word in its range. -/
def CanIssue (s : State) (h : Hart) : Prop :=
  match h with
  | .gal site core c =>
    let x := s.ctx (ctxKey site core c)
    s.selectable site core (ctxKey site core c) = true ∧ x.sbFault = false ∧
      s.fetchOk site core x.win (x.pc / 8 * 8) = true ∧
      ∃ bs, (s.core (coreKey site core)).line (x.pc / 512) = some bs ∧ wordIll false (leAt bs (x.pc % 512) 4) = false
  | _ => s.mRuns h = true ∧ (s.mHart h).st = .ready ∧ mFetchOk h (s.mHart h) = true ∧
      wordIll true (s.rdNat (mKey h (s.mHart h).pc) 4) = false

/-- The budgets in force bear a charge (R29, R439); a Leriq-M context has no master. -/
def Bears (s : State) (h : Hart) (ch : Charge) : Prop :=
  match h with
  | .gal site core c => ∃ t, s.charge (s.masterOf site core c) ch = .ok t
  | _ => True

/-- The context has left its stall, if any, and stands behind the instruction of `n` bytes. -/
def Ctx.past (x : Ctx) (h : Hart) (n : Nat) : Ctx :=
  match h with
  | .gal _ _ _ => { x with st := .ready, waitsOn := 0, pc := x.pc + n }
  | _ => { x with st := .ready, pc := x.pc + n }

/-- The registers in which an issue is counted: USED of its master, CORE_ISSUE_CNT and CORE_DUAL_CNT (Tables 2.21, 3.8). -/
def issueRegs (s : State) (h : Hart) : List Nat :=
  match h with
  | .gal site core c =>
    let m := s.masterOf site core c
    [(mUsedCycles m).addr, (mUsedPassage m).addr, (R.CORE_ISSUE_CNT_COUNT site core).addr,
      (R.CORE_DUAL_CNT_COUNT site core).addr]
  | _ => []

/-- The key of a context among those of its kind. -/
def hartKey : Hart → Bool × Nat
  | .gal site core c => (true, ctxKey site core c)
  | h => (false, mIdx h)

/-- What an instruction that only changes its own context leaves: its context is `x`; every other context, memory and
every register but those that count the issue are as before, and so is all the rest of the state but the instant kept of
the context's last issue and what the core keeps of its last group. -/
structure OwnContext (s t : State) (h : Hart) (x : Ctx) : Prop where
  ctx : t.hctx h = x
  others : ∀ g, hartKey g ≠ hartKey h → t.hctx g = s.hctx g
  regs : ∀ a, a ∉ issueRegs s h → t.reg a = s.reg a
  cores : ∀ k, { t.core k with group := (s.core k).group } = s.core k
  rest : t = { s with
    ctxs := t.ctxs, mctxs := t.mctxs, csr := t.csr, cores := t.cores, fr := { s.fr with issued := t.fr.issued } }

/-- The same, for an instruction that also stores the bytes `bs` from memory key `key` up: every other byte of memory reads
as before, and so does every register but those of `also`. -/
structure OwnStore (s t : State) (h : Hart) (x : Ctx) (key : Nat) (bs : List Byte) (also : List Nat) : Prop where
  ctx : t.hctx h = x
  others : ∀ g, hartKey g ≠ hartKey h → t.hctx g = s.hctx g
  regs : ∀ a, a ∉ issueRegs s h → a ∉ also → t.reg a = s.reg a
  stored : t.rdBytes key bs.length = bs
  bytes : ∀ a, (a < key ∨ key + bs.length ≤ a) → t.rdByte a = s.rdByte a

/-- The result of a vector instruction in its own context (R102, R103, R184, R185): lane `i` of VD takes the low 32 bits of
the code `(r i).1` where it is active and keeps what it held elsewhere; the flags of active lanes are added to the sticky
ones; only VD, the flags and the generator change. -/
structure VecResult (x y : Ctx) (v : VOp) (r : Nat → Nat × Nat) : Prop where
  lanes : ∀ i, i < 16 → laneCode 0 (y.rv v.vd) i = if x.active v i then (r i).1 % 2 ^ 32 else laneCode 0 (x.rv v.vd) i
  flags : ∀ j, y.flags.testBit j =
    (x.flags.testBit j || (decide (j < 5) && (List.range 16).any (fun i => x.active v i && (r i).2.testBit j)))
  others : ∀ k, k ≠ v.vd → y.rv k = x.rv k
  rest : y = { x with v := y.v, flags := y.flags, rng := y.rng }

/-- The result of a compare in its own context (R185): bit `i` of `p`VD where lane `i` is active. -/
structure PredResult (x y : Ctx) (v : VOp) (r : Nat → Bool × Nat) : Prop where
  bits : ∀ i, i < 16 → (y.rp v.vd).getLsbD i = if x.active v i then (r i).1 else (x.rp v.vd).getLsbD i
  flags : ∀ j, y.flags.testBit j =
    (x.flags.testBit j || (decide (j < 5) && (List.range 16).any (fun i => x.active v i && (r i).2.testBit j)))
  others : ∀ k, k ≠ v.vd → y.rp k = x.rp k
  rest : y = { x with p := y.p, flags := y.flags, rng := y.rng }

/-! ## What a command leaves alone -/

/-- The registers that the raising of a record changes (R351 to R354). -/
def recordRegs : List Nat := [R.MGMT_STATUS, R.MGMT_CNT, R.HIF_ERRQ1]

/-- Every register but those of a list and those of the record store, every byte of the module's own memory, every context
and the queue are as before. Host memory may have taken a record. -/
structure Keeps (s t : State) (but : List Nat) : Prop where
  regs : ∀ a, a ∉ but → a ∉ recordRegs → t.reg a = s.reg a
  bytes : ∀ a, a < hostKey 0 → t.rdByte a = s.rdByte a
  ctxs : t.ctxs = s.ctxs
  queue : t.pending = s.pending

/-- The scoreboard entries of a site. -/
def sbRegs (site : Nat) : List Nat := (List.range 64).map (R.GM_SB_ENTRY site)

/-- The same, where the registers that may change are those of a condition, such as the frame of one port. -/
structure Confined (s t : State) (inside : Nat → Prop) : Prop where
  regs : ∀ a, ¬ inside a → a ∉ recordRegs → t.reg a = s.reg a
  bytes : ∀ a, a < hostKey 0 → t.rdByte a = s.rdByte a
  ctxs : t.ctxs = s.ctxs
  queue : t.pending = s.pending

/-- The register file and memory are in canonical form: keys rising, no entry that holds what an absent key reads as. -/
def Canonical (s : State) : Prop := SMap.wf resetOf s.csr = true ∧ Memory.wf s.mem = true

/-! ## Commands of a runtime -/

/-- The runtime of logical gallery `lg`, on `site`, takes command `c`: it is the first of its commands that meets `f` and that
no earlier one of its queue precedes, and the runtime runs and is not frozen (R174, R177). -/
structure RuntimeTakes (s : State) (lg site : Nat) (f : Cmd → Bool) (c : Cmd) : Prop where
  placed : s.siteOfLg lg = some site
  first : pickCmd f (s.rt lg).cmds [] = some c
  runs : s.rtUp site = true
  started : (s.dir lg).restart = false
  live : s.frozen (taskM site 0) = false

/-- The state from which it is executed: the command has left the runtime's list. -/
def State.taken (s : State) (lg : Nat) (c : Cmd) : State :=
  s.setRt lg { s.rt lg with cmds := (s.rt lg).cmds.erase c }

/-- The TFE of a site can do the work of class `cls` that `key` names for its runtime (R23, R30): it is not frozen, Seal does
not hold the class, nothing of the work was paid in an earlier drip, and its master entry is not valid, so that no budget
bounds it. Where budgets bound it, `RuntimeCommands` says what happens. -/
structure TfeFree (s : State) (site key cls : Nat) : Prop where
  live : s.frozen (tfeM site) = false
  unheld : s.sealHolds cls = false
  unpaid : (s.tfe site).paid.get key .none = .none
  unbounded : (s.bud (tfeM site)).valid = false

/-- The state from which the TFE begins such work: it has asked for nothing yet. -/
def State.working (s : State) (site cls : Nat) : State :=
  s.setTfe site { s.tfe site with need := .none, needCls := cls }

/-- The completion of a command of a host queue that runs, while the module may write to the host: its entry (Table 16.3)
stands in the next slot of the completion ring (R345, R346). -/
def Completed (s t : State) (c : Cmd) (status detail : Nat) : Prop :=
  c.queue < 64 → s.fld (R.HQ3_STATE c.queue) = 1 ∨ s.fld (R.HQ3_STATE c.queue) = 2 → ¬ (s.mode = .quiesce ∧ s.fr.quiesceBy = 1) →
  status ≠ 0 ∨ c.cpl = true →
  let size := 2 ^ s.fld (R.HQ1_CSIZE_LOG2 c.queue)
  let wr := s.fld (R.HQ3_CWR c.queue)
  t.fld (R.HQ3_CWR c.queue) = (wr + 1) % 2 ^ 16 ∧
    t.rdBytes (hostKey (s.fld (R.HQ1_CADDR c.queue) * 4096 + 64 * (wr % size))) 64 =
      cplEntry c ((wr / size + 1) % 2) status s.dripNo detail

/-! ## A write of a register -/

/-- All 64 bits. -/
def whole : Word := BitVec.allOnes 64

/-- What the RW and W1C bits of a register take from a write of `v` that covers the bits of `cover` (R6). -/
def written (s : State) (a : Nat) (f : Found) (cover v : Word) : Word :=
  let rw := BitVec.ofNat 64 (s.rwBits f a) &&& cover
  let w1c := BitVec.ofNat 64 f.row.w1c &&& cover
  ((s.reg a &&& ~~~rw) ||| (v &&& rw)) &&& ~~~(v &&& w1c)

/-- A write of `v` that covers the bits of `cover` reaches register `f` at `a`: no link or hung access holds it up (R340,
R387), its block answers (R9), its source may write the register, and it asks for no bit that the source may not change (R477). -/
structure Lands (s : State) (src : Src) (a : Nat) (f : Found) (cover v : Word) : Prop where
  found : regAt a = some f
  aligned : a % 8 = 0
  link : src = .host → s.pcieUp = true
  free : s.boot.hung = []
  answers : s.gated f = false
  may : s.mayWrite (s.who src) f a (written s a f cover v) = true
  own : ((written s a f cover v ^^^ s.reg a) ||| (v &&& BitVec.ofNat 64 f.row.wo)) &&& s.restricted (s.who src) f = 0

/-! ## Vector instructions -/

/-- What a vector instruction leaves of the generator: 16 draws under mode 2, none otherwise (R95, R185). -/
def drawn (x : Ctx) : Nat := if x.rnd = 2 then (draws 16 x.rng).2 else x.rng

/-- The draw of a lane: its own under mode 2 (R185). -/
def laneDraw (x : Ctx) (i : Nat) : Nat := if x.rnd = 2 then (draws 16 x.rng).1.getD i 0 else 0

end Sys2Proof.Machine
end

