-- ==== Sys2Proof/Certificates/Slice0/Obligations.lean ====
section
/-! DEFINITION. The statements for the provers. -/

open Sys2Proof Sys2Proof.Machine

/-! ## The queue -/

/-- A step with a command at the front of the queue is that command's effect on the state with the queue's rest. -/
def Obligations.StepRunsFront : Prop := ∀ (s : State) (c : Instr), step (s.pushFront c) = exec c s

/-! ## Chapter 9: scalar instructions -/

/-- R47, R186: a scalar instruction of class A writes D with the operation of Table 9.2 on A and B (a write to `s0` is
discarded by `Ctx.ws`), its context goes on behind it, and it changes nothing else but the counts of the issue. R188: an
instruction of class I writes D with the operation of Table 9.4 on A and its immediate. R47: register `s0` reads zero, a
write to it is discarded, and a write to another scalar register is read back.
Completes: opAdd, opSub, opAnd, opOr, opXor, opSll, opSrl, opSra, opSlt, opSltu, opMul, opMulh, opMulhu, opMin, opMax,
opMinu, opMaxu, opClz, opPopc, opAddi, opAndi, opOri, opXori, opSlti, opSltiu, opShin, opSlli, opSrli, opSrai. -/
def Obligations.ScalarResults : Prop :=
  (∀ (s : State) (h : Hart) (d a b : Nat), CanIssue s h → Bears s h Charge.issue →
    let x := s.hctx h
    let A := x.rs a
    let B := x.rs b
    let gives (c : Instr) (v : Word) : Prop := ∃ t, exec c s = .next t ∧ OwnContext s t h ((x.past h 4).ws d v)
    gives (.opAdd h d a b) (A + B) ∧ gives (.opSub h d a b) (A - B) ∧ gives (.opAnd h d a b) (A &&& B) ∧
    gives (.opOr h d a b) (A ||| B) ∧ gives (.opXor h d a b) (A ^^^ B) ∧
    gives (.opSll h d a b) (A <<< (B.toNat % 64)) ∧ gives (.opSrl h d a b) (A >>> (B.toNat % 64)) ∧
    gives (.opSra h d a b) (A.sshiftRight (B.toNat % 64)) ∧
    gives (.opSlt h d a b) (if A.toInt < B.toInt then 1 else 0) ∧
    gives (.opSltu h d a b) (if A.toNat < B.toNat then 1 else 0) ∧
    gives (.opMul h d a b) (A * B) ∧ gives (.opMulh h d a b) (BitVec.ofInt 64 (A.toInt * B.toInt / 2 ^ 64)) ∧
    gives (.opMulhu h d a b) (BitVec.ofNat 64 (A.toNat * B.toNat / 2 ^ 64)) ∧
    gives (.opMin h d a b) (if A.toInt < B.toInt then A else B) ∧
    gives (.opMax h d a b) (if A.toInt < B.toInt then B else A) ∧
    gives (.opMinu h d a b) (if A.toNat < B.toNat then A else B) ∧
    gives (.opMaxu h d a b) (if A.toNat < B.toNat then B else A) ∧
    gives (.opClz h d a) (BitVec.ofNat 64 (if A = 0 then 64 else 63 - Nat.log2 A.toNat)) ∧
    gives (.opPopc h d a) (BitVec.ofNat 64 ((List.range 64).filter (fun i => A.getLsbD i)).length)) ∧
  (∀ (s : State) (h : Hart) (d a imm : Nat), imm < 2 ^ 15 → CanIssue s h → Bears s h Charge.issue →
    let x := s.hctx h
    let A := x.rs a
    let sx : Word := (BitVec.ofNat 15 imm).signExtend 64
    let zx : Word := BitVec.ofNat 64 imm
    let gives (c : Instr) (v : Word) : Prop := ∃ t, exec c s = .next t ∧ OwnContext s t h ((x.past h 4).ws d v)
    gives (.opAddi h d a imm) (A + sx) ∧ gives (.opAndi h d a imm) (A &&& sx) ∧
    gives (.opOri h d a imm) (A ||| zx) ∧ gives (.opXori h d a imm) (A ^^^ zx) ∧
    gives (.opSlti h d a imm) (if A.toInt < sx.toInt then 1 else 0) ∧
    gives (.opSltiu h d a imm) (if A.toNat < sx.toNat then 1 else 0) ∧
    gives (.opShin h d a imm) ((A <<< 15) ||| zx) ∧
    (imm < 64 → gives (.opSlli h d a imm) (A <<< imm) ∧ gives (.opSrli h d a imm) (A >>> imm) ∧
      gives (.opSrai h d a imm) (A.sshiftRight imm))) ∧
  (∀ (x : Ctx) (v : Word), x.rs 0 = 0 ∧ x.ws 0 v = x ∧
    ∀ i, i ≠ 0 → (x.ws i v).rs i = v ∧ ∀ j, j ≠ i → (x.ws i v).rs j = x.rs j)

/-- R187, Table 9.3: RDSR of a gallery context writes D with the special register that B numbers; CLOCK is a count of clocks
that the model leaves free (log entry 22). R187, R92, R94: WRSR writes FLAGS, RND or RNGSTATE of a gallery context from A:
the five flags, a rounding mode that is not the reserved code 3, a generator state in which zero is replaced by 0x9E3779B9.
MOVPS and MOVSP move a predicate register to and from a scalar register (Table 9.2).
Completes: opRdsr, opWrsr, opMovps, opMovsp. -/
def Obligations.SpecialRegisters : Prop :=
  (∀ (s : State) (site core c d : Nat), site < 448 → core < 32 → c < 128 →
    CanIssue s (.gal site core c) → Bears s (.gal site core c) Charge.issue →
    let h := Hart.gal site core c
    let x := s.hctx h
    let gives (i v : Nat) : Prop :=
      ∃ t, exec (.opRdsr h d i) s = .next t ∧ OwnContext s t h ((x.past h 4).ws d (BitVec.ofNat 64 v))
    gives 0 (s.threadAddr site core c) ∧ gives 1 (s.fld R.DRIP_NUMBER_NUMBER) ∧ gives 3 x.flags ∧ gives 4 x.rnd ∧
    gives 5 x.rng ∧ gives 6 (s.taskOf (ctxKey site core c)) ∧ gives 7 (s.fld (R.CORE_STATUS_GEN site core)) ∧
    gives 8 x.priv ∧
    ∃ t n, n < 2 ^ 48 ∧ exec (.opRdsr h d 2) s = .next t ∧ t.hctx h = (x.past h 4).ws d (BitVec.ofNat 64 n) ∧ t.mem = s.mem) ∧
  (∀ (s : State) (site core c a p : Nat), p < 4 →
    CanIssue s (.gal site core c) → Bears s (.gal site core c) Charge.issue →
    let h := Hart.gal site core c
    let x := s.hctx h
    let y := x.past h 4
    let v := (x.rs a).toNat
    let gives (i : Instr) (z : Ctx) : Prop := ∃ t, exec i s = .next t ∧ OwnContext s t h z
    gives (.opWrsr h 3 a) { y with flags := v % 32 } ∧
    (v % 4 ≠ 3 → gives (.opWrsr h 4 a) { y with rnd := v % 4 }) ∧
    gives (.opWrsr h 5 a) { y with rng := if v % 2 ^ 32 = 0 then 0x9E3779B9 else v % 2 ^ 32 } ∧
    (∀ d, gives (.opMovps h d p) (y.ws d ((x.rp p).setWidth 64))) ∧
    gives (.opMovsp h p a) (y.wp p ((x.rs a).setWidth 16)))

/-- R210, R359, Table 9.11: on a Leriq-M core WFE parks its context on the mask in A; BCALL by a context of the management
core at S enters Bedrock's queue of 16 and stalls its context, and a reserved call number is answered BAD_CALL (1) at once.
Completes: opWfe, opBcall. -/
def Obligations.ManagementCalls : Prop :=
  (∀ (s : State) (h : Hart) (d a : Nat), isM h = true → CanIssue s h →
    let x := s.hctx h
    ∃ t, exec (.opWfe h d a) s = .next t ∧ OwnContext s t h { x.past h 4 with st := .parkedEvent (x.rs a).toNat d }) ∧
  ∀ (s : State) (k d a b : Nat), CanIssue s (.mgmt k) → (s.mHart (.mgmt k)).priv ≠ 2 →
    let h := Hart.mgmt k
    let x := s.hctx h
    let num := (x.rs a).toNat % 2 ^ 16
    (num = 0 ∨ 15 ≤ num → ∃ t, exec (.opBcall h d a b) s = .next t ∧ OwnContext s t h ((x.past h 4).ws d 1)) ∧
    (1 ≤ num ∧ num ≤ 14 ∧ s.sec.calls.length < 16 →
      ∃ t, exec (.opBcall h d a b) s = .next t ∧ t.hctx h = { x.past h 4 with st := .stalled (.bcall d) } ∧
        t.sec.calls = s.sec.calls ++ [⟨k, d, num, (x.rs b).toNat⟩] ∧ t.mem = s.mem ∧ t.csr = s.csr)

/-! ## Chapters 8 and 9: narrow memory -/

/-- R165, R190: a narrow load writes D with the little-endian bytes at its address, sign-extended (LD8 to LD64) or
zero-extended (LDU8 to LDU32): cells of the own gallery whose scoreboard, slice and poison let it through, or the local
memory of a Leriq-M core. A load at a module address stalls its context until the answer returns (R165). R190: a narrow store
writes the low bytes of D, least significant first, at its address: cells of the own gallery, or the local memory of a
Leriq-M core; every other byte of memory stays. R167: a store at a module address waits among the stores of its context, which
goes on.
Completes: opLd8, opLd16, opLd32, opLd64, opLdu8, opLdu16, opLdu32, opSt8, opSt16, opSt32, opSt64. -/
def Obligations.NarrowAccess : Prop :=
  (∀ (s : State) (h : Hart) (d a disp addr : Nat), CanIssue s h →
    let x := s.hctx h
    effAddr (x.rs a) (sextN 15 disp) = some addr →
    ∀ i n sg, (i, n, sg) ∈ [(Instr.opLd8 h d a disp, 1, true), (.opLd16 h d a disp, 2, true), (.opLd32 h d a disp, 4, true),
        (.opLd64 h d a disp, 8, true), (.opLdu8 h d a disp, 1, false), (.opLdu16 h d a disp, 2, false),
        (.opLdu32 h d a disp, 4, false)] →
      let value (v : Nat) : Word := if sg then (BitVec.ofNat (8 * n) v).signExtend 64 else (BitVec.ofNat (8 * n) v).setWidth 64
      (∀ site core c off, h = .gal site core c → s.target h x addr n false = some (.cells off) →
        s.blockers site [⟨false, off, n⟩] = 0 → s.gate site off n = .ok → s.galPoisoned site off n = false →
        Bears s h Charge.issue → site < 448 →
        ∃ t, exec i s = .next t ∧ t.hctx h = (x.past h 4).ws d (value (leNat (s.rdGal site off n))) ∧
          (∀ a, a < hostKey 0 → t.rdByte a = s.rdByte a) ∧
          (s.marksIn site off n = [] → OwnContext s t h ((x.past h 4).ws d (value (leNat (s.rdGal site off n)))))) ∧
      (∀ k, s.target h x addr n false = some (.own k) → isM h = true →
        ∃ t, exec i s = .next t ∧ OwnContext s t h ((x.past h 4).ws d (value (s.rdNat k n)))) ∧
      (∀ m, s.target h x addr n false = some (.module m) → Bears s h { Charge.issue with stack := s.loadUnits h m } →
        ∃ t, exec i s = .next t ∧ t.hctx h = { x.past h 4 with st := .stalled (.load d n sg m s.epoch) } ∧ t.mem = s.mem)) ∧
  (∀ (s : State) (h : Hart) (d a disp addr : Nat), CanIssue s h →
    let x := s.hctx h
    effAddr (x.rs a) (sextN 15 disp) = some addr →
    ∀ i n, (i, n) ∈ [(Instr.opSt8 h d a disp, 1), (.opSt16 h d a disp, 2), (.opSt32 h d a disp, 4), (.opSt64 h d a disp, 8)] →
      (∀ site core c off, h = .gal site core c → s.target h x addr n true = some (.cells off) →
        s.blockers site [⟨true, off, n⟩] = 0 → s.gate site off n = .ok → s.galPoisoned site off n = false →
        Bears s h Charge.issue → site < 448 →
        let key := galKey site off
        ∃ t, exec i s = .next t ∧ t.hctx h = x.past h 4 ∧ t.rdBytes key n = leBytes n (x.rs d).toNat ∧
          (∀ a, a < hostKey 0 → (a < key ∨ key + n ≤ a) → t.rdByte a = s.rdByte a) ∧
          (s.marksIn site off n = [] → OwnStore s t h (x.past h 4) key (leBytes n (x.rs d).toNat) [(R.TR_ARB_DIRTY site).addr])) ∧
      (∀ k, s.target h x addr n true = some (.own k) → isM h = true →
        ∃ t, exec i s = .next t ∧ OwnStore s t h (x.past h 4) k (leBytes n (x.rs d).toNat) []) ∧
      (∀ m, s.target h x addr n true = some (.module m) →
        Bears s h { Charge.issue with stack := match h, placeOf m with
          | .gal _ _ _, .stack _ => 1
          | _, _ => 0 } →
        let gen := match h with
          | .gal site core _ => s.fld (R.CORE_STATUS_GEN site core)
          | _ => s.epoch
        ∃ t, exec i s = .next t ∧ t.mem = s.mem ∧
          t.hctx h = { x.past h 4 with stores := x.stores ++ [(gen, m, n, (x.rs d).toNat % 2 ^ (8 * n))] }))

/-- R165: the answer to a load in module form: the context of a stalled load is READY with D written. The data are the bytes
of host memory while the link is up; the bytes of an open stack whose unit is not poisoned, or of their line in cache mode
(R76); the register, where its block answers; the cells of the gallery that the survey bank of the load's epoch places behind
the window (R261). R167: the acknowledgement of the oldest store in module form of a context performs it: into host memory,
while the link is up and the host's memory may be written; into an open stack; on a register, as a register write of the
context; into the cells behind a window. R286: a register, host or window access of a Leriq context that is not answered in
time is counted and ends: a load returns zero, a store is discarded.
Completes: narrowLoadReturn, moduleStoreAck, ropeTimeout. -/
def Obligations.RopeAnswers : Prop :=
  (∀ (s : State) (h : Hart) (d n m e : Nat) (sg : Bool), (s.hctx h).st = .stalled (.load d n sg m e) →
    n ∈ [1, 2, 4, 8] → m % n = 0 →
    let gives (v : Nat) (quiet : Prop) : Prop := ∃ t, exec (.narrowLoadReturn h) s = .next t ∧
      t.hctx h = { (s.hctx h).ws d (loadExt sg n v) with st := .ready } ∧ (∀ a, a < hostKey 0 → t.rdByte a = s.rdByte a) ∧
      (quiet → t.mem = s.mem ∧ t.csr = s.csr)
    (∀ p, placeOf m = .host p → s.hostOpen = true → (∀ site core c, h = .gal site core c → s.sandboxed site = false) →
      gives (s.rdNat (hostKey p) n) True) ∧
    (∀ y, placeOf m = .stack y → (∀ site core c, h = .gal site core c → s.cacheOn site = false) → s.stackOpen y = true →
      s.stackPoisoned y = false → gives (leNat (s.rdStack y n)) True) ∧
    (∀ y site core c, placeOf m = .stack y → h = .gal site core c → s.cacheOn site = true →
      (∀ bs, s.cached site (y / 512) = some bs →
        gives (leNat ((List.range n).map (fun i => bs.getD (y % 512 + i) 0))) True) ∧
      (s.cached site (y / 512) = none → s.stackOpen y = true →
        (∀ i, i < 8 → s.stackPoisoned (y / 512 * 512 + 64 * i) = false) → gives (leNat (s.rdStack y n)) True)) ∧
    (∀ y f, placeOf m = .csr y → 4 ≤ n → regAt (y - y % 8) = some f → s.gated f = false → s.boot.hung = [] →
      (∀ base, blockAt y ≠ some (.SEC, base)) → (∀ base, blockAt y = some (.BRG, base) → y < base + 0x10000) →
      gives ((s.viewOf f (y - y % 8)).toNat / 2 ^ (8 * (y % 8)) % 2 ^ (8 * n)) True) ∧
    (∀ lg off dst, placeOf m = .gal lg off → s.siteOfLgIn e lg = some dst → 2 ≤ s.bank e → dst < 448 →
      s.gate dst off n = .ok → s.galPoisoned dst off n = false → gives (leNat (s.rdGal dst off n)) False)) ∧
  (∀ (s : State) (h : Hart) (gen m n v : Nat) (rest : List (Nat × Nat × Nat × Nat)),
    (s.hctx h).stores = (gen, m, n, v) :: rest → (s.hctx h).st ≠ .free → n ∈ [1, 2, 4, 8] → m % n = 0 →
    (∀ site core c, h = .gal site core c → s.sandboxed site = false ∧ gen = s.fld (R.CORE_STATUS_GEN site core)) →
    let wrote (key : Nat) : Prop := ∃ t, exec (.moduleStoreAck h) s = .next t ∧
      t.hctx h = { s.hctx h with stores := rest } ∧ t.rdBytes key n = leBytes n v ∧
      ∀ a, (a < key ∨ key + n ≤ a) → t.rdByte a = s.rdByte a
    (∀ p, placeOf m = .host p → s.hostOpen = true → s.hostWrOk = true → wrote (hostKey p)) ∧
    (∀ y, placeOf m = .stack y → s.stackOpen y = true → s.stackPoisoned y = false → wrote (s.stackByteKey y)) ∧
    (∀ y, placeOf m = .csr y → s.boot.hung = [] →
      exec (.moduleStoreAck h) s = .next ((s.modHctx h (fun c => { c with stores := rest })).regWriteS h y n v)) ∧
    (∀ lg off dst, placeOf m = .gal lg off → s.siteOfLgIn gen lg = some dst → 2 ≤ s.bank gen → s.gate dst off n = .ok →
      wrote (galKey dst off))) ∧
  ((∀ (s : State) (h : Hart) (d n m e : Nat) (sg : Bool), (s.hctx h).st = .stalled (.load d n sg m e) → ropeAddr m = true →
    ∃ t, exec (.ropeTimeout h false) s = .next t ∧ t.hctx h = { (s.hctx h).ws d 0 with st := .ready }) ∧
  ∀ (s : State) (h : Hart) (e : Nat × Nat × Nat × Nat) (rest : List (Nat × Nat × Nat × Nat)),
    (s.hctx h).stores = e :: rest → (s.hctx h).st ≠ .free → ropeAddr e.2.1 = true →
    ∃ t, exec (.ropeTimeout h true) s = .next t ∧ t.hctx h = { s.hctx h with stores := rest } ∧
      ∀ a, a < hostKey 0 → t.rdByte a = s.rdByte a)

/-- R191: VLD writes `v`D with 64 bytes of the own gallery's cells, lane 0 lowest; VST stores `v`D there. R192: an atomic
reads the 8 bytes at its address, writes there the sum with D (AADD), D (ASWAP) or D where the old value equals B (ACAS), and
gives D the old value, in one step.
Completes: opVld, opVst, opAadd, opAswap, opAcas. -/
def Obligations.WideAccess : Prop :=
  (∀ (s : State) (site core c d a disp off : Nat), d < 8 →
    let h := Hart.gal site core c
    let x := s.hctx h
    CanIssue s h → Bears s h Charge.issue → s.gate site off 64 = .ok →
    (s.cellsOf site core x a (sextN 15 disp) 64 false = some off → s.blockers site [⟨false, off, 64⟩] = 0 →
      s.galPoisoned site off 64 = false → site < 448 →
      let y := (x.past h 4).wv d (BitVec.ofNat 512 (leNat (s.rdGal site off 64)))
      ∃ t, exec (.opVld h d a disp) s = .next t ∧ t.hctx h = y ∧ (∀ a, a < hostKey 0 → t.rdByte a = s.rdByte a) ∧
        (s.marksIn site off 64 = [] → OwnContext s t h y)) ∧
    (s.cellsOf site core x a (sextN 15 disp) 64 true = some off → s.blockers site [⟨true, off, 64⟩] = 0 →
      ∃ t, exec (.opVst h d a disp) s = .next t ∧
        OwnStore s t h (x.past h 4) (galKey site off) (leBytes 64 (x.rv d).toNat) [(R.TR_ARB_DIRTY site).addr])) ∧
  (∀ (s : State) (h : Hart) (d a b disp : Nat), CanIssue s h → Bears s h Charge.issue →
    let x := s.hctx h
    ∀ (f : Word → Word) (i : Instr), (i, f) ∈ [(Instr.opAadd h d a 0 disp, fun old => old + x.rs d),
        (.opAswap h d a 0 disp, fun _ => x.rs d), (.opAcas h d a b disp, fun old => if old = x.rs b then x.rs d else old)] →
      (∀ site core c off, h = .gal site core c → s.cellsOf site core x a (sextN 11 disp) 8 false = some off →
        s.cellsOf site core x a (sextN 11 disp) 8 true = some off → s.blockers site [⟨true, off, 8⟩] = 0 →
        s.gate site off 8 = .ok → s.galPoisoned site off 8 = false → site < 448 →
        let old := BitVec.ofNat 64 (leNat (s.rdGal site off 8))
        let key := galKey site off
        ∃ t, exec i s = .next t ∧ t.hctx h = (x.past h 4).ws d old ∧ t.rdBytes key 8 = leBytes 8 (f old).toNat ∧
          (∀ a, a < hostKey 0 → (a < key ∨ key + 8 ≤ a) → t.rdByte a = s.rdByte a) ∧
          (s.marksIn site off 8 = [] →
            OwnStore s t h ((x.past h 4).ws d old) key (leBytes 8 (f old).toNat) [(R.TR_ARB_DIRTY site).addr])) ∧
      (∀ addr k, isM h = true → effAddr (x.rs a) (sextN 11 disp) = some addr → s.target h x addr 8 true = some (.own k) →
        let old := BitVec.ofNat 64 (s.rdNat k 8)
        ∃ t, exec i s = .next t ∧ OwnStore s t h ((x.past h 4).ws d old) k (leBytes 8 (f old).toNat) []))

/-! ## Chapter 9: branches -/

/-- R193: a branch that is taken goes to PC + 4 × its offset (JALR: A plus its offset), one that is not taken goes on behind
itself and checks no target; JAL and JALR write D with PC + 4. A branch that is taken to a target that is not a multiple of 4
or not fetchable takes a BOUNDS fault (code 1) at the branch, which writes no register.
Completes: opBeq, opBne, opBlt, opBge, opBltu, opBgeu, opBpany, opBpall, opBpnone, opJal, opJalr. -/
def Obligations.Branches : Prop :=
  ∀ (s : State) (h : Hart) (d a b off p : Nat), p < 4 → CanIssue s h → Bears s h Charge.issue →
    let x := s.hctx h
    let y := x.past h 4
    let A := x.rs a
    let B := x.rs b
    let gives (i : Instr) (z : Ctx) : Prop := ∃ t, exec i s = .next t ∧ OwnContext s t h z
    let bounds (i : Instr) : Prop := (∀ site core c, h = .gal site core c → exec i s = .next (s.ctxFault (ctxKey site core c) 1)) ∧
      (isM h = true → exec i s = .next (s.mFault h 1))
    let cond (i : Instr) (taken : Bool) : Prop :=
      let target : Int := x.pc + 4 * sextN 15 off
      (taken = false → gives i y) ∧ (taken = true → s.targetOk h x target = true → gives i { y with pc := target.toNat }) ∧
        (taken = true → s.targetOk h x target = false → bounds i)
    cond (.opBeq h a b off) (A == B) ∧ cond (.opBne h a b off) (A != B) ∧
    cond (.opBlt h a b off) (decide (A.toInt < B.toInt)) ∧ cond (.opBge h a b off) (decide (B.toInt ≤ A.toInt)) ∧
    cond (.opBltu h a b off) (decide (A.toNat < B.toNat)) ∧ cond (.opBgeu h a b off) (decide (B.toNat ≤ A.toNat)) ∧
    (isM h = false → cond (.opBpany h p off) (x.rp p != 0) ∧ cond (.opBpall h p off) (x.rp p == 0xFFFF) ∧
      cond (.opBpnone h p off) (x.rp p == 0)) ∧
    (s.targetOk h x (x.pc + 4 * sextN 19 off) = true →
      gives (.opJal h d off) { y.ws d (BitVec.ofNat 64 (x.pc + 4)) with pc := (x.pc + 4 * sextN 19 off : Int).toNat }) ∧
    (s.targetOk h x (x.pc + 4 * sextN 19 off) = false → bounds (.opJal h d off)) ∧
    (s.targetOk h x (A + BitVec.ofInt 64 (sextN 15 off)).toNat = true →
      gives (.opJalr h d a off) { y.ws d (BitVec.ofNat 64 (x.pc + 4)) with pc := (A + BitVec.ofInt 64 (sextN 15 off)).toNat }) ∧
    (s.targetOk h x (A + BitVec.ofInt 64 (sextN 15 off)).toNat = false → bounds (.opJalr h d a off))

/-! ## Chapters 5 and 9: vector instructions -/

/-- R184, R185, R194: a floating operation on 16 lanes: each active lane of VD takes the operation of Table 9.7 on the lanes
of A, B and VD widened to FP32; a signalling operand sets the invalid flag; the generator makes 16 draws under mode 2. R185,
R194: a compare writes one predicate bit for each active lane; VICMPLT compares signed integers.
Completes: opVadd, opVsub, opVmul, opVfma, opVmax, opVmin, opVabs, opVneg, opVrcp, opVrsq, opVexp2, opVlog2, opVcmplt,
opVcmple, opVcmpeq, opVicmplt. -/
def Obligations.VectorResults : Prop :=
  (∀ (s : State) (site core c : Nat) (v : VOp),
    let h := Hart.gal site core c
    let x := s.hctx h
    let A (i : Nat) : Nat := laneWide v.fmt (x.rv v.a) i
    let B (i : Nat) : Nat := laneWide v.fmt (x.rv v.b) i
    let D (i : Nat) : Nat := laneCode 0 (x.rv v.vd) i
    let sa (i : Nat) : Bool := laneSNan v.fmt (x.rv v.a) i
    let sb (i : Nat) : Bool := laneSNan v.fmt (x.rv v.b) i
    let m := x.rnd
    let ds (i : Nat) : Nat := laneDraw x i
    CanIssue s h → Bears s h Charge.issue → v.a < 8 → v.fmt < 3 → v.ctl = 0 →
    let gives (j : Instr) (r : Nat → Nat × Nat) (inv : Nat → Bool) : Prop :=
      ∃ t y, exec j s = .next t ∧ OwnContext s t h y ∧ y.rng = drawn x ∧
        VecResult (x.past h 4) y v (fun i => ((r i).1, (r i).2 ||| (if inv i then flagInvalid else 0)))
    (v.b < 8 → gives (.opVadd h v) (fun i => addF32 m (ds i) (A i) (B i)) (fun i => sa i || sb i) ∧
      gives (.opVsub h v) (fun i => subF32 m (ds i) (A i) (B i)) (fun i => sa i || sb i) ∧
      gives (.opVmul h v) (fun i => mulF32 m (ds i) (A i) (B i)) (fun i => sa i || sb i) ∧
      gives (.opVfma h v) (fun i => fmaF32 m (ds i) (A i) (B i) (D i)) (fun i => sa i || sb i || laneSNan 0 (x.rv v.vd) i) ∧
      gives (.opVmax h v) (fun i => maxF32 (A i) (B i)) (fun i => sa i || sb i) ∧
      gives (.opVmin h v) (fun i => minF32 (A i) (B i)) (fun i => sa i || sb i)) ∧
    (v.b = 0 → gives (.opVabs h v) (fun i => (canon (A i % 2 ^ 31), 0)) (fun _ => false) ∧
      gives (.opVneg h v) (fun i => (canon (A i ^^^ 2 ^ 31), 0)) (fun _ => false) ∧
      gives (.opVrcp h v) (fun i => rcpF32 (A i)) sa ∧ gives (.opVrsq h v) (fun i => rsqF32 (A i)) sa ∧
      gives (.opVexp2 h v) (fun i => exp2F32 (A i)) sa ∧ gives (.opVlog2 h v) (fun i => log2F32 (A i)) sa)) ∧
  (∀ (s : State) (site core c : Nat) (v : VOp),
    let h := Hart.gal site core c
    let x := s.hctx h
    let A (i : Nat) : Nat := laneWide v.fmt (x.rv v.a) i
    let B (i : Nat) : Nat := laneWide v.fmt (x.rv v.b) i
    let inv (i : Nat) : Nat := if laneSNan v.fmt (x.rv v.a) i || laneSNan v.fmt (x.rv v.b) i then flagInvalid else 0
    CanIssue s h → Bears s h Charge.issue → v.vd < 4 → v.a < 8 → v.b < 8 → v.ctl = 0 →
    let gives (j : Instr) (r : Nat → Bool × Nat) : Prop :=
      ∃ t y, exec j s = .next t ∧ OwnContext s t h y ∧ y.rng = drawn x ∧ PredResult (x.past h 4) y v r
    let withInv (f : Nat → Nat → Bool × Nat) (i : Nat) : Bool × Nat := ((f (A i) (B i)).1, (f (A i) (B i)).2 ||| inv i)
    (v.fmt < 3 → gives (.opVcmplt h v) (withInv cmpLtF32) ∧ gives (.opVcmple h v) (withInv cmpLeF32) ∧
      gives (.opVcmpeq h v) (withInv cmpEqF32)) ∧
    (3 ≤ v.fmt ∧ v.fmt < 6 → gives (.opVicmplt h v) (fun i => (decide (sextN 32 (A i) < sextN 32 (B i)), 0))))

/-- R195: selection, permutation and broadcast, and the integer lane operations, modulo 2^32: no flag is set. R90, R194,
R195: conversion writes 16 lanes of the format of CTL[2:0] with zeros above them; the reductions give every active lane one
result over all 16 lanes of A; VEXT gives `s`A one lane, zero-extended. R195: the predicate operations act on all 16 bits,
whatever the guard.
Completes: opVsel, opVperm, opVbcast, opVins, opViadd, opVisub, opVimul, opVand, opVor, opVxor, opVshl, opVsra,
opVcvt, opVhsum, opVhmax, opVext, opPand, opPor, opPxor, opPandn. -/
def Obligations.VectorMoves : Prop :=
  (∀ (s : State) (site core c : Nat) (v : VOp),
    let h := Hart.gal site core c
    let x := s.hctx h
    let A (i : Nat) : Nat := laneWide v.fmt (x.rv v.a) i
    let B (i : Nat) : Nat := laneWide v.fmt (x.rv v.b) i
    CanIssue s h → Bears s h Charge.issue →
    let gives (j : Instr) (r : Nat → Nat) : Prop :=
      ∃ t y, exec j s = .next t ∧ OwnContext s t h y ∧ y.rng = drawn x ∧ VecResult (x.past h 4) y v (fun i => (r i, 0))
    (v.a < 8 → v.b < 8 → v.ctl < 4 → v.fmt < 3 →
      gives (.opVsel h v) (fun i => if (x.rp v.ctl).getLsbD i then laneMoved v.fmt (x.rv v.a) i else laneMoved v.fmt (x.rv v.b) i)) ∧
    (v.a < 8 → v.b < 8 → v.ctl = 0 → v.fmt < 6 →
      gives (.opVperm h v) (fun i => laneMoved v.fmt (x.rv v.a) (laneCode 3 (x.rv v.b) i % 16))) ∧
    (v.b = 0 → v.ctl = 0 → v.fmt = 0 → gives (.opVbcast h v) (fun _ => (x.rs v.a).toNat)) ∧
    (v.b = 0 → v.ctl < 16 → v.fmt = 0 →
      gives (.opVins h v) (fun i => if i = v.ctl then (x.rs v.a).toNat else laneCode 0 (x.rv v.vd) i)) ∧
    (v.a < 8 → v.b < 8 → v.ctl = 0 → 3 ≤ v.fmt → v.fmt < 6 →
      gives (.opViadd h v) (fun i => A i + B i) ∧ gives (.opVisub h v) (fun i => A i + 2 ^ 32 - B i) ∧
      gives (.opVimul h v) (fun i => A i * B i) ∧ gives (.opVand h v) (fun i => A i &&& B i) ∧
      gives (.opVor h v) (fun i => A i ||| B i) ∧ gives (.opVxor h v) (fun i => A i ^^^ B i)) ∧
    (v.a < 8 → v.b = 0 → v.ctl < 32 → 3 ≤ v.fmt → v.fmt < 6 →
      gives (.opVshl h v) (fun i => A i * 2 ^ v.ctl) ∧
      gives (.opVsra h v) (fun i => toBits 32 (sextN 32 (A i) / 2 ^ v.ctl)))) ∧
  (∀ (s : State) (site core c : Nat) (v : VOp),
    let h := Hart.gal site core c
    let x := s.hctx h
    let A (i : Nat) : Nat := laneWide v.fmt (x.rv v.a) i
    CanIssue s h → Bears s h Charge.issue →
    (v.a < 8 → v.b = 0 → v.ctl < 6 → v.fmt < 6 →
      ∃ t y, exec (.opVcvt h v) s = .next t ∧ OwnContext s t h y ∧ y.rng = drawn x ∧
        (∀ i, i < 16 → laneCode v.ctl (y.rv v.vd) i = if x.active v i
          then (cvtTo v.ctl x.rnd (laneDraw x i) (laneVal v.fmt (x.rv v.a) i)).1 % 2 ^ laneWidth v.ctl
          else laneCode v.ctl (x.rv v.vd) i) ∧
        (y.rv v.vd).toNat < 2 ^ (16 * laneWidth v.ctl)) ∧
    (v.a < 8 → v.b = 0 → v.ctl = 0 → v.fmt < 3 →
      let inv : Nat := if (List.range 16).any (fun i => laneSNan v.fmt (x.rv v.a) i) then flagInvalid else 0
      let gives (j : Instr) (r : Nat × Nat) : Prop :=
        ∃ t y, exec j s = .next t ∧ OwnContext s t h y ∧ y.rng = drawn x ∧
          VecResult (x.past h 4) y v (fun _ => (r.1, r.2 ||| inv))
      let lanes := (List.range 16).map A
      gives (.opVhsum h v) (pairTree (fun draw a b => addF32 x.rnd draw a b) lanes (if x.rnd = 2 then (draws 16 x.rng).1 else [])) ∧
      gives (.opVhmax h v) (pairTree (fun _ a b => maxF32 a b) lanes [])) ∧
    (v.b < 8 → v.vd = 0 → v.ctl < 16 → v.fmt < 6 →
      ∃ t, exec (.opVext h v) s = .next t ∧
        OwnContext s t h ({ x.past h 4 with rng := drawn x }.ws v.a (BitVec.ofNat 64 (laneMoved v.fmt (x.rv v.b) v.ctl))))) ∧
  (∀ (s : State) (site core c vd a b : Nat), vd < 4 → a < 4 → b < 4 →
    let h := Hart.gal site core c
    let v : VOp := ⟨vd, a, b, 0, 0, 0, 0⟩
    let x := s.hctx h
    CanIssue s h → Bears s h Charge.issue →
    let gives (j : Instr) (p : BitVec 16) : Prop := ∃ t, exec j s = .next t ∧ OwnContext s t h ((x.past h 4).wp vd p)
    gives (.opPand h v) (x.rp a &&& x.rp b) ∧ gives (.opPor h v) (x.rp a ||| x.rp b) ∧
    gives (.opPxor h v) (x.rp a ^^^ x.rp b) ∧ gives (.opPandn h v) (x.rp a &&& ~~~(x.rp b)))

/-! ## Chapter 4: gallery memory -/

/-- R78, R79, Table 4.3: slices change power as their state lets them: a request to power down drains a slice that is ON or
in cache mode and is held by one that wakes; one to power up wakes a slice that is OFF and is held by one that drains; both are
held during a hand-over; the end of a drain turns the slice OFF, or to WAKE where a request is held, the end of a wake turns it
ON with its cells zero, or to DRAIN where a request is held; a drain that lasts too long ends all the same, with
GM_ERR_STATUS.DRAIN_TIMEOUT. R61, R68, R75, R76: GM_GROUP_ILV takes the map of each group whose slices are all OFF, and keeps
that of any other with a record of class CE; an invalidation of the cache lines sets INV_BUSY and empties the cache, and its end
clears it; a move of claims acts on every claim of a FROZEN task that lies wholly in the range, where none lies partly in it.
Completes: sliceOffRequest, sliceOnRequest, sliceDrainComplete, sliceDrainTimeout, sliceWakeComplete, gmGroupIlvWrite,
cacheInvalidate, cacheInvalidateComplete, sbMoveSuspend, sbMoveRebase. -/
def Obligations.GalleryMemory : Prop :=
  (∀ (s : State) (site : Nat),
    (∀ src v f, Lands s src (R.GM_PWR_OFF_REQ site) f whole v → s.splitsGroup site (getBits v 0 32) = false →
      (s.fld (R.GM_SCRUB_STATE site) ≠ 0 → ∃ t, exec (.sliceOffRequest src site v) s = .next t ∧
        (t.gm site).held = (s.gm site).held ++ [(false, getBits v 0 32)] ∧ Keeps s t []) ∧
      (s.fld (R.GM_SCRUB_STATE site) = 0 → ∃ t, exec (.sliceOffRequest src site v) s = .next t ∧ t.mem = s.mem ∧ t.ctxs = s.ctxs ∧
        ∀ k, k < 32 →
          (t.slice site k = if getBits v k 1 = 1 ∧ (s.slice site k = 2 ∨ s.slice site k = 5) then 4 else s.slice site k) ∧
          (bitN (t.gm site).heldOff k = if getBits v k 1 = 1 ∧ s.slice site k = 1 then 1 else bitN (s.gm site).heldOff k))) ∧
    (∀ src v f, Lands s src (R.GM_PWR_ON_REQ site) f whole v → s.splitsGroup site (getBits v 0 32) = false →
      (s.fld (R.GM_SCRUB_STATE site) ≠ 0 → ∃ t, exec (.sliceOnRequest src site v) s = .next t ∧
        (t.gm site).held = (s.gm site).held ++ [(true, getBits v 0 32)] ∧ Keeps s t []) ∧
      (s.fld (R.GM_SCRUB_STATE site) = 0 → ∃ t, exec (.sliceOnRequest src site v) s = .next t ∧ t.mem = s.mem ∧ t.ctxs = s.ctxs ∧
        ∀ k, k < 32 →
          (t.slice site k = if getBits v k 1 = 1 ∧ s.slice site k = 0 then 1 else s.slice site k) ∧
          (bitN (t.gm site).heldOn k = if getBits v k 1 = 1 ∧ (s.slice site k = 3 ∨ s.slice site k = 4) then 1
            else bitN (s.gm site).heldOn k))) ∧
    ∀ k, k < 32 →
      (s.slice site k = 4 →
        (∃ t, exec (.sliceDrainComplete site k) s = .next t ∧ t.slice site k = bitN (s.gm site).heldOn k ∧
          Keeps s t [(R.GM_SLICE_STATE_STATE site (k / 16) (k % 16)).addr]) ∧
        (∃ t, exec (.sliceDrainTimeout site ⟨k, [], []⟩) s = .next t ∧ t.slice site k = bitN (s.gm site).heldOn k ∧
          t.fld (R.GM_ERR_STATUS_DRAIN_TIMEOUT site) = 1 ∧
          Keeps s t [(R.GM_SLICE_STATE_STATE site (k / 16) (k % 16)).addr, R.GM_ERR_STATUS site]) ∧
        ∀ late ctxs, ∃ t, exec (.sliceDrainTimeout site ⟨k, late, ctxs⟩) s = .next t ∧
          t.fld (R.GM_ERR_STATUS_DRAIN_TIMEOUT site) = 1) ∧
      (s.slice site k = 1 →
        ∃ t, exec (.sliceWakeComplete site k) s = .next t ∧ t.slice site k = (if bitN (s.gm site).heldOff k = 1 then 4 else 2) ∧
          (∀ o, o < cellsEnd → s.sliceOf site o = k → t.rdByte (galKey site o) = 0) ∧ t.ctxs = s.ctxs)) ∧
  (∀ (s : State) (src : Src) (site : Nat) (v : Word) (f : Found),
    (Lands s src (R.GM_GROUP_ILV site) f whole v →
      let old := s.fld (R.GM_GROUP_ILV_ILV site)
      let off (g : Nat) : Bool := (List.range 4).all (fun i => s.slice site (4 * g + i) == 0)
      let map (g : Nat) : Nat := if off g then bitN (getBits v 0 8) g else bitN old g
      ∃ u : State, (∀ g, g < 8 → bitN (u.fld (R.GM_GROUP_ILV_ILV site)) g = map g) ∧ Keeps s u [R.GM_GROUP_ILV site] ∧
        ((∀ g, g < 8 → map g = bitN (getBits v 0 8) g) → exec (.gmGroupIlvWrite src site v) s = .next u) ∧
        ((∃ g, g < 8 ∧ map g ≠ bitN (getBits v 0 8) g) →
          ∃ e, e.cls = CE ∧ exec (.gmGroupIlvWrite src site v) s = .next (u.raise e))) ∧
    (Lands s src (R.GM_CACHE_CTRL site) f whole v → getBits v 0 1 = 1 →
      ∃ t, exec (.cacheInvalidate src site v) s = .next t ∧ t.fld (R.GM_CACHE_CTRL_INV_BUSY site) = 1 ∧
        (t.gm site).cache = [] ∧ Keeps s t [R.GM_CACHE_CTRL site]) ∧
    (∃ t, exec (.cacheInvalidateComplete site) s = .next t ∧ t.fld (R.GM_CACHE_CTRL_INV_BUSY site) = 0 ∧
      Keeps s t [R.GM_CACHE_CTRL site]) ∧
    (Canonical s → Lands s src (R.GM_SB_MOVE1 site) f whole v → getBits v 63 1 = 1 →
      let task := getBits v 56 6
      let lo := 8 * s.fld (R.GM_SB_MOVE0_FROM site)
      let hi := lo + 8 * s.fld (R.GM_SB_MOVE0_LEN site)
      let entry (e : Nat) : Word := s.reg (R.GM_SB_ENTRY site e)
      let base (e : Nat) : Nat := s.fld (R.GM_SB_ENTRY_BASE site e)
      let upTo (e : Nat) : Nat := base e + s.fld (R.GM_SB_ENTRY_LEN site e)
      let mine (e : Nat) : Prop := s.fld (R.GM_SB_ENTRY_VALID site e) = 1 ∧ s.fld (R.GM_SB_ENTRY_SW site e) = 1 ∧
        s.fld (R.GM_SB_ENTRY_TASK site e) = task
      let inside (e : Nat) : Prop := lo < hi ∧ lo ≤ base e ∧ upTo e ≤ hi
      let moved (e : Nat) : Nat := (base e + 8 * getBits v 0 19 + (2 ^ 22 - lo % 2 ^ 22)) % 2 ^ 22
      let changes (c : Instr) (new : Nat → Word) : Prop := ∃ t, exec c s = .next t ∧
        (∀ e, e < 64 → t.reg (R.GM_SB_ENTRY site e) = new e) ∧ Keeps s t (R.GM_SB_MOVE1 site :: sbRegs site)
      s.frozen (taskM site task) = true →
      (∀ e, e < 64 → mine e → lo < hi → base e < hi → lo < upTo e → inside e) →
      (getBits v 62 1 = 0 → ∃ new : Nat → Word, changes (.sbMoveSuspend src site v) new ∧ ∀ e, e < 64 →
        (mine e ∧ inside e → new e = putBits (entry e) 22 1 1) ∧ (¬ (mine e ∧ inside e) → new e = entry e)) ∧
      (getBits v 62 1 = 1 →
        (∀ e, e < 64 → mine e → inside e → s.fld (R.GM_SB_ENTRY_SUSP site e) = 1 →
          moved e + s.fld (R.GM_SB_ENTRY_LEN site e) ≤ cellsEnd / 64) →
        ∃ new : Nat → Word, changes (.sbMoveRebase src site v) new ∧ ∀ e, e < 64 →
          let hit := mine e ∧ inside e ∧ s.fld (R.GM_SB_ENTRY_SUSP site e) = 1
          (hit → new e = putBits (putBits (entry e) 22 1 0) 0 22 (moved e)) ∧ (¬ hit → new e = entry e))))

/-- R80, R81, R74, Table 4.6: the hand-over scrub goes from HELD to SCRUBBING and ends with every cell of the slices that are
ON or in cache mode zero and the scoreboard, the windows and the context blocks clear; a word that reads back non-zero is
recorded and the state is HELD again. A hardware claim retires when its operation has made its accesses: its entry is free, and
each issue that it held up waits on it no more, with a SCOREBOARD fault to come where the claim retired in ERROR.
Completes: scrubGo, scrubComplete, claimRetire. -/
def Obligations.ScrubAndClaims : Prop :=
  ∀ (s : State) (site : Nat), site < 448 →
    (∀ src v f, Lands s src (R.GM_SCRUB site) f whole v → getBits v 2 1 = 1 → s.fld (R.GM_SCRUB_STATE site) = 1 →
      ∃ t, exec (.scrubGo src site v) s = .next t ∧ t.fld (R.GM_SCRUB_STATE site) = 2 ∧
        t.fld (R.GM_SCRUB_PROGRESS site) = 0 ∧ Keeps s t [R.GM_SCRUB site]) ∧
    (s.fld (R.GM_SCRUB_STATE site) = 2 →
      (∃ t, exec (.scrubComplete site true) s = .next t ∧ t.fld (R.GM_SCRUB_STATE site) = 0 ∧
          (∀ o k, o < cellsEnd → k = s.sliceOf site o → k < 32 → s.slice site k = 2 ∨ s.slice site k = 5 →
            t.rdByte (galKey site o) = 0) ∧
          (∀ e, e < 64 → t.fld (R.GM_SB_ENTRY_VALID site e) = 0) ∧ (∀ b, b < 512 → t.fld (R.CTXBLK_VALID site b) = 0) ∧
          t.ctxs = s.ctxs) ∧
      ∃ t, exec (.scrubComplete site false) s = .next t ∧ t.fld (R.GM_SCRUB_STATE site) = 1 ∧
        t.fld (R.GM_SCRUB_VERIFY_FAIL site) = 1 ∧ t.fld (R.TR_LADDER_SUSPECT site) = 1) ∧
    ∀ e err, e < 64 → s.fld (R.GM_SB_ENTRY_VALID site e) = 1 → s.fld (R.GM_SB_ENTRY_SW site e) = 0 →
      (s.fld (R.GM_SB_ENTRY_KIND site e) = 0 → s.readsDone site (s.opOf site e) = true) →
      (s.fld (R.GM_SB_ENTRY_KIND site e) = 1 → s.opLive site (s.opOf site e) = false) →
      ∃ t, exec (.claimRetire site e err) s = .next t ∧ t.fld (R.GM_SB_ENTRY_VALID site e) = 0 ∧ t.mem = s.mem ∧
        (∀ a, a ≠ R.GM_SB_ENTRY site e → t.reg a = s.reg a) ∧
        ∀ k, let x := s.ctx k
          t.ctx k = if siteOfKey k = site ∧ bitN x.waitsOn e = 1 ∧ x.st = .stalled .issue then
            { x with waitsOn := clrBitN x.waitsOn e, sbFault := x.sbFault || err } else x

/-! ## Chapter 3: cores and galleries -/

/-- R58, R379, R421, Table 18.3: a core reset that is requested begins, or is held for 1 ms after the last one; at its end
the contexts of the core are FREE and its GEN has advanced. R58, R379, R381, Table 18.4: a gallery reset begins; at the end
of its drain GEN has advanced and the gallery is in the state that FENCE and ENABLE give it. A reset that is requested within
1 ms of the last one's begin is held and starts when that time is over.
Completes: coreReset, resetHoldExpiry, coreResetComplete, galleryReset, galleryResetDrainEnd. -/
def Obligations.CoreAndGalleryReset : Prop :=
  (∀ (s : State) (site core : Nat), site < 448 → core < 32 → (s.gr site).busy = false →
    (∀ src v f, Lands s src (R.CORE_CTRL site core) f whole v → getBits v 2 1 = 1 →
      getBits v 1 1 ≤ s.fld (R.CORE_CTRL_FENCE site core) ∨ s.tasksOnCore site core = [] →
      s.fld (R.CORE_STATUS_RESETTING site core) = 0 →
      (∀ x, (s.core (coreKey site core)).lastReset = some x → s.now < x + 1000000 →
        ∃ t, exec (.coreReset src site core v) s = .next t ∧ (t.core (coreKey site core)).held = true ∧ t.mem = s.mem ∧
          (getBits v 3 1 = 0 → getBits v 1 1 = s.fld (R.CORE_CTRL_FENCE site core) → t.csr = s.csr ∧ t.ctxs = s.ctxs)) ∧
      (((s.core (coreKey site core)).lastReset = none ∨
          ∃ x, (s.core (coreKey site core)).lastReset = some x ∧ x + 1000000 ≤ s.now) →
        ∃ t, exec (.coreReset src site core v) s = .next t ∧ t.fld (R.CORE_STATUS_RESETTING site core) = 1 ∧
          (t.core (coreKey site core)).lastReset = some s.now)) ∧
    ((s.core (coreKey site core)).held = true → ∀ x, (s.core (coreKey site core)).lastReset = some x →
      ∃ t, exec (.resetHoldExpiry (.core site core)) s = .next t ∧ t.fld (R.CORE_STATUS_RESETTING site core) = 1 ∧
        (t.core (coreKey site core)).lastReset = some (max s.now (x + 1000000))) ∧
    (s.fld (R.CORE_STATUS_RESETTING site core) = 1 →
      ∃ t, exec (.coreResetComplete site core) s = .next t ∧ t.fld (R.CORE_STATUS_RESETTING site core) = 0 ∧
        t.fld (R.CORE_STATUS_GEN site core) = (s.fld (R.CORE_STATUS_GEN site core) + 1) % 256 ∧
        (∀ c, c < 128 → (t.ctx (ctxKey site core c)).st = .free) ∧ t.mem = s.mem)) ∧
  (∀ (s : State) (site : Nat), site < 448 → s.inChReset site = false →
    (∀ src v f, Lands s src (R.GAL_CTRL site) f whole v → getBits v 2 1 = 1 → (s.gr site).busy = false →
      ((∀ x, (s.gr site).lastAt = some x → x + 1000000 ≤ s.now) →
        ∃ t, exec (.galleryReset src site v) s = .next t ∧ (t.gr site).busy = true ∧ (t.gr site).lastAt = some s.now) ∧
      (∀ x, (s.gr site).lastAt = some x → s.now < x + 1000000 →
        ∃ t, exec (.galleryReset src site v) s = .next t ∧ (t.gr site).busy = false ∧ (t.gr site).held = true ∧ t.mem = s.mem ∧
          t.ctxs = s.ctxs)) ∧
    ((s.gr site).held = true → (s.gr site).busy = false → ∀ x, (s.gr site).lastAt = some x →
      ∃ t, exec (.resetHoldExpiry (.gallery site)) s = .next t ∧ (t.gr site).busy = true ∧
        (t.gr site).lastAt = some (max s.now (x + 1000000))) ∧
    ((s.gr site).busy = true →
      ∃ t, exec (.galleryResetDrainEnd site) s = .next t ∧ (t.gr site).busy = false ∧
        t.fld (R.GAL_STATUS_GEN site) = (s.fld (R.GAL_STATUS_GEN site) + 1) % 256 ∧
        t.fld (R.GAL_STATUS_STATE site) = if s.fld (R.GAL_CTRL_FENCE site) = 1 then 3
          else if s.fld (R.GAL_CTRL_ENABLE site) = 1 then 2 else 1))

/-- R55, Table 8.2: a CTXBLK entry whose contexts are FREE takes a value; R233, R240: the dispatch of a record starts an idle
handler of its task at the handler's address with the record's place, source and tag in `s1` to `s4`; R417: a context that
has not issued for its limit ends its task with WATCHDOG, counted in GAL_WDOG.TRIPS. R50, R51: a fill that returns makes its
line valid and the contexts that wait on it READY; an invalidation discards the fills in flight and sets ICINV_BUSY, and its
end leaves no line valid. R52: a line whose parity fails is fetched again, counted and recorded.
Completes: ctxblkWrite, messageDispatch, contextWatchdogExpiry, icacheFillReturn, icinv, icinvComplete. -/
def Obligations.CoreContexts : Prop :=
  ((∀ (s : State) (src : Src) (site b : Nat) (v : Word) (f : Found), b < 512 → Lands s src (R.CTXBLK site b) f whole v →
    (∀ k, k ∈ blockCtxs site b → (s.ctx k).st = .free) → getBits v 0 6 < 48 → s.fld (R.CTXBLK_VALID site b) = 0 →
    ∃ t, exec (.ctxblkWrite src site b v) s = .next t ∧ t.fld (R.CTXBLK_VALID site b) = getBits v 15 1 ∧
      getBits (t.reg (R.CTXBLK site b)) 0 6 = getBits v 0 6 ∧ Keeps s t [R.CTXBLK site b]) ∧
  (∀ (s : State) (site r w o k : Nat) (x : RingRec) (rest : List RingRec), r < 1024 →
    s.fld (R.MU_CTRL_ENABLE site) = 1 → s.fld (R.MU_RING0_VALID site r) = 1 →
    s.frozen (taskM site (s.fld (R.MU_RING0_TASK site r))) = false →
    (s.ring (site * 1024 + r)).recs = x :: rest → x.st = 0 → x.seq = s.fld (R.MU_RING1_SEQ_NEXT site r) →
    s.handlerOf site (s.fld (R.MU_RING0_TASK site r)) x.tag = some (w, o) →
    s.idleHandler site (s.fld (R.MU_RING0_TASK site r)) = some k → s.ringTurn site = some r →
    ∃ t, exec (.messageDispatch site r) s = .next t ∧ (t.ctx k).st = .ready ∧ (t.ctx k).inHand = some (r, x.slot) ∧
      (t.ctx k).rs 2 = BitVec.ofNat 64 x.src ∧ (t.ctx k).rs 3 = BitVec.ofNat 64 (x.seq * 2 ^ 16 + x.tag) ∧
      (t.ctx k).rs 4 = BitVec.ofNat 64 s.dripNo ∧ t.mem = s.mem ∧ t.csr = s.csr ∧ t.turns.get site 0 = r + 1 ∧
      ∀ j, j ≠ k → t.ctx j = s.ctx j) ∧
  ∀ (s : State) (site core c : Nat), site < 448 → core < 32 → c < 128 →
    let k := ctxKey site core c
    let m := taskM site (s.taskOf k)
    s.fld (R.GAL_WDOG_LIMIT_US site) ≠ 0 → s.frozen m = false → (s.ctx k).st = .ready → s.taskOf k < 48 →
    ∃ t, exec (.contextWatchdogExpiry site core c) s = .next t ∧ t.fld (mValid m) = 0 ∧
      s.now ≤ t.now) ∧
  (∀ (s : State) (site core : Nat), site < 448 → core < 32 →
    (∀ line, (s.core (coreKey site core)).fills.contains line = true →
      s.galPoisoned site (512 * line) 512 = false ∨ s.siteT6 site = true →
      ∃ t, exec (.icacheFillReturn site core line false) s = .next t ∧
        (t.core (coreKey site core)).line line = some (s.rdGal site (512 * line) 512) ∧
        (t.core (coreKey site core)).fills.contains line = false ∧
        (∀ c, c < 128 → t.ctx (ctxKey site core c) = if (s.ctx (ctxKey site core c)).st = .stalled (.icache line) then
          { s.ctx (ctxKey site core c) with st := .ready } else s.ctx (ctxKey site core c)) ∧
        (∀ a, a < hostKey 0 → t.rdByte a = s.rdByte a) ∧
        (s.marksIn site (512 * line) 512 = [] → t.csr = s.csr ∧ t.mem = s.mem)) ∧
    (∀ line, (s.core (coreKey site core)).fills.contains line = true ∨ ((s.core (coreKey site core)).line line).isSome = true →
      ∃ u e, exec (.icacheFillReturn site core line true) s = .next (u.raise e) ∧ e.cls = CE ∧
        (u.core (coreKey site core)).line line = none ∧ (u.core (coreKey site core)).fills.contains line = true ∧
        u.fld (R.HLT_SITE_CNT_CE site) = satAdd (R.HLT_SITE_CNT_CE site).width (s.fld (R.HLT_SITE_CNT_CE site)) 1 ∧
        Keeps s u [R.HLT_SITE_CNT site]) ∧
    (∀ src v f, Lands s src (R.CORE_CTRL site core) f whole v → getBits v 3 1 = 1 →
      ∃ t, exec (.icinv src site core v) s = .next t ∧ t.fld (R.CORE_STATUS_ICINV_BUSY site core) = 1 ∧
        (t.core (coreKey site core)).fills = [] ∧
        (getBits v 2 1 = 0 → getBits v 1 1 ≤ s.fld (R.CORE_CTRL_FENCE site core) →
          (∀ c, c < 128 → let x := s.ctx (ctxKey site core c)
            t.ctx (ctxKey site core c) = match x.st with
              | .stalled (.icache _) => { x with st := .ready }
              | _ => x) ∧ t.mem = s.mem)) ∧
    (s.fld (R.CORE_STATUS_ICINV_BUSY site core) = 1 →
      ∃ t, exec (.icinvComplete site core) s = .next t ∧ (t.core (coreKey site core)).lines = [] ∧
        t.fld (R.CORE_STATUS_ICINV_BUSY site core) = 0 ∧ Keeps s t [R.CORE_STATUS site core]))

/-! ## Chapter 2: the drip -/

/-- R481, R20, R26 to R28: setting ENABLE starts the schedule, the first time with its epoch at that instant, or at that of
the measured source, later at the next boundary of the schedule it had, after the last Open; clearing it stops the drip. SRC
selects the time source: the free-running one is its own time base, any other is lost until it is measured. RESYNC asks for a
step where one is needed. R21: a write of DRIP_APPLY_AT arms a change to
NEXT_US at a drip at least two above the current one, at two above it with APPLY_LATE where the write comes too late; where
NEXT_US equals CUR_US it cancels the armed change. R19: the period is CUR_US microseconds, 1000 at reset; NEXT_US takes a value
of 50 or more and arms nothing, and a smaller one is discarded with a record of class CE; at a cold boot both take the profile's
period before ENABLE is set, and at a module compute reset a profile with another period arms a change to it.
Completes: dripEnableWrite, dripSrcWrite, resync, dripApplyAtWrite, registerWrite. -/
def Obligations.DripRegisters : Prop :=
  (∀ (s : State) (src : Src) (v : Word) (f : Found), Lands s src R.DRIP_CTRL f whole v →
    let on := getBits v 0 1
    let sel := getBits v 1 2
    let regs := [R.DRIP_CTRL, R.DRIP_STATUS]
    (sel ≠ 3 → ∃ t, (∀ c, c ∈ [Instr.dripEnableWrite src v, .dripSrcWrite src v, .resync src v] → exec c s = .next t) ∧
      t.fld R.DRIP_CTRL_ENABLE = on ∧ t.fld R.DRIP_CTRL_SRC = sel ∧ Keeps s t regs) ∧
    (sel = s.fld R.DRIP_CTRL_SRC → sel ≠ 3 →
      (on = 1 → s.fld R.DRIP_CTRL_ENABLE = 0 → s.drip.running = false →
        let e := s.drip.epoch.getD (if sel ≠ 0 ∧ s.drip.located = true then s.drip.offsetNs else (s.now : Int))
        ∃ t, exec (.dripEnableWrite src v) s = .next t ∧ t.fld R.DRIP_CTRL_ENABLE = 1 ∧ t.drip.epoch = some e ∧
          t.drip.closeAt = onSchedule e s.periodNs (max s.now (if s.drip.opened then s.drip.openAt + 1 else 0)) ∧
          (s.drip.epoch = none → sel = 0 → t.fld R.DRIP_STATUS_SYNC = 1) ∧ Keeps s t regs) ∧
      (on = 0 → s.fld R.DRIP_CTRL_ENABLE = 1 →
        ∃ t, exec (.dripEnableWrite src v) s = .next t ∧ t.fld R.DRIP_CTRL_ENABLE = 0 ∧ t.drip.running = false ∧
          t.fld R.DRIP_STATUS_PHASE_SEAL = 0 ∧ t.drip.epoch = s.drip.epoch ∧ Keeps s t regs) ∧
      (on = s.fld R.DRIP_CTRL_ENABLE → getBits v 4 1 = 1 →
        ∃ t, exec (.resync src v) s = .next t ∧ Keeps s t [R.DRIP_CTRL] ∧
          t.drip = { s.drip with stepReq := s.drip.stepReq || s.fld R.DRIP_STATUS_STEP_NEEDED == 1 })) ∧
    (on = s.fld R.DRIP_CTRL_ENABLE → getBits v 4 1 = 0 → sel ≠ s.fld R.DRIP_CTRL_SRC →
      (sel = 0 →
        ∃ t, exec (.dripSrcWrite src v) s = .next t ∧ t.fld R.DRIP_CTRL_SRC = 0 ∧ t.fld R.DRIP_STATUS_HOLDOVER = 0 ∧
          t.fld R.DRIP_STATUS_STEP_NEEDED = 0 ∧ t.fld R.DRIP_STATUS_OFFSET_NS = 0 ∧ t.fld R.DRIP_STATUS_SYNC = 1 ∧
          t.drip.lostAt = none ∧ Keeps s t regs) ∧
      (sel = 1 ∨ sel = 2 →
        ∃ t, exec (.dripSrcWrite src v) s = .next t ∧ t.fld R.DRIP_CTRL_SRC = sel ∧ t.fld R.DRIP_STATUS_HOLDOVER = 1 ∧
          t.fld R.DRIP_STATUS_SYNC = 0 ∧ t.drip.lostAt = some s.now ∧ Keeps s t regs))) ∧
  (∀ (s : State) (src : Src) (v : Word) (f : Found), Lands s src R.DRIP_APPLY_AT f whole v →
    let n := getBits v 0 48
    let regs := [R.DRIP_APPLY_AT, R.DRIP_STATUS]
    ∃ t, exec (.dripApplyAtWrite src v) s = .next t ∧ t.fld R.DRIP_APPLY_AT_DRIP_NO = n ∧ Keeps s t regs ∧
      (s.fld R.DRIP_PERIOD_NEXT_US = s.fld R.DRIP_PERIOD_CUR_US →
        t.drip.armed = none ∧ (s.drip.committed = none → t.fld R.DRIP_STATUS_APPLY_PEND = 0)) ∧
      (s.fld R.DRIP_PERIOD_NEXT_US ≠ s.fld R.DRIP_PERIOD_CUR_US →
        t.fld R.DRIP_STATUS_APPLY_PEND = 1 ∧
        (s.fld R.DRIP_NUMBER_NUMBER + 2 ≤ n →
          t.drip.armed = some n ∧ t.fld R.DRIP_STATUS_APPLY_LATE = s.fld R.DRIP_STATUS_APPLY_LATE) ∧
        (n < s.fld R.DRIP_NUMBER_NUMBER + 2 →
          t.drip.armed = some (s.fld R.DRIP_NUMBER_NUMBER + 2) ∧ t.fld R.DRIP_STATUS_APPLY_LATE = 1))) ∧
  (State.reset.fld R.DRIP_PERIOD_CUR_US = 1000 ∧ ∀ s : State, s.periodNs = 1000 * s.fld R.DRIP_PERIOD_CUR_US) ∧
  (∀ (s : State) (src : Src) (v : Word) (f : Found), Lands s src R.DRIP_PERIOD f whole v →
    let n := getBits v 16 16
    (50 ≤ n → ∃ t, exec (.registerWrite src R.DRIP_PERIOD 8 v.toNat) s = .next t ∧ t.fld R.DRIP_PERIOD_NEXT_US = n ∧
      t.fld R.DRIP_PERIOD_CUR_US = s.fld R.DRIP_PERIOD_CUR_US ∧ t.drip = s.drip ∧ Keeps s t [R.DRIP_PERIOD]) ∧
    (n < 50 → ∃ r, r.cls = CE ∧ exec (.registerWrite src R.DRIP_PERIOD 8 v.toNat) s = .next (s.raise r))) ∧
  (∀ (s : State) (r : StepRes), s.mode = .boot → s.pwr.removal = 0 → s.fld R.BRG_STATUS_STEP = 4 →
    ∃ t, exec (.bringupStepComplete r) s = .next t ∧ (t.fld R.BRG_STATUS_STEP = 5 →
      t.fld R.DRIP_PERIOD_CUR_US = prPeriod t.sec.profile ∧ t.fld R.DRIP_PERIOD_NEXT_US = prPeriod t.sec.profile ∧
      t.fld R.DRIP_CTRL_ENABLE = s.fld R.DRIP_CTRL_ENABLE)) ∧
  ∀ (s : State) (src : Src) (v : Word) (f : Found), Lands s src R.BRG_CTRL f whole v → getBits v 0 1 = 1 →
    s.mode = .normal ∨ s.mode = .quiesce → s.pwr.removal = 0 → s.mcrFull = false → s.mayAct 5 = true →
    ∃ t, exec (.mcr src v) s = .next t ∧ (t.mode = .boot → t.drip.running = s.drip.running ∧
      t.fld R.DRIP_PERIOD_CUR_US = s.fld R.DRIP_PERIOD_CUR_US ∧
      (prPeriod t.sec.profile ≠ s.fld R.DRIP_PERIOD_CUR_US →
        t.fld R.DRIP_PERIOD_NEXT_US = prPeriod t.sec.profile ∧
        t.fld R.DRIP_APPLY_AT_DRIP_NO = (s.fld R.DRIP_NUMBER_NUMBER + 2) % 2 ^ 48 ∧
        t.drip.armed = some (s.fld R.DRIP_NUMBER_NUMBER + 2) ∧ t.fld R.DRIP_STATUS_APPLY_PEND = 1))

/-- R26, R27, R28, R326, Table 22.7: a measured offset ends holdover and sets SYNC within 250 ns and STEP_NEEDED beyond 10 µs;
a 1PPS edge within 1 ms measures it, up to whole seconds before the first measurement, which the edge does not tell (the TAI
second comes by the management port; log entry 33); a lost source is in holdover; SYNC clears after 4 s of it; an Announce
message names the master where it is the better one; three intervals without one lose the source.
Completes: ptpOffsetMeasured, ppsInEdge, sourceLost, holdoverSyncTimeout, ptpMessage, ptpAnnounceTimeout. -/
def Obligations.TimeSource : Prop :=
  ∀ (s : State) (ns : Int),
    let offset (ns : Int) (t : State) : Prop :=
      t.drip.offsetNs = ns ∧ t.drip.located = true ∧ t.drip.lostAt = none ∧ t.fld R.DRIP_STATUS_HOLDOVER = 0 ∧
        t.fld R.DRIP_STATUS_SYNC = (if -250 ≤ ns ∧ ns ≤ 250 then 1 else 0) ∧
        t.fld R.DRIP_STATUS_STEP_NEEDED = (if ns < -10000 ∨ 10000 < ns then 1 else 0) ∧ Keeps s t [R.DRIP_STATUS]
    (s.fld R.DRIP_CTRL_SRC = 1 → s.svcUp = true → ∃ t, exec (.ptpOffsetMeasured ns) s = .next t ∧ offset ns t) ∧
    (s.fld R.DRIP_CTRL_SRC = 2 → s.svcUp = true → -1000000 ≤ ns → ns ≤ 1000000 →
      ∃ (t : State) (k : Int), exec (.ppsInEdge ns) s = .next t ∧ offset (ns + 1000000000 * k) t ∧
        (s.drip.located = true → k = 0)) ∧
    (s.fld R.DRIP_CTRL_SRC ≠ 0 → s.drip.lostAt = none →
      ∃ t, exec .sourceLost s = .next t ∧ t.fld R.DRIP_STATUS_HOLDOVER = 1 ∧ t.drip.lostAt = some s.now ∧
        t.fld R.DRIP_STATUS_SYNC = s.fld R.DRIP_STATUS_SYNC ∧ Keeps s t [R.DRIP_STATUS]) ∧
    (∀ at_, s.drip.lostAt = some at_ → s.drip.timedOut = false →
      ∃ t, exec .holdoverSyncTimeout s = .next t ∧ t.fld R.DRIP_STATUS_SYNC = 0 ∧ t.drip.timedOut = true ∧
        t.now = max s.now (at_ + 4000000000) ∧ Keeps s t [R.DRIP_STATUS]) ∧
    (∀ p rank, s.linkUp p 0 = true → p = s.ptp.port → s.fld R.DRIP_CTRL_SRC = 1 →
      ∃ t best, exec (.ptpMessage p 0 (.announce s.ptp.domain rank)) s = .next t ∧ t.ptp = { s.ptp with master := some best } ∧
        (best = rank ∨ s.ptp.master = some best) ∧ best ≤ rank ∧ (∀ m, s.ptp.master = some m → best ≤ m) ∧
        Keeps s t [(R.PORT_RX_CNT_FRAMES p).addr]) ∧
    (s.fld R.DRIP_CTRL_SRC = 1 → s.ptp.master.isSome = true →
      ∃ t, exec .ptpAnnounceTimeout s = .next t ∧ t.ptp.master = none ∧ t.drip.lostAt.isSome = true ∧ Keeps s t [R.DRIP_STATUS])

/-- R22: Seal begins the length of the Seal before the Close of the drip. R20, R21, R27: at the normal Close of a drip that a
change or a step lengthens, the drip runs on to its actual Close; at any other Close, and at the start, the next drip opens
at that instant, in Work.
Completes: sealStart, dripOpen. -/
def Obligations.DripBoundary : Prop :=
  (∀ s : State, s.drip.running = true → s.fld R.DRIP_STATUS_PHASE_SEAL = 0 → s.realClose.2 ≤ s.drip.closeAt + s.sealNs →
    ∃ t, exec .sealStart s = .next t ∧ t.fld R.DRIP_STATUS_PHASE_SEAL = 1 ∧
      t.now = max s.now (s.realClose.2 - max (s.fld R.DRIP_PERIOD_CUR_US * 50) 5000) ∧ Keeps s t [R.DRIP_STATUS]) ∧
  (∀ s : State, s.fld R.DRIP_CTRL_ENABLE = 1 → s.svcUp = true →
    (s.drip.running = true → ∀ u, s.lengthen = some u → exec .dripOpen s = .next u ∧ u.drip.closeAt = s.realClose.2 ∧
      u.drip.openAt = s.drip.openAt ∧ u.drip.committed = s.changeDue ∧ Keeps s u [R.DRIP_STATUS]) ∧
    (s.drip.running = false ∨ s.lengthen = none →
      ∃ t, exec .dripOpen s = .next t ∧ t.drip.running = true ∧ t.drip.openAt = s.drip.closeAt ∧ t.drip.committed = none ∧
        max s.now s.drip.closeAt ≤ t.now))

/-- R24, R34, R36: a master that is active at Close without CONT and whose issue the governor does not hold freezes with
cause 5; with CONT in force, or where nothing keeps it active, it does not. R31: at an Open the consumed counters of a master
are zero and its budgets, CONT, AUTO_THAW and VALID are in force as written. -/
def Obligations.MasterBoundary : Prop :=
  (∀ (s : State) (site i : Nat), site < 448 → i < 50 →
    let m := taskM site i
    (s.bud m).valid = true → s.frozen m = false → (s.bud m).frozeNow = false →
    (s.active m = true → (s.bud m).cont = false → (s.bud m).govHold = false →
      (i < 48 → (s.task (site * 64 + i)).contNow = false) → s.fld (mRun m) < 2 →
      (s.closeMaster m).fld (mFrozen m) = 1 ∧ (s.closeMaster m).fld (mCause m) = 5 ∧
        (s.closeMaster m).fld (mRun m) = s.fld (mRun m) + 1 ∧ Keeps s (s.closeMaster m) [mStatus m]) ∧
    (s.active m = false ∨ (s.bud m).cont = true →
      (s.closeMaster m).fld (mFrozen m) = 0 ∧ (s.closeMaster m).fld (mRun m) = 0 ∧ Keeps s (s.closeMaster m) [mStatus m])) ∧
  (∀ (s : State) (site i : Nat), site < 448 → 48 ≤ i → i < 50 →
    let m := taskM site i
    let t := s.openMaster m
    t.fld (mUsedCycles m) = 0 ∧ t.fld (mUsedStack m) = 0 ∧ t.fld (mUsedPassage m) = 0 ∧ t.fld (mUsedClassA m) = 0 ∧
      (t.bud m).cycles = getBits (s.reg (mBudget0 m)) 0 32 ∧ (t.bud m).stack4k = getBits (s.reg (mBudget0 m)) 32 32 ∧
      (t.bud m).passage = getBits (s.reg (mBudget1 m)) 0 32 ∧ (t.bud m).classA = getBits (s.reg (mBudget1 m)) 32 32 ∧
      ((t.bud m).cont = true ↔ s.fld (mCont m) = 1) ∧ ((t.bud m).autoThaw = true ↔ s.fld (mAutoThaw m) = 1) ∧
      ((t.bud m).valid = true ↔ s.fld (mValid m) = 1))

/-- Table 2.8, R31, R35: FREEZE and THAW of MSTR_CTRL act in the clock of the write, for every master entry: the master is
FROZEN with cause 6, or no longer FROZEN (in QUIESCE nothing thaws; a receive queue that holds frames takes them). R29, R30: a unit whose charge fits the remaining budget of a live master is counted, one that exceeds a
policed component is a violation of the lowest such cause, and an unpoliced component bears any charge.
Completes: mstrFreeze, mstrThaw. -/
def Obligations.FreezeAndCharge : Prop :=
  (∀ (s : State) (src : Src) (v : Word) (f : Found) (mb i : Nat), blockAt mb = some (.MSTR, mb) → i < mstrCount mb →
    let m := mstr mb i
    let regs := if mb = mstrHost then [mCtrl m, mStatus m, R.HQ3 i] else [mCtrl m, mStatus m]
    Lands s src (R.MSTR_CTRL mb i) f whole v →
    (getBits v 4 1 = 1 →
      ∃ t, exec (.mstrFreeze src mb i v) s = .next t ∧ t.frozen m = true ∧
        t.fld (mCause m) = (if s.frozen m = true then s.fld (mCause m) else 6) ∧ Keeps s t regs) ∧
    (getBits v 4 1 = 0 → getBits v 5 1 = 1 → s.mode ≠ .quiesce → (∀ p, mb = mstrPort p → s.rxBuf p i = []) →
      ∃ t, exec (.mstrThaw src mb i v) s = .next t ∧ t.frozen m = false ∧ t.mem = s.mem ∧
        ((∀ site, mb = mstrSite site → 48 ≤ i) → Keeps s t regs))) ∧
  (∀ (s : State) (m : Nat) (c : Charge), (s.bud m).valid = true →
    let b := s.bud m
    let fits (policed : Prop) (n used limit : Nat) : Prop := policed → 0 < n → used + n ≤ limit
    let all := fits (b.cycles ≠ 0xFFFFFFFF) c.cycles (s.fld (mUsedCycles m)) b.cycles ∧
      fits (b.stack4k ≠ 0xFFFFFFFF) c.stack (s.fld (mUsedStack m)) (64 * b.stack4k) ∧
      fits (b.passage ≠ 0xFFFFFFFF) c.passage (s.fld (mUsedPassage m)) b.passage ∧
      fits True c.classA (s.fld (mUsedClassA m)) b.classA
    (¬ all → ∃ cause causes, s.charge m c = .violation cause causes ∧ 1 ≤ cause ∧ cause ≤ 4) ∧
    (all → s.fld R.PWR_STATUS_LEVEL = 0 ∨ b.classA ≠ 0 → ∃ t, s.charge m c = .ok t ∧ t.mem = s.mem ∧
      t.fld (mUsedCycles m) = satAdd 32 (s.fld (mUsedCycles m)) c.cycles ∧
      t.fld (mUsedStack m) = satAdd 32 (s.fld (mUsedStack m)) c.stack ∧
      t.fld (mUsedPassage m) = satAdd 32 (s.fld (mUsedPassage m)) c.passage ∧
      t.fld (mUsedClassA m) = satAdd 32 (s.fld (mUsedClassA m)) c.classA))

/-! ## Registers, queues, rings and lines -/

/-- R6, R461: a write of 8 or of 4 aligned bytes to a register of plain storage gives its RW bits the value written and
clears the W1C bits written 1, in the bytes covered; R31: the same for the budgets of a master. R9, R460, R461, R477: a write
of a size or alignment that the rules do not have, of no register, of a block that does not answer, or of a register that its
source may not write changes no register.
Completes: registerWrite. -/
def Obligations.RegisterFile : Prop :=
  (∀ (s : State) (src : Src) (f : Found) (a addr size value : Nat),
    (size = 8 ∧ addr = a ∨ size = 4 ∧ (addr = a ∨ addr = a + 4)) →
    (f.blk = .MGMT ∨ f.blk = .HLT ∨ f.blk = .MS ∨ f.blk = .LCP ∨ f.blk = .MSTR ∧ f.row.reg ≠ .MSTR_CTRL) →
    f.row.reg ≠ .ROPE_CTRL → f.row.reg ≠ .MSMAP_REGION →
    let lo := 8 * (addr - a)
    let cover := putBits 0 lo (8 * size) (2 ^ (8 * size) - 1)
    let v := putBits 0 lo (8 * size) (value % 2 ^ (8 * size))
    Lands s src a f cover v →
    ∃ t, exec (.registerWrite src addr size value) s = .next t ∧ t.reg a = written s a f cover v ∧ Keeps s t [a]) ∧
  (∀ (s : State) (src : Src) (addr size value : Nat), (∀ b, blockAt addr ≠ some (.BRG, b)) →
    let a := addr - addr % 8
    (sizeOk addr size = false ∨ regAt a = none ∨
      ∃ f, regAt a = some f ∧ (s.gated f = true ∨ ∀ w, s.mayWrite (s.who src) f a w = false)) →
    ∃ t, exec (.registerWrite src addr size value) s = .next t ∧ Keeps s t [])

/-- R345, Table 16.2: setting VALID of a queue's word 0 starts a queue that is off, RUN or frozen with its master, with its
counters at zero; clearing it turns the queue off; a doorbell of 2 bytes sets PROD of a queue that runs.
Completes: hqBind, hqUnbind, hqDoorbell. -/
def Obligations.HostQueues : Prop :=
  ∀ (s : State) (src : Src) (q : Nat) (f : Found), q < 64 →
    (∀ v, Lands s src (R.HQ0 q) f whole v →
      (getBits v 63 1 = 1 → s.fld (R.HQ3_STATE q) = 0 →
        ∃ t, exec (.hqBind src q v) s = .next t ∧ t.reg (R.HQ0 q) = written s (R.HQ0 q) f whole v ∧
          t.fld (R.HQ3_STATE q) = (if s.frozen (hqM q) then 2 else 1) ∧ t.fld (R.HQ3_CONS q) = 0 ∧ t.fld (R.HQ3_CWR q) = 0 ∧
          Keeps s t [R.HQ0 q, R.HQ3 q]) ∧
      (getBits v 63 1 = 0 → s.fld (R.HQ0_VALID q) = 1 →
        ∃ t, exec (.hqUnbind src q v) s = .next t ∧ t.fld (R.HQ3_STATE q) = 0 ∧ t.fld (R.HQ0_VALID q) = 0 ∧
          Keeps s t [R.HQ0 q, R.HQ3 q])) ∧
    ∀ prod, prod < 2 ^ 16 → Lands s src (R.HQ2 q) f (putBits 0 48 16 0xFFFF) (putBits 0 48 16 prod) →
      (s.fld (R.HQ3_STATE q) = 1 ∨ s.fld (R.HQ3_STATE q) = 2 →
        ∃ t, exec (.hqDoorbell src q prod) s = .next t ∧ t.fld (R.HQ2_PROD q) = prod ∧ Keeps s t [R.HQ2 q]) ∧
      (s.fld (R.HQ3_STATE q) = 0 ∨ s.fld (R.HQ3_STATE q) = 3 →
        ∃ t, exec (.hqDoorbell src q prod) s = .next t ∧ Keeps s t [])

/-- R234, R235, R242, R244, R254: a bind of a ring, a line or a completion ring that is valid takes the entry with its next
generation and empties it; an unbind that changes VALID alone makes it invalid, and no handler has a record of it in hand; a
valid entry changes in no other way.
Completes: ringBind, ringUnbind, lineBind, lineUnbind, cqBind, cqUnbind. -/
def Obligations.MessageEntries : Prop :=
  ∀ (s : State) (src : Src) (site n : Nat) (v : Word) (f : Found), site < 448 →
    let noHand (r : Nat) : Prop := ∀ p, p ∈ s.ctxs → ∀ slot, p.2.inHand ≠ some (r, slot)
    (n < 1024 → Lands s src (R.MU_RING0 site n) f whole v →
      let a := R.MU_RING0 site n
      let new := written s a f whole v
      (getBits v 63 1 = 1 → s.ringBindOk site n new = true →
        ∃ t, exec (.ringBind src site n v) s = .next t ∧
          t.reg a = putBits new 0 8 (s.fld (R.MU_RING0_GEN site n) + 1) ∧ t.reg (R.MU_RING1 site n) = 0 ∧
          t.ring (site * 1024 + n) = RingSt.init ∧ Keeps s t [a, R.MU_RING1 site n]) ∧
      (s.fld (R.MU_RING0_VALID site n) = 1 → new = putBits (s.reg a) 63 1 0 →
        ∃ t, exec (.ringUnbind src site n v) s = .next t ∧ t.fld (R.MU_RING0_VALID site n) = 0 ∧
          t.fld (R.MU_RING0_GEN site n) = (s.fld (R.MU_RING0_GEN site n) + 1) % 256 ∧
          t.ring (site * 1024 + n) = RingSt.init ∧ t.mem = s.mem ∧ (noHand n → Keeps s t [a])) ∧
      (s.fld (R.MU_RING0_VALID site n) = 1 → getBits v 63 1 = 1 →
        ∃ t, exec (.ringBind src site n v) s = .next t ∧ Keeps s t [])) ∧
    (n < 1024 → Lands s src (R.MU_LINE0 site n) f whole v →
      let a := R.MU_LINE0 site n
      let new := written s a f whole v
      (getBits v 63 1 = 1 → s.lineBindOk site n new = true →
        ∃ t, exec (.lineBind src site n v) s = .next t ∧ t.reg a = putBits new 61 2 0 ∧ t.reg (R.MU_LINE2 site n) = 0 ∧
          t.fld (R.MU_LINE1_LGEN site n) = (s.fld (R.MU_LINE1_LGEN site n) + 1) % 256 ∧ t.una (site * 1024 + n) = [] ∧
          Keeps s t [a, R.MU_LINE1 site n, R.MU_LINE2 site n]) ∧
      (s.fld (R.MU_LINE0_VALID site n) = 1 → new = putBits (s.reg a) 63 1 0 →
        ∃ t, exec (.lineUnbind src site n v) s = .next t ∧ t.fld (R.MU_LINE0_VALID site n) = 0 ∧
          t.una (site * 1024 + n) = [] ∧
          (s.una (site * 1024 + n) = [] → t.fld (R.MU_LINE1_LGEN site n) = (s.fld (R.MU_LINE1_LGEN site n) + 1) % 256 ∧
            Keeps s t [a, R.MU_LINE1 site n]))) ∧
    (n < 48 → Lands s src (R.MU_CQ0 site n) f whole v →
      let a := R.MU_CQ0 site n
      let new := written s a f whole v
      (getBits v 63 1 = 1 → s.cqBindOk site n new = true →
        ∃ t, exec (.cqBind src site n v) s = .next t ∧ t.reg a = new ∧ t.reg (R.MU_CQ1 site n) = 0 ∧
          t.cq (site * 64 + n) = [] ∧ Keeps s t [a, R.MU_CQ1 site n]) ∧
      (s.fld (R.MU_CQ0_VALID site n) = 1 → new = putBits (s.reg a) 63 1 0 →
        ∃ t, exec (.cqUnbind src site n v) s = .next t ∧ t.fld (R.MU_CQ0_VALID site n) = 0 ∧
          t.cq (site * 64 + n) = [] ∧ t.mem = s.mem ∧ (noHand (1024 + n) → Keeps s t [a])))

/-! ## Chapter 6: the matrix engines -/

/-- R121, Table 6.4: the tile at the head of an MXE's queue starts: an empty one is DONE at once; one whose ranges are open,
whose metadata ascend and whose epilogue exists is RUNNING with its output rows computed (but for the elements that faulty cells
deliver otherwise), its flags gathered and its checksums formed (R125); one whose metadata do not ascend ends in ERROR with
status 4. R225 to R227: the combine stage: with FP32 partials their sums in slot
order become the rows of the epilogue; with ADD every element of the LA block takes the exact conversion of its partials;
with FINISH the block becomes rows, each element rounded once.
Completes: tileStart, combineFp32, combineAdd, combineFinish. -/
def Obligations.TilesAndCombines : Prop :=
  (∀ (s : State) (site j : Nat) (t : Tile) (dev : List CellDev), site < 448 → j < 2 →
    pickTile (s.mxe (2 * site + j)).queue = some t →
    let x := s.mxe (2 * site + j)
    let reads := s.tileReads site j t
    (t.empty = true →
      ∃ u, exec (.tileStart site ⟨j, dev⟩) s = .next u ∧ u.fld (R.MXE_STATUS_LAST_STATUS site j) = 0 ∧
        u.fld (R.MXE_TILE_CNT_OK site j) = satAdd 32 (s.fld (R.MXE_TILE_CNT_OK site j)) 1 ∧
        (∀ y, y ∈ (u.mxe (2 * site + j)).queue → y.op ≠ t.op) ∧
        Keeps s u ([R.MXE_STATUS site j, R.MXE_TILE_CNT site j] ++ sbRegs site)) ∧
    (t.empty = false → s.mxeRuns site j = true → x.run.length < 2 → s.gates site reads = .ok →
      (s.badSparse site t = false → s.hasEpi site t.epi = true → t.srcs.any (fun r => s.galPoisoned site r.1 r.2) = false →
        let act := s.actOf site j t
        let out := s.tileRows site t act
        let rows := withDev out.1 dev
        ∃ u, exec (.tileStart site ⟨j, dev⟩) s = .next u ∧
          (u.mxe (2 * site + j)).queue = x.queue.filter (fun y => y.op != t.op) ∧
          (u.mxe (2 * site + j)).run = x.run ++ [⟨t, s.fld (R.CUR_STATUS_GEN site), out.2, false, false, 0, t.srcs,
            s.fld (R.MXE_CTRL_ROT site j), s.reg (R.MXE_COL_MAP site j), s.checksums site t act rows⟩] ∧
          (u.mxe (2 * site + j)).rows.get t.op [] = rows ∧ (∀ a, a < hostKey 0 → u.rdByte a = s.rdByte a) ∧
          ((∀ r, r ∈ t.srcs → s.marksIn site r.1 r.2 = []) → Keeps s u [])) ∧
      (s.badSparse site t = true →
        ∃ u, exec (.tileStart site ⟨j, dev⟩) s = .next u ∧ u.fld (R.MXE_STATUS_LAST_STATUS site j) = 4 ∧
          ∀ a, a < hostKey 0 → u.rdByte a = s.rdByte a))) ∧
  (∀ (s : State) (site : Nat) (i : Item) (c : Combine), site < 448 → s.combineNow site = some (i, c) →
    s.combinePoison site c = false → s.gates site c.ranges = .ok →
    let unmarked := ∀ r, r ∈ c.ranges → s.marksIn site r.1 r.2 = []
    (c.long = false →
      ∃ u i', exec (.combineFp32 site) s = .next u ∧ (u.cur site).item = some i' ∧
        (∀ m n, m < c.m → n < c.n → ((u.cur site).combRows.getD m []).getD n 0 = (s.sumFp32 site c m n).1) ∧
        (∀ a, a < hostKey 0 → u.rdByte a = s.rdByte a) ∧ (unmarked → Keeps s u [])) ∧
    (c.long = true → c.final = false → c.la + 512 + 2560 * c.m ≤ cellsEnd → c.n ≤ 128 →
      (∀ p, p < c.npart → ∀ m n, m < c.m → n < c.n →
        c.p.base + p * c.p.stride + 512 * m + 4 * n + 4 ≤ c.la ∨
          c.la + 512 + 2560 * c.m ≤ c.p.base + p * c.p.stride + 512 * m + 4 * n) →
      ∃ u, exec (.combineAdd site) s = .next u ∧
        (∀ m n, m < c.m → n < c.n →
          let old : Int := if c.first then 0 else sextN 128 (s.rdNat (galKey site (laVal c.la m n)) 16)
          let added := (List.range c.npart).map (fun p => (longPartial c.anchor (f32 (s.partialOf site c p m n))).1)
          u.rdNat (galKey site (laVal c.la m n)) 16 = toBits 128 (added.foldl (· + ·) old)) ∧
        (∀ a, a < hostKey 0 → (a < galKey site (c.la + 512) ∨ galKey site (c.la + 512 + 2560 * c.m) ≤ a) →
          u.rdByte a = s.rdByte a) ∧ u.ctxs = s.ctxs) ∧
    (c.final = true →
      ∃ u, exec (.combineFinish site) s = .next u ∧ (u.cur site).combRows = (s.finishRows site c i.rng).1 ∧
        (∀ a, a < hostKey 0 → u.rdByte a = s.rdByte a) ∧ (unmarked → Keeps s u [])))

/-- R127, Table 6.13: a held tile is released as computed or after a rewrite, and passes its check, or ends in ERROR with
status 1, as it does when its hold limit has elapsed. R129: an idle MXE may run a patrol tile, which changes nothing else.
R125 to R128, Table 6.4: a tile whose checksums pass, or are not compared, waits for its epilogue, or is DONE with its flags
given where that is over; one that fails is HELD where a hold is allowed and none is there, and ends in ERROR with status 1
otherwise. R123, R124, R400: the array's own errors, whose cause is there, end the tile they strike with their status.
Completes: mxeReleaseAsComputed, mxeReleaseRewrite, mxeReleaseError, holdExpiry, patrolTile, tileOutputComplete,
tileError. -/
def Obligations.TileResults : Prop :=
  (∀ (s : State) (site j : Nat), site < 448 → j < 2 →
    let k := 2 * site + j
    (∀ (r : RunTile), (s.mxe k).held = some r →
      (∀ src v f, Lands s src (R.MXE_ARB site j) f whole v → getBits v 0 1 = 1 →
        (r.written = false → ∀ i, (getBits v 1 2 = 0 ∧ i = Instr.mxeReleaseAsComputed src site j v ∨
            getBits v 1 2 = 1 ∧ i = Instr.mxeReleaseRewrite src site j v) →
          ∃ u, exec i s = .next u ∧ (u.mxe k).held = none ∧ (u.mxe k).draining = (s.mxe k).draining ++ [r] ∧
            u.fld (R.MXE_WIT_STATUS_HELD site j) = 0 ∧ Keeps s u [R.MXE_ARB site j, R.MXE_WIT_STATUS site j]) ∧
        (r.written = true → ∀ i, (getBits v 1 2 = 0 ∧ i = Instr.mxeReleaseAsComputed src site j v ∨
            getBits v 1 2 = 1 ∧ i = Instr.mxeReleaseRewrite src site j v) →
          ∃ u, exec i s = .next u ∧ (u.mxe k).held = none ∧ u.fld (R.MXE_WIT_STATUS_HELD site j) = 0 ∧
            u.fld (R.MXE_STATUS_LAST_STATUS site j) = 0 ∧
            u.fld (R.MXE_TILE_CNT_OK site j) = satAdd 32 (s.fld (R.MXE_TILE_CNT_OK site j)) 1 ∧ u.mem = s.mem) ∧
        (getBits v 1 2 = 2 →
          ∃ u, exec (.mxeReleaseError src site j v) s = .next u ∧ (u.mxe k).held = none ∧
            u.fld (R.MXE_WIT_STATUS_HELD site j) = 0 ∧ u.fld (R.MXE_STATUS_LAST_STATUS site j) = 1)) ∧
      ∃ u, exec (.holdExpiry site j) s = .next u ∧ (u.mxe k).held = none ∧ u.fld (R.MXE_WIT_STATUS_HELD site j) = 0 ∧
        u.fld (R.MXE_STATUS_LAST_STATUS site j) = 1 ∧
        u.now = max s.now (r.since + 1000 * s.fld (R.MXE_WIT_CTRL_HOLD_US site j))) ∧
    ((s.mxe k).queue = [] → (s.mxe k).run = [] → s.fld (R.MXE_CTRL_PATROL_EN site j) = 1 → s.mxeRuns site j = true →
      s.kaOk site j = true →
      ∃ u, exec (.patrolTile site j) s = .next u ∧ (u.mxe k) = { s.mxe k with patrol := true } ∧ u.csr = s.csr ∧
        u.mem = s.mem ∧ u.ctxs = s.ctxs)) ∧
  (∀ (s : State) (site j : Nat), site < 448 → j < 2 →
    let k := 2 * site + j
    let x := s.mxe k
    (∀ (r : RunTile) (rest : List RunTile) (chk : List WitSum), x.run = r :: rest → s.rowsAccepted site j r = true →
      let pass := s.fld (R.MXE_WIT_CTRL_ENABLE site j) = 0 ∨
        (deviate r.sums chk).all (fun w => witPasses w (s.tolOf site j r.t) r.t.k) = true
      let run' := x.run.filter (fun q => q.t.op != r.t.op)
      (pass → r.written = false →
        ∃ u, exec (.tileOutputComplete site j chk) s = .next u ∧ (u.mxe k).run = run' ∧ (u.mxe k).draining = x.draining ++ [r]) ∧
      (pass → r.written = true →
        ∃ u, exec (.tileOutputComplete site j chk) s = .next u ∧ (u.mxe k).run = run' ∧
          u.fld (R.MXE_STATUS_LAST_STATUS site j) = 0 ∧
          u.fld (R.MXE_TILE_CNT_OK site j) = satAdd 32 (s.fld (R.MXE_TILE_CNT_OK site j)) 1 ∧
          ((s.ctx r.t.ctx).st ≠ .free → s.fld (R.CORE_STATUS_GEN site (coreOfKey r.t.ctx)) = r.t.coreGen →
            (u.ctx r.t.ctx).flags = (s.ctx r.t.ctx).flags ||| r.flags)) ∧
      (¬ pass → x.held = none → s.fld (R.MXE_WIT_CTRL_HOLD_US site j) ≠ 0 →
        ∃ u, exec (.tileOutputComplete site j chk) s = .next u ∧ (u.mxe k).held = some { r with since := s.now } ∧
          u.fld (R.MXE_WIT_STATUS_HELD site j) = 1 ∧
          u.fld (R.MXE_WIT_CNT_FAIL site j) = satAdd 32 (s.fld (R.MXE_WIT_CNT_FAIL site j)) 1) ∧
      (¬ pass → x.held.isSome = true ∨ s.fld (R.MXE_WIT_CTRL_HOLD_US site j) = 0 →
        ∃ u, exec (.tileOutputComplete site j chk) s = .next u ∧ u.fld (R.MXE_STATUS_LAST_STATUS site j) = 1)) ∧
    ∀ (r : RunTile) (status : Nat), x.run.getLast? = some r → s.tileCause site j status r = true →
      ∃ u, exec (.tileError site j status) s = .next u ∧ u.fld (R.MXE_STATUS_LAST_STATUS site j) = status ∧
        u.fld (R.MXE_TILE_CNT_ERR site j) = satAdd 32 (s.fld (R.MXE_TILE_CNT_ERR site j)) 1 ∧
        ∀ q, q ∈ (u.mxe k).run → q.t.op ≠ r.t.op)

/-! ## Chapter 7: the Curtain array -/

/-- R136 to R139, R149, Tables 7.2 to 7.4: an instruction of the item in progress that is due fires in a clock without a stall
cause, whatever its sources and destinations: the firing is counted. With register sources it gives its destination register,
in the lanes of its guard, the result of its opcode on their lanes, NaNs canonical, and adds the flags of those lanes, but for
lanes that carry a masked element (R133), to the item's; a compare gives its predicate. R139, Table 7.9: a source link delivers
the oldest word of its queue, a link destination sends the result on, and an empty source queue makes a skew stall clock. R132,
R400: a token that fails its parity ends the item and is an offence of its site.
Completes: strawMov, strawAdd, strawSub, strawMul, strawFma, strawMax, strawMin, strawSel, strawCmplt, strawCmple,
strawCmpeq, strawSwz, strawHmax, strawHsum, strawAbs, strawNeg, strawExp2, strawLog2, strawRcp, strawRsq. -/
def Obligations.StrawPrograms : Prop :=
  (∀ (s : State) (site x y e : Nat) (i : Item), site < 448 → x < 8 → y < 8 → e < 32 →
    let c := s.cur site
    let k := strawKey x y
    let st := c.straw k
    let w := st.imem.get e 0
    let g := guardOf st (iPsel w) (i.firings k e)
    let cl := i.clock (pIi (c.progs.get i.prog 0)) k e w
    c.item = some i → i.prog ≠ 0 → (pEntries (c.progs.get i.prog 0)).contains e = true → s.mayFire site i k e = true →
    (∀ t : Token, t ∈ st.qN ++ st.qE ++ st.qS ++ st.qW → t.gen = s.fld (R.CUR_STATUS_GEN site)) →
    i.due = some cl ∨ s.clockReady site i cl i.stalls = .ok →
    ((∀ code, code ∈ iSrcs w → s.srcParity site x y code = false ∧ s.srcClosed site i x code = false) →
      ∀ op opc, (op, opc) ∈ [(Instr.strawMov site x y e false, 0x01), (.strawAdd site x y e false, 0x02),
          (.strawSub site x y e false, 0x03), (.strawMul site x y e false, 0x04), (.strawFma site x y e false, 0x05),
          (.strawMax site x y e false, 0x06), (.strawMin site x y e false, 0x07), (.strawSel site x y e false, 0x08),
          (.strawCmplt site x y e false, 0x09), (.strawCmple site x y e false, 0x0A), (.strawCmpeq site x y e false, 0x0B),
          (.strawSwz site x y e false, 0x0C), (.strawHmax site x y e false, 0x0D), (.strawHsum site x y e false, 0x0E),
          (.strawAbs site x y e false, 0x0F), (.strawNeg site x y e false, 0x10), (.strawExp2 site x y e false, 0x11),
          (.strawLog2 site x y e false, 0x12), (.strawRcp site x y e false, 0x13), (.strawRsq site x y e false, 0x14)] →
        iOpc w = opc → ∃ u, exec op s = .next u ∧ u.pending = s.pending ∧ u.fld (R.CUR_FIRE_CNT_COUNT site) =
          satAdd (R.CUR_FIRE_CNT_COUNT site).width (s.fld (R.CUR_FIRE_CNT_COUNT site)) 1) ∧
    (iSa w < 16 → iSb w < 16 → iLinks w = 0 → g ≠ 0 →
    let en := flagLanes w g (15 - st.gm.get (iSa w) 0) (if opTwo (iOpc w) then 15 - st.gm.get (iSb w) 0 else 15)
      (if iOpc w = 5 then 15 - st.gm.get (iDst w) 0 else 15)
    let A := lane (st.g.get (iSa w) 0)
    let B := lane (st.g.get (iSb w) 0)
    let D := lane (st.g.get (iDst w) 0)
    let after (u : State) (r : Nat → Nat × Nat) : Prop :=
      (∃ i', (u.cur site).item = some i' ∧ i'.firings k e = i.firings k e + 1 ∧ ∀ b, i'.flags.testBit b =
        (i.flags.testBit b || (List.range 4).any (fun j => bitN en j == 1 && (r j).2.testBit b))) ∧
      u.fld (R.CUR_FIRE_CNT_COUNT site) = satAdd (R.CUR_FIRE_CNT_COUNT site).width (s.fld (R.CUR_FIRE_CNT_COUNT site)) 1 ∧
      (∀ k', k' ≠ k → (u.cur site).straw k' = c.straw k') ∧ Keeps s u [R.CUR_FIRE_CNT site]
    let gives (op : Instr) (opc : Nat) (r : Nat → Nat × Nat) : Prop := iOpc w = opc → iDst w < 16 →
      ∃ u, exec op s = .next u ∧ after u r ∧
        (∀ j, j < 4 → lane (((u.cur site).straw k).g.get (iDst w) 0) j = if bitN g j = 1 then canon (r j).1 else D j) ∧
        (∀ d, d ≠ iDst w → ((u.cur site).straw k).g.get d 0 = st.g.get d 0) ∧ ((u.cur site).straw k).q = st.q
    let decides (op : Instr) (opc : Nat) (r : Nat → Bool × Nat) : Prop := iOpc w = opc → iDst w = 0x1F →
      ∃ u, exec op s = .next u ∧ after u (fun j => (0, (r j).2)) ∧
        (∀ j, j < 4 → bitN (((u.cur site).straw k).q.get (iCtl w % 4) 0) j =
          if bitN g j = 1 then b2n (r j).1 else bitN (st.q.get (iCtl w % 4) 0) j) ∧ ((u.cur site).straw k).g = st.g
    gives (.strawMov site x y e false) 0x01 (fun j => (A j, 0)) ∧
    gives (.strawAdd site x y e false) 0x02 (fun j => addF32 0 0 (A j) (B j)) ∧
    gives (.strawSub site x y e false) 0x03 (fun j => subF32 0 0 (A j) (B j)) ∧
    gives (.strawMul site x y e false) 0x04 (fun j => mulF32 0 0 (A j) (B j)) ∧
    gives (.strawFma site x y e false) 0x05 (fun j => fmaF32 0 0 (A j) (B j) (D j)) ∧
    gives (.strawMax site x y e false) 0x06 (fun j => maxF32 (A j) (B j)) ∧
    gives (.strawMin site x y e false) 0x07 (fun j => minF32 (A j) (B j)) ∧
    gives (.strawSel site x y e false) 0x08 (fun j => (if bitN (st.q.get (iCtl w % 4) 0) j = 1 then A j else B j, 0)) ∧
    decides (.strawCmplt site x y e false) 0x09 (fun j => cmpLtF32 (A j) (B j)) ∧
    decides (.strawCmple site x y e false) 0x0A (fun j => cmpLeF32 (A j) (B j)) ∧
    decides (.strawCmpeq site x y e false) 0x0B (fun j => cmpEqF32 (A j) (B j)) ∧
    gives (.strawSwz site x y e false) 0x0C (fun j => (A (iCtl w / 4 ^ j % 4), 0)) ∧
    gives (.strawHmax site x y e false) 0x0D (fun _ => hmax4 A) ∧
    gives (.strawHsum site x y e false) 0x0E (fun _ => hsum4 A) ∧
    gives (.strawAbs site x y e false) 0x0F (fun j => (A j % 2 ^ 31, 0)) ∧
    gives (.strawNeg site x y e false) 0x10 (fun j => (A j ^^^ 2 ^ 31, 0)) ∧
    gives (.strawExp2 site x y e false) 0x11 (fun j => exp2F32 (A j)) ∧
    gives (.strawLog2 site x y e false) 0x12 (fun j => log2F32 (A j)) ∧
    gives (.strawRcp site x y e false) 0x13 (fun j => rcpF32 (A j)) ∧
    gives (.strawRsq site x y e false) 0x14 (fun j => rsqF32 (A j)))) ∧
  (∀ (s : State) (site x y e d : Nat) (i : Item), site < 448 → x < 8 → y < 8 → e < 32 → d < 4 →
    let c := s.cur site
    let k := strawKey x y
    let st := c.straw k
    let w := st.imem.get e 0
    c.item = some i → i.prog ≠ 0 → (pEntries (c.progs.get i.prog 0)).contains e = true → s.mayFire site i k e = true →
    (∀ t : Token, t ∈ st.qN ++ st.qE ++ st.qS ++ st.qW → t.gen = s.fld (R.CUR_STATUS_GEN site)) →
    iOpc w = 0x01 → iPsel w = 0 →
    let cl := i.clock (pIi (c.progs.get i.prog 0)) k e w
    let ready := i.due = some cl ∨ s.clockReady site i cl i.stalls = .ok
    (∀ t q, ready → iSa w = 0x10 + d → iDst w < 16 → iFwd w = 0 → st.queue (0x10 + d) = t :: q → t.parity = true →
      ∃ u, exec (.strawMov site x y e false) s = .next u ∧ ((u.cur site).straw k).queue (0x10 + d) = q ∧
        (∀ j, j < 4 → lane (((u.cur site).straw k).g.get (iDst w) 0) j = canon (lane t.word j)) ∧
        Keeps s u [R.CUR_FIRE_CNT site]) ∧
    (∀ t q, ready → iSa w = 0x10 + d → st.queue (0x10 + d) = t :: q →
      ∃ u : State, exec (.strawMov site x y e true) s = .next (u.offence site 6) ∧ (u.cur site).item = none) ∧
    (iSa w = 0x10 + d → i.due ≠ some cl → st.queue (0x10 + d) = [] → s.fld (R.CUR_SKEW_STALLS_DRIP site) < 1024 →
      ∃ u, exec (.strawMov site x y e false) s = .next u ∧
        (u.cur site) = { c with item := some { i with stalls := i.stalls + 1 } } ∧
        u.fld (R.CUR_SKEW_STALLS_DRIP site) = satAdd (R.CUR_SKEW_STALLS_DRIP site).width (s.fld (R.CUR_SKEW_STALLS_DRIP site)) 1 ∧
        Keeps s u [R.CUR_SKEW_STALLS site]) ∧
    (ready → iSa w < 16 → iDst w = 0x10 + d → iFwd w = 0 → linkExists x y d = true →
      let to_ := linkTo x y d
      ∃ u t, exec (.strawMov site x y e false) s = .next u ∧
        ((u.cur site).straw to_.1).queue to_.2 = (c.straw to_.1).queue to_.2 ++ [t] ∧
        t.en = 15 - st.gm.get (iSa w) 0 ∧
        (∀ j, j < 4 → lane t.word j = canon (lane (st.g.get (iSa w) 0) j)) ∧ Keeps s u [R.CUR_FIRE_CNT site]))

/-- R133, R143, R147, R148: a free curtain takes the item selected: a tile with the generation it captured, a run whose
program is there; an item all of whose instructions have fired ends: a tile's epilogue is counted, a run ends with its count.
R155: a curtain with nothing to do may run known-answer firings. R150: the 1,025th skew stall clock of a drip halts the
curtain: its item ends, its tokens are gone, its generation advances. R151 to R153, Table 7.11: 2 µs after the Open of a load
the item in progress ends and stale tokens are counted; an image that passes its checks is installed, and one that does not
is rejected whole with the code of its check (one of another target with none, log entry 54).
Completes: curtainItemStart, curtainItemEnd, curtainPatrol, skewHalt, curtainLoadWaitExpiry, curtainLoadComplete. -/
def Obligations.CurtainWork : Prop :=
  (∀ (s : State) (site : Nat), site < 448 →
    let c := s.cur site
    (s.fld (R.CUR_CTRL_ENABLE site) = 1 → c.item = none → c.loadAt = none → s.fld (R.CUR_STATUS_STATE site) ≠ 5 →
      s.fld (R.GAL_STATUS_STATE site) = 2 →
      let pick := ((s.streamIn site 0).streamIn site 1).pickItem site
      (∀ j t j' r, pick = some (.tile j t) → s.waitingTile site t.op = some (j', r) →
        r.gen = s.fld (R.CUR_STATUS_GEN site) →
        ∃ u, exec (.curtainItemStart site) s = .next u ∧
          (u.cur site).item = some { newItem (.tile j t) t.epi t.m with poison := r.poison } ∧ Keeps s u []) ∧
      (∀ r i, pick = some (.run r) → c.susp = some i →
        ∃ u, exec (.curtainItemStart site) s = .next u ∧ (u.cur site).item = some i ∧ (u.cur site).susp = none ∧ Keeps s u []) ∧
      (∀ r, pick = some (.run r) → c.susp = none → getBits (c.progs.get r.prog 0) 63 1 = 1 →
        pRun (c.progs.get r.prog 0) = true →
        ∃ u, exec (.curtainItemStart site) s = .next u ∧ (u.cur site).item = some (newItem (.run r) r.prog r.rows) ∧
          (∀ q, q ∈ (u.cur site).runs → q.op ≠ r.op) ∧ Keeps s u []) ∧
      (∀ x, pick = some (.combine x) → s.gates site x.ranges = .ok →
        ∃ u, exec (.curtainItemStart site) s = .next u ∧ (u.cur site).item = some (newItem (.combine x) x.epi x.m) ∧
          u.ctxs = s.ctxs)) ∧
    (∀ i, c.item = some i → i.prog ≠ 0 → s.allFired site i = true →
      (∀ j t, i.kind = .tile j t →
        ∃ u, exec (.curtainItemEnd site) s = .next u ∧ (u.cur site).item = none ∧
          u.fld (R.CUR_ITEM_CNT_EPILOGUES site) =
            satAdd (R.CUR_ITEM_CNT_EPILOGUES site).width (s.fld (R.CUR_ITEM_CNT_EPILOGUES site)) 1) ∧
      (∀ r, i.kind = .run r → s.frozen (curM site) = false → r.msg = none →
        ∃ u, exec (.curtainItemEnd site) s = .next u ∧ (u.cur site).item = none ∧
          u.fld (R.CUR_ITEM_CNT_RUNS site) =
            satAdd (R.CUR_ITEM_CNT_RUNS site).width (s.fld (R.CUR_ITEM_CNT_RUNS site)) 1 ∧
          ∀ a, a < hostKey 0 → u.rdByte a = s.rdByte a)) ∧
    (∀ i x, c.item = some i → i.kind = .combine x →
      (x.long = true ∧ x.final = false ∧ i.written = x.m ∧ s.gates site [x.laRange] = .ok) ∨
        ((x.long = false ∨ x.final = true) ∧ c.combRows ≠ [] ∧ i.prog ≠ 0 ∧ s.allFired site i = true) →
      ∃ u, exec (.curtainItemEnd site) s = .next u ∧ (u.cur site).item = none) ∧
    (c.item = none → c.waiting = [] → c.loadAt = none → s.fld (R.CUR_CTRL_PATROL_EN site) = 1 →
      s.fld (R.CUR_CTRL_ENABLE site) = 1 → s.kaOk site 2 = true →
      ∃ u, exec (.curtainPatrol site) s = .next u ∧ u.cur site = { c with patrol := true } ∧ u.csr = s.csr ∧ u.mem = s.mem ∧
        u.ctxs = s.ctxs)) ∧
  (∀ (s : State) (site : Nat), site < 448 →
    let c := s.cur site
    (∀ i cl, c.item = some i → s.nextDue site i = some cl → i.due ≠ some cl → s.loadExpired site = false → i.prog ≠ 0 →
      s.fld (R.CUR_STATUS_STATE site) ≠ 5 → s.clockReady site i cl (i.stalls + 16) = .skew →
      ∃ u, exec (.skewHalt site) s = .next u ∧ u.fld (R.CUR_STATUS_STATE site) = 5 ∧ u.fld (R.CUR_STATUS_SKEW_HALT site) = 1 ∧
        (u.cur site).item = none) ∧
    (∀ at_, c.loadAt = some at_ →
      (∀ i, c.item = some i →
        ∃ u, exec (.curtainLoadWaitExpiry site) s = .next u ∧ (u.cur site).item = none ∧ u.now = max s.now (at_ + 2000)) ∧
      (c.item = none → c.tokens ≠ 0 →
        ∃ u, exec (.curtainLoadWaitExpiry site) s = .next u ∧ (u.cur site).straws = c.flush.straws ∧
          u.fld (R.CUR_STALE_TOKENS_SEEN site) = 1 ∧ u.now = max s.now (at_ + 2000) ∧ Keeps s u [R.CUR_STALE_TOKENS site]) ∧
      (c.item = none → c.tokens = 0 → c.susp = none →
        (∀ e, s.imageErr site = some e → e ≠ 8 →
          ∃ u, exec (.curtainLoadComplete site) s = .next u ∧ u.fld (R.CUR_STATUS_LOAD_REJ site) = 1 ∧
            u.fld (R.CUR_STATUS_LOAD_ERR site) = e ∧ (u.cur site).loadAt = none ∧ (u.cur site).progs = c.progs ∧
            (u.cur site).straws = c.straws ∧ Keeps s u [R.CUR_STATUS site]) ∧
        (s.imageErr site = some 8 →
          ∃ u, exec (.curtainLoadComplete site) s = .next u ∧ u.fld (R.CUR_STATUS_LOAD_REJ site) = 1 ∧
            (u.cur site).loadAt = none ∧ (u.cur site).progs = c.progs ∧ (u.cur site).straws = c.straws ∧
            Keeps s u [R.CUR_STATUS site]) ∧
        (s.imageErr site = none →
          ∃ u, exec (.curtainLoadComplete site) s = .next u ∧ (u.cur site).loadAt = none ∧
            (u.cur site).progs = s.imgProgs site ∧
            u.fld (R.CUR_STATUS_GEN site) =
              (s.fld (R.CUR_STATUS_GEN site) + 1) % 2 ^ (R.CUR_STATUS_GEN site).width))))

/-! ## Chapter 9: class X -/

/-- R199 to R201, R211 to R219, R224 to R228, R246 to R251: an issue of class X whose descriptor passes its checks and whose
claims have room puts its operation behind those that wait: a tile in the queue of the MXE that it names, or of the one with
fewer tiles, whose number it gives D; a move or a combine in the TFE's queue; a run among those that wait for the curtain.
Completes: mxIssue, tfIssue, curGo. -/
def Obligations.ExtIssue : Prop :=
  ∀ (s : State) (site core c : Nat) (x : XOp), site < 448 → core < 32 → c < 128 →
    let h := Hart.gal site core c
    let r := s.hctx h
    let k := ctxKey site core c
    let task := s.taskOf k
    let gen := s.fld (R.CORE_STATUS_GEN site core)
    let op := (s.gm site).nextOp
    let room (ws : List Want) : Prop :=
      s.blockers site (ws.filter (fun w => w.n != 0)) = 0 ∧ (ws.filter (fun w => w.n != 0)).length ≤ s.freeEntries site
    let reply (msg : Bool) (thread : Nat) : Prop :=
      s.msgRoom site task msg thread ≠ some .fault ∧ s.msgRoom site task msg thread ≠ some .stall
    let same (u : State) : Prop := ∀ a, a < hostKey 0 → u.rdByte a = s.rdByte a
    CanIssue s h → Bears s h Charge.issue → r.pc % 8 = 0 → r.stores = [] → x.cls < 3 → s.sealHolds x.cls = false → x.w1 = 0 →
    x.b = 0 →
    ∀ bs, (x.per = 128 * (x.per / 128) → x.per / 128 < 3 → s.descRead site core r (r.rs x.a).toNat = .ok bs →
      ∀ t0 t, s.tileRead site core r bs = .ok t0 → s.tilePlace site core r bs t0 = .ok t → room (s.tileWants site t) →
        let n (j : Nat) : Nat := (s.mxe (2 * site + j)).queue.length
        let j := if x.per / 128 = 2 then (if n 1 < n 0 then 1 else 0) else x.per / 128
        n j < 4 → s.fld (R.MXE_CTRL_FENCE site j) = 0 →
        ∃ u seed, exec (.mxIssue h x) s = .next u ∧
          (u.mxe (2 * site + j)).queue = (s.mxe (2 * site + j)).queue ++
            [{ t with cls := x.cls, either := x.per / 128 == 2, op := op, task := task, ctx := k, coreGen := gen, seed := seed }] ∧
          (u.hctx h).pc = r.pc + 8 ∧ (∀ i, (u.hctx h).rs i = ((r.past h 8).ws x.d (BitVec.ofNat 64 j)).rs i) ∧ same u) ∧
      (x.d = 0 → x.per = 0 → s.descRead site core r (r.rs x.a).toNat = .ok bs →
        (∀ d ws, fldN (word8 bs 0) 63 60 < 3 → s.placeDesc site core r bs = .ok (d, ws) → s.tfeFull site = false →
          reply d.msg d.thread → room ws →
          ∃ u, exec (.tfIssue h x) s = .next u ∧
            (u.tfe site).queue = (s.tfe site).queue ++
              [{ d with cls := x.cls, op := op, task := task, ctx := k, coreGen := gen, put := none, startAt := s.now }] ∧
            u.hctx h = r.past h 8 ∧ same u) ∧
        (∀ d ws l p, fldN (word8 bs 0) 63 60 = 3 → s.placeDesc site core r bs = .ok (d, ws) → d.ended = false →
          s.tfeFull site = false → s.lineOf site task (fldN d.dst 20 0) = some l → fldN d.dst 20 12 < 384 →
          2 * putSlots d.rbytes ≤ 2 ^ s.fld (R.MU_LINE1_SIZE_LOG2 site l) → s.fld (R.MU_CQ0_VALID site task) = 1 →
          s.cqFree site task = true → s.lineDead site l = none → s.lineRoom site l (putSlots d.rbytes) = some p → room ws →
          ∃ u seq slot, exec (.tfIssue h x) s = .next u ∧
            (u.tfe site).queue = (s.tfe site).queue ++
              [{ d with cls := x.cls, op := op, task := task, ctx := k, coreGen := gen, startAt := s.now,
                        put := some (l, s.fld (R.MU_LINE1_LGEN site l), seq, slot) }] ∧
            u.fld (R.MU_LINE2_SEQ site l) = (seq + 1) % 2 ^ 16 ∧ u.hctx h = r.past h 8 ∧ same u) ∧
        (∀ q, fldN (word8 bs 0) 63 60 = 15 → s.combRead site core r bs = .ok q → s.tfeFull site = false →
          reply q.msg.isSome (q.msg.getD (0, 0)).1 → room (s.combWants site q) → s.combReject site q = 0 →
          ∃ u seed, exec (.tfIssue h x) s = .next u ∧
            let p := { q with cls := x.cls, op := op, task := task, ctx := k, coreGen := gen, seed := seed }
            (u.cur site).combines = (s.cur site).combines ++ [p] ∧
            (u.tfe site).queue = (s.tfe site).queue ++ [p.place s.now] ∧ (u.hctx h).pc = r.pc + 8 ∧ same u) ∧
        (∀ q ws, s.runRead site core r bs = .ok (q, ws) → q.cls = x.cls → (s.cur site).runs.length < 4 →
          s.frozen (curM site) = false →
          reply q.msg.isSome (q.msg.getD (0, 0)).1 → room ws →
          ∃ u seed, exec (.curGo h x) s = .next u ∧
            (u.cur site).runs = (s.cur site).runs ++
              [{ q with op := op, task := task, ctx := k, coreGen := gen, seed := seed }] ∧
            (u.cur site).waiting = (s.cur site).waiting ++ [op] ∧ (u.hctx h).pc = r.pc + 8 ∧ same u))

/-- R151, R203 to R208: a configuration image is named for the next Open; a handler returns its record and parks; a context
parks until the Open of the drip it names or a later one, where it becomes READY with that drip's number in D; the task's own budget is read and lowered, never raised, for this drip alone, and CONT counts at its
Close; a claim owned by software is made and retired; a fence of
a window passes once the stores are acknowledged.
Completes: curLoad, msgRet, sbRetire, dripWait, dripBudget, sbClaim, fenceWin. -/
def Obligations.ExtControl : Prop :=
  ∀ (s : State) (site core c : Nat) (x : XOp), site < 448 → core < 32 → c < 128 →
    let h := Hart.gal site core c
    let r := s.hctx h
    let y := r.past h 8
    let A := (r.rs x.a).toNat
    let task := s.taskOf (ctxKey site core c)
    CanIssue s h → Bears s h Charge.issue → r.pc % 8 = 0 → x.cls = 0 → x.w1 = 0 →
    (x.d = 0 → x.b = 0 → x.per = 0 → r.stores = [] →
      (∀ off, r.priv ≠ 0 → A % 512 = 0 → s.localAddr site core r A imageLen false = some off →
        ∃ t, exec (.curLoad h x) s = .next t ∧ t.hctx h = y ∧ t.fld (R.CUR_STATUS_LOAD_PEND site) = 1 ∧
          t.fld (R.CUR_LOAD_OFS site) = off % 2 ^ (R.CUR_LOAD_OFS site).width ∧ t.mem = s.mem) ∧
      (x.a = 0 → s.isHandler (ctxKey site core c) = true →
        ∃ t, exec (.msgRet h x) s = .next t ∧ t.hctx h = { y with st := .parkedDispatch, inHand := none } ∧ t.mem = s.mem) ∧
      (getBits (s.reg (R.GM_SB_ENTRY site (fldN A 5 0))) 63 1 = 1 → getBits (s.reg (R.GM_SB_ENTRY site (fldN A 5 0))) 60 1 = 1 →
        getBits (s.reg (R.GM_SB_ENTRY site (fldN A 5 0))) 54 6 = task →
        ((s.gm site).claims.get (fldN A 5 0) ⟨0, 0⟩).serial = fldN A 13 6 →
        ∃ t, exec (.sbRetire h x) s = .next t ∧ t.hctx h = y ∧ t.reg (R.GM_SB_ENTRY site (fldN A 5 0)) = 0 ∧ t.mem = s.mem) ∧
      let w := s.reg (R.GM_SB_ENTRY site (fldN A 5 0))
      let same : Prop := ((s.gm site).claims.get (fldN A 5 0) ⟨0, 0⟩).serial = fldN A 13 6
      (getBits w 63 1 = 0 → same → ∃ t, exec (.sbRetire h x) s = .next t ∧ OwnContext s t h y) ∧
      (¬ same ∨ getBits w 63 1 = 1 ∧ (getBits w 60 1 = 0 ∨ getBits w 54 6 ≠ task) →
        ∃ u e, OwnContext s u h y ∧ e.cls = CE ∧ exec (.sbRetire h x) s = .next (u.raise e))) ∧
    (x.d = 0 → x.b = 0 → x.per = 0 → r.stores ≠ [] →
      exec (.sbRetire h x) s =
        .next ((s.setGroup site core none).setCtx (ctxKey site core c) { r with st := .stalled .issue, waitsOn := 0 })) ∧
    (x.b = 0 → x.per = 0 →
      ∃ t, exec (.dripWait h x) s = .next t ∧
        OwnContext s t h { y with st := .parkedWait (max (s.fld R.DRIP_NUMBER_NUMBER + 1) A) x.d }) ∧
    (∀ (u : State) (k w d : Nat), (u.ctx k).st = .parkedWait w d → (u.ctx k).live = false ∧
      (u.dripNo < w → u.openCtxs.ctx k = u.ctx k) ∧
      (w ≤ u.dripNo → u.frozen (taskM (siteOfKey k) (u.taskOf k)) = false →
        (u.openCtxs.ctx k).st = .ready ∧ (d ≠ 0 → (u.openCtxs.ctx k).rs d = BitVec.ofNat 64 u.dripNo))) ∧
    (x.b = 0 → x.per % 32 = 0 → task < 48 →
      let m := taskM site task
      let i := fldN x.per 8 7
      let b := if bitN x.per 5 = 1 ∧ A < s.inForce (s.bud m) i then (s.bud m).lower i A else s.bud m
      ∃ t, exec (.dripBudget h x) s = .next t ∧ t.hctx h = y.ws x.d (BitVec.ofNat 64 (s.inForce b i)) ∧ t.bud m = b ∧
        (bitN x.per 5 = 1 → s.inForce b i = min (s.inForce (s.bud m) i) A) ∧
        (∀ j, b.comp j ≤ (s.bud m).comp j ∧ s.inForce b j ≤ s.inForce (s.bud m) j) ∧
        (bitN x.per 6 = 1 → (t.task (site * 64 + task)).contNow = true ∧ t.contAt m = true) ∧
        (∀ a, a ∉ issueRegs s h → t.reg a = s.reg a) ∧ t.mem = s.mem ∧
        (∀ ch : Charge, b.cycles < t.fld (mUsedCycles m) ∧ 0 < ch.cycles ∨ 64 * b.stack4k < t.fld (mUsedStack m) ∧ 0 < ch.stack ∨
            b.passage < t.fld (mUsedPassage m) ∧ 0 < ch.passage ∨ b.classA < t.fld (mUsedClassA m) ∧ 0 < ch.classA →
          ∃ cause causes, t.charge m ch = .violation cause causes) ∧
        ∀ u : State, (u.bud m).valid = true → u.fld (mValid m) = 1 → u.frozen m = false →
          ∀ j, ((u.openMaster m).bud m).comp j = (u.asked m).comp j) ∧
    (fldN x.per 7 0 = 0 →
      let n := (r.rs x.b).toNat
      let write := fldN x.per 8 8 == 1
      ∀ off e, n ≠ 0 → s.localAddr site core r A n write = some off → s.blockers site [⟨write, off, n⟩] = 0 →
        1 ≤ s.freeEntries site → s.lowEntry site = some e →
        ∃ t, exec (.sbClaim h x) s = .next t ∧ t.fld (R.GM_SB_ENTRY_VALID site e) = 1 ∧ t.fld (R.GM_SB_ENTRY_SW site e) = 1 ∧
          t.fld (R.GM_SB_ENTRY_KIND site e) = b2n write ∧ t.fld (R.GM_SB_ENTRY_BASE site e) = off / 64 % 2 ^ 22 ∧
          t.hctx h = y.ws x.d (BitVec.ofNat 64 (e + 64 * ((((s.gm site).claims.get e ⟨0, 0⟩).serial + 1) % 256))) ∧
          t.mem = s.mem) ∧
    (x.d = 0 → x.b = 0 → x.a = 0 → fldN x.per 8 4 = 0 → fldN x.per 3 3 = 0 ∨ fldN x.per 2 0 = 0 →
      (fldN x.per 3 3 = 1 → r.stores = []) →
      ∃ t, exec (.fenceWin h x) s = .next t ∧ OwnContext s t h y)

/-- R202, R235 to R237: a message of up to 40 bytes takes the next SEQ of its line, which D receives, and its slot, and is on
its way to the gallery of its destination; on a DEAD line it takes none and ends at once.
Completes: msgSend. -/
def Obligations.MessageSend : Prop :=
  ∀ (s : State) (site core c : Nat) (x : XOp) (l p d : Nat), site < 448 → core < 32 → c < 128 → l < 1024 →
    let h := Hart.gal site core c
    let r := s.hctx h
    let task := s.taskOf (ctxKey site core c)
    let dst := (r.rs x.a).toNat % 2 ^ 21
    CanIssue s h → Bears s h { Charge.issue with classA := if x.cls = 0 then 1 else 0 } → r.pc % 8 = 0 → r.stores = [] →
    x.b < 8 → x.per % 8 = 0 → fldN x.per 8 3 ≤ 40 → x.cls < 3 → dst / 4096 < 384 → s.lineOf site task dst = some l →
    s.fld (R.MU_CQ0_VALID site task) = 1 → s.sealHolds x.cls = false → s.fld (R.MU_CTRL_ENABLE site) = 1 →
    s.cqFree site task = true →
    (∀ st, s.lineDead site l = some st → ∃ t, exec (.msgSend h x) s = .next t ∧
      t.hctx h = (r.past h 8).ws x.d (BitVec.ofNat 64 (s.fld (R.MU_LINE2_SEQ site l))) ∧ t.net = s.net ∧
      t.reg (R.MU_LINE2 site l) = s.reg (R.MU_LINE2 site l)) ∧
    (s.lineDead site l = none → s.lineRoom site l 1 = some p → s.sandboxed site = false →
    s.siteOfLg (dst / 4096) = some d →
    let seq := (s.fld (R.MU_LINE2_SEQ site l) + if p = 0 then 0 else 1) % 2 ^ 16
    ∃ t pre m, exec (.msgSend h x) s = .next t ∧ t.hctx h = (r.past h 8).ws x.d (BitVec.ofNat 64 seq) ∧
      t.net = s.net ++ pre ++ [m] ∧ m.dst = dst ∧ m.tag = fldN x.w1 31 16 ∧ m.seq = seq ∧ m.dsite = some d ∧
      m.payload = leBytes (fldN x.per 8 3) (r.rv x.b).toNat ∧ t.fld (R.MU_LINE2_SEQ site l) = (seq + 1) % 2 ^ 16 ∧
      t.fld (R.MU_LINE2_WR site l) = (s.fld (R.MU_LINE2_WR site l) + p + 1) % 2 ^ 16 ∧ t.mem = s.mem)

/-! ## Chapter 8: commands of a runtime -/

/-- R176, R178 to R180: a load that names a drip too near ends with status 5; one whose image passes its checks and finds
entries, blocks and places is accepted and waits; in drip START - 1 its tasks are installed, VALID = 1 and their budgets
written, whatever rings the runtime binds with them; END_TASKS is kept for its drip; MOVE enters the TFE's queue as a copy.
Completes: loadProgram, loadProgramInstall, endTasks, move. -/
def Obligations.RuntimeLoads : Prop :=
  ∀ (s : State) (lg site : Nat) (c : Cmd), site < 448 →
    let s1 := (s.working site c.cls).taken lg c
    let start := fldN (c.word 3) 47 0
    let img := fldN (c.word 2) 47 0
    let len := leAt c.raw 40 4
    (RuntimeTakes s lg site (fun c => c.opc == 1) c → TfeFree s site (2 * c.queue) c.cls →
      (start < s.fld R.DRIP_NUMBER_NUMBER + 2 →
        ∃ t, exec (.loadProgram lg) s = .next t ∧ Completed s t c 5 0 ∧ t.rts = s1.rts ∧ t.ctxs = s.ctxs) ∧
      (s.fld R.DRIP_NUMBER_NUMBER + 2 ≤ start → ∀ u x g bases, s1.rtRead site img len = (u, x) → x.status = 0 →
        leAt x.data 0 1 = 9 → u.imageOk x.data len = true →
        (imageRecs x.data).all (fun r => recOk len (leAt x.data 2 2) r.2 && bitN (recWord r.2 0) 62 == 0) = true →
        (imageRecs x.data).length ≤ (u.freeTasks lg site).length →
        let ers := (u.freeTasks lg site).zip ((imageRecs x.data).map (·.2))
        u.giveAll site ers (u.loadBlocks lg) = some g →
        u.givePlaces site (ers.flatMap (fun p => recWins p.1 p.2)) (u.usedCells lg site) [] = some bases →
        ∃ t l, exec (.loadProgram lg) s = .next t ∧ (t.rt lg).loads = (s.rt lg).loads ++ [l] ∧ l.cmd = c ∧ l.start = start ∧
          l.entries = ers.map (·.1) ∧ l.bases = bases ∧ l.inst = false ∧ (t.rt lg).cmds = (s1.rt lg).cmds)) ∧
    (∀ l e r binds, s.siteOfLg lg = some site → s.rtUp site = true → s.frozen (taskM site 0) = false →
      (s.rt lg).loads.filter (fun l => !l.inst && l.start == s.dripNo + 1) = [l] → l.entries = [e] → l.recs = [r] → e < 48 →
      bitN l.endMask e = 0 → l.fit = s.fld R.DRIP_PERIOD_CUR_US →
      ∃ t, exec (.loadProgramInstall ⟨lg, binds⟩) s = .next t ∧ t.fld (mValid (taskM site e)) = 1 ∧
        t.reg (mBudget0 (taskM site e)) = BitVec.ofNat 64 (recWord r 4) ∧
        t.reg (mBudget1 (taskM site e)) = BitVec.ofNat 64 (recWord r 5) ∧ (t.bud (taskM site e)) = (s.bud (taskM site e)) ∧
        (∀ a, a < hostKey 0 → t.rdByte a = s.rdByte a) ∧ (binds = [] → t.mem = s.mem)) ∧
    (RuntimeTakes s lg site (fun c => c.opc == 2) c →
      (start < s.fld R.DRIP_NUMBER_NUMBER + 2 → ∃ t, exec (.endTasks lg) s = .next t ∧ Completed s t c 5 0 ∧ t.ctxs = s.ctxs) ∧
      (s.fld R.DRIP_NUMBER_NUMBER + 2 ≤ start →
        ∃ t, exec (.endTasks lg) s = .next t ∧
          (t.rt lg).ends = (s.rt lg).ends ++ [(fldN (c.word 2) 47 1 * 2, start, c)] ∧ Keeps s t [])) ∧
    (RuntimeTakes s lg site (fun c => c.opc == 3) c →
      let src := s.resolve site (fldN (c.word 2) 47 0)
      let dst := s.resolve site (fldN (c.word 3) 47 0)
      let n := fldN (c.word 4) 39 0
      let wants := nearWant false src n ++ nearWant true dst n
      s.tfeFull site = false → s.blockers site wants = 0 → wants.length ≤ s.freeEntries site →
      ∃ t d, exec (.move lg) s = .next t ∧ (t.tfe site).queue = (s.tfe site).queue ++ [d] ∧ d.kind = 0 ∧ d.rows = 1 ∧
        d.rbytes = n ∧ d.src = src ∧ d.dst = dst ∧ d.cmd = some c ∧ t.mem = s.mem ∧ t.ctxs = s.ctxs)

/-- R35, R173, R176, Table 8.7: TASK_CTRL freezes, thaws or kills the live tasks of its mask and completes. R281, R408, R409:
SURVEY_REQ and TEST_REQ are relayed to Flowstone; a request whose list is well formed and the chamber's is refused for want
of slots or kept until its bank is ACTIVE, which of the two being Flowstone's policy, a free value (log entry 26); a test
request within its chamber is kept; each run of a test is counted, and the last one asked ends the request. R29, R30: what
the TFE does for a runtime is charged to its entry, and is not done while the budgets refuse the rest.
Completes: taskCtrlFreeze, taskCtrlThaw, taskCtrlKill, surveyReq, testReq, onDemandTestRun. -/
def Obligations.RuntimeCommands : Prop :=
  (∀ (s : State) (lg site : Nat) (c : Cmd), site < 448 →
    let named (t : Nat) : Prop := 1 ≤ t ∧ t < 48 ∧ bitN (c.word 2) t = 1 ∧ (s.bud (taskM site t)).valid = true
    let takes (a : Nat) : Prop := RuntimeTakes s lg site (fun c => c.opc == 4 && leAt c.raw 24 1 == a) c
    (takes 0 → ∃ u, exec (.taskCtrlFreeze lg) s = .next u ∧ Completed s u c 0 0 ∧
      (∀ t, named t → u.frozen (taskM site t) = true) ∧ (∀ a, a < hostKey 0 → u.rdByte a = s.rdByte a) ∧ u.ctxs = s.ctxs) ∧
    (takes 1 → ∃ u, exec (.taskCtrlThaw lg) s = .next u ∧ Completed s u c 0 0 ∧
      (∀ t, named t → u.frozen (taskM site t) = false) ∧ ∀ a, a < hostKey 0 → u.rdByte a = s.rdByte a) ∧
    (takes 2 → ∃ u, exec (.taskCtrlKill lg) s = .next u ∧ Completed s u c 0 0 ∧
      ∀ t, named t → u.fld (mValid (taskM site t)) = 0 ∧ (u.bud (taskM site t)).valid = false)) ∧
  (∀ (s : State) (lg site : Nat) (c : Cmd), site < 448 →
    (RuntimeTakes s lg site (fun c => c.opc == 0x20) c → TfeFree s site (2 * c.queue) c.cls →
      let s1 := ((s.working site c.cls).taken lg c).emit (.relay c.raw)
      let len := leAt c.raw 24 4
      ∀ u x, s1.rtRead site (fldN (c.word 2) 47 0) len = (u, x) →
        let es := (List.range (len / 64)).map (fun i => (x.data.drop (64 * i)).take 64)
        (leAt c.raw 28 8 < u.dripNo + 2 →
          ∃ t, exec (.surveyReq lg) s = .next t ∧ t.out = u.out ∧ Completed u t c 5 0) ∧
        (u.dripNo + 2 ≤ leAt c.raw 28 8 → len % 64 = 0 → x.status = 0 →
          (∀ k, firstBad (es.map (u.svEntryCheck c.chamber)) = k + 1 →
            ∃ t, exec (.surveyReq lg) s = .next t ∧ Completed u t c (k + 1) 0) ∧
          (firstBad (es.map (u.svEntryCheck c.chamber)) = 0 →
            ∃ t, exec (.surveyReq lg) s = .next t ∧ (t.rt lg).cmds = (s1.rt lg).cmds ∧ t.sv.reqs =
              if Config.freeValue u.free % 2 = 0 then u.sv.reqs else u.sv.reqs ++ [c]))) ∧
    (∀ (f : State → State) (key cls : Nat),
      let m := tfeM site
      let u := f (s.working site cls)
      let rest := (u.tfe site).need.sub ((s.tfe site).paid.get key .none)
      (u.tfe site).need ≠ .none →
      (s.frozen m = true ∨ s.sealHolds (u.tfe site).needCls = true → s.rtDo site key cls f = s) ∧
      (s.frozen m = false → s.sealHolds (u.tfe site).needCls = false → s.part m rest = rest →
        (∀ v, u.charge m rest = .ok v →
          let w := s.rtDo site key cls f
          w.fld (mUsedStack m) = v.fld (mUsedStack m) ∧ w.fld (mUsedPassage m) = v.fld (mUsedPassage m) ∧
            w.fld (mUsedClassA m) = v.fld (mUsedClassA m) ∧ w.mem = u.mem ∧ w.rts = u.rts ∧ w.out = u.out)) ∧
      (s.part m rest ≠ rest → (s.rtDo site key cls f).rts = s.rts ∧
        ∀ a, a < hostKey 0 → (s.rtDo site key cls f).rdByte a = s.rdByte a)) ∧
    (RuntimeTakes s lg site (fun c => c.opc == 0x30) c →
      let tests := leAt c.raw 16 2
      let rep := leAt c.raw 18 1
      let map := fldN (c.word 3) 47 0
      let res := fldN (c.word 4) 47 0
      let s1 := ((s.taken lg c).emit (.relay c.raw))
      let lgs := (List.range 384).filter (fun n => bitN (leNat (s1.svcRead map 48).2.data) n == 1)
      (16 ≤ tests ∨ rep = 0 ∨ 16 < rep → ∃ t, exec (.testReq lg) s = .next t ∧ Completed s t c 1 0 ∧ t.ctxs = s.ctxs) ∧
      (1 ≤ tests → tests < 16 → 1 ≤ rep → rep ≤ 16 → s.chOwns c.chamber map 48 = true → lgs ≠ [] →
        (s1.svcRead map 48).1 = s1 → (s1.svcRead map 48).2.status = 0 → (s1.svcRead map 48).2.poison = false →
        (∀ n, n ∈ lgs → ∃ x, s.siteOfLg n = some x ∧ s.chamberOf x = some c.chamber) →
        s.chOwns c.chamber res (8 * lgs.length) = true →
        ∃ t, exec (.testReq lg) s = .next t ∧ t.out = s.out ++ [.relay c.raw] ∧
          t.tst.reqs = s.tst.reqs ++ [⟨c, lg, tests, rep, s.dripNo, lgs, res, [], []⟩] ∧ Keeps s t [])) ∧
    ∀ (k t : Nat) (x : TestSt), s.tst.reqs[k]? = some x → s.siteOfLg lg = some site → x.lgs.contains lg = true →
      bitN x.tests t = 1 → t < 4 → x.runs.get (16 * lg + t) 0 + 1 < x.rep → s.testIdle site t = true →
      ∃ u y, exec (.onDemandTestRun k lg t true) s = .next u ∧ u.tst.reqs[k]? = some y ∧
        y.runs.get (16 * lg + t) 0 = x.runs.get (16 * lg + t) 0 + 1 ∧ y.fails = x.fails ∧ u.csr = s.csr ∧ u.mem = s.mem ∧
        u.ctxs = s.ctxs)

/-- R304 to R315: an update pass or a refresh over a final commit record whose descriptor passes is under way; its end leaves
the record STAGED, or DONE or ABORTED; a STAGED record is committed at once or at its drip, or aborted; a commit whose copy is
done ends its command; a restarted runtime that has read its directory accepts commands again.
Completes: updApply, refreshStage, stagingComplete, updCommit, updAbort, commitCopyComplete, rollForward. -/
def Obligations.ParameterUpdate : Prop :=
  ∀ (s : State) (lg site : Nat) (c : Cmd), site < 448 → s.poison = [] → s.gpoison = [] →
    let s1 := (s.working site c.cls).taken lg c
    let at6 := fldN (c.word 6) 47 0
    let at2 := fldN (c.word 2) 47 0
    let named (a : Nat) : Prop := s1.inDir lg a = true ∧ isStackAddr a = true ∧ s1.rangeIn site a 64 = true
    (RuntimeTakes s lg site (fun c => c.opc == 0x10) c → TfeFree s site (2 * c.queue) c.cls →
      (¬ named at6 → ∃ t, exec (.updApply lg) s = .next t ∧ Completed s t c 12 0 ∧ t.rts = s1.rts ∧ t.ctxs = s.ctxs) ∧
      ∀ u1 r u2 x u3 js, named at6 → s1.crec site at6 = (u1, some r) → r.final = true → u1.rtRead site at2 64 = (u2, x) →
        x.status = 0 → u2.udescOk site at2 x.data = true → u2.tableBusy lg site at6 (udesc x.data).param = false →
        u2.touched site (udesc x.data) = (u3, some js) →
        ∃ t n m, exec (.updApply lg) s = .next t ∧ n + m = js.length ∧
          (t.rt lg).upds = (s.rt lg).upds ++ [⟨c, at6, if (udesc x.data).shadow then 0 else 2, 0, 0, n, m, true, []⟩]) ∧
    (RuntimeTakes s lg site (fun c => c.opc == 0x13) c → TfeFree s site (2 * c.queue) c.cls →
      let src := at2
      let dst := fldN (c.word 3) 47 0
      let len := fldN (c.word 4) 39 0
      ∀ u r, named at6 → s1.crec site at6 = (u, some r) → r.final = true → src % 64 = 0 → dst % 64 = 0 → len % 64 = 0 →
        u.rangeIn site src len = true → u.rangeIn site dst len = true → src + len ≤ dst ∨ dst + len ≤ src →
        u.tableBusy lg site at6 dst = false →
        ∃ t ok, exec (.refreshStage lg) s = .next t ∧
          (t.rt lg).upds = (s.rt lg).upds ++ [⟨c, at6, 1, 0, 0, 0, 0, ok, []⟩]) ∧
    (∀ u u1 r, s.siteOfLg lg = some site → (s.rt lg).upds.find? (fun u => u.phase == 0) = some u →
      TfeFree s site (updKey u.cmd) u.cmd.cls →
      ((s.working site u.cmd.cls).dropUpd lg u).crec site u.recAt = (u1, some r) →
      ∃ t, exec (.stagingComplete lg) s = .next t ∧ (t.rt lg).upds = (s.rt lg).upds.erase u ∧
        (u.kind = 2 ∨ u.crcOk = true → Completed s t u.cmd 0 (u.updated * 2 ^ 32 + u.skipped)) ∧
        (u.kind ≠ 2 → u.crcOk = false → Completed s t u.cmd 17 0)) ∧
    (RuntimeTakes s lg site (fun c => c.opc == 0x11) c → TfeFree s site (2 * c.queue) c.cls →
      ∀ u r, s1.staged lg site c (fldN (c.word 4) 47 0) = (u, 0, some r) →
        let at_ := fldN (c.word 3) 47 0
        (at_ = 0 → ∃ t cs, exec (.updCommit lg) s = .next t ∧
          (t.rt lg).upds = (s.rt lg).upds ++ [⟨c, at2, r.kind, 2, 0, 0, 0, true, cs⟩]) ∧
        (s.fld R.DRIP_NUMBER_NUMBER + 2 ≤ at_ → ∃ t, exec (.updCommit lg) s = .next t ∧
          (t.rt lg).upds = (s.rt lg).upds ++ [⟨c, at2, r.kind, 1, at_, 0, 0, true, []⟩])) ∧
    (RuntimeTakes s lg site (fun c => c.opc == 0x12) c → TfeFree s site (2 * c.queue) c.cls →
      ∀ u r, s1.staged lg site c (fldN (c.word 4) 47 0) = (u, 0, some r) →
        ∃ t, exec (.updAbort lg) s = .next t ∧ Completed s t c 0 0 ∧ (t.rt lg).cmds = (s1.rt lg).cmds) ∧
    (∀ u u1 r u2 ms, s.siteOfLg lg = some site → (s.rt lg).upds.find? (fun u => u.phase == 2) = some u →
      TfeFree s site (updKey u.cmd) u.cmd.cls → (s.working site u.cmd.cls).crec site u.recAt = (u1, some r) →
      u1.commitMoves site r = (u2, ms) → u.claims ≠ [] →
      ∃ t, exec (.commitCopyComplete lg) s = .next t ∧ Completed s t u.cmd 0 0 ∧
        (t.rt lg).upds = (s.rt lg).upds.erase u ∧ ∀ e, e ∈ u.claims → e < 64 → t.reg (R.GM_SB_ENTRY site e) = 0) ∧
    (s.siteOfLg lg = some site → (s.dir lg).restart = true → s.rtUp site = true → TfeFree s site 1000 1 →
      ∃ t, exec (.rollForward lg) s = .next t ∧ (t.dir lg).restart = false ∧ (t.dir lg).scrubbed = false ∧
        (t.dir lg).base = (s.dir lg).base ∧ t.ctxs = s.ctxs)

/-! ## Chapter 12: the survey -/

/-- R277, R279, R280, R282: LOAD_DONE starts the check of the FREE bank, which ends with the bank LOADED, or with the load
rejected under its code and the bank FREE; FLIP arms the flip to a LOADED bank, late where its drip has come, and is discarded
with a record where no bank is LOADED; the Open of its drip, or the next one, makes that bank ACTIVE; FORCE_FREE, or
the last packet and record of a DRAINING bank, frees it; the count of those left is reported; a drain that has lasted
DRAIN_LIMIT_US is late, which is recorded once a drain.
Completes: loadDone, flip, forceFree, surveyLoadComplete, inflightCountReport, surveyDrainComplete, surveyDrainLate. -/
def Obligations.SurveyBanks : Prop :=
  ∀ s : State,
    let b := s.otherBank
    (∀ src v f, Lands s src R.SV_CTRL f whole v →
      (getBits v 1 3 = 1 → s.bank b = 0 → s.fld R.SV_STATUS_LOADING = 0 →
        ∃ t, exec (.loadDone src v) s = .next t ∧ t.fld R.SV_STATUS_LOADING = 1 ∧ t.sv.loadAt = some s.now ∧
          Keeps s t [R.SV_CTRL, R.SV_STATUS]) ∧
      (getBits v 1 3 = 2 → s.bank b = 1 →
        ∃ t, exec (.flip src v) s = .next t ∧ t.fld R.SV_STATUS_FLIP_PEND = 1 ∧ t.bank b = 1 ∧
          t.fld R.SV_STATUS_FLIP_LATE =
            (if s.fld R.SV_FLIP_AT_DRIP_NO ≤ s.fld R.DRIP_NUMBER_NUMBER then 1 else s.fld R.SV_STATUS_FLIP_LATE) ∧
          Keeps s t [R.SV_CTRL, R.SV_STATUS]) ∧
      (getBits v 1 3 = 2 → s.bank b ≠ 1 → ∃ r, r.cls = CE ∧ exec (.flip src v) s = .next (s.raise r)) ∧
      (getBits v 1 3 = 4 → s.bank b = 3 →
        ∃ t, exec (.forceFree src v) s = .next t ∧ t.bank b = 0 ∧ t.fld R.SV_INFLIGHT_OLD = 0 ∧
          t.fld R.CLASSA_COND_SURVEY_STABLE = 1)) ∧
    (s.fld R.SV_STATUS_FLIP_PEND = 1 → s.bank b = 1 →
      (s.fld R.DRIP_NUMBER_NUMBER < s.fld R.SV_FLIP_AT_DRIP_NO → s.svOpen = s) ∧
      (s.fld R.SV_FLIP_AT_DRIP_NO ≤ s.fld R.DRIP_NUMBER_NUMBER → s.svOpen.epoch = b ∧ s.svOpen.bank b = 2 ∧
        s.svOpen.bank s.epoch = 3 ∧ s.svOpen.fld R.SV_STATUS_FLIP_PEND = 0)) ∧
    (s.fld R.SV_STATUS_LOADING = 1 →
      ∃ t, exec .surveyLoadComplete s = .next t ∧ t.fld R.SV_STATUS_LOADING = 0 ∧ t.fld R.SV_STATUS_LOAD_ERR = s.loadErr b ∧
        (s.loadErr b = 0 → t.bank b = 1) ∧
        (s.loadErr b ≠ 0 → t.fld R.SV_STATUS_LOAD_REJ = 1 ∧ t.bank b = s.bank b) ∧ Keeps s t [R.SV_STATUS]) ∧
    (s.bank b = 3 →
      (∃ t, exec .inflightCountReport s = .next t ∧ t.fld R.SV_INFLIGHT_OLD = s.oldLeft b % 2 ^ 48 ∧
        Keeps s t [R.SV_INFLIGHT]) ∧
      (s.fld R.SV_INFLIGHT_OLD = 0 →
        ∃ t, exec .surveyDrainComplete s = .next t ∧ t.bank b = 0 ∧ t.fld R.CLASSA_COND_SURVEY_STABLE = 1 ∧
          Keeps s t [R.SV_STATUS, R.SV_INFLIGHT, R.CLASSA_COND]) ∧
      ∀ at_, s.sv.drainAt = some at_ → s.sv.lateRec = false →
        ∃ t, exec .surveyDrainLate s = .next t ∧ t.fld R.SV_STATUS_DRAIN_LATE = 1 ∧
          t.now = max s.now (at_ + 1000 * s.fld R.SV_CTRL_DRAIN_LIMIT_US) ∧ Keeps s t [R.SV_STATUS])

/-! ## Chapter 13: stacks -/

/-- R290, R291, R293, R297, R299: a request at a region that is not open is answered UNMAPPED (8); a read that finds no error
gives the 64 bytes; a write of a whole unit stores them and clears its poison; a partial write merges the enabled bytes; the
scrub goes on to the next unit and counts a corrected error; a temperature is shown, and doubles the refresh above 85 degrees.
Completes: stackRequest, stackScrubRead, stackTempRead. -/
def Obligations.StackRequests : Prop :=
  ∀ (s : State) (x : Nat) (w : Bool) (en chk : Nat) (data : List Byte),
    let u := x / 64 * 64
    (s.stackOpen u = false →
      ∃ t, exec (.stackRequest x w en data chk) s = .next t ∧ t.out = s.out ++ [.stackRead 0 8 false] ∧ t.mem = s.mem ∧
        t.csr = s.csr) ∧
    (s.stackOpen u = true →
      (s.stackPoisoned u = false →
        (∃ t, exec (.stackRequest x false en data 0) s = .next t ∧
          t.out = s.out ++ [.stackRead (leNat (s.rdStack u 64)) 0 false] ∧ t.mem = s.mem ∧ t.csr = s.csr) ∧
        (en % 2 ^ 64 ≠ 2 ^ 64 - 1 →
          ∃ t, exec (.stackRequest x true en data 0) s = .next t ∧ t.out = s.out ++ [.stackRead 0 0 false] ∧
            t.csr = s.csr ∧ (∀ i, i < 64 → (t.rdStack u 64).getD i 0 =
              if bitN en i = 1 then data.getD i 0 else (s.rdStack u 64).getD i 0))) ∧
      (en % 2 ^ 64 = 2 ^ 64 - 1 → 64 ≤ data.length →
        ∃ t, exec (.stackRequest x true en data chk) s = .next t ∧ t.rdStack u 64 = data.take 64 ∧
          t.stackPoisoned u = false ∧ t.out = s.out ++ [.stackRead 0 0 false] ∧ t.csr = s.csr)) ∧
    ∀ k : Nat, k < 32 →
      (s.fld (R.MS_CTRL_SCRUB_EN k) = 1 → s.fld (R.MS_STATUS_STATE k) = 2 → (s.ms k).scrubAt + 1 < 2 ^ 30 →
        (∃ t, exec (.stackScrubRead k 0) s = .next t ∧ t.ms k = { s.ms k with scrubAt := (s.ms k).scrubAt + 1 } ∧
          t.csr = s.csr ∧ t.mem = s.mem) ∧
        ∃ t, exec (.stackScrubRead k 1) s = .next t ∧ (t.ms k).scrubAt = (s.ms k).scrubAt + 1 ∧
          t.fld (R.MS_ECC_CNT_CE k) = satAdd (R.MS_ECC_CNT_CE k).width (s.fld (R.MS_ECC_CNT_CE k)) 1 ∧
          Keeps s t [R.MS_ECC_CNT k]) ∧
      ∀ temp, s.mode = .normal →
        ∃ t, exec (.stackTempRead k temp) s = .next t ∧ t.fld (R.MS_STATUS_TEMP k) = temp % 256 ∧
          t.fld (R.MS_STATUS_REFRESH_2X k) = (if 85 < temp then 1 else 0) ∧ Keeps s t [R.MS_STATUS k]

/-! ## Chapter 15: lamps and links -/

/-- R317 to R320, Table 15.20: a cartridge warms from its insertion; one that has warmed feeds its own engine where nothing
else does, one that has not in 5 s fails; a weak or replaced lamp hands its engine to a READY spare, or the release is
refused; a lamp that loses its power goes dark at once, with its engine's links where no lamp is READY; a lamp that failed or
was released can be removed.
Completes: lampInsert, lampWarmed, lampWarmTimeout, lampPowerLow, replace, lampPowerLoss, lampRemove, lampFault. -/
def Obligations.Lamps : Prop :=
  ∀ (s : State) (k : Nat), k < 10 →
    let e := s.fld (R.LAMP_STATUS_FEEDS k)
    let j := spareOf e
    let handsOver (t : State) : Prop := t.lampState k = 4 ∧ t.lampState j = 3 ∧ t.fld (R.LAMP_STATUS_FEEDS j) = e ∧
      ∀ i, i < 4 → t.fld (R.PORT_STATUS_LIGHT (4 * e + i)) = 1
    let ports (e : Nat) : List Nat := (List.range 4).map (fun i => R.PORT_STATUS (4 * e + i))
    (∀ rated, s.lampState k = 0 →
      ∃ t, exec (.lampInsert k rated) s = .next t ∧ t.lampState k = 1 ∧ t.lamp k = ⟨rated, s.now⟩ ∧ Keeps s t [R.LAMP_STATUS k]) ∧
    (s.lampState k = 1 →
      (∀ power, k < 8 → 9 * (s.lamp k).rated ≤ 10 * power → 10 * power ≤ 11 * (s.lamp k).rated → s.feeder k = none →
        ∃ t, exec (.lampWarmed k power) s = .next t ∧ t.lampState k = 3 ∧ t.fld (R.LAMP_STATUS_FEEDS k) = k ∧
          (∀ i, i < 4 → t.fld (R.PORT_STATUS_LIGHT (4 * k + i)) = 0) ∧
          t.now = max s.now ((s.lamp k).warmAt + 1000000000) ∧ Keeps s t (R.LAMP_STATUS k :: ports k)) ∧
      ∃ t, exec (.lampWarmTimeout k) s = .next t ∧ t.lampState k = 5 ∧
        t.now = max s.now ((s.lamp k).warmAt + 5000000000) ∧ Keeps s t [R.LAMP_STATUS k]) ∧
    (s.lampState k = 3 → e < 8 →
      (∀ power, 10 * power < 8 * (s.lamp k).rated →
        (j ≠ k → s.lampState j = 2 →
          ∃ t, exec (.lampPowerLow k power) s = .next t ∧ handsOver t ∧
            Keeps s t ([R.LAMP_STATUS k, R.LAMP_STATUS j] ++ ports e)) ∧
        (j = k ∨ s.lampState j ≠ 2 →
          ∃ t, exec (.lampPowerLow k power) s = .next t ∧ t.lampState k = 3 ∧ t.fld (R.LAMP_STATUS_REFUSED k) = 1 ∧
            Keeps s t [R.LAMP_STATUS k])) ∧
      (∀ src v f, Lands s src (R.LAMP_CTRL k) f whole v → getBits v 1 1 = 1 → j ≠ k → s.lampState j = 2 →
        ∃ t, exec (.replace src k v) s = .next t ∧ handsOver t ∧
          Keeps s t ([R.LAMP_CTRL k, R.LAMP_STATUS k, R.LAMP_STATUS j] ++ ports e)) ∧
      (∀ power removed, removed = true ∨ 2 * power < (s.lamp k).rated → (∀ n, n ∈ lampsOf e → s.lampState n ≠ 2) →
        ∃ t, exec (.lampPowerLoss k power removed) s = .next t ∧ t.lampState k = (if removed then 0 else 5) ∧
          (∀ i, i < 4 → t.fld (R.PORT_STATUS_LIGHT (4 * e + i)) = 2 ∧ t.fld (R.PORT_STATUS_LINK_UP (4 * e + i)) = 0) ∧
          Keeps s t ([R.LAMP_STATUS k, R.DRIP_STATUS] ++ ports e))) ∧
    (s.lampState k = 4 ∨ s.lampState k = 5 →
      ∃ t, exec (.lampRemove k) s = .next t ∧ t.lampState k = 0 ∧ t.fld (R.LAMP_STATUS_POWER k) = 0 ∧
        Keeps s t [R.LAMP_STATUS k]) ∧
    (s.lampState k = 1 ∨ s.lampState k = 2 →
      ∃ t, exec (.lampFault k) s = .next t ∧ t.lampState k = 5 ∧ Keeps s t [R.LAMP_STATUS k])

/-- R321 to R325, R338: a link goes down, or comes up where it is enabled, lit and of the port's mode; RETRAIN takes every link
of the port down; a PFC frame pauses or resumes its priority; the control path passes its frames out, and an unclaimed frame
is dropped and counted; the gates of a link follow its entries.
Completes: linkDown, standby, linkUp, retrain, pfcFrame, controlPathFrame, unclaimedFrame, qbvGateChange. -/
def Obligations.Links : Prop :=
  ∀ (s : State) (p l : Nat), p < 32 → l < 4 →
    (∃ t, exec (.linkDown p l) s = .next t ∧ t.linkUp p l = false ∧ Keeps s t [R.PORT_STATUS p, R.DRIP_STATUS]) ∧
    (bitN (s.fld (R.PORT_CTRL_LINK_EN p)) l = 1 → s.fld (R.PORT_STATUS_LIGHT p) ≠ 2 →
      l < linksOf (s.fld (R.PORT_CTRL_MODE p)) → s.mode ≠ .standby → s.mode ≠ .off →
      ∃ t, exec (.linkUp p l) s = .next t ∧ t.linkUp p l = true ∧ Keeps s t [R.PORT_STATUS p, R.PORT_TX_CNT p]) ∧
    (∀ src v f, Lands s src (R.PORT_CTRL p) f whole v → getBits v 6 1 = 1 →
      ∃ t, exec (.retrain src p v) s = .next t ∧ t.fld (R.PORT_STATUS_LINK_UP p) = 0 ∧
        t.fld (R.PORT_CTRL_MODE p) = prPort s.sec.profile p ∧ t.fld (R.PORT_CTRL_LINK_EN p) = getBits v 0 4 ∧
        Keeps s t [R.PORT_CTRL p, R.PORT_STATUS p, R.DRIP_STATUS]) ∧
    (s.linkUp p l = true →
      (∀ prio pause, (prio = 4 ∧ bitN (s.fld (R.PORT_PFC_P4 p)) l = 1) ∨ (prio = 1 ∧ bitN (s.fld (R.PORT_PFC_P1 p)) l = 1) →
        ∃ t, exec (.pfcFrame p l prio pause) s = .next t ∧ (t.port p).paused.get (8 * l + prio) 0 = b2n pause ∧
          Keeps s t [R.PORT_RX_CNT p, R.PORT_TX_CNT p]) ∧
      (∀ raw, s.mode ≠ .refuge →
        ∃ t, exec (.controlPathFrame p l raw) s = .next t ∧ t.out = s.out ++ [.control p l raw] ∧
          Keeps s t [R.PORT_RX_CNT p]) ∧
      ∃ t, exec (.unclaimedFrame p l) s = .next t ∧
        t.fld (R.PORT_RX_CNT_FRAMES p) = satAdd 32 (s.fld (R.PORT_RX_CNT_FRAMES p)) 1 ∧
        t.fld (R.PORT_RX_CNT_DROP p) = satAdd 32 (s.fld (R.PORT_RX_CNT_DROP p)) 1 ∧ Keeps s t [R.PORT_RX_CNT p]) ∧
    ∀ n ns, ((s.gateEntries p l).flatMap (fun e => [e.2.1, e.2.2])).filter (fun x => decide (s.now - s.drip.openAt < x)) = n :: ns →
      (∀ m, m ∈ ns → n ≤ m) →
      ∃ t, exec (.qbvGateChange p l) s = .next t ∧ t.now = s.drip.openAt + n ∧
        (t.port p).gates.get l 7 = gatesAt (s.gateEntries p l) n ∧ Keeps s t [R.PORT_TX_CNT p]

/-! ## Chapter 15: transports -/

/-- R327, R328, R330, R332: a port takes the oldest request of a send queue: an SFT write draws its transfer's PSNs from its
flow, and one of a single fragment whose data are read leaves at once; a command packet leaves in a CMD frame; a send, write
or read of a queue pair draws its PSNs, and a read that nothing precedes leaves at once. A write that a full queue has held
for 200 µs ends with TIMEOUT; a completion that has waited as long is written or counted as dropped.
Completes: sftWrite, sftCommand, roceSend, rdmaWrite, rdmaRead, sqPostTimeout, portCompletionDrop. -/
def Obligations.SendQueues : Prop :=
  ∀ (s : State) (p l q : Nat), p < 32 → s.poison = [] → s.gpoison = [] →
    let k := 64 * l + q
    (∀ w, s.mode = .normal → s.sqHead p l q = some w → s.chOwns w.chamber w.src w.len = true →
      let left (t : State) : Prop := (t.port p).sqs.get k [] = ((s.port p).sqs.get k []).tail
      (w.opc = 0 → s.sftOk p w = true → s.flowDead p w.flow = none → (s.flow p w.flow).xfers.length < 16 →
        let x := s.flow p w.flow
        let total := max 1 (ceilDiv w.len 4096)
        let s2 := s.setFlow p w.flow { x with
          xfers := x.xfers ++ [⟨x.nextXfer, w, total, x.psn, 0⟩]
          psn := (x.psn + total) % 2 ^ 32
          nextXfer := (x.nextXfer + 1) % 2 ^ 48 }
        ∃ t, exec (.sftWrite p l q) s = .next t ∧ left t ∧ (t.flow p w.flow).psn = (x.psn + total) % 2 ^ 32 ∧
          (t.flow p w.flow).nextXfer = (x.nextXfer + 1) % 2 ^ 48 ∧
          ∀ s3 r, x.xfers = [] → x.frags = [] → w.len ≤ 4096 → w.cls = 0 ∨ 0 < s2.window p w.flow →
            s2.portRead p w.thread w.cls w.src w.len = .got s3 r → r.status = 0 →
            s3.maySend p (s.fld (R.SFT_FLOW0_LINK p w.flow)) w.cls = true →
            t.out = s3.out ++ [.frame p (s.fld (R.SFT_FLOW0_LINK p w.flow)) w.cls (Sft.frame { s.flowHdr p w.flow 0 with
              cls := w.cls, psn := x.psn % 2 ^ 32, xfer := x.nextXfer, addr := w.remote % 2 ^ 48, total := 1,
              len := r.data.length } r.data)]) ∧
      (w.opc = 1 → s.sftOk p w = true → s.flowDead p w.flow = none → ∀ s2 r, s.portRead p w.thread w.cls w.src 64 = .got s2 r →
        r.status = 0 → s2.maySend p (s.fld (R.SFT_FLOW0_LINK p w.flow)) w.cls = true →
        ∃ t more, exec (.sftCommand p l q) s = .next t ∧ left t ∧
          t.out = s2.out ++ .frame p (s.fld (R.SFT_FLOW0_LINK p w.flow)) w.cls (Sft.frame { s.flowHdr p w.flow 4 with
            cls := w.cls, len := r.data.length } r.data) :: more) ∧
      (∀ x, s.qpOk p w = true → s.qp p w.flow = some x → x.failed = false →
        let posts (c : Instr) : Prop := ∃ t y, exec c s = .next t ∧ left t ∧ t.qp p w.flow = some y ∧
          y.psn = psn24 (x.psn + x.packets w.len) ∧ y.expect = x.expect
        (w.opc = 2 → posts (.roceSend p l q)) ∧ (w.opc = 3 → posts (.rdmaWrite p l q)) ∧
        (w.opc = 4 → (x.reqs.filter (fun r => r.wr.opc == 4)).length < 16 →
          posts (.rdmaRead p l q) ∧
          (x.reqs = [] → s.maySend p x.link x.cls = true →
            ∃ t, exec (.rdmaRead p l q) s = .next t ∧
              t.out = s.out ++ [.frame p x.link x.cls (leBytes 1 2 ++ beBytes 3 x.peer ++ beBytes 3 x.psn ++ rethOf w)])))) ∧
    (∀ site op d, s.descOf site op = some d → d.kind = 0 → d.readsOver = false → postOf d.dst = some (p, l, q) →
      s.sqRoom p l q = false →
      ∃ t, exec (.sqPostTimeout site op) s = .next t ∧ t.descOf site op = some { d with ended := true, status := 7 } ∧
        t.now = max s.now (d.startAt + 200000) ∧ t.csr = s.csr ∧ t.mem = s.mem) ∧
    ∀ h hs, (s.port p).held = h :: hs →
      let s2 := (s.withNow (max s.now (h.at_ + 200000))).setPort p { s.port p with held := hs }
      ∃ t, exec (.portCompletionDrop p) s = .next t ∧ (t.port p).held = hs ∧ t.now = max s.now (h.at_ + 200000) ∧
        (s2.cqPort p h.thread h.tag h.status h.info = none →
          t.fld (R.PORT_TX_CNT_CPL_DROP p) = satAdd 16 (s.fld (R.PORT_TX_CNT_CPL_DROP p)) 1)

/-- R331, R333 to R337, Table 15.11: a DATA frame of a flow in order whose data can be written advances the PSN expected; an
ACK takes the fragments before its PSN; a NACK or COMPLETE ends its transfer, and DEAD_DEST makes the flow DEAD; a CMD frame
hands its packet to the queue bound to its flow, and a CTRL frame its message to the operation it names; 2 µs after an
unacknowledged arrival an ACK leaves; a fragment that has gone unacknowledged in eight attempts makes the flow STUCK. R35,
R329: a DATA frame whose write must wait is held in the buffer of its receive queue.
Completes: sftData, sftAck, sftNack, sftComplete, sftCmd, sftCtrl, sftAckTimer, sftRtoExpiry. -/
def Obligations.SftFrames : Prop :=
  ∀ (s : State) (p l : Nat), p < 32 → s.poison = [] → s.gpoison = [] →
    (∀ f h b, s.linkUp p l = true → s.mode = .normal → sftOf f.raw = some (h, b) → h.dflow < 2048 →
      let x := s.flow p h.dflow
      let s1 := s.rxFrame p
      let peer (dir : Nat) : Prop := s.flowOk p h.dflow dir = true ∧ s.gensOk p h.dflow h = true
      (h.type = 0 → peer 1 → s.fld (R.FR_CHAMBER_STATE (s.fld (R.SFT_FLOW0_CHAMBER p h.dflow))) ≠ 2 → f.ce = false →
        h.addr + b.length ≤ s.fld (R.SFT_FLOW2_TARGET p h.dflow) % 2 ^ 24 * 4096 → h.psn = x.expect → h.psn < 2 ^ 32 →
        x.got = [] → s.rxBuf p (s.fld (R.SFT_FLOW0_RXQ p h.dflow)) = [] →
        let q := s.fld (R.SFT_FLOW0_RXQ p h.dflow)
        let cls := s.fld (R.SFT_FLOW0_CLS p h.dflow)
        let wr := s1.rxWrite p q cls (s.fld (R.SFT_FLOW0_CHAMBER p h.dflow)) (s.fld (R.SFT_FLOW1_BASE p h.dflow) + h.addr) b
        (∀ s2, wr = .done s2 0 →
          ∃ t, exec (.sftData p l f) s = .next t ∧ (t.flow p h.dflow).expect = (x.expect + 1) % 2 ^ 32 ∧
            (t.flow p h.dflow).got = [] ∧ (1 < h.total → x.rx = [] → t.mem = s2.mem)) ∧
        (∀ s2, wr = .wait s2 → f.raw.length ≤ rxSize →
          ∃ t, exec (.sftData p l f) s = .next t ∧ t.rxBuf p q = [⟨cls, f.raw.length, .sftData l f⟩] ∧
            t.flow p h.dflow = x ∧ t.mem = s2.mem)) ∧
      (h.type = 1 → peer 0 → (∀ g, g ∈ x.frags → psnLt g.psn h.apsn = true) → (∀ y, y ∈ x.xfers → y.total ≤ y.sent) →
        ∃ t, exec (.sftAck p l f) s = .next t ∧ (t.flow p h.dflow).frags = [] ∧ (t.flow p h.dflow).xfers = x.xfers ∧
          Keeps s t [R.PORT_RX_CNT p]) ∧
      (h.type = 2 → peer 0 →
        ∃ t, exec (.sftNack p l f) s = .next t ∧
          t.fld (R.PORT_SFT_CNT_NACK p) = satAdd 32 (s.fld (R.PORT_SFT_CNT_NACK p)) 1 ∧
          (∀ y, y ∈ (t.flow p h.dflow).xfers → y.id ≠ h.xfer) ∧
          (h.status = 1 → t.fld (R.SFT_FLOW0_STATE p h.dflow) = 1)) ∧
      (h.type = 3 → peer 0 →
        ∃ t, exec (.sftComplete p l f) s = .next t ∧ ∀ y, y ∈ (t.flow p h.dflow).xfers → y.id ≠ h.xfer) ∧
      (∀ j n, h.type = 4 → peer 1 → b.length = 64 →
        List.find? (fun q => q.2.port == p && q.2.flow == h.dflow) s.host.netqs = some (j, n) →
        ∃ t, exec (.sftCmd p l f) s = .next t ∧ (j, { n with packets := n.packets ++ [b] }) ∈ t.host.netqs ∧
          Keeps s t [R.PORT_RX_CNT p])) ∧
    (∀ f h b, s.linkUp p l = true → s.mode ≠ .refuge → sftOf f.raw = some (h, b) → h.type = 5 → b.length = 128 →
      let m : CtrlMsg := ⟨b, some (p, h.sflow)⟩
      ∀ code c, (code, c) ∈ [(1, Instr.leaseGrant m), (2, .fenceOrder m), (3, .setProfile m), (4, .standby m),
          (5, .restart m), (6, .bindNetq m), (7, .resend m), (8, .collector m)] → leAt b 0 2 = code →
        ∃ t, exec (.sftCtrl p l f) s = .next t ∧ exec c (s.rxFrame p) = .next t) ∧
    ∀ fl, fl < 2048 →
      let x := s.flow p fl
      (∀ at_, x.since = some at_ → s.flowOk p fl 1 = true →
        s.maySend p (s.fld (R.SFT_FLOW0_LINK p fl)) (s.fld (R.SFT_FLOW0_CLS p fl)) = true →
        ∃ t fr, exec (.sftAckTimer p fl) s = .next t ∧ t.now = max s.now (at_ + 2000) ∧
          t.out = s.out ++ [.frame p (s.fld (R.SFT_FLOW0_LINK p fl)) (s.fld (R.SFT_FLOW0_CLS p fl)) fr] ∧
          t.flow p fl = { x with since := none, unacked := 0, ece := false } ∧ Keeps s t [R.PORT_TX_CNT p]) ∧
      ∀ psn g, x.frags.find? (fun g => g.psn == psn && !g.sacked) = some g →
        ∃ t, exec (.sftRtoExpiry p fl psn) s = .next t ∧ t.now = max s.now (g.sentAt + g.rto) ∧
          (8 ≤ g.attempts → t.fld (R.SFT_FLOW0_STATE p fl) = 2 ∧ (t.flow p fl).xfers = [])

/-- R330: a request of a queue pair in PSN order that can be carried out advances the PSN expected, a SEND takes a slot of the
receive ring; a READ response and an ACK end the requests they cover; a pair without progress goes back, or fails when its
retries are used; a CNP halves its rate, which rises again by a twentieth.
Completes: roceSendReceive, rdmaWriteReceive, rdmaReadRequestReceive, rdmaReadResponseReceive, roceAckReceive,
roceAckTimeout, cnpReceive, roceRateIncrease. -/
def Obligations.RoceFrames : Prop :=
  ∀ (s : State) (p l : Nat) (x : QpSt), p < 32 → s.poison = [] → s.gpoison = [] →
    (∀ m : Roce, s.linkUp p l = true → s.mode = .normal → s.qp p m.qp = some x → m.icrcOk = true → m.ce = false →
      x.failed = false → s.rxBuf p x.rxq = [] →
      let s1 := s.rxFrame p
      (m.psn = x.expect → ∀ s2,
        (m.len ≤ 4096 → x.ringSlots ≠ 0 →
          s1.rxWrite p x.rxq x.cls x.chamber (x.ringBase + 4096 * (x.ringWr % x.ringSlots)) (m.payload.take m.len) =
            .done s2 0 →
          ∃ t y, exec (.roceSendReceive p l m) s = .next t ∧ t.qp p m.qp = some y ∧ y.ringWr = x.ringWr + 1 ∧
            y.expect = psn24 (x.expect + x.packets m.len)) ∧
        (∀ a, s.mrAt x m.rkey m.va m.len = some a → s1.rxWrite p x.rxq x.cls x.chamber a (m.payload.take m.len) = .done s2 0 →
          ∃ t y, exec (.rdmaWriteReceive p l m) s = .next t ∧ t.qp p m.qp = some y ∧ y.ringWr = x.ringWr ∧
            y.expect = psn24 (x.expect + x.packets m.len) ∧ (m.imm = none → t.mem = s2.mem)) ∧
        (s1.readAnswer p x m = some s2 →
          ∃ t y, exec (.rdmaReadRequestReceive p l m) s = .next t ∧ t.qp p m.qp = some y ∧ t.out = s2.out ∧ t.mem = s2.mem ∧
            y.expect = psn24 (x.expect + x.packets m.len))) ∧
      (∀ r rest s2, x.reqs = r :: rest → r.wr.opc = 4 → r.psn = m.psn → m.payload.length = r.wr.len →
        s1.rxWrite p x.rxq r.wr.cls x.chamber r.wr.src m.payload = .done s2 0 →
        ∃ t y, exec (.rdmaReadResponseReceive p l m) s = .next t ∧ t.qp p m.qp = some y ∧ y.tries = 0 ∧
          ∀ z, z ∈ y.reqs → z.psn ≠ m.psn) ∧
      (∀ r, x.reqs = [r] → r.wr.opc ≠ 4 → m.syn = 0 → psn24 (m.psn + 1) = psn24 (r.psn + r.npkt) →
        ∃ t y, exec (.roceAckReceive p l m) s = .next t ∧ t.qp p m.qp = some y ∧ y.reqs = [] ∧ y.tries = 0 ∧
          y.rnrTries = 0)) ∧
    ∀ qp, s.qp p qp = some x →
      (∀ r rest, x.reqs = r :: rest →
        ∃ t y, exec (.roceAckTimeout p qp) s = .next t ∧ t.qp p qp = some y ∧
          t.now = max s.now (x.sentAt + 4096 * 2 ^ x.timeout) ∧
          (x.retryMax ≤ x.tries → y.failed = true ∧ y.reqs = []) ∧ (x.tries < x.retryMax → y.tries = x.tries + 1)) ∧
      (∃ t, exec (.cnpReceive p qp) s = .next t ∧ t.qp p qp = some { x with rate := x.rate / 2, rateAt := s.now } ∧
        t.csr = s.csr ∧ t.mem = s.mem ∧ t.out = s.out) ∧
      (x.rate < fullRate →
        ∃ t, exec (.roceRateIncrease p qp) s = .next t ∧ t.csr = s.csr ∧ t.mem = s.mem ∧
          t.qp p qp = some { x with rate := min fullRate (ceilDiv (x.rate * 21) 20), rateAt := max s.now (x.rateAt + 55000) })

/-! ## Chapters 11 and 12: records and packets -/

/-- R238, R239, R243, R244, Tables 11.2 to 11.4: a record that passes its checks is written at its place, kept in its ring and
answered OK; one whose ring is not its own is answered DEAD_DEST and counted; an answer takes its record from those
unanswered, and DEAD_DEST makes the line DEAD; a record without an answer for 200 µs makes it STUCK; 1 µs after an unreported
advance a credit return leaves, and one that is in force sets the line's RDK and SEQK. R282, R283: each of the three passes
one switch output after another, where nothing of a lower rank waits for the same one.
Completes: recordArrival, recordAnswer, recordTimeout, creditReturnTimer, creditReturnReceive. -/
def Obligations.MessageRecords : Prop :=
  ∀ s : State,
    (∀ k (r : Rec) d, s.net[k]? = some r → r.dsite = some d → s.ropeServed r.waits = true → ropeLast r.site d r.hop = false →
      ∃ t, exec (.recordArrival k) s = .next t ∧ t.net = s.net.set k { r with hop := r.hop + 1 } ∧ Keeps s t [R.ROPE_STATUS]) ∧
    (∀ k (r : Rec) d, s.net[k]? = some r → r.dsite = some d → d < 448 → r.ring < 1024 → s.rtrState d ≠ 3 →
      s.ropeServed r.waits = true → ropeLast r.site d r.hop = true →
      s.fenced d = false → s.fld (R.MU_CTRL_ENABLE d) = 1 →
      let answer (st : Nat) : Ans := ⟨r.site, r.line, r.lgen, r.ggen, r.seq, st, r.slots, r.core, d, r.cls, 0⟩
      (∀ x, s.recCheck d r = (0, some x) → r.kind ≠ 1 →
        ∃ t y, exec (.recordArrival k) s = .next t ∧ t.net = s.net.eraseIdx k ∧ t.answers = s.answers ++ [answer 0] ∧
          t.rdGal d x r.image.length = r.image ∧ y ∈ (t.ring (d * 1024 + r.ring)).recs ∧ y.seq = r.seq ∧ y.st = 0 ∧
          (∀ a, (a < galKey d x ∨ galKey d x + r.image.length ≤ a) → t.rdByte a = s.rdByte a) ∧ t.ctxs = s.ctxs) ∧
      (∀ y, s.recCheck d r = (1, y) →
        ∃ t, exec (.recordArrival k) s = .next t ∧ t.net = s.net.eraseIdx k ∧ t.answers = s.answers ++ [answer 1] ∧
          t.fld (R.MSG_DEAD_COUNT d) = satAdd (R.MSG_DEAD_COUNT d).width (s.fld (R.MSG_DEAD_COUNT d)) 1 ∧
          Keeps s t [R.MSG_DEAD d])) ∧
    (∀ k a, s.answers[k]? = some a → s.ropeServed a.waits = true → ropeLast a.src a.site a.hop = false →
      ∃ t, exec (.recordAnswer k) s = .next t ∧ t.answers = s.answers.set k { a with hop := a.hop + 1 } ∧
        Keeps s t [R.ROPE_STATUS]) ∧
    (∀ k a u, s.answers[k]? = some a → a.site < 448 → a.line < 1024 → s.ropeServed a.waits = true →
      ropeLast a.src a.site a.hop = true → s.genNow a.site a.core a.ggen = true →
      s.fld (R.MU_LINE1_LGEN a.site a.line) = a.lgen →
      (s.una (a.site * 1024 + a.line)).find? (fun u => !u.resv && u.seq == a.seq) = some u →
      (a.status < 6 →
        ∃ t, exec (.recordAnswer k) s = .next t ∧ t.answers = s.answers.eraseIdx k ∧
          t.una (a.site * 1024 + a.line) = (s.una (a.site * 1024 + a.line)).erase u ∧
          (a.status = 1 → s.fld (R.MU_LINE0_STATE a.site a.line) = 0 → t.fld (R.MU_LINE0_STATE a.site a.line) = 1 ∧
            t.fld (R.MU_LINE2_RDK a.site a.line) = (s.fld (R.MU_LINE2_RDK a.site a.line) + u.slots) % 2 ^ 16))) ∧
    (∀ site l seq u, site < 448 → l < 1024 →
      (s.una (site * 1024 + l)).find? (fun u => !u.resv && u.seq == seq) = some u →
      ∃ t, exec (.recordTimeout site l seq) s = .next t ∧ t.fld (R.MU_LINE0_STATE site l) = 2 ∧
        (∀ y, y ∈ t.una (site * 1024 + l) → y.resv = true) ∧ t.now = max s.now (u.at_ + 200000)) ∧
    (∀ site r at_, (s.ring (site * 1024 + r)).since = some at_ → s.fld (R.MU_RING0_VALID site r) = 1 →
      let g := s.ring (site * 1024 + r)
      ∃ t, exec (.creditReturnTimer site r) s = .next t ∧ t.now = max s.now (at_ + 1000) ∧
        t.crets = s.crets ++ [⟨g.site, g.line, g.lgen, g.ggen, s.fld (R.MU_RING1_RD site r),
          s.fld (R.MU_RING1_SEQ_NEXT site r), site, g.cls, 0⟩] ∧
        (t.ring (site * 1024 + r)).since = none ∧ t.csr = s.csr ∧ t.mem = s.mem ∧ t.ctxs = s.ctxs) ∧
    (∀ k c, s.crets[k]? = some c → s.ropeServed c.waits = true → ropeLast c.src c.site c.hop = false →
      ∃ t, exec (.creditReturnReceive k) s = .next t ∧ t.crets = s.crets.set k { c with hop := c.hop + 1 } ∧
        Keeps s t [R.ROPE_STATUS]) ∧
    ∀ k c, s.crets[k]? = some c → c.site < 448 → s.ropeServed c.waits = true → ropeLast c.src c.site c.hop = true →
      s.genNow c.site none c.ggen = true → s.fld (R.MU_LINE1_LGEN c.site c.line) = c.lgen →
      ∃ t, exec (.creditReturnReceive k) s = .next t ∧ t.crets = s.crets.eraseIdx k ∧
        t.fld (R.MU_LINE2_RDK c.site c.line) = c.rd % 2 ^ 16 ∧ t.fld (R.MU_LINE2_SEQK c.site c.line) = c.seqNext % 2 ^ 16 ∧
        Keeps s t [R.MU_LINE2 c.site c.line]

/-- R258, R260 to R264, R268 to R271, R419, Table 12.4: a packet enters the fabric on the first link of its route, in the
passage that serves its way if there is one, a Class A packet that no Class A passage serves as Class B and counted; it moves
on by one stop, turns, and is written where it ends; one whose gallery is not placed is dropped and counted; one that makes
no progress is dropped, and one whose parity fails is an offence of the site where it was; a failed CRC is counted; a
draining router goes to BYPASS when it is empty, or after 10 µs with what it holds discarded.
Completes: packetArrival, noProgressTimeout, linkCrcRetry, routerDrainComplete, routerDrainTimeout. -/
def Obligations.BulkPackets : Prop :=
  ∀ s : State,
    (∀ k (p : Pkt), s.pkts[k]? = some p → p.group = none →
      (p.loc = .source → s.rtrState p.src ≠ 2 → s.rtrState p.src ≠ 3 →
        (∀ lg, p.lg = some lg → s.siteOfLgIn s.epoch lg = none →
          ∃ t, exec (.packetArrival k false) s = .next t ∧ (p.put = none → t.pkts = s.pkts.eraseIdx k) ∧
            t.fld (R.RTR_DROP_CNT_OVERRUN (rtrBase p.src)) = satAdd 32 (s.fld (R.RTR_DROP_CNT_OVERRUN (rtrBase p.src))) 1) ∧
        (∀ d u, s.pktDst p = some d → d ≠ p.src → p.cls < 3 →
          let q := { p with dst := d, epoch := s.epoch }
          let f := flitsOf p.data.length
          let near := neighbours p.src d
          let x := if near then none else s.pktPassage q d
          let cls := if near then p.cls else s.pktClass q d
          let dir := firstDir p.src d
          let loc : PktAt := if near then .neighbour else .ring p.src dir
          (near = false → x = none → s.bufUsed p.src dir (cls == 0) ≤ 2) →
          (∀ y, x = some y → cls = 0 ∨ s.passageBusy q y = false) →
          s.charge p.master ⟨0, 0, if x.isSome then f else 0, if p.cls = 0 then f else 0⟩ = .ok u →
          ∃ t, exec (.packetArrival k false) s = .next t ∧
            t.pkts[k]? = some { q with loc := loc, cls := cls, budget := routeHops p.src d, since := s.now, passage := x } ∧
            t.pkts.length = s.pkts.length ∧ (∀ a, a < hostKey 0 → t.rdByte a = s.rdByte a) ∧ t.ctxs = s.ctxs ∧
            t.fld (R.RTR_CLASSA_CNT_DEMOTED (rtrBase p.src)) =
              satAdd (R.RTR_CLASSA_CNT_DEMOTED (rtrBase p.src)).width (s.fld (R.RTR_CLASSA_CNT_DEMOTED (rtrBase p.src)))
                (if p.cls = 0 ∧ cls ≠ 0 then 1 else 0))) ∧
      (∀ n dir, p.loc = .ring n dir → turnsAt p n dir = true →
        (p.passage.isSome = true ∨ s.rtrState n ≠ 2 ∧ s.rtrState n ≠ 3 ∧ s.bufUsed n (colDir n p.dst) (p.cls == 0) ≤ 2) →
        ∃ t, exec (.packetArrival k false) s = .next t ∧
          t.pkts[k]? = some { p with loc := .ring n (colDir n p.dst), since := s.now } ∧ t.csr = s.csr ∧ t.mem = s.mem) ∧
      (∀ n dir m b, p.loc = .ring n dir → turnsAt p n dir = false → s.nextLit 80 n dir p.budget = (m, b) →
        let q := { p with passage := s.passageOn p n dir }
        s.linkBusy q n dir = false →
        (p.ends m dir = false → b ≠ 0 → q.passage.isSome = true ∨ s.bufUsed m dir (p.cls == 0) < 4 →
          ∃ t, exec (.packetArrival k false) s = .next t ∧
            t.pkts[k]? = some { q with loc := .ring m dir, budget := b, since := s.now } ∧ t.csr = s.csr ∧ t.mem = s.mem) ∧
        (p.ends m dir = true → p.put = none → p.onward = none → isGallerySite m = true → s.nodeFenced m = false → m ≠ p.site →
          s.chamberOf m = s.chamberOf p.site → s.gate m p.addr p.data.length = .ok → p.poison = false →
          ∃ t, exec (.packetArrival k false) s = .next t ∧ t.pkts = s.pkts.eraseIdx k ∧
            t.rdGal m p.addr p.data.length = p.data ∧ t.ctxs = s.ctxs ∧
            ∀ a, (a < galKey m p.addr ∨ galKey m p.addr + p.data.length ≤ a) → t.rdByte a = s.rdByte a)) ∧
      ∀ n dir, p.loc = .ring n dir →
        (isGallerySite n = true → p.put = none →
          ∃ u : State, exec (.packetArrival k true) s = .next (u.offence n 6) ∧ u.pkts = s.pkts.eraseIdx k ∧ u.mem = s.mem) ∧
        ∃ t, exec (.noProgressTimeout k) s = .next t ∧ (p.put = none → t.pkts = s.pkts.eraseIdx k) ∧
          t.now = max s.now (p.since + 1000 * s.fld R.FR_CTRL_NOPROG_US) ∧
          t.fld (R.RTR_DROP_CNT_OVERRUN (rtrBase n)) = satAdd 32 (s.fld (R.RTR_DROP_CNT_OVERRUN (rtrBase n))) 1) ∧
    ∀ node, node < 484 →
      (∀ dir, dir < 4 →
        ∃ t, exec (.linkCrcRetry node dir) s = .next t ∧
          t.fld (retryFld (rtrBase node) dir) =
            satAdd (retryFld (rtrBase node) dir).width (s.fld (retryFld (rtrBase node) dir)) 1 ∧
          Keeps s t [R.RTR_RETRY_CNT (rtrBase node), R.HLT_SITE_CNT node]) ∧
      (s.rtrState node = 2 →
        (s.pkts.any (fun p => p.inNode node) = false →
          ∃ t, exec (.routerDrainComplete node) s = .next t ∧ t.rtrState node = 3 ∧ t.pkts = s.pkts ∧
            Keeps s t [R.RTR_STATUS (rtrBase node)]) ∧
        ∃ t, exec (.routerDrainTimeout node) s = .next t ∧ t.rtrState node = 3 ∧
          ((∀ p, p ∈ s.pkts → p.put = none) → t.pkts = s.pkts.filter (fun p => !p.inNode node)) ∧
          t.now = max s.now ((s.rtr node).drainAt.getD s.now + 10000))

/-- R245 to R253: the TFE starts the oldest Class A descriptor, else the oldest; a COPY moves its rows, a GATHER the page that an
index names, or zeros where its entry is not valid; a BCAST sends one packet in each direction that has members; a PUT leaves
as the packets of one record in its place; a descriptor that is over leaves with its status; the members of a BCAST that have
not answered in 200 µs count as not delivered.
Completes: tfeDescriptorStart, tfeCopy, tfeGather, tfeBcast, tfePut, tfeDescriptorComplete, bcastTimeout. -/
def Obligations.TfeMoves : Prop :=
  ∀ (s : State) (site : Nat), site < 448 →
    (∀ d, s.fld (R.TFE_CTRL_ENABLE site) = 1 → s.fld (R.GAL_STATUS_STATE site) = 2 → s.frozen (tfeM site) = false →
      (s.tfe site).active.length < 4 → ((s.tfe site).queue.find? (fun d => d.cls == 0)).or (s.tfe site).queue.head? = some d →
      ∃ t, exec (.tfeDescriptorStart site) s = .next t ∧
        t.tfe site = { s.tfe site with
          queue := (s.tfe site).queue.filter (fun x => x.op != d.op)
          active := (s.tfe site).active ++ [{ d with startAt := s.now }] } ∧
        (t.cur site).waiting = (s.cur site).waiting ++ (if d.kind = 15 then [d.op] else []) ∧
        t.csr = s.csr ∧ t.mem = s.mem ∧ t.ctxs = s.ctxs) ∧
    ∀ op d, s.descOf site op = some d →
      let n := d.rbytes
      let whole1 : Prop := d.ended = false ∧ d.done = 0 ∧ d.rows = 1 ∧ 0 < n ∧ n ≤ 512
      let moved (t : State) (to_ : Nat) (bs : List Byte) : Prop := t.rdGal site to_ n = bs ∧
        (∀ a, (a < galKey site to_ ∨ galKey site to_ + n ≤ a) → t.rdByte a = s.rdByte a) ∧
        ∃ e, t.descOf site op = some e ∧ e.done = 1 ∧ e.ended = false
      (∀ so to_, d.kind = 0 → whole1 → d.padz = false → placeOf d.src = .near so → placeOf d.dst = .near to_ →
        s.gate site so n = .ok → s.marksIn site so n = [] → s.gate site to_ n = .ok →
        ∃ t, exec (.tfeCopy site op) s = .next t ∧ moved t to_ (s.rdGal site so n) ∧ t.ctxs = s.ctxs) ∧
      (∀ to_ u u' page unit bs, d.kind = 2 → whole1 → placeOf d.dst = .near to_ →
        s.pageOf site d 0 = (some u, u', 0, page, unit, bs) →
        u.mem = s.mem → u.gate site to_ n = .ok →
        (page = none → d.padz = true → ∃ t, exec (.tfeGather site op) s = .next t ∧ moved t to_ (List.replicate n 0)) ∧
        (∀ pg lg so, page = some pg → placeOf pg = .gal lg so → u.siteOfLg lg = some site → u.fenced site = false →
          d.padz = false → u.owns site d.priv pg n = 0 → u.gate site so n = .ok → u.marksIn site so n = [] →
          ∃ t, exec (.tfeGather site op) s = .next t ∧ moved t to_ (s.rdGal site so n))) ∧
      (∀ so, d.kind = 1 → whole1 → d.dst < 2 ^ 28 → placeOf d.src = .near so → s.gate site so n = .ok → s.marksIn site so n = [] →
        (∀ m, m ∈ d.members → groupNode (d.xtra / 64 % 2) (d.xtra % 64) m ≠ site) →
        ∃ t, exec (.tfeBcast site op) s = .next t ∧ t.mem = s.mem ∧ ∀ m, m ∈ d.members → ∃ p, p ∈ t.pkts ∧ m ∈ p.members ∧
          p.data = s.rdGal site so n ∧ p.addr = d.dst ∧ p.op = op ∧ p.group = some (d.xtra / 64 % 2, d.xtra % 64)) ∧
      (∀ so l lgen seq slot dd, d.kind = 3 → d.readsOver = false → d.put = some (l, lgen, seq, slot) →
        placeOf d.src = .near so → s.gate site so n = .ok → s.marksIn site so n = [] → s.sandboxed site = false →
        s.siteOfLg (fldN d.dst 20 0 / 4096) = some dd →
        ∃ t r, exec (.tfePut site op) s = .next t ∧ t.pkts = s.pkts ++ s.putPkts site d r ∧ t.net = s.net ∧ r.kind = 2 ∧ r.payload = s.rdGal site so n ∧
          r.seq = seq ∧ r.slot = slot ∧ r.line = l ∧ r.lgen = lgen ∧ r.slots = 1 + ceilDiv n 64 ∧ r.dsite = some dd ∧
          t.mem = s.mem) ∧
      (d.kind = 0 ∨ d.kind = 2 → s.descWritten site d = true → d.status < 16 →
        (d.cmd = none → d.msg = false →
          ∃ t, exec (.tfeDescriptorComplete site op) s = .next t ∧ t.descOf site op = none ∧
            t.fld (R.TFE_STATUS_LAST_STATUS site) = d.status ∧ t.fld (R.TFE_STATUS_LAST_TASK site) = d.task % 64 ∧
            t.mem = s.mem) ∧
        ∀ c, d.cmd = some c →
          ∃ t, exec (.tfeDescriptorComplete site op) s = .next t ∧ t.descOf site op = none ∧
            Completed s t c (if d.status = 0 then 0 else 11) d.status) ∧
      (d.kind = 1 → d.ended = false → d.answers = [] → d.members.Nodup →
        ∃ t, exec (.bcastTimeout site op) s = .next t ∧ t.now = max s.now (d.startAt + 200000) ∧
          t.descOf site op = some { d with answers := d.members.map (fun m => (m, 7)), ended := true } ∧
          t.csr = s.csr ∧ t.mem = s.mem)

/-! ## Chapter 16: the host, records, the management port -/

/-- R176, R177, R345, R346, Table 8.7: a queue in RUN fetches its oldest packet while a completion slot is free: CONS and the
count in progress rise by one, and a packet that passes the service die's checks joins the commands of its gallery's runtime; one
whose MEMBER is not 9, or whose gallery, the chamber's by the profile, has no site, is answered at once. A network queue does the same with
its packets.
Completes: commandFetch. -/
def Obligations.CommandFetch : Prop :=
  ∀ s : State, s.fetchOn = true →
    (∀ q u, q < 64 → s.fld (R.HQ3_STATE q) = 1 → s.fld (R.HQ2_PROD q) ≠ s.fld (R.HQ3_CONS q) →
      (s.fld (R.HQ3_CWR q) + 0x10000 - s.fld (R.HQ2_CRD q)) % 0x10000 + s.fld (R.HQ3_INFLIGHT q) <
        2 ^ s.fld (R.HQ1_CSIZE_LOG2 q) →
      s.hostOpen = true → s.fld (R.FR_CHAMBER_STATE (s.fld (R.HQ0_CHAMBER q))) ≠ 2 →
      let at_ := hostKey (s.fld (R.HQ0_HADDR q) * 4096 + 64 * (s.fld (R.HQ3_CONS q) % 2 ^ s.fld (R.HQ0_SIZE_LOG2 q)))
      let c : Cmd := ⟨s.rdBytes at_ 64, q, s.fld (R.HQ0_CHAMBER q)⟩
      s.charge (hqM q) ⟨0, 0, 0, if c.cls = 0 then 1 else 0⟩ = .ok u →
      (c.fence = true → s.fld (R.HQ3_INFLIGHT q) = 0) → s.sealHolds c.cls = false →
      (∀ site, c.member = 9 → c.lg < 384 → s.siteOfLg c.lg = some site → s.chamberOf site = some c.chamber →
        s.operandsOk c = true → c.formOk = true →
        ∃ t, exec (.commandFetch q) s = .next t ∧
          t.rt c.lg = { s.rt c.lg with cmds := (s.rt c.lg).cmds ++ [c] } ∧
          t.fld (R.HQ3_CONS q) = (s.fld (R.HQ3_CONS q) + 1) % 2 ^ 16 ∧
          t.fld (R.HQ3_INFLIGHT q) = (s.fld (R.HQ3_INFLIGHT q) + 1) % 2 ^ (R.HQ3_INFLIGHT q).width ∧
          t.mem = s.mem ∧ t.ctxs = s.ctxs ∧ t.out = s.out) ∧
      (c.member ≠ 9 → ∃ t, exec (.commandFetch q) s = .next t ∧ Completed s t c 2 0 ∧ t.rts = s.rts) ∧
      (c.member = 9 → c.lg < 384 → s.siteOfLg c.lg = none → prChOf s.sec.profile c.lg = some c.chamber →
        ∃ t, exec (.commandFetch q) s = .next t ∧ Completed s t c 9 0 ∧ t.rts = s.rts)) ∧
    ∀ n x b bs site, s.host.netqs.find? n = some x → x.packets = b :: bs →
      s.fld (R.FR_CHAMBER_STATE x.chamber) ≠ 2 →
      let c : Cmd := ⟨b, 64 + n, x.chamber⟩
      c.fence = false → s.sealHolds c.cls = false → c.member = 9 → c.lg < 384 → s.siteOfLg c.lg = some site → s.chamberOf site = some c.chamber →
      s.operandsOk c = true → c.formOk = true →
      ∃ t, exec (.commandFetch (64 + n)) s = .next t ∧
        t.rt c.lg = { s.rt c.lg with cmds := (s.rt c.lg).cmds ++ [c] } ∧
        t.host.netqs.find? n = some { x with packets := bs } ∧ t.csr = s.csr ∧ t.mem = s.mem ∧ t.out = s.out

/-- R342, R343, R69: a BAR2 read of stack memory of the BAR's chamber returns its bytes, and a write of a unit stores it;
with BAR2 off a read ends in Completer Abort and a write is discarded. R340, R348: a surprise down takes the link down and
stops every queue that ran, as does leaving D0; PERST_N resets the interface but for the queues' counts; the link trains
again.
Completes: bar2Read, bar2Write, surpriseDown, d3hotEntry, perstNAssert, perstNDeassert, pcieLinkUp. -/
def Obligations.HostInterface : Prop :=
  (∀ s : State,
    (s.bar2On = false → ∀ off n data, exec (.bar2Read off n) s = .next (s.emit (.hostRead [] true false)) ∧
      exec (.bar2Write off data) s = .next s) ∧
    (s.bar2On = true → ∀ off,
      let a := s.fld R.HIF_BAR2_BASE * 0x1000000000 + off
      (∀ n, 0 < n → a + n ≤ 0x20000000000 → s.chOwns (s.fld R.HIF_BAR2_CHAMBER) a n = true →
        (∀ y, a ≤ y → y < a + n → s.stackOpen y = true ∧ s.stackPoisoned y = false) →
        exec (.bar2Read off n) s = .next (s.emit (.hostRead (s.rdStack a n) false false))) ∧
      ∀ data, data.length = 64 → a % 64 = 0 → a < 0x20000000000 → s.chOwns (s.fld R.HIF_BAR2_CHAMBER) a 64 = true →
        s.stackOpen a = true →
        ∃ t, exec (.bar2Write off data) s = .next t ∧ t.rdStack a 64 = data ∧ t.stackPoisoned a = false ∧ t.csr = s.csr ∧
          t.ctxs = s.ctxs ∧ ∀ k, (∀ i, i < 64 → k ≠ s.stackByteKey (a + i)) → t.rdByte k = s.rdByte k)) ∧
  (∀ s : State,
    (s.pcieUp = true →
      let stopped (t : State) : Prop := t.host.busMaster = false ∧ t.host.pendVec = [] ∧ t.host.coal = [] ∧ t.mem = s.mem ∧
        ∀ q, q < 64 → t.fld (R.HQ3_STATE q) = if s.bellOk q then 3 else s.fld (R.HQ3_STATE q)
      (∃ t, exec .surpriseDown s = .next t ∧ stopped t ∧ t.fld R.HIF_STATUS_SURPRISE_DOWN = 1 ∧
        t.fld R.HIF_STATUS_SPEED = 0 ∧ t.fld R.HIF_STATUS_WIDTH = 0) ∧
      ∃ t, exec .d3hotEntry s = .next t ∧ stopped t ∧ t.fld R.HIF_STATUS_SPEED = s.fld R.HIF_STATUS_SPEED) ∧
    (∃ t, exec .perstNAssert s = .next t ∧ t.host.perst = true ∧ t.host.unmasked = [] ∧ t.host.busMaster = false ∧
      t.fld R.HIF_STATUS_SPEED = 0 ∧ t.fld R.HIF_STATUS_MODSTATE = s.fld R.HIF_STATUS_MODSTATE ∧
      ∀ q, q < 64 → t.reg (R.HQ0 q) = resetOf (R.HQ0 q) ∧ t.fld (R.HQ3_CONS q) = s.fld (R.HQ3_CONS q) ∧
        t.fld (R.HQ3_STATE q) = if s.bellOk q then 3 else s.fld (R.HQ3_STATE q)) ∧
    exec .perstNDeassert s = .next (s.withHost { s.host with perst := false }) ∧
    (∀ speed width, s.host.perst = true ∨ s.svcUp = false ∨ s.mode = .boot ∧ s.fld R.BRG_STATUS_STEP = 3 →
      exec (.pcieLinkUp speed width) s = .next s) ∧
    ∀ speed width, s.host.perst = false → s.svcUp = true → (s.mode = .boot → s.fld R.BRG_STATUS_STEP ≠ 3) → 1 ≤ speed → speed < 8 → width < 32 →
      ∃ t, exec (.pcieLinkUp speed width) s = .next t ∧ t.fld R.HIF_STATUS_SPEED = speed ∧
        t.fld R.HIF_STATUS_WIDTH = width ∧ t.fld R.HIF_STATUS_DEGRADED = 0 ∧ t.host.busMaster = true ∧
        Keeps s t [R.HIF_STATUS])

/-- R347, R351 to R353, R355, R479: a coalesced message leaves when its time is over, a pending one when its vector is unmasked;
the waiting record of the lowest SEQ is sent to the collector and pushed to each subscriber; the end of a folding window queues
the folded record with its count; the management link comes up only with the service die.
Completes: msixCoalesceExpiry, msixUnmask, recordSend, foldWindowExpiry, mgmtLinkUp, mgmtLinkDown. -/
def Obligations.MessagesAndRecords : Prop :=
  ∀ s : State,
    (∀ vec d, s.host.coal.get vec 0 = d + 1 →
      ∃ t, exec (.msixCoalesceExpiry vec) s = .next t ∧ t.now = max s.now d ∧ t.host.coal.get vec 0 = 0 ∧
        (s.host.unmasked.get vec 0 = 1 → t.out = s.out ++ [.msix vec]) ∧
        (s.host.unmasked.get vec 0 ≠ 1 → t.out = s.out ∧ t.host.pendVec.get vec 0 = 1) ∧ t.csr = s.csr ∧ t.mem = s.mem) ∧
    (∀ vec, ∃ t, exec (.msixUnmask vec) s = .next t ∧ t.host.unmasked.get vec 0 = 1 ∧ t.host.pendVec.get vec 0 = 0 ∧
      t.out = s.out ++ (if s.host.pendVec.get vec 0 = 1 then [.msix vec] else []) ∧ t.csr = s.csr ∧ t.mem = s.mem) ∧
    (∀ n r, s.fld R.MGMT_STATUS_LINK_UP = 1 → s.fld R.MGMT_CTRL_ENABLE = 1 → s.svcUp = true → n ∈ s.host.held →
      (∀ m, m ∈ s.host.held → n ≤ m) → s.host.store.find? (fun r => r.seq == n) = some r →
      ∃ t, exec .recordSend s = .next t ∧
        t.out = s.out ++ .record r :: s.host.subs.map (fun x => .redfish x.1 [r.seq]) ∧
        t.host.held = s.host.held.erase n ∧ t.fld R.MGMT_STATUS_HELD = min (s.host.held.erase n).length 0xFFFF ∧
        Keeps s t []) ∧
    (∀ k w, s.host.folds[k]? = some w →
      (w.first = none → ∃ t, exec (.foldWindowExpiry k) s = .next t ∧ t.now = max s.now w.endAt ∧
        t.host.folds = s.host.folds.filter (fun x => !(x.key.sameKey w.key)) ∧ t.host.store = s.host.store ∧
        t.csr = s.csr ∧ t.mem = s.mem) ∧
      ∀ r, w.first = some r → ∃ t, exec (.foldWindowExpiry k) s = .next t ∧ t.now = max s.now w.endAt ∧
        t.host.store.getLast? = some { r with count := w.count, seq := s.fld R.MGMT_STATUS_SEQ } ∧
        t.fld R.MGMT_STATUS_SEQ = (s.fld R.MGMT_STATUS_SEQ + 1) % 2 ^ 32 ∧ Keeps s t []) ∧
    (∃ t, exec .mgmtLinkUp s = .next t ∧ t.host.phyUp = true ∧ t.fld R.MGMT_STATUS_LINK_UP = b2n s.svcUp ∧ Keeps s t []) ∧
    ∃ t, exec .mgmtLinkDown s = .next t ∧ t.host.phyUp = false ∧ t.fld R.MGMT_STATUS_LINK_UP = 0 ∧ Keeps s t []

/-- R349, R350, R430, R369, R16, R352, Table 16.6: an accepted control message raises the counter of its key past its own, is
answered under that key, and has its operation's effect; a message under no key that is provisioned, or that fails a check, is
counted and changes nothing else of the module's.
Completes: leaseGrant, fenceOrder, setProfile, standby, restart, bindNetq, resend, collector. -/
def Obligations.ControlMessages : Prop :=
  ∀ (s : State) (m : CtrlMsg), s.ctrlUp m = true →
    let raw := m.raw
    let op := leAt raw 0 2
    (∀ key, s.ctrlKey raw = some key → ctrlClean op raw = true →
      let took (t : State) : Prop := t.host.counters.get (leAt raw 4 4) 0 = leAt raw 8 8 + 1
      let answered (t : State) (extra : List Byte) : Prop := t.out = s.out ++ [.answer (ctrlAnswer key raw 0 extra) m.path]
      (op = 1 → ∃ t, exec (.leaseGrant m) s = .next t ∧ took t ∧ Keeps s t [R.FR_LEASE] ∧
        let len := leAt raw 32 4
        (len ≠ 0 → len < 0xFFFFFFFF → t.fld R.FR_LEASE_STATE = 1 ∧ t.fld R.FR_LEASE_LATCH = 0 ∧
          t.fld R.FR_LEASE_EXPIRY = (s.dripNo + max len 16) % 2 ^ 48 ∧ answered t (leBytes 6 (t.fld R.FR_LEASE_EXPIRY)) ∧
          t.fr.toNormal = s.mayNormal ∧ t.fr.toQuiesce = false) ∧
        (len = 0xFFFFFFFF → t.fld R.FR_LEASE_STATE = 4 ∧ t.fld R.FR_LEASE_LATCH = 0 ∧ answered t (leBytes 6 0)) ∧
        (len = 0 → (s.mode = .normal → s.mayAct 3 = true) → t.fld R.FR_LEASE_STATE = 3 ∧ t.fld R.FR_LEASE_LATCH = 1 ∧ answered t (leBytes 6 0))) ∧
      (op = 2 → (s.mode = .normal → s.mayAct 3 = true) → ∃ t, exec (.fenceOrder m) s = .next t ∧ took t ∧ answered t [] ∧ Keeps s t [R.FR_LEASE] ∧
        t.fld R.FR_LEASE_STATE = 3 ∧ t.fld R.FR_LEASE_LATCH = 1 ∧ t.fr.toNormal = false ∧
        (s.mode = .normal → t.fr.toQuiesce = true)) ∧
      (op = 3 → leAt raw 32 1 ≤ 3 → leAt raw 33 1 = 0 →
        ∃ t, exec (.setProfile m) s = .next t ∧ took t ∧ answered t [] ∧ Keeps s t [R.PROF_STATUS] ∧
          t.fld R.PROF_STATUS_PENDING = leAt raw 32 1 ∧ t.fld R.PROF_STATUS_PEND_VALID = 1) ∧
      (op = 4 → s.mode = .normal ∨ s.mode = .refuge → s.mayAct 5 = true →
        ∃ t l, exec (.standby m) s = .next t ∧ took t ∧ t.mode = .standby ∧
          t.out = s.out ++ .answer (ctrlAnswer key raw 0 []) m.path :: l) ∧
      (op = 5 → s.mode = .refuge → s.tripActive = false → s.mayAct 5 = true →
        ∃ t l, exec (.restart m) s = .next t ∧ took t ∧ t.mode = .boot ∧ t.fld R.BRG_STATUS_STEP = 3 ∧
          t.out = s.out ++ .answer (ctrlAnswer key raw 0 []) m.path :: l) ∧
      (op = 6 → leAt raw 32 2 < 16 → leAt raw 34 1 < 32 → leAt raw 35 1 < 16 → leAt raw 36 2 < 2048 →
        s.fld (R.FR_CHAMBER_STATE (leAt raw 35 1)) ≠ 0 →
        ∃ t, exec (.bindNetq m) s = .next t ∧ took t ∧ answered t [] ∧ Keeps s t [] ∧
          t.host.netqs.find? (leAt raw 32 2) = some ⟨leAt raw 34 1, leAt raw 35 1, leAt raw 36 2, []⟩) ∧
      (op = 7 → leAt raw 36 2 ≠ 0 → leAt raw 36 2 ≤ 4096 →
        let found := s.host.store.filter (fun r => decide ((r.seq + 2 ^ 32 - leAt raw 32 4) % 2 ^ 32 < leAt raw 36 2))
        ∃ t, exec (.resend m) s = .next t ∧ took t ∧ answered t (leBytes 4 found.length) ∧ Keeps s t [] ∧
          (∀ r, r ∈ found → r.seq ∈ t.host.held) ∧ (∀ q, q ∈ s.host.held → q ∈ t.host.held) ∧ t.host.store = s.host.store) ∧
      (op = 8 →
        ∃ t, exec (.collector m) s = .next t ∧ took t ∧ answered t [] ∧
          Keeps s t [R.MGMT_COLLECT 0, R.MGMT_COLLECT 1, R.MGMT_CTRL] ∧
          t.reg (R.MGMT_COLLECT 0) = BitVec.ofNat 64 (beNat ((raw.drop 32).take 8)) ∧
          t.reg (R.MGMT_COLLECT 1) = BitVec.ofNat 64 (beNat ((raw.drop 40).take 8)) ∧
          t.fld R.MGMT_CTRL_REC_PORT = leAt raw 48 2)) ∧
    (s.ctrlKey raw = none → ∀ c, c = .leaseGrant m ∧ op = 1 ∨ c = .fenceOrder m ∧ op = 2 ∨ c = .setProfile m ∧ op = 3 ∨
        c = .standby m ∧ op = 4 ∨ c = .restart m ∧ op = 5 ∨ c = .bindNetq m ∧ op = 6 ∨ c = .resend m ∧ op = 7 ∨
        c = .collector m ∧ op = 8 →
      ∃ t, exec c s = .next t ∧ t.fld R.MGMT_CNT_CTRL_REJ =
          satAdd R.MGMT_CNT_CTRL_REJ.width (s.fld R.MGMT_CNT_CTRL_REJ) 1 ∧
        t.host.counters = s.host.counters ∧ t.mode = s.mode ∧ Keeps s t [])

/-- R355, R356, R360, R361, R369: Redfish reads and sets, and keeps subscriptions; MCTP endpoint numbers; an image whose checks
pass is staged in the slot that did not boot; PLDM events are acknowledged; the SPDM requests are served in their order. That
other than the answers' codes, their bytes are the model's own (log entry 41).
Completes: redfishGet, redfishSetProfile, eventSubscriptionCreate, eventSubscriptionDelete, setEndpointId,
getEndpointId, getMessageTypeSupport, pldmFirmwareUpdate, pldmEventAcknowledge, getVersion, getCapabilities,
negotiateAlgorithms, getDigests, getCertificate, challenge, getMeasurements. -/
def Obligations.ManagementServices : Prop :=
  ∀ s : State, s.svcUp = true →
    (s.fld R.MGMT_STATUS_LINK_UP = 1 →
      (∀ r, exec (.redfishGet r) s = .next (s.emit (.redfish 200 (s.redfishBody r)))) ∧
      (∀ prof, prof < 4 →
        (∃ t, exec (.redfishSetProfile prof false) s = .next t ∧ t.out = s.out ++ [.redfish 200 []] ∧
          t.fld R.PROF_STATUS_PENDING = prof ∧ t.fld R.PROF_STATUS_PEND_VALID = 1 ∧ Keeps s t [R.PROF_STATUS]) ∧
        ∃ t, exec (.redfishSetProfile prof true) s = .next t ∧
          if (s.setProfile prof true).2 = true then t.out = s.out ++ [.redfish 200 []] ∧ t.sec.apply = some (prof, s.dripNo + 2) ∧
            t.fld R.PROF_STATUS_CH_PEND = 1
          else t.out = s.out ++ [.redfish 409 []] ∧ t.csr = s.csr ∧ t.sec = s.sec) ∧
      (∀ dest, ∃ t, exec (.eventSubscriptionCreate dest) s = .next t ∧
        t.host.subs = s.host.subs ++ [(s.host.nextSub, dest)] ∧ t.host.nextSub = s.host.nextSub + 1 ∧
        t.out = s.out ++ [.redfish 201 [s.host.nextSub]] ∧ t.csr = s.csr ∧ t.mem = s.mem) ∧
      ∀ id, (s.host.subs.any (fun x => x.1 == id) = true →
          ∃ t, exec (.eventSubscriptionDelete id) s = .next t ∧ t.host.subs = s.host.subs.filter (fun x => x.1 != id) ∧
            t.out = s.out ++ [.redfish 204 []] ∧ t.csr = s.csr ∧ t.mem = s.mem) ∧
        (s.host.subs.any (fun x => x.1 == id) = false → exec (.eventSubscriptionDelete id) s = .next (s.emit (.redfish 404 [])))) ∧
    (∀ eid, 0 < eid → eid < 255 →
      ∃ t, exec (.setEndpointId eid) s = .next t ∧ t.host.eid = eid ∧
        t.out = s.out ++ [.mctp ([0, 0] ++ leBytes 1 eid)] ∧ t.csr = s.csr ∧ t.mem = s.mem) ∧
    exec .getEndpointId s = .next (s.emit (.mctp ([0] ++ leBytes 1 s.host.eid))) ∧
    exec .getMessageTypeSupport s = .next (s.emit (.mctp [0, 3, 0, 1, 5])) ∧
    (∀ comp image, 1 ≤ comp → comp ≤ 4 →
      ∃ t, exec (.pldmFirmwareUpdate comp image) s = .next t ∧ t.csr = s.csr ∧ t.mem = s.mem ∧
        if s.imagePasses comp image = true then
          t.sec.images.find? (8 * comp + (1 - s.sec.booted.get comp 0)) = some image ∧ t.out = s.out ++ [.mctp [0]]
        else t.sec = s.sec ∧ t.out = s.out ++ [.mctp [1]]) ∧
    (∀ e es, s.host.events = e :: es →
      ∃ t, exec .pldmEventAcknowledge s = .next t ∧ t.host.events = es ∧
        t.out = s.out ++ (if es = [] then [.pin 2 false] else []) ∧ t.csr = s.csr ∧ t.mem = s.mem) ∧
    let ask (c : Instr) (need reach : Nat) (body : List Byte) : Prop :=
      (s.host.spdm < need → exec c s = .next (s.emit (.spdm [0x13, 0x7F, 4, 0]))) ∧
      (need ≤ s.host.spdm → ∃ t, exec c s = .next t ∧ t.out = s.out ++ [.spdm ([0x13] ++ body)] ∧
        t.host.spdm = (if reach = 0 then s.host.spdm else reach) ∧ t.csr = s.csr ∧ t.mem = s.mem)
    ask .getVersion 0 1 [0x04, 0, 0, 0, 1, 0x00, 0x13] ∧ ask .getCapabilities 1 2 [0x61, 0, 0] ∧
      ask (.negotiateAlgorithms true true) 2 3 [0x63, 0, 0] ∧
      (∀ a b, (a && b) = false → ask (.negotiateAlgorithms a b) 2 0 [0x7F, 1, 0]) ∧
      ask .getDigests 3 0 ([0x01, 0, 1] ++ certDigest) ∧
      (∀ off len, ask (.getCertificate off len) 3 0 ([0x02, 0, 0] ++ (Config.deviceCert.drop off).take len)) ∧
      (∀ nonce, ask (.challenge nonce) 3 0 ([0x03, 0, 1] ++ certDigest ++
        leBytes 96 (Config.ecdsaSign Config.deviceKey (Config.sha384 (nonce ++ certDigest))))) ∧
      ask (.getMeasurements 0) 3 0 [0x60, 8, 0] ∧
      ∀ i, 1 ≤ i → i ≤ 8 → ask (.getMeasurements i) 3 0 ([0x60, 0, 1] ++ s.measure (i - 1))

/-! ## Chapters 17 and 20: Bedrock's calls and chamber resets -/

/-- R359, R57, R56, R130, R275, R290, R366, R379, R402, R421, Tables 12.4, 17.2 and 17.3: the calls on galleries, routers,
chambers and regions: what each changes when it is accepted, and the status with which it is turned away. A call that a context
of the management core waits for leaves the queue, and its status reaches that context's D. R80, R81, R108: an assigned
gallery is its new chamber's once its scrub has ended clean, and a site that is not fit is turned away.
Completes: fence, bypass, coreMap, mxeColmap, galStep, chamberReset, assign, region, chamberResetStep. -/
def Obligations.UnitCalls : Prop :=
  ∀ s : State, s.svcUp = true →
    (s.sec.calls = [] →
      let gives (c : Instr) (num : Nat) (p : State → Prop) : Prop := ∃ t, exec c s = .next (t.emit (.bcall num 0)) ∧ p t
      let turned (c : Instr) (num st : Nat) : Prop := exec c s = .next (s.emit (.bcall num st))
      (∀ site sub, isGallerySite site = true → s.galOn site = true →
        gives (.fence 0 site sub true) 1 (fun t => t.fld (R.GAL_CTRL_FENCE site) = 1 ∧
          ((s.gr site).busy = false → t.fld (R.GAL_STATUS_STATE site) = 3) ∧
          (s.rtrState site = 0 → t.rtrState site = 1) ∧ Keeps s t [R.GAL_CTRL site, R.GAL_STATUS site, R.RTR_STATUS (rtrBase site)]) ∧
        (s.retired site = true → turned (.fence 0 site sub false) 1 4) ∧
        (s.retired site = false → s.fld (R.GAL_CTRL_FENCE site) = 1 →
          gives (.fence 0 site sub false) 1 (fun t => t.fld (R.GAL_CTRL_FENCE site) = 0 ∧
            t.fld (R.TR_LADDER_SUSPECT site) = 0 ∧ t.fld (R.TR_LADDER_RUNG site) = 0 ∧
            ((s.gr site).busy = false →
              t.fld (R.GAL_STATUS_STATE site) = if s.fld (R.GAL_CTRL_ENABLE site) = 1 then 2 else 1)))) ∧
      (∀ kind id sub on, 6 ≤ kind → turned (.fence kind id sub on) 1 2) ∧
      (∀ node, node < 480 →
        gives (.fence 3 node 0 true) 1 (fun t => (s.rtrState node = 0 → t.rtrState node = 1) ∧
          (s.rtrState node ≠ 0 → t.rtrState node = s.rtrState node)) ∧
        (s.rtrState node = 1 →
          gives (.bypass node true) 2 (fun t => t.rtrState node = 2 ∧ (t.rtr node).drainAt = some s.now ∧
            Keeps s t [R.RTR_CTRL (rtrBase node), R.RTR_STATUS (rtrBase node)])) ∧
        (s.rtrState node = 3 → gives (.bypass node false) 2 (fun t => t.rtrState node = 1)) ∧
        (s.rtrState node ≠ 1 → turned (.bypass node true) 2 4)) ∧
      (∀ node on, 480 ≤ node → turned (.bypass node on) 2 2) ∧
      (∀ site w0 w1 w2 w3, isGallerySite site = true →
        let ws := [w0, w1, w2, w3]
        (s.fld (R.GAL_STATUS_STATE site) ≠ 1 → turned (.coreMap site w0 w1 w2 w3) 3 4) ∧
        (s.fld (R.GAL_STATUS_STATE site) = 1 → s.coreMapOk site ws = true → s.logRoom site 2 = true →
          gives (.coreMap site w0 w1 w2 w3) 3 (fun t =>
            (∀ m, m < 4 → t.reg (R.GAL_CORE_MAP site m) = ws.getD m 0 &&& 0xBFBFBFBFBFBFBFBF) ∧
            (∀ k, k < 32 → (mapEntry ws k).1 = true → (mapEntry ws k).2 ≠ k →
              ∃ e, e ∈ t.sec.log ∧ e.kind = 1 ∧ e.site = site ∧ e.unit = k ∧ e.repl = (mapEntry ws k).2) ∧
            Keeps s t ((List.range 4).map (R.GAL_CORE_MAP site))))) ∧
      (∀ site j v, isGallerySite site = true → j < 2 →
        (s.fld (R.GAL_STATUS_STATE site) ≠ 1 → turned (.mxeColmap site j v) 4 4) ∧
        (s.fld (R.GAL_STATUS_STATE site) = 1 → s.colMapOk site j v = true → s.logRoom site 2 = true →
          gives (.mxeColmap site j v) 4 (fun t => Keeps s t [R.MXE_COL_MAP site j] ∧
            ∀ e, e < 2 → getBits (t.reg (R.MXE_COL_MAP site j)) (16 * e) 16 =
              if getBits (s.reg (R.MXE_COL_MAP site j)) (16 * e + 14) 1 = 1 then
                getBits (s.reg (R.MXE_COL_MAP site j)) (16 * e) 16
              else getBits v (16 * e) 16 &&& 0x807F))) ∧
      (∀ site volt clk, isGallerySite site = true → volt ≤ (s.ladderLimits site).1 → clk ≤ (s.ladderLimits site).2 →
        s.galOn site = true →
        gives (.galStep site volt clk) 5 (fun t => t.fld (R.TR_LADDER_RUNG site) = volt + clk ∧
          t.fld (R.GAL_STATUS_VOLT_STEP site) = min (volt + clk) (s.ladderLimits site).1 ∧
          Keeps s t [R.TR_LADDER site, R.GAL_STATUS site])) ∧
      (∀ c, c < 16 →
        (s.fld (R.FR_CHAMBER_STATE c) = 0 → turned (.chamberReset c) 6 2) ∧
        (s.fld (R.FR_CHAMBER_STATE c) = 1 ∨ s.fld (R.FR_CHAMBER_STATE c) = 3 → (s.fr.chs.get c ChSt.init).startAt = 0 →
          gives (.chamberReset c) 6 (fun t => t.fld (R.FR_CHAMBER_STATE c) = 2 ∧ t.fld (R.FR_CHAMBER_STEP c) = 2 ∧
            (t.fr.chs.get c ChSt.init).startAt = s.now))) ∧
      (∀ site ch, isGallerySite site = true →
        (s.fld (R.GAL_STATUS_STATE site) = 1 → (ch = none ∨ ∃ c, ch = some c ∧ c < 16 ∧ prChValid s.sec.profile c = true ∧
            s.retired site = false ∧ s.siteFit site = true) →
          gives (.assign site ch) 7 (fun t => t.chamberOf site = s.chamberOf site ∧ t.fld (R.GM_SCRUB_STATE site) = 2 ∧
            t.fld (R.GM_SCRUB_VERIFY_FAIL site) = 0 ∧
            t.sec.toCh.get site 0 = (match ch with
              | some c => c + 2
              | none => 1) ∧
            ∀ u : State, u.fld (R.GM_SCRUB_STATE site) = 2 → u.sec.toCh = t.sec.toCh →
              (∃ v, exec (.scrubComplete site true) u = .next v ∧ v.chamberOf site = ch ∧
                v.fld (R.TR_LADDER_TOP site) = (v.ladderLimits site).1 + (v.ladderLimits site).2) ∧
              ∃ v, exec (.scrubComplete site false) u = .next v ∧ v.chamberOf site = u.chamberOf site)) ∧
        (∀ c, s.fld (R.GAL_STATUS_STATE site) = 1 → ch = some c → c < 16 → prChValid s.sec.profile c = true →
          s.siteFit site = false → turned (.assign site ch) 7 4) ∧
        ∀ c, ch = some c → c < 16 → prChValid s.sec.profile c = false → turned (.assign site ch) 7 3) ∧
      (∀ n v, n < 512 →
        let w := v &&& 0xFFF00000000001FF
        (getBits w 63 1 = 1 → prChValid s.sec.profile (getBits w 52 4) = false → turned (.region n v) 8 3) ∧
        ((getBits w 63 1 = 1 → prChValid s.sec.profile (getBits w 52 4) = true) →
          (s.regionOk n w.toNat = false → turned (.region n v) 8 4) ∧
          (s.regionOk n w.toNat = true →
            gives (.region n v) 8 (fun t => t.reg (R.MSMAP_REGION n) = w ∧ Keeps s t [R.MSMAP_REGION n]))))) ∧
    (∀ b bs node on, s.sec.calls = b :: bs →
      (b.num ≠ 2 → exec (.bypass node on) s = .next s) ∧
      (b.num = 2 → argOk b.addr = false ∨ 480 ≤ node → (s.mctx b.ctx).st = .stalled (.bcall b.d) → b.d ≠ 0 →
        ∃ t, exec (.bypass node on) s = .next t ∧ t.sec.calls = bs ∧ (t.mctx b.ctx).st = .ready ∧ (t.mctx b.ctx).rs b.d = 2 ∧
          t.csr = s.csr ∧ t.mem = s.mem ∧ t.out = s.out)) ∧
    ∀ c bad, c < 16 → s.fld (R.FR_CHAMBER_STATE c) = 2 →
      (∀ n, 2 ≤ n → n < 8 → s.fld (R.FR_CHAMBER_STEP c) = n →
        ∃ t, exec (.chamberResetStep ⟨c, bad⟩) s = .next t ∧ t.fld (R.FR_CHAMBER_STEP c) = n + 1) ∧
      (s.fld (R.FR_CHAMBER_STEP c) = 8 →
        ∃ t, exec (.chamberResetStep ⟨c, bad⟩) s = .next t ∧ t.fld (R.FR_CHAMBER_STEP c) = 0 ∧
          t.fld (R.FR_CHAMBER_STATE c) = if s.chGals c = [] then 3 else 1)

/-- R359, R363 to R365, R367, R369, R394, R395, R410, Tables 17.2, 17.3 and 17.7: the calls that test and repair, load keys,
write profiles and move the life cycle. What a signature or a blob gives is a free value, so a call that rests on one is stated
by its status.
Completes: bistRun, fuseRepair, keyLoad, profileWrite, bcallSetProfile, lcTransition. -/
def Obligations.SecurityCalls : Prop :=
  ∀ s : State, s.svcUp = true → s.sec.calls = [] →
    let gives (c : Instr) (num : Nat) (p : State → Prop) : Prop := ∃ t, exec c s = .next (t.emit (.bcall num 0)) ∧ p t
    let turned (c : Instr) (num st : Nat) : Prop := exec c s = .next (s.emit (.bcall num st))
    let lc := s.fld R.LCP_STATUS_LC_STATE
    (∀ site idx bad, isGallerySite site = true → idx < 34 →
      (lc = 4 → turned (.bistRun site 1 idx bad) 9 5) ∧
      (lc = 1 ∨ lc = 2 → s.fld (R.GAL_CTRL_FENCE site) = 0 → turned (.bistRun site 1 idx bad) 9 4) ∧
      ∀ x u v us, lc ≠ 4 → (lc = 1 ∨ lc = 2 → s.fld (R.GAL_CTRL_FENCE site) = 1) → s.galOn site = true →
        s.tst.moveOn = none → s.freeUnits = u :: v :: us → s.logRoom site 1 = true →
        gives (.bistRun site 1 idx [x]) 9 (fun t =>
          t.fld (R.GAL_CORE_FAULT_FAULT site) = setBitN (s.fld (R.GAL_CORE_FAULT_FAULT site)) idx ∧
          (∀ o, o < 0x8000000 → t.rdByte (stackKey u.1 (u.2 * 0x8000000 + o)) = 0 ∧
            t.rdByte (stackKey v.1 (v.2 * 0x8000000 + o)) = 0) ∧
          (∀ a, (∀ o, o < 0x8000000 → a ≠ stackKey u.1 (u.2 * 0x8000000 + o) ∧ a ≠ stackKey v.1 (v.2 * 0x8000000 + o)) →
            t.rdByte a = s.rdByte a) ∧
          ∀ a, a ≠ R.GAL_CORE_FAULT site → t.reg a = s.reg a)) ∧
    (∀ die entry, die < 16 →
      ((s.dieLog die)[entry]? = none → turned (.fuseRepair die entry) 10 2) ∧
      ∀ e, (s.dieLog die)[entry]? = some e → lc ≠ 4 →
        (e.fuse = true → turned (.fuseRepair die entry) 10 4) ∧
        (e.fuse = false → lc ≠ 0 →
          let left := s.sub (R.TRM_FUSE (die / 8)) 7 (die % 8)
          (left = 0 → turned (.fuseRepair die entry) 10 6) ∧
          (left ≠ 0 → gives (.fuseRepair die entry) 10 (fun t => (t.dieLog die)[entry]? = some { e with fuse := true } ∧
            t.sub (R.TRM_FUSE (die / 8)) 7 (die % 8) = left - 1 ∧ Keeps s t [R.TRM_FUSE (die / 8)])))) ∧
    (∀ addr,
      let r := s.callKey addr
      exec (.keyLoad addr) s = .next ((if r.2 = 0 then r.1 else s).emit (.bcall 11 r.2)) ∧
      (r.2 = 0 ∨ r.2 = 2 ∨ r.2 = 5 ∨ r.2 = 7) ∧
      (r.2 = 0 → ∃ kind slot ctr key digest sig,
        Config.openBlob (s.rdBytes (flashKey addr) 512) = some (kind, slot, s.sec.moduleId, ctr, key, digest, sig) ∧
        Config.ecdsaVerify (if kind = 0 then leNat key else leNat (s.sec.keys.get 0 [])) digest sig = true ∧
        s.sec.keyCtr.get (256 * kind + slot) 0 ≤ ctr ∧ r.1.sec.keys.get (256 * kind + slot) [] = key ∧
        (kind = 0 → lc = 1) ∧ (lc = 1 ∨ lc = 2))) ∧
    (∀ slot addr, (4 ≤ slot → turned (.profileWrite slot addr) 12 2) ∧
      (slot < 4 →
        let r := s.rdBytes (flashKey addr) 8192
        if s.profOk r = true then
          gives (.profileWrite slot addr) 12 (fun t => t.sec.slots.find? slot = some r ∧ t.csr = s.csr ∧ t.mem = s.mem)
        else turned (.profileWrite slot addr) 12 7 ∨ turned (.profileWrite slot addr) 12 2)) ∧
    (∀ prof now, 4 ≤ prof → turned (.bcallSetProfile prof now) 13 2) ∧
    (∀ prof, prof < 4 →
      gives (.bcallSetProfile prof false) 13 (fun t => t.fld R.PROF_STATUS_PENDING = prof ∧
        t.fld R.PROF_STATUS_PEND_VALID = 1 ∧ Keeps s t [R.PROF_STATUS]) ∧
      if (s.setProfile prof true).2 = true then
        gives (.bcallSetProfile prof true) 13 (fun t => t.sec.apply = some (prof, s.dripNo + 2) ∧ t.fld R.PROF_STATUS_CH_PEND = 1)
      else turned (.bcallSetProfile prof true) 13 8) ∧
    ∀ addr,
      let k := Config.tokenFields (s.rdBytes (flashKey addr) 160)
      let r := (s.callLc addr).2
      if r = 0 then k.2.1 = s.sec.moduleId ∧ k.2.2.1 = s.fld R.LCP_STATUS_LC_COUNT ∧
        (s.mode = .normal → s.pwr.removal = 0 →
          ∃ t, exec (.lcTransition addr) s = .next t ∧ t.mode = .refuge ∧ t.fld R.LCP_STATUS_LC_STATE = k.1 ∧
            t.fld R.LCP_STATUS_LC_COUNT = (s.fld R.LCP_STATUS_LC_COUNT + 1) % 2 ^ 8 ∧ (k.1 = 3 → t.sec.keys = []))
      else turned (.lcTransition addr) 14 r

/-! ## Chapter 18: bring-up -/

/-- R370 to R372, R384, R416, R454, Tables 1.4, 18.1 and 21.10: a module whose input is good leaves OFF, and one whose insertion
checks pass enters BOOT; the steps follow one another, a step that fails or comes too late ends in REFUGE with its number and a
reason; a module compute reset starts BOOT at step 8.
Completes: insertion, standby, inputInRange, killNDeassert, insertionCheckRetry, bringupStepComplete,
bringupStepTimeout, mcr. -/
def Obligations.BringUp : Prop :=
  ∀ s : State,
    (∀ i pins, s.mode = .off → inputInRange i = true → i.kill = false →
      (inputFirstBad i = 0 → ∃ t, exec (.insertion i pins) s = .next t ∧ t.mode = .boot ∧ t.fld R.BRG_STATUS_STEP = 3 ∧
        t.fld R.PROF_STATUS_PINS = pins % 4) ∧
      (inputFirstBad i ≠ 0 → ∃ t, exec (.insertion i pins) s = .next t ∧ t.mode = .standby ∧ t.pwr.waitInsert = true) ∧
      (s.pwr.present = true →
        (∃ t, exec (.inputInRange i) s = .next t ∧ t.mode = .standby ∧ t.pwr.inputOk = true) ∧
        ∃ t, exec (.killNDeassert i) s = .next t ∧ t.mode = .standby ∧ t.pwr.kill = false)) ∧
    (∀ i pins, s.mode = .standby → s.pwr.waitInsert = true →
      (inputFirstBad i = 0 → ∃ t, exec (.insertionCheckRetry i pins) s = .next t ∧ t.mode = .boot ∧
        t.fld R.BRG_STATUS_STEP = 3 ∧ t.now = s.now + 1000000000) ∧
      (inputFirstBad i ≠ 0 → ∃ t, exec (.insertionCheckRetry i pins) s = .next t ∧ t.mode = .standby ∧
        t.pwr.waitInsert = true)) ∧
    (s.mode = .boot → s.pwr.removal = 0 →
      let step := s.fld R.BRG_STATUS_STEP
      let failed (t : State) (code : Nat) : Prop := t.mode = .refuge ∧ t.fld R.BRG_STATUS_FAIL_STEP = step ∧
        t.fld R.BRG_STATUS_FAIL_CODE = code ∧ t.fld R.BRG_CLK_DIE = 0 ∧ t.fld R.BRG_CLK_FABRIC = 0 ∧ t.ctxs = []
      (∀ r : StepRes,
        (step < 3 → exec (.bringupStepComplete r) s = .next (s.setFld R.BRG_STATUS_STEP 3)) ∧
        (step = 3 ∨ step = 4 → r.verifyOk = false → ∃ t, exec (.bringupStepComplete r) s = .next t ∧ failed t 1) ∧
        (step = 5 → r.linkOk = false → ∃ t, exec (.bringupStepComplete r) s = .next t ∧ failed t 2) ∧
        (step = 5 → r.linkOk = true → ∃ t, exec (.bringupStepComplete r) s = .next t ∧ t.fld R.BRG_STATUS_STEP = 6 ∧
          t.fld R.BRG_CLK_DIE = 0xFFFF ∧ t.fld R.BRG_CLK_FABRIC = 1 ∧ t.fld R.DRIP_CTRL_ENABLE = 1 ∧
          ∀ site, isGallerySite site = true → s.fld (R.GAL_STATUS_STATE site) = 0 → t.fld (R.GAL_STATUS_STATE site) = 1) ∧
        (step = 6 ∨ step = 7 → s.reg R.BRG_HOLD ≠ 0 → exec (.bringupStepComplete r) s = .next s) ∧
        (step = 6 → s.reg R.BRG_HOLD = 0 → ∃ t, exec (.bringupStepComplete r) s = .next t ∧ t.fld R.BRG_STATUS_STEP = 7 ∧
          (s.fld R.BRG_STATUS_DIAG = 0 → ∀ k, k < 32 →
            t.fld (R.MS_STATUS_STATE k) = if r.badStacks.contains k then 4 else 2)) ∧
        (step = 7 → s.reg R.BRG_HOLD = 0 → ∃ t, exec (.bringupStepComplete r) s = .next t ∧ t.fld R.BRG_STATUS_STEP = 8 ∧
          ∀ p, p < 32 → t.fld (R.PORT_CTRL_MODE p) = prPort s.sec.profile p) ∧
        (step = 8 → ∃ t, exec (.bringupStepComplete r) s = .next t ∧ t.fld R.BRG_STATUS_STEP = 9 ∧
          t.fld R.BRG_STATUS_READY = 1)) ∧
      (s.fld R.BRG_STATUS_READY = 0 → s.reg R.BRG_HOLD = 0 →
        ∃ t, exec .bringupStepTimeout s = .next t ∧ failed t 4 ∧ t.now = max s.now s.stepDue_)) ∧
    ∀ src v f, Lands s src R.BRG_CTRL f whole v → getBits v 0 1 = 1 → s.pwr.removal = 0 →
      (s.mode = .normal ∨ s.mode = .quiesce → s.mcrFull = false → s.mayAct 5 = true →
        ∃ t, exec (.mcr src v) s = .next t ∧
          t.fld R.BRG_RESET_MCR_COUNT = (s.fld R.BRG_RESET_MCR_COUNT + 1) % 2 ^ R.BRG_RESET_MCR_COUNT.width ∧
          t.sec.siteCh = [] ∧
          (t.mode = .boot ∧ t.fld R.BRG_STATUS_STEP = 8 ∧ t.fld R.BRG_STATUS_READY = 0 ∨
            t.mode = .refuge ∧ t.fld R.BRG_STATUS_FAIL_STEP = 8 ∧ t.fld R.BRG_STATUS_FAIL_CODE = 1)) ∧
      (s.mode ≠ .normal → s.mode ≠ .quiesce → ∃ t, exec (.mcr src v) s = .next t ∧ t.mode = s.mode ∧ Keeps s t [])

/-- R373 to R377, R387, R392, Table 18.2: a command on a held unit starts, and one on a unit that is not held is answered with
RESULT 2; its end powers, releases or marks the unit; a raw access reaches a unit whose clock runs, and hangs otherwise; the boot
unit of a site keeps the blocks it has received and, when none is missing, compares the image's hash.
Completes: hostCmdPowerOn, hostCmdTrain, hostCmdRelease, hostCmdMarkFailed, hostCmdComplete, rawAccess,
firmwareBlockReceive, endMarker, bootHashComplete. -/
def Obligations.HostBringUp : Prop :=
  ∀ s : State,
    (∀ src v f c, c ∈ [Instr.hostCmdPowerOn src v, .hostCmdTrain src v, .hostCmdRelease src v, .hostCmdMarkFailed src v] →
      Lands s src R.BRG_HOST_CMD f whole v → s.fld R.BRG_STATUS_DIAG = 1 → s.fld R.BRG_HOST_RESULT_RESULT ≠ 1 →
      let u := getBits v 14 2
      let i := getBits v 9 5
      let a := getBits v 0 3
      (u ≠ 3 → i < unitTotal u → a < 4 →
        (bitN (s.fld (holdFld u)) i = 0 → ∃ t, exec c s = .next t ∧ t.fld R.BRG_HOST_RESULT_RESULT = 2 ∧
          t.boot = s.boot ∧ Keeps s t [R.BRG_HOST_RESULT]) ∧
        (bitN (s.fld (holdFld u)) i = 1 → a = 0 ∨ s.unitClock u i = true →
          ∃ t, exec c s = .next t ∧ t.fld R.BRG_HOST_RESULT_RESULT = 1 ∧ t.fld R.BRG_HOST_RESULT_UNIT = u ∧
            t.fld R.BRG_HOST_RESULT_INDEX = i ∧ t.boot = { s.boot with hostCmd := some (u, i, a) } ∧
            Keeps s t (R.BRG_HOST_RESULT :: if u = 0 ∧ a = 1 then [R.MS_STATUS i] else []))) ∧
      (u ≠ 3 → unitTotal u ≤ i ∨ 4 ≤ a → ∃ t, exec c s = .next t ∧ t.fld R.BRG_HOST_RESULT_RESULT = 5 ∧ t.boot = s.boot)) ∧
    (∀ u i a detail, s.boot.hostCmd = some (u, i, a) →
      (∃ t, exec (.hostCmdComplete false detail) s = .next t ∧ t.fld R.BRG_HOST_RESULT_RESULT = 4 ∧ t.boot.hostCmd = none ∧
        Keeps s t [R.BRG_HOST_RESULT]) ∧
      ∃ t, exec (.hostCmdComplete true detail) s = .next t ∧ t.fld R.BRG_HOST_RESULT_RESULT = 0 ∧ t.boot.hostCmd = none ∧
        (u = 0 → a = 0 → i < 32 → bitN (t.fld R.BRG_CLK_STACK) i = 1) ∧
        (u = 0 → a = 2 → i < 32 → t.fld (R.MS_STATUS_STATE i) = 2) ∧ (u = 0 → a = 3 → i < 32 → t.fld (R.MS_STATUS_STATE i) = 4) ∧
        (u = 1 → a = 0 → i < 8 → bitN (t.fld R.BRG_CLK_OE) i = 1) ∧ (u = 2 → a = 0 → i < 10 → t.fld (R.LAMP_CTRL_ENABLE i) = 1) ∧
        (2 ≤ a → u < 3 → i < unitTotal u → bitN (t.fld (holdFld u)) i = 0)) ∧
    (∀ src off, s.svcUp = true → rawSource src = true → s.rawOpen src = true → s.boot.hung = [] →
      let u := s.fld R.BRG_RAW_SEL_UNIT
      let i := s.fld R.BRG_RAW_SEL_INDEX
      i < unitTotal u →
      (s.unitClock u i = true →
        exec (.rawAccess src off none) s = .next (s.emit (.regRead (s.rdNat (rawKey u i off) 8))) ∧
        ∀ v, v < 2 ^ 64 → ∃ t, exec (.rawAccess src off (some v)) s = .next t ∧ t.rdNat (rawKey u i off) 8 = v ∧
          t.csr = s.csr ∧ ∀ a, (a < rawKey u i off ∨ rawKey u i off + 8 ≤ a) → t.rdByte a = s.rdByte a) ∧
      (s.unitClock u i = false → ∀ w, ∃ t, exec (.rawAccess src off w) s = .next t ∧ t.boot.hung = [(u, i, off, w)] ∧
        t.csr = s.csr ∧ t.mem = s.mem ∧ t.out = s.out)) ∧
    (∀ site img blk total data, isGallerySite site = true → s.fld (R.GAL_STATUS_STATE site) = 1 →
      s.fld (R.GAL_BOOT_STATE site) ≠ 3 → blk < total → total < 2 ^ 16 → img < 2 ^ 16 → data.length = 4096 →
      ∃ t, exec (.firmwareBlockReceive site img blk total data (crc32 data)) s = .next t ∧
        t.rdBytes (galKey site (4096 * blk)) 4096 = data ∧ t.fld (R.GAL_BOOT_STATE site) = 1 ∧
        (∃ u, t.boot.units.find? site = some u ∧ blk ∈ u.blocks ∧ u.image = img ∧ u.total = total ∧
          t.fld (R.GAL_BOOT_MISSING site) = total - u.blocks.length) ∧
        ∀ a, (a < galKey site (4096 * blk) ∨ galKey site (4096 * blk) + 4096 ≤ a) → t.rdByte a = s.rdByte a) ∧
    (∀ site u, site < 448 → s.boot.units.find? site = some u → s.fld (R.GAL_BOOT_STATE site) = 1 →
      (s.fld (R.GAL_BOOT_MISSING site) ≠ 0 → (s.boot.units.map (·.1)).Nodup →
        ∃ t, exec .endMarker s = .next t ∧ t.mem = s.mem ∧ t.ctxs = s.ctxs ∧
          (u.rounds < 3 → t.boot.units.find? site = some { u with rounds := u.rounds + 1 } ∧
            t.fld (R.GAL_BOOT_ATTEMPT site) = s.fld (R.GAL_BOOT_ATTEMPT site)) ∧
          (3 ≤ u.rounds → t.boot.units.find? site = some { u with blocks := [], rounds := 0 } ∧
            (s.fld (R.GAL_BOOT_ATTEMPT site) < 3 →
              t.fld (R.GAL_BOOT_ATTEMPT site) = s.fld (R.GAL_BOOT_ATTEMPT site) + 1 ∧
              t.fld (R.GAL_BOOT_STATE site) = if s.fld (R.GAL_BOOT_ATTEMPT site) = 2 then 3 else 1))) ∧
      (s.fld (R.GAL_BOOT_MISSING site) = 0 → s.fld (R.GAL_BOOT_ATTEMPT site) < 3 →
        ∃ t, exec (.bootHashComplete site) s = .next t ∧ t.mem = s.mem ∧
          if Config.sha384 (s.rdBytes (galKey site 0) (4096 * u.total)) = Config.imageHash u.image then
            t.fld (R.GAL_BOOT_STATE site) = 2
          else t.fld (R.GAL_BOOT_ATTEMPT site) = s.fld (R.GAL_BOOT_ATTEMPT site) + 1 ∧
            t.fld (R.GAL_BOOT_STATE site) = if s.fld (R.GAL_BOOT_ATTEMPT site) = 2 then 3 else 1))

/-! ## Chapters 19 and 20: test, repair, care -/

/-- R62, R295, R397 to R403, Tables 19.2 to 19.4: patrol reads line after line and counts what it finds; a known answer that
fails twice within a drip is an offence of the unit's kind, and an offence makes a site SUSPECT, or fences it at the top of its
ladder; link retries are compared with the last reading; the watch of a suspect site ends with its rung kept.
Completes: patrolRead, knownAnswerComplete, knownAnswerRerun, linkRetryCheck, watchExpiry. -/
def Obligations.PatrolAndOffences : Prop :=
  ∀ s : State,
    let offended (u t : State) (site kind : Nat) : Prop :=
      t.fld (R.TR_OFFENCE_TOTAL site) =
        satAdd (R.TR_OFFENCE_TOTAL site).width (u.fld (R.TR_OFFENCE_TOTAL site)) 1 ∧
      bitN (t.fld (R.TR_OFFENCE_KINDS site)) kind = 1 ∧ t.fld (R.TR_LADDER_LAST site) = kind ∧
      (u.tst.offDrip.get site 0 ≠ u.dripNo + 1 → u.fld (R.GAL_STATUS_STATE site) ≠ 3 →
        (u.fld (R.TR_LADDER_RUNG site) < u.fld (R.TR_LADDER_TOP site) → t.fld (R.TR_LADDER_SUSPECT site) = 1 ∧
          t.fld (R.TR_LADDER_WATCH_LEFT site) = u.fld R.TRM_CTRL_WATCH_DRIPS) ∧
        (u.fld (R.TR_LADDER_TOP site) ≤ u.fld (R.TR_LADDER_RUNG site) → t.fld (R.GAL_CTRL_FENCE site) = 1 ∧
          t.fld (R.GAL_STATUS_STATE site) = 3))
    (∀ site slice, site < 448 → slice < 32 → s.patrolOk site = true → s.slice site slice = 2 ∨ s.slice site slice = 5 →
      let i := s.tst.patrolLine.get (32 * site + slice) 0
      s.marksIn site (s.lineOff site slice i) 512 = [] →
      (∃ t, exec (.patrolRead site slice 0) s = .next t ∧
        t.tst.patrolLine.get (32 * site + slice) 0 = (i + 1) % 10240 ∧ t.csr = s.csr ∧ t.mem = s.mem ∧ t.ctxs = s.ctxs) ∧
      (∃ t, exec (.patrolRead site slice 1) s = .next t ∧
        t.fld (R.GM_ECC_CNT_CE site) = satAdd (R.GM_ECC_CNT_CE site).width (s.fld (R.GM_ECC_CNT_CE site)) 1 ∧
        t.fld (R.GM_ERR_STATUS_CE_SEEN site) = 1 ∧
        (s.tst.corr.get (32 * site + slice) 0 = s.fld R.TRM_CTRL_CE_LIMIT → offended s t site 7)) ∧
      ∃ t, exec (.patrolRead site slice 2) s = .next t ∧ t.fld (R.GM_ERR_STATUS_UE_SEEN site) = 1 ∧
        (∀ c, s.chamberOf site = some c → s.t6 c = true →
          ∃ w, w < 64 ∧ t.wordPoisoned site (s.lineOff site slice i + 8 * w) = true) ∧
        ∀ c, c < 16 → s.chamberOf site = some c → s.t6 c = false → s.fld (R.FR_CHAMBER_STATE c) = 1 →
          (s.fr.chs.get c ChSt.init).startAt = 0 → t.fld (R.FR_CHAMBER_STATE c) = 2) ∧
    (∀ site u, site < 448 → u < 3 → s.patrols site u = true →
      let runs (t : State) : Prop := t.patrols site u = false ∧ t.fld (R.TR_PATROL_CNT_RUNS site) =
        satAdd (R.TR_PATROL_CNT_RUNS site).width (s.fld (R.TR_PATROL_CNT_RUNS site)) 1
      (∃ t, exec (.knownAnswerComplete site u true) s = .next t ∧ runs t ∧ t.tst = s.tst ∧ Keeps s t [R.TR_PATROL_CNT site]) ∧
      ∃ t, exec (.knownAnswerComplete site u false) s = .next t ∧ runs t ∧
        t.tst.kaFail.find? (4 * site + u) = some s.dripNo ∧ Keeps s t [R.TR_PATROL_CNT site, R.HLT_SITE_CNT site]) ∧
    (∀ site u d, site < 448 → u < 3 → s.tst.kaFail.find? (4 * site + u) = some d → s.unitIdle site u = true →
      s.patrolOk site = true →
      (∃ t, exec (.knownAnswerRerun site u true) s = .next t ∧ t.tst.kaFail.find? (4 * site + u) = none ∧
        Keeps s t [R.TR_PATROL_CNT site]) ∧
      (s.dripNo ≤ d + 1 → ∃ t, exec (.knownAnswerRerun site u false) s = .next t ∧
        t.tst.kaFail.find? (4 * site + u) = none ∧ offended s t site (if u < 2 then 2 else 3)) ∧
      (d + 1 < s.dripNo → ∃ t, exec (.knownAnswerRerun site u false) s = .next t ∧
        t.tst.kaFail.find? (4 * site + u) = some s.dripNo ∧ Keeps s t [R.TR_PATROL_CNT site, R.HLT_SITE_CNT site])) ∧
    (s.mode = .normal ∨ s.mode = .quiesce → s.fld R.TRM_CTRL_PATROL_EN = 1 →
      ∃ t, exec .linkRetryCheck s = .next t ∧ Keeps s t [] ∧ ∀ node dir, node ∈ s.retryNodes → dir < 4 →
        let n := s.fld (retryFld (rtrBase node) dir)
        (t.rtr node).last.get dir 0 = n ∧ (t.rtr node).exceed.get dir 0 =
          if s.fld R.TRM_CTRL_LINK_RETRY < n - (s.rtr node).last.get dir 0 then (s.rtr node).exceed.get dir 0 + 1 else 0) ∧
    ∀ site, s.fld (R.TR_LADDER_SUSPECT site) = 1 → s.fld (R.TR_LADDER_WATCH_LEFT site) = 0 →
      ∃ t, exec (.watchExpiry site) s = .next t ∧ t.fld (R.TR_LADDER_SUSPECT site) = 0 ∧
        t.fld (R.TR_LADDER_RUNG site) = s.fld (R.TR_LADDER_RUNG site) ∧ Keeps s t [R.TR_LADDER site]

/-- R405 to R407, R411 to R413, Tables 19.5, 19.7 and 19.11: the runs of an arbitration and Bedrock's decision; a move that is
accepted, and its three ends.
Completes: arbRun1Complete, arbCopyComplete, arbRun2Complete, arbRun3Complete, trmMoveGo, moveComplete. -/
def Obligations.ArbitrationAndMoves : Prop :=
  ∀ s : State,
    (∀ site j a, site < 448 → j < 2 → s.tst.arbs.find? (2 * site + j) = some a → s.fld (R.TR_ARB_MXE site) = j → a.exceed = 0 →
      s.arbHeld site j a = true →
      let done (t : State) (result : Nat) : Prop :=
        t.fld (R.TR_ARB_STAGE site) = 5 ∧ t.fld (R.TR_ARB_RESULT site) = result ∧ t.tst.arbs.find? (2 * site + j) = none
      let blamed (t : State) (kind : Nat) : Prop :=
        bitN (t.fld (R.TR_OFFENCE_KINDS site)) kind = 1 ∧ t.fld (R.TR_LADDER_LAST site) = kind
      (s.fld (R.TR_ARB_STAGE site) = 1 → ∀ chk,
        let size := ((a.tile.srcs).map (·.2)).foldl (· + ·) 0
        (size ≤ 0x2000000 → (∃ x, x < 448 ∧ s.spareIdle x = true) →
          ∃ t, exec (.arbRun1Complete site j chk) s = .next t ∧ t.fld (R.TR_ARB_STAGE site) = 2 ∧
            t.tst.arbs.find? (2 * site + j) = some { a with s1 := s.runSums site a chk } ∧
            (let cols := (s.badSums site j a (s.runSums site a chk)).filter (fun w => !w.isRow)
             t.fld (R.TR_ARB_FAULT_COL1 site) =
              if cols ≠ [] ∧ firstOf cols false = (s.fld (R.MXE_WIT_STATUS_FIRST_COL site j) + 64) % 128 then
                firstOf cols false
              else s.fld (R.TR_ARB_FAULT_COL1 site)) ∧ Keeps s t [R.TR_ARB site]) ∧
        (0x2000000 < size → ∃ t, exec (.arbRun1Complete site j chk) s = .next t ∧ done t 6)) ∧
      (s.fld (R.TR_ARB_STAGE site) = 2 → ∀ spare, s.spareIdle spare = true →
        ∃ t, exec (.arbCopyComplete site j spare) s = .next t ∧ t.fld (R.TR_ARB_STAGE site) = 3 ∧
          t.fld (R.TR_ARB_SPARE_COL site) = colOf spare ∧ t.fld (R.TR_ARB_SPARE_ROW site) = rowOf spare ∧
          (∀ o n, a.tile.srcs = [(o, n)] → t.rdGal spare o n = s.rdGal site o n)) ∧
      (s.fld (R.TR_ARB_STAGE site) = 3 → ∀ given,
        let chk := s.runSums a.spare a given
        let run (p : State → Prop) : Prop := ∃ t, exec (.arbRun2Complete site j given) s = .next t ∧ p t
        (s.fld (R.TR_ARB_DIRTY site) = 1 → run (fun t => done t 6)) ∧
        (s.fld (R.TR_ARB_DIRTY site) = 0 →
          (s.badSums site j a chk ≠ [] → run (fun t => done t 5)) ∧
          (s.badSums site j a chk = [] →
            (sumsOf chk = sumsOf a.s0 → run (fun t => done t 1 ∧ blamed t 5)) ∧
            (sumsOf chk ≠ sumsOf a.s0 → witsOf chk ≠ witsOf a.s0 → run (fun t => done t 4 ∧ blamed t 9)) ∧
            (sumsOf chk ≠ sumsOf a.s0 → witsOf chk = witsOf a.s0 →
              (sumsOf a.s1 = sumsOf chk → run (fun t => t.fld (R.TR_ARB_STAGE site) = 4 ∧ Keeps s t [R.TR_ARB site])) ∧
              (sumsOf a.s1 ≠ sumsOf chk → run (fun t => done t 3 ∧ blamed t 4)))))) ∧
      (s.fld (R.TR_ARB_STAGE site) = 4 → ∀ r, (s.mxe (2 * site + j)).held = some r →
        (r.gen = s.fld (R.CUR_STATUS_GEN site) → r.written = true →
          ∃ t, exec (.arbRun3Complete site j) s = .next t ∧ done t 2 ∧ blamed t 4) ∧
        (r.gen = s.fld (R.CUR_STATUS_GEN site) → r.written = false → exec (.arbRun3Complete site j) s = .next s) ∧
        (r.gen ≠ s.fld (R.CUR_STATUS_GEN site) → ∃ t, exec (.arbRun3Complete site j) s = .next t ∧ done t 6))) ∧
    (∀ src v f, Lands s src R.TRM_MOVE f whole v → getBits v 63 1 = 1 →
      let u := s.setReg R.TRM_MOVE (written s R.TRM_MOVE f whole v)
      let a := u.fld R.TRM_MOVE_SRC_COL + 56 * u.fld R.TRM_MOVE_SRC_ROW
      let b := u.fld R.TRM_MOVE_DST_COL + 56 * u.fld R.TRM_MOVE_DST_ROW
      (isGallerySite a = true → isGallerySite b = true → s.fld (R.GAL_STATUS_STATE a) = 3 → s.siteQuiet a = true →
        s.fld (R.GAL_STATUS_STATE b) = 1 → (s.chamberOf a).isSome = true → s.chamberOf a = s.chamberOf b → s.tst.moveOn = none →
        ∃ t, exec (.trmMoveGo src v) s = .next t ∧ t.fld R.TRM_MOVE_STATUS_STATE = 1 ∧ t.tst.moveOn = some (a, b) ∧
          Keeps s t [R.TRM_MOVE, R.TRM_MOVE_STATUS]) ∧
      (s.fld (R.GAL_STATUS_STATE a) ≠ 3 ∨ s.fld (R.GAL_STATUS_STATE b) ≠ 1 ∨ s.tst.moveOn ≠ none →
        ∃ t, exec (.trmMoveGo src v) s = .next t ∧ t.fld R.TRM_MOVE_STATUS_STATE = 5 ∧ t.tst = s.tst ∧
          Keeps s t [R.TRM_MOVE, R.TRM_MOVE_STATUS])) ∧
    ∀ a b, s.tst.moveOn = some (a, b) → a < 448 → b < 448 → a ≠ b →
      (Canonical s → ∃ t, exec (.moveComplete 0) s = .next t ∧ t.fld R.TRM_MOVE_STATUS_STATE = 2 ∧
        t.fld R.TRM_MOVE_STATUS_LINES_DONE = 10240 * s.onSlices a ∧ t.tst.moveOn = none ∧
        ∀ o, o < cellsEnd → s.slice a (s.sliceOf a o) = 2 → t.rdByte (galKey b o) = s.rdByte (galKey a o)) ∧
      (∃ t, exec (.moveComplete 1) s = .next t ∧ t.fld R.TRM_MOVE_STATUS_STATE = 4 ∧ t.tst.moveOn = none ∧
        Keeps s t [R.TRM_MOVE_STATUS]) ∧
      ∃ t, exec (.moveComplete 2) s = .next t ∧ t.fld R.TRM_MOVE_STATUS_STATE = 3 ∧ t.tst.moveOn = none ∧
        ∀ c, c < 16 → s.chamberOf a = some c → s.fld (R.FR_CHAMBER_STATE c) = 1 → (s.fr.chs.get c ChSt.init).startAt = 0 →
          t.fld (R.FR_CHAMBER_STATE c) = 2 ∧ t.fld (R.FR_CHAMBER_LOST_SEEN c) = 1

/-- R417, R418, R426 to R429, R416: the firmware's watchdog is kicked, or restarts it, and the third restart in 600 s is a module
compute reset; Bedrock's heartbeat; a replay starts where its image and its site allow it, and ends with a result; the health scores
follow once a second.
Completes: kick, flowstoneWatchdogExpiry, bedrockHeartbeat, healthScoreUpdate, echoGo, echoReplayEnd. -/
def Obligations.CareOfFirmware : Prop :=
  ∀ s : State,
    (∀ src v f, Lands s src R.FR_CTRL f whole v → getBits v 8 1 = 1 → 10 ≤ getBits v 0 8 →
      ∃ t, exec (.kick src v) s = .next t ∧ t.fr = { s.fr with kickAt := s.now } ∧ Keeps s t [R.FR_CTRL]) ∧
    (s.svcUp = true →
      let now := max s.now (s.fr.kickAt + 1000000 * s.fld R.FR_CTRL_FW_WDOG_MS)
      let recent := s.fr.restarts.filter (fun t => decide (now < t + 600000000000))
      (recent.length < 2 → ∃ t, exec .flowstoneWatchdogExpiry s = .next t ∧ t.now = now ∧ t.fr.kickAt = now ∧
        t.fr.restarts = recent ++ [now] ∧ t.fr.buckets = [] ∧ t.mode = s.mode ∧ Keeps s t []) ∧
      (2 ≤ recent.length → s.mode = .normal → s.pwr.removal = 0 → s.mayAct 4 = true →
        (∀ x, x ∈ s.boot.mcrs → x + 600000000000 ≤ now) →
        ∃ t, exec .flowstoneWatchdogExpiry s = .next t ∧ (t.mode = .boot ∨ t.mode = .refuge) ∧
          t.fld R.BRG_RESET_MCR_COUNT = (s.fld R.BRG_RESET_MCR_COUNT + 1) % 2 ^ R.BRG_RESET_MCR_COUNT.width) ∧
      (∃ t, exec .bedrockHeartbeat s = .next t ∧ t.now = max s.now (s.fr.hbAt + 10000000) ∧
        t.fr = { s.fr with hbAt := t.now } ∧ t.csr = s.csr ∧ t.mem = s.mem ∧ t.ctxs = s.ctxs) ∧
      ∃ t, exec .healthScoreUpdate s = .next t ∧ t.now = max s.now (s.fr.sampleAt + 1000000000) ∧ t.mem = s.mem ∧
        t.ctxs = s.ctxs ∧ t.fld R.HLT_MODULE_SPARES = s.spares ∧
        t.fld R.HLT_MODULE_MEAN = ((List.range 490).map (fun u => t.fld (R.HLT_SCORE_SCORE (u / 4) (u % 4)))).foldl (· + ·) 0 / 490 ∧
        t.fld R.HLT_MODULE_SCORE = min (t.fld R.HLT_MODULE_MEAN) (32 * s.spares + 31) ∧
        ∀ u, u < 490 → t.fld (R.HLT_SCORE_VALID (u / 4) (u % 4)) = 1 ∧
          t.fld (R.HLT_SCORE_DOWN (u / 4) (u % 4)) = b2n (s.unitDown u) ∧
          (s.unitDown u = true → t.fld (R.HLT_SCORE_SCORE (u / 4) (u % 4)) = 0)) ∧
    (∀ src v f, Lands s src R.FR_ECHO f whole v → getBits v 63 1 = 1 →
      let u := s.setReg R.FR_ECHO (written s R.FR_ECHO f whole v)
      let site := u.fld R.FR_ECHO_SITE_COL + 56 * u.fld R.FR_ECHO_SITE_ROW
      let refused : Prop := ∃ t, exec (.echoGo src v) s = .next t ∧ t.fld R.FR_ECHO_STATUS_STATE = 4 ∧
        t.fld R.FR_ECHO_STATUS_RESULT = 0 ∧ t.fr = s.fr ∧ Keeps s t [R.FR_ECHO, R.FR_ECHO_STATUS]
      (isGallerySite site = false ∨ (s.chamberOf site).isSome = true ∨ s.fld (R.GAL_STATUS_STATE site) ≠ 1 ∨
        s.tst.moveOn ≠ none ∨ s.fr.echo ≠ none → refused) ∧
      (isGallerySite site = true → s.chamberOf site = none → s.fld (R.GAL_STATUS_STATE site) = 1 → s.tst.moveOn = none →
        s.fr.echo = none →
        match u.echoRec with
        | none => refused
        | some _ => ∃ t, exec (.echoGo src v) s = .next t ∧ t.fld R.FR_ECHO_STATUS_STATE = 1 ∧
            ∃ e, t.fr.echo = some e ∧ e.site = site ∧ e.chamber = u.fld R.FR_ECHO_CHAMBER ∧ e.seen = false)) ∧
    (∀ c seq, c < 16 → (s.fr.chs.get c ChSt.init).held = some seq → s.fld (R.FR_CHAMBER_STATE c) ≠ 2 →
      ∃ t, exec (.resetHoldExpiry (.chamber c)) s = .next t ∧ t.fld (R.FR_CHAMBER_STATE c) = 2 ∧
        t.fld (R.FR_CHAMBER_STEP c) = 2 ∧ t.now = max s.now ((s.fr.chs.get c ChSt.init).startAt + resetGap) ∧
        (t.fr.chs.get c ChSt.init).startAt = t.now ∧ (t.fr.chs.get c ChSt.init).held = none) ∧
    ∀ e abort, s.fr.echo = some e → abort = true ∨ e.seen = true ∨ e.loaded = true ∧ e.endDrip ≤ s.dripNo →
      ∃ t, exec (.echoReplayEnd abort) s = .next t ∧ t.fr.echo = none ∧ t.fld R.FR_ECHO_STATUS_STATE = 3 ∧
        t.fld R.FR_ECHO_STATUS_RESULT = (if abort then 3 else if e.seen then 1 else 2) ∧
        t.fld R.FR_ECHO_STATUS_DRIP = s.dripNo ∧
        t.fld (R.GM_SCRUB_STATE e.site) = 2 ∧ t.fld (R.GM_SCRUB_VERIFY_FAIL e.site) = 0 ∧
        ∃ u, exec (.scrubComplete e.site true) t = .next u ∧ u.fld (R.GM_SCRUB_STATE e.site) = 0 ∧
          ∀ o k, o < cellsEnd → k = t.sliceOf e.site o → k < 32 → t.slice e.site k = 2 ∨ t.slice e.site k = 5 →
            u.rdByte (galKey e.site o) = 0

/-! ## Chapter 21: power, cooling, insertion and removal -/

/-- R438 to R442, R446 to R452: the governor's averages and its need to throttle; a die that is hot, or cool again; a sample's
values; a trip that sends the module to REFUGE; a comparator that opens the input; a trip, and the leak latch, that clear.
Completes: governorTick, dieThermalThrottle, dieThermalRecover, lanternSample, comparatorTrip, tripClear, leak. -/
def Obligations.PowerCare : Prop :=
  ∀ s : State,
    (∀ dies : List Nat,
      let p1 := if s.pwr.acc = [] then 0 else sumN s.pwr.acc / s.pwr.acc.length
      let w10 := sumN ((p1 :: s.pwr.p1s).take 10000) / 10000
      ∃ t, exec (.governorTick dies) s = .next t ∧ t.now = max s.now (s.pwr.govAt + 1000000) ∧
        t.fld R.PWR_STATUS_P1 = p1 / 100000 % 2 ^ 16 ∧ t.fld R.PWR_STATUS_W10 = w10 / 100000 % 2 ^ 16 ∧
        (∀ d w, d < 16 → dies[d]? = some w → t.fld (R.PWR_DIE_POWER d) = w % 2 ^ 16) ∧
        (s.fld R.PWR_STATUS_CAP_IN_FORCE * 100000 ≤ w10 ∨ 150000000 < p1 →
          t.fld R.PWR_STATUS_FAST = 1 ∧ t.pwr.up = true ∧ t.pwr.stable = 0) ∧
        t.mem = s.mem ∧ t.ctxs = s.ctxs) ∧
    (∀ d tj, d < 16 → tj < 256 →
      (100 ≤ tj → ∃ t, exec (.dieThermalThrottle d tj) s = .next t ∧ t.fld (R.PWR_DIE_TJ d) = tj ∧ t.pwr.hot.get d 0 = 1 ∧
        t.fld R.PWR_CNT_FAST = satAdd R.PWR_CNT_FAST.width (s.fld R.PWR_CNT_FAST) 1 ∧ Keeps s t [R.PWR_DIE d, R.PWR_CNT]) ∧
      (tj < 95 → ∃ t, exec (.dieThermalRecover d tj) s = .next t ∧ t.fld (R.PWR_DIE_TJ d) = tj ∧
        t.fld (R.PWR_DIE_STEP d) = s.fld (R.PWR_DIE_STEP d) - 1 ∧ Keeps s t [R.PWR_DIE d])) ∧
    (∀ i : Inputs, s.mode ≠ .off → s.mode ≠ .refuge → i.raw.length ≤ 16 →
      (∀ e, e < 24 → s.fld (R.LNT_TRIP_VALID e) = 1 → (s.sampleIn i).lampCounts.tripCond e = false) →
      ∃ t, exec (.lanternSample i) s = .next t ∧ t.now = max s.now (s.pwr.sampAt + 100000) ∧ t.mode = s.mode ∧
        t.pwr.samples = s.pwr.samples + 1 ∧ t.mem = s.mem ∧ t.ctxs = s.ctxs ∧
        ∀ c x, i.raw[c]? = some x → t.fld (R.LNT_CH_RAW c) = x % 2 ^ 16 ∧
          (s.fld (R.LNT_CH_MEDIAN c) = 0 → s.fld (R.LNT_CH_BIQ c) = 0 → t.fld (R.LNT_CH_VALUE c) = x % 2 ^ 16)) ∧
    (∀ e, e < 24 → e ≠ 12 → s.fld (R.LNT_TRIP_VALID e) = 1 → s.tripCond e = true → s.tripPersist e ≤ s.pwr.persist.get e 0 + 1 →
      bitN (s.fld R.LNT_STATUS_ACTIVE) e = 0 → s.fld (R.LNT_TRIP_ACTION e) = 4 → s.mode = .normal → s.mayAct 2 = true →
      s.pwr.removal = 0 → (s.tripEval e).mode = .refuge ∧ bitN ((s.tripEval e).fld R.LNT_STATUS_ACTIVE) e = 1) ∧
    (∀ e, e = 0 ∨ e = 1 ∨ e = 14 → s.mode ≠ .off → ∃ t, exec (.comparatorTrip e) s = .next t ∧ t.mode = .off ∧ t.ctxs = [] ∧
      t.host.store = [] ∧ ∀ a, a < galKey 448 0 → t.rdByte a = 0) ∧
    (∀ e d, e < 24 → e ≠ 9 → s.pwr.safe.get e 0 = d + 1 → bitN (s.fld R.LNT_STATUS_ACTIVE) e = 1 →
      ∃ t, exec (.tripClear e) s = .next t ∧ bitN (t.fld R.LNT_STATUS_ACTIVE) e = 0 ∧ t.now = max s.now (d + 10000000000) ∧
        Keeps s t [R.LNT_STATUS, R.PWR_STATUS]) ∧
    ∀ src v f, Lands s src R.LNT_CLR f whole v → getBits v 0 1 = 1 →
      (2000 < median ((s.rawHist 5).take 3) →
        ∃ t, exec (.leak src v) s = .next t ∧ t.fld R.LNT_STATUS_LEAK_LATCH = 0 ∧ t.fld R.LNT_STATUS_VALVE = 0 ∧
          bitN (t.fld R.LNT_STATUS_ACTIVE) 9 = 0 ∧ Keeps s t [R.LNT_STATUS]) ∧
      (median ((s.rawHist 5).take 3) ≤ 2000 → exec (.leak src v) s = .next s)

/-- R16, R17, R430, R431, R453 to R456, Tables 20.7 and 21.11: a wake from STANDBY starts bring-up; a removal waits for an Open in
NORMAL, ends in STANDBY with OK2RM, and one that surprises leaves nothing; a lease that ends becomes QUIESCE, in which every
master is frozen.
Completes: standby, wakeNEdge, wakePacket, ejectRequest, eject, removalDrainEnd, surpriseRemoval, leaseExpiry. -/
def Obligations.WakeAndRemoval : Prop :=
  ∀ s : State,
    (∀ pins, s.mode = .standby → s.pwr.removal = 0 → s.pwr.removeArmed = false → s.tripActive = false →
      ∀ c, c = .wakeNEdge pins ∨ c = .wakePacket Config.mgmtMac pins → ∃ t, exec c s = .next t ∧ t.mode = .boot ∧
        t.fld R.BRG_STATUS_STEP = 3 ∧ t.fld R.PROF_STATUS_PINS = pins % 4) ∧
    (∀ c, c = .ejectRequest ∨ (∃ src v f, c = .eject src v ∧ Lands s src R.PWR_CTRL f whole v ∧ getBits v 0 1 = 1 ∧
          getBits v 16 11 = s.fld R.PWR_CTRL_CAP) → s.pwr.removal = 0 →
      (s.mode = .normal → ∃ t, exec c s = .next t ∧ t.pwr.removal = 1 ∧ t.fld R.LNT_STATUS_EJECT = 1 ∧ t.mode = .normal ∧
        Keeps s t [R.LNT_STATUS, R.PWR_CTRL]) ∧
      (s.mode = .quiesce → ∃ t, exec c s = .next t ∧ t.pwr.removal = 3 ∧ t.fld R.LNT_STATUS_EJECT = 1 ∧ t.mode = .quiesce)) ∧
    (s.mode = .standby → s.pwr.removal = 0 →
      ∃ t, exec .ejectRequest s = .next t ∧ t.pwr.removal = 6 ∧ t.fld R.LNT_STATUS_OK2RM = 1 ∧ Keeps s t [R.LNT_STATUS]) ∧
    (s.mode = .quiesce → s.pwr.removal = 3 →
      ∃ t, exec .removalDrainEnd s = .next t ∧ t.mode = .standby ∧ t.fld R.LNT_STATUS_OK2RM = 1 ∧
        t.fld R.LNT_STATUS_EJECT = 0 ∧ t.pwr.removal = 6 ∧ t.ctxs = []) ∧
    (∃ t, exec .surpriseRemoval s = .next t ∧ t.mode = .off ∧ t.pwr.present = false ∧ t.pwr.removal = 0) ∧
    (s.fld R.FR_LEASE_STATE = 1 →
      (s.dripNo < s.fld R.FR_LEASE_EXPIRY → exec .leaseExpiry s = .next s) ∧
      (s.fld R.FR_LEASE_EXPIRY ≤ s.dripNo →
        (s.mode ≠ .normal → ∃ t, exec .leaseExpiry s = .next t ∧ t.fld R.FR_LEASE_STATE = 2 ∧ t.fld R.FR_LEASE_LATCH = 1 ∧
          t.mode = s.mode ∧ Keeps s t [R.FR_LEASE]) ∧
        (s.mode = .normal → s.mayAct 3 = true →
          (∀ m, m ∈ s.masters → ∃ mb i, i < 64 ∧ blockAt mb = some (.MSTR, mb) ∧ m = mstr mb i) →
          ∃ t, exec .leaseExpiry s = .next t ∧ t.fld R.FR_LEASE_STATE = 2 ∧ t.fld R.FR_LEASE_LATCH = 1 ∧ t.mode = .quiesce ∧
            t.fr.quiesceBy = 1 ∧ ∀ m, m ∈ s.masters → t.frozen m = true)))

/-! ## The whole machine -/

/-- Right after reset (the reset values of the registers' tables; HIF_STATUS.MODSTATE resets to BOOT): the module is in BOOT,
the drip is stopped, every core map is the identity, the governor's cap is 1200 W, no memory byte is written (a byte that
nothing has written reads zero by the model's choice, log entry 8) and no command waits. -/
def Obligations.ResetValues : Prop :=
  State.reset.mode = .boot ∧ State.reset.fld R.HIF_STATUS_MODSTATE = 2 ∧ State.reset.pending = [] ∧ State.reset.fld R.DRIP_CTRL_ENABLE = 0 ∧
  State.reset.fld R.PWR_CTRL_CAP = 1200 ∧ State.reset.fld R.PWR_CTRL_DRAIN_MS = 1000 ∧
  State.reset.fld R.FR_CTRL_FW_WDOG_MS = 100 ∧ State.reset.fld R.FR_CTRL_NOPROG_US = 50 ∧
  (∀ site, site < 448 → isGallerySite site = true → ∀ k, k < 32 →
    State.reset.fld (R.GAL_CORE_MAP_PHYS site (k / 8) (k % 8)) = k ∧ State.reset.rtrState site = 0) ∧
  ∀ a, State.reset.rdByte a = 0

/-- Right after reset the register file and memory are in canonical form. -/
def Obligations.InvReset : Prop := Canonical State.reset

/-- Every step keeps the register file and memory in canonical form. -/
def Obligations.InvStep : Prop := ∀ s t : State, Canonical s → step s = .next t → Canonical t

/-- No step fails: in every state it answers a next state, as the manual gives every command an effect. A step on an empty
queue leaves the state as it is (the model's choice, log entry 1). -/
def Obligations.StepAnswers : Prop :=
  (∀ s : State, ∃ t, step s = .next t) ∧
  (∀ s : State, s.pending = [] → step s = .next s)
end

