-- ==== Sys2Proof/Laws/Map.lean ====
section
/-! SUPPORT. Laws of the sparse map: a read after a write gives the value written, a write leaves every other key
alone, and every operation keeps the canonical form. -/

namespace Sys2Proof.Machine.SMap

theorem find?_erase_ne {α : Type} (m : SMap α) {k j : Nat} (h : j ≠ k) : find? (erase m k) j = find? m j := by
  induction m with
  | nil => rfl
  | cons p m ih =>
    obtain ⟨i, v⟩ := p
    by_cases hik : i = k
    · subst hik; simp [erase, find?, Ne.symm h, ih]
    · simp only [erase, if_neg hik, find?, ih]

theorem find?_ins_same {α : Type} (m : SMap α) (k : Nat) (v : α) : find? (ins m k v) k = some v := by
  induction m with
  | nil => simp [ins, find?]
  | cons p m ih =>
    obtain ⟨i, w⟩ := p
    simp only [ins]
    split
    · simp [find?]
    · split
      · simp [find?]
      · rename_i h1 h2; simp [find?, Ne.symm h2, ih]

theorem find?_ins_ne {α : Type} (m : SMap α) {k j : Nat} (v : α) (h : j ≠ k) : find? (ins m k v) j = find? m j := by
  induction m with
  | nil => simp [ins, find?, Ne.symm h]
  | cons p m ih =>
    obtain ⟨i, w⟩ := p
    simp only [ins]
    split
    · simp [find?, Ne.symm h]
    · split
      · rename_i h2; subst h2; simp [find?, Ne.symm h]
      · by_cases hij : i = j <;> simp [find?, hij, ih]

@[simp] theorem find?_erase_same {α : Type} (m : SMap α) (k : Nat) : find? (erase m k) k = none := by
  induction m with
  | nil => rfl
  | cons p m ih =>
    obtain ⟨i, v⟩ := p
    by_cases hik : i = k <;> simp [erase, find?, hik, ih]

/-- A read of the key just written gives the value written, whatever the map. -/
@[simp] theorem get_put_same {α : Type} [DecidableEq α] (m : SMap α) (k : Nat) (v d : α) : get (put m k v d) k d = v := by
  unfold get put
  split
  · rename_i hv; simp [hv]
  · simp [find?_ins_same]

/-- A write leaves every other key alone, whatever the map. -/
theorem get_put_ne {α : Type} [DecidableEq α] (m : SMap α) {k j : Nat} (v d d' : α) (h : j ≠ k) :
    get (put m k v d) j d' = get m j d' := by
  unfold get put
  split
  · simp [find?_erase_ne m h]
  · simp [find?_ins_ne m v h]

theorem above_erase {α : Type} {m : SMap α} {i : Nat} (h : above i m = true) (k : Nat) : above i (erase m k) = true := by
  induction m with
  | nil => rfl
  | cons p m ih =>
    obtain ⟨j, v⟩ := p
    simp [above] at h
    by_cases hjk : j = k
    · simp [erase, hjk, ih h.2]
    · simp [erase, hjk, above, h.1, ih h.2]

theorem above_ins {α : Type} {m : SMap α} {i k : Nat} (h : above i m = true) (hk : i < k) (v : α) :
    above i (ins m k v) = true := by
  induction m with
  | nil => simp [ins, above, hk]
  | cons p m ih =>
    obtain ⟨j, w⟩ := p
    simp [above] at h
    simp only [ins]
    split
    · simp [above, hk, h.1, h.2]
    · split
      · simp [above, hk, h.2]
      · simp [above, h.1, ih h.2]

theorem above_trans {α : Type} {m : SMap α} {i j : Nat} (h : above j m = true) (hij : i < j) : above i m = true := by
  induction m with
  | nil => rfl
  | cons p m ih =>
    obtain ⟨k, v⟩ := p
    simp [above] at h ⊢
    exact ⟨by omega, ih h.2⟩

theorem wf_erase {α : Type} [DecidableEq α] {d : Nat → α} {m : SMap α} (h : wf d m = true) (k : Nat) :
    wf d (erase m k) = true := by
  induction m with
  | nil => rfl
  | cons p m ih =>
    obtain ⟨i, v⟩ := p
    simp [wf] at h
    by_cases hik : i = k
    · simp [erase, hik, ih h.2]
    · simp [erase, hik, wf, above_erase h.1.1, h.1.2, ih h.2]

theorem wf_ins {α : Type} [DecidableEq α] {d : Nat → α} {m : SMap α} (h : wf d m = true) (k : Nat) (v : α)
    (hv : v ≠ d k) : wf d (ins m k v) = true := by
  induction m with
  | nil => simp [ins, wf, above, hv]
  | cons p m ih =>
    obtain ⟨i, w⟩ := p
    simp [wf] at h
    simp only [ins]
    split
    · rename_i hki
      simp [wf, above, hki, above_trans h.1.1 hki, hv, h.1.1, h.1.2, h.2]
    · split
      · rename_i hki; subst hki; simp [wf, h.1.1, hv, h.2]
      · rename_i h1 h2
        have : i < k := by omega
        simp [wf, above_ins h.1.1 this, h.1.2, ih h.2]

/-- A write keeps the canonical form. -/
theorem wf_put {α : Type} [DecidableEq α] {d : Nat → α} {m : SMap α} (h : wf d m = true) (k : Nat) (v : α) :
    wf d (put m k v (d k)) = true := by
  unfold put
  split
  · exact wf_erase h k
  · rename_i hv; exact wf_ins h k v hv

theorem wf_nil {α : Type} [DecidableEq α] (d : Nat → α) : wf d ([] : SMap α) = true := rfl

end Sys2Proof.Machine.SMap
end

