-- ==== Sys2Proof/Laws/State.lean ====
section
/-! SUPPORT. What each named update of the state leaves: one lemma per field and update, each true by computation; a read
of a unit after it is written gives what was written, and a read of another unit what stood there. The proofs are not a
bare `rfl`: simp would use such a lemma without recording the step, and the kernel would then compare whole states. -/

namespace Sys2Proof.Machine

variable (s : State)

/-! ### withPending -/

@[simp] theorem State.withPending_pending (x : List Instr) : (s.withPending x).pending = x := Eq.trans rfl rfl
@[simp] theorem State.withPending_now (x : List Instr) : (s.withPending x).now = s.now := Eq.trans rfl rfl
@[simp] theorem State.withPending_free (x : List Instr) : (s.withPending x).free = s.free := Eq.trans rfl rfl
@[simp] theorem State.withPending_out (x : List Instr) : (s.withPending x).out = s.out := Eq.trans rfl rfl
@[simp] theorem State.withPending_mode (x : List Instr) : (s.withPending x).mode = s.mode := Eq.trans rfl rfl
@[simp] theorem State.withPending_drip (x : List Instr) : (s.withPending x).drip = s.drip := Eq.trans rfl rfl
@[simp] theorem State.withPending_csr (x : List Instr) : (s.withPending x).csr = s.csr := Eq.trans rfl rfl
@[simp] theorem State.withPending_mem (x : List Instr) : (s.withPending x).mem = s.mem := Eq.trans rfl rfl
@[simp] theorem State.withPending_poison (x : List Instr) : (s.withPending x).poison = s.poison := Eq.trans rfl rfl
@[simp] theorem State.withPending_gpoison (x : List Instr) : (s.withPending x).gpoison = s.gpoison := Eq.trans rfl rfl
@[simp] theorem State.withPending_ueLog (x : List Instr) : (s.withPending x).ueLog = s.ueLog := Eq.trans rfl rfl
@[simp] theorem State.withPending_zeroed (x : List Instr) : (s.withPending x).zeroed = s.zeroed := Eq.trans rfl rfl
@[simp] theorem State.withPending_force (x : List Instr) : (s.withPending x).force = s.force := Eq.trans rfl rfl
@[simp] theorem State.withPending_ctxs (x : List Instr) : (s.withPending x).ctxs = s.ctxs := Eq.trans rfl rfl
@[simp] theorem State.withPending_cores (x : List Instr) : (s.withPending x).cores = s.cores := Eq.trans rfl rfl
@[simp] theorem State.withPending_tasks (x : List Instr) : (s.withPending x).tasks = s.tasks := Eq.trans rfl rfl
@[simp] theorem State.withPending_rts (x : List Instr) : (s.withPending x).rts = s.rts := Eq.trans rfl rfl
@[simp] theorem State.withPending_dirs (x : List Instr) : (s.withPending x).dirs = s.dirs := Eq.trans rfl rfl
@[simp] theorem State.withPending_gms (x : List Instr) : (s.withPending x).gms = s.gms := Eq.trans rfl rfl
@[simp] theorem State.withPending_mxes (x : List Instr) : (s.withPending x).mxes = s.mxes := Eq.trans rfl rfl
@[simp] theorem State.withPending_curs (x : List Instr) : (s.withPending x).curs = s.curs := Eq.trans rfl rfl
@[simp] theorem State.withPending_mctxs (x : List Instr) : (s.withPending x).mctxs = s.mctxs := Eq.trans rfl rfl
@[simp] theorem State.withPending_net (x : List Instr) : (s.withPending x).net = s.net := Eq.trans rfl rfl
@[simp] theorem State.withPending_answers (x : List Instr) : (s.withPending x).answers = s.answers := Eq.trans rfl rfl
@[simp] theorem State.withPending_crets (x : List Instr) : (s.withPending x).crets = s.crets := Eq.trans rfl rfl
@[simp] theorem State.withPending_rings (x : List Instr) : (s.withPending x).rings = s.rings := Eq.trans rfl rfl
@[simp] theorem State.withPending_unans (x : List Instr) : (s.withPending x).unans = s.unans := Eq.trans rfl rfl
@[simp] theorem State.withPending_cqs (x : List Instr) : (s.withPending x).cqs = s.cqs := Eq.trans rfl rfl
@[simp] theorem State.withPending_turns (x : List Instr) : (s.withPending x).turns = s.turns := Eq.trans rfl rfl
@[simp] theorem State.withPending_tfes (x : List Instr) : (s.withPending x).tfes = s.tfes := Eq.trans rfl rfl
@[simp] theorem State.withPending_pkts (x : List Instr) : (s.withPending x).pkts = s.pkts := Eq.trans rfl rfl
@[simp] theorem State.withPending_rtrs (x : List Instr) : (s.withPending x).rtrs = s.rtrs := Eq.trans rfl rfl
@[simp] theorem State.withPending_sv (x : List Instr) : (s.withPending x).sv = s.sv := Eq.trans rfl rfl
@[simp] theorem State.withPending_mss (x : List Instr) : (s.withPending x).mss = s.mss := Eq.trans rfl rfl
@[simp] theorem State.withPending_ports (x : List Instr) : (s.withPending x).ports = s.ports := Eq.trans rfl rfl
@[simp] theorem State.withPending_lamps (x : List Instr) : (s.withPending x).lamps = s.lamps := Eq.trans rfl rfl
@[simp] theorem State.withPending_ptp (x : List Instr) : (s.withPending x).ptp = s.ptp := Eq.trans rfl rfl
@[simp] theorem State.withPending_mrs (x : List Instr) : (s.withPending x).mrs = s.mrs := Eq.trans rfl rfl
@[simp] theorem State.withPending_host (x : List Instr) : (s.withPending x).host = s.host := Eq.trans rfl rfl
@[simp] theorem State.withPending_sec (x : List Instr) : (s.withPending x).sec = s.sec := Eq.trans rfl rfl
@[simp] theorem State.withPending_boot (x : List Instr) : (s.withPending x).boot = s.boot := Eq.trans rfl rfl
@[simp] theorem State.withPending_tst (x : List Instr) : (s.withPending x).tst = s.tst := Eq.trans rfl rfl
@[simp] theorem State.withPending_fr (x : List Instr) : (s.withPending x).fr = s.fr := Eq.trans rfl rfl
@[simp] theorem State.withPending_pwr (x : List Instr) : (s.withPending x).pwr = s.pwr := Eq.trans rfl rfl
@[simp] theorem State.withPending_greset (x : List Instr) : (s.withPending x).greset = s.greset := Eq.trans rfl rfl
@[simp] theorem State.withPending_ctx_ (x : List Instr) (j : Nat) : (s.withPending x).ctx j = s.ctx j := Eq.trans rfl rfl
@[simp] theorem State.withPending_mctx_ (x : List Instr) (j : Nat) : (s.withPending x).mctx j = s.mctx j := Eq.trans rfl rfl
@[simp] theorem State.withPending_reg (x : List Instr) (a : Nat) : (s.withPending x).reg a = s.reg a := Eq.trans rfl rfl
@[simp] theorem State.withPending_fld (x : List Instr) (f : Fld) : (s.withPending x).fld f = s.fld f := Eq.trans rfl rfl
@[simp] theorem State.withPending_sub (x : List Instr) (a w i : Nat) : (s.withPending x).sub a w i = s.sub a w i := Eq.trans rfl rfl
@[simp] theorem State.withPending_rdByte (x : List Instr) (j : Nat) : (s.withPending x).rdByte j = s.rdByte j := Eq.trans rfl rfl

/-! ### withNow -/

@[simp] theorem State.withNow_pending (x : Nat) : (s.withNow x).pending = s.pending := Eq.trans rfl rfl
@[simp] theorem State.withNow_now (x : Nat) : (s.withNow x).now = x := Eq.trans rfl rfl
@[simp] theorem State.withNow_free (x : Nat) : (s.withNow x).free = s.free := Eq.trans rfl rfl
@[simp] theorem State.withNow_out (x : Nat) : (s.withNow x).out = s.out := Eq.trans rfl rfl
@[simp] theorem State.withNow_mode (x : Nat) : (s.withNow x).mode = s.mode := Eq.trans rfl rfl
@[simp] theorem State.withNow_drip (x : Nat) : (s.withNow x).drip = s.drip := Eq.trans rfl rfl
@[simp] theorem State.withNow_csr (x : Nat) : (s.withNow x).csr = s.csr := Eq.trans rfl rfl
@[simp] theorem State.withNow_mem (x : Nat) : (s.withNow x).mem = s.mem := Eq.trans rfl rfl
@[simp] theorem State.withNow_poison (x : Nat) : (s.withNow x).poison = s.poison := Eq.trans rfl rfl
@[simp] theorem State.withNow_gpoison (x : Nat) : (s.withNow x).gpoison = s.gpoison := Eq.trans rfl rfl
@[simp] theorem State.withNow_ueLog (x : Nat) : (s.withNow x).ueLog = s.ueLog := Eq.trans rfl rfl
@[simp] theorem State.withNow_zeroed (x : Nat) : (s.withNow x).zeroed = s.zeroed := Eq.trans rfl rfl
@[simp] theorem State.withNow_force (x : Nat) : (s.withNow x).force = s.force := Eq.trans rfl rfl
@[simp] theorem State.withNow_ctxs (x : Nat) : (s.withNow x).ctxs = s.ctxs := Eq.trans rfl rfl
@[simp] theorem State.withNow_cores (x : Nat) : (s.withNow x).cores = s.cores := Eq.trans rfl rfl
@[simp] theorem State.withNow_tasks (x : Nat) : (s.withNow x).tasks = s.tasks := Eq.trans rfl rfl
@[simp] theorem State.withNow_rts (x : Nat) : (s.withNow x).rts = s.rts := Eq.trans rfl rfl
@[simp] theorem State.withNow_dirs (x : Nat) : (s.withNow x).dirs = s.dirs := Eq.trans rfl rfl
@[simp] theorem State.withNow_gms (x : Nat) : (s.withNow x).gms = s.gms := Eq.trans rfl rfl
@[simp] theorem State.withNow_mxes (x : Nat) : (s.withNow x).mxes = s.mxes := Eq.trans rfl rfl
@[simp] theorem State.withNow_curs (x : Nat) : (s.withNow x).curs = s.curs := Eq.trans rfl rfl
@[simp] theorem State.withNow_mctxs (x : Nat) : (s.withNow x).mctxs = s.mctxs := Eq.trans rfl rfl
@[simp] theorem State.withNow_net (x : Nat) : (s.withNow x).net = s.net := Eq.trans rfl rfl
@[simp] theorem State.withNow_answers (x : Nat) : (s.withNow x).answers = s.answers := Eq.trans rfl rfl
@[simp] theorem State.withNow_crets (x : Nat) : (s.withNow x).crets = s.crets := Eq.trans rfl rfl
@[simp] theorem State.withNow_rings (x : Nat) : (s.withNow x).rings = s.rings := Eq.trans rfl rfl
@[simp] theorem State.withNow_unans (x : Nat) : (s.withNow x).unans = s.unans := Eq.trans rfl rfl
@[simp] theorem State.withNow_cqs (x : Nat) : (s.withNow x).cqs = s.cqs := Eq.trans rfl rfl
@[simp] theorem State.withNow_turns (x : Nat) : (s.withNow x).turns = s.turns := Eq.trans rfl rfl
@[simp] theorem State.withNow_tfes (x : Nat) : (s.withNow x).tfes = s.tfes := Eq.trans rfl rfl
@[simp] theorem State.withNow_pkts (x : Nat) : (s.withNow x).pkts = s.pkts := Eq.trans rfl rfl
@[simp] theorem State.withNow_rtrs (x : Nat) : (s.withNow x).rtrs = s.rtrs := Eq.trans rfl rfl
@[simp] theorem State.withNow_sv (x : Nat) : (s.withNow x).sv = s.sv := Eq.trans rfl rfl
@[simp] theorem State.withNow_mss (x : Nat) : (s.withNow x).mss = s.mss := Eq.trans rfl rfl
@[simp] theorem State.withNow_ports (x : Nat) : (s.withNow x).ports = s.ports := Eq.trans rfl rfl
@[simp] theorem State.withNow_lamps (x : Nat) : (s.withNow x).lamps = s.lamps := Eq.trans rfl rfl
@[simp] theorem State.withNow_ptp (x : Nat) : (s.withNow x).ptp = s.ptp := Eq.trans rfl rfl
@[simp] theorem State.withNow_mrs (x : Nat) : (s.withNow x).mrs = s.mrs := Eq.trans rfl rfl
@[simp] theorem State.withNow_host (x : Nat) : (s.withNow x).host = s.host := Eq.trans rfl rfl
@[simp] theorem State.withNow_sec (x : Nat) : (s.withNow x).sec = s.sec := Eq.trans rfl rfl
@[simp] theorem State.withNow_boot (x : Nat) : (s.withNow x).boot = s.boot := Eq.trans rfl rfl
@[simp] theorem State.withNow_tst (x : Nat) : (s.withNow x).tst = s.tst := Eq.trans rfl rfl
@[simp] theorem State.withNow_fr (x : Nat) : (s.withNow x).fr = s.fr := Eq.trans rfl rfl
@[simp] theorem State.withNow_pwr (x : Nat) : (s.withNow x).pwr = s.pwr := Eq.trans rfl rfl
@[simp] theorem State.withNow_greset (x : Nat) : (s.withNow x).greset = s.greset := Eq.trans rfl rfl
@[simp] theorem State.withNow_ctx_ (x : Nat) (j : Nat) : (s.withNow x).ctx j = s.ctx j := Eq.trans rfl rfl
@[simp] theorem State.withNow_mctx_ (x : Nat) (j : Nat) : (s.withNow x).mctx j = s.mctx j := Eq.trans rfl rfl
@[simp] theorem State.withNow_reg (x : Nat) (a : Nat) : (s.withNow x).reg a = s.reg a := Eq.trans rfl rfl
@[simp] theorem State.withNow_fld (x : Nat) (f : Fld) : (s.withNow x).fld f = s.fld f := Eq.trans rfl rfl
@[simp] theorem State.withNow_sub (x : Nat) (a w i : Nat) : (s.withNow x).sub a w i = s.sub a w i := Eq.trans rfl rfl
@[simp] theorem State.withNow_rdByte (x : Nat) (j : Nat) : (s.withNow x).rdByte j = s.rdByte j := Eq.trans rfl rfl

/-! ### withFree -/

@[simp] theorem State.withFree_pending (x : Nat) : (s.withFree x).pending = s.pending := Eq.trans rfl rfl
@[simp] theorem State.withFree_now (x : Nat) : (s.withFree x).now = s.now := Eq.trans rfl rfl
@[simp] theorem State.withFree_free (x : Nat) : (s.withFree x).free = x := Eq.trans rfl rfl
@[simp] theorem State.withFree_out (x : Nat) : (s.withFree x).out = s.out := Eq.trans rfl rfl
@[simp] theorem State.withFree_mode (x : Nat) : (s.withFree x).mode = s.mode := Eq.trans rfl rfl
@[simp] theorem State.withFree_drip (x : Nat) : (s.withFree x).drip = s.drip := Eq.trans rfl rfl
@[simp] theorem State.withFree_csr (x : Nat) : (s.withFree x).csr = s.csr := Eq.trans rfl rfl
@[simp] theorem State.withFree_mem (x : Nat) : (s.withFree x).mem = s.mem := Eq.trans rfl rfl
@[simp] theorem State.withFree_poison (x : Nat) : (s.withFree x).poison = s.poison := Eq.trans rfl rfl
@[simp] theorem State.withFree_gpoison (x : Nat) : (s.withFree x).gpoison = s.gpoison := Eq.trans rfl rfl
@[simp] theorem State.withFree_ueLog (x : Nat) : (s.withFree x).ueLog = s.ueLog := Eq.trans rfl rfl
@[simp] theorem State.withFree_zeroed (x : Nat) : (s.withFree x).zeroed = s.zeroed := Eq.trans rfl rfl
@[simp] theorem State.withFree_force (x : Nat) : (s.withFree x).force = s.force := Eq.trans rfl rfl
@[simp] theorem State.withFree_ctxs (x : Nat) : (s.withFree x).ctxs = s.ctxs := Eq.trans rfl rfl
@[simp] theorem State.withFree_cores (x : Nat) : (s.withFree x).cores = s.cores := Eq.trans rfl rfl
@[simp] theorem State.withFree_tasks (x : Nat) : (s.withFree x).tasks = s.tasks := Eq.trans rfl rfl
@[simp] theorem State.withFree_rts (x : Nat) : (s.withFree x).rts = s.rts := Eq.trans rfl rfl
@[simp] theorem State.withFree_dirs (x : Nat) : (s.withFree x).dirs = s.dirs := Eq.trans rfl rfl
@[simp] theorem State.withFree_gms (x : Nat) : (s.withFree x).gms = s.gms := Eq.trans rfl rfl
@[simp] theorem State.withFree_mxes (x : Nat) : (s.withFree x).mxes = s.mxes := Eq.trans rfl rfl
@[simp] theorem State.withFree_curs (x : Nat) : (s.withFree x).curs = s.curs := Eq.trans rfl rfl
@[simp] theorem State.withFree_mctxs (x : Nat) : (s.withFree x).mctxs = s.mctxs := Eq.trans rfl rfl
@[simp] theorem State.withFree_net (x : Nat) : (s.withFree x).net = s.net := Eq.trans rfl rfl
@[simp] theorem State.withFree_answers (x : Nat) : (s.withFree x).answers = s.answers := Eq.trans rfl rfl
@[simp] theorem State.withFree_crets (x : Nat) : (s.withFree x).crets = s.crets := Eq.trans rfl rfl
@[simp] theorem State.withFree_rings (x : Nat) : (s.withFree x).rings = s.rings := Eq.trans rfl rfl
@[simp] theorem State.withFree_unans (x : Nat) : (s.withFree x).unans = s.unans := Eq.trans rfl rfl
@[simp] theorem State.withFree_cqs (x : Nat) : (s.withFree x).cqs = s.cqs := Eq.trans rfl rfl
@[simp] theorem State.withFree_turns (x : Nat) : (s.withFree x).turns = s.turns := Eq.trans rfl rfl
@[simp] theorem State.withFree_tfes (x : Nat) : (s.withFree x).tfes = s.tfes := Eq.trans rfl rfl
@[simp] theorem State.withFree_pkts (x : Nat) : (s.withFree x).pkts = s.pkts := Eq.trans rfl rfl
@[simp] theorem State.withFree_rtrs (x : Nat) : (s.withFree x).rtrs = s.rtrs := Eq.trans rfl rfl
@[simp] theorem State.withFree_sv (x : Nat) : (s.withFree x).sv = s.sv := Eq.trans rfl rfl
@[simp] theorem State.withFree_mss (x : Nat) : (s.withFree x).mss = s.mss := Eq.trans rfl rfl
@[simp] theorem State.withFree_ports (x : Nat) : (s.withFree x).ports = s.ports := Eq.trans rfl rfl
@[simp] theorem State.withFree_lamps (x : Nat) : (s.withFree x).lamps = s.lamps := Eq.trans rfl rfl
@[simp] theorem State.withFree_ptp (x : Nat) : (s.withFree x).ptp = s.ptp := Eq.trans rfl rfl
@[simp] theorem State.withFree_mrs (x : Nat) : (s.withFree x).mrs = s.mrs := Eq.trans rfl rfl
@[simp] theorem State.withFree_host (x : Nat) : (s.withFree x).host = s.host := Eq.trans rfl rfl
@[simp] theorem State.withFree_sec (x : Nat) : (s.withFree x).sec = s.sec := Eq.trans rfl rfl
@[simp] theorem State.withFree_boot (x : Nat) : (s.withFree x).boot = s.boot := Eq.trans rfl rfl
@[simp] theorem State.withFree_tst (x : Nat) : (s.withFree x).tst = s.tst := Eq.trans rfl rfl
@[simp] theorem State.withFree_fr (x : Nat) : (s.withFree x).fr = s.fr := Eq.trans rfl rfl
@[simp] theorem State.withFree_pwr (x : Nat) : (s.withFree x).pwr = s.pwr := Eq.trans rfl rfl
@[simp] theorem State.withFree_greset (x : Nat) : (s.withFree x).greset = s.greset := Eq.trans rfl rfl
@[simp] theorem State.withFree_ctx_ (x : Nat) (j : Nat) : (s.withFree x).ctx j = s.ctx j := Eq.trans rfl rfl
@[simp] theorem State.withFree_mctx_ (x : Nat) (j : Nat) : (s.withFree x).mctx j = s.mctx j := Eq.trans rfl rfl
@[simp] theorem State.withFree_reg (x : Nat) (a : Nat) : (s.withFree x).reg a = s.reg a := Eq.trans rfl rfl
@[simp] theorem State.withFree_fld (x : Nat) (f : Fld) : (s.withFree x).fld f = s.fld f := Eq.trans rfl rfl
@[simp] theorem State.withFree_sub (x : Nat) (a w i : Nat) : (s.withFree x).sub a w i = s.sub a w i := Eq.trans rfl rfl
@[simp] theorem State.withFree_rdByte (x : Nat) (j : Nat) : (s.withFree x).rdByte j = s.rdByte j := Eq.trans rfl rfl

/-! ### withOut -/

@[simp] theorem State.withOut_pending (x : List Out) : (s.withOut x).pending = s.pending := Eq.trans rfl rfl
@[simp] theorem State.withOut_now (x : List Out) : (s.withOut x).now = s.now := Eq.trans rfl rfl
@[simp] theorem State.withOut_free (x : List Out) : (s.withOut x).free = s.free := Eq.trans rfl rfl
@[simp] theorem State.withOut_out (x : List Out) : (s.withOut x).out = x := Eq.trans rfl rfl
@[simp] theorem State.withOut_mode (x : List Out) : (s.withOut x).mode = s.mode := Eq.trans rfl rfl
@[simp] theorem State.withOut_drip (x : List Out) : (s.withOut x).drip = s.drip := Eq.trans rfl rfl
@[simp] theorem State.withOut_csr (x : List Out) : (s.withOut x).csr = s.csr := Eq.trans rfl rfl
@[simp] theorem State.withOut_mem (x : List Out) : (s.withOut x).mem = s.mem := Eq.trans rfl rfl
@[simp] theorem State.withOut_poison (x : List Out) : (s.withOut x).poison = s.poison := Eq.trans rfl rfl
@[simp] theorem State.withOut_gpoison (x : List Out) : (s.withOut x).gpoison = s.gpoison := Eq.trans rfl rfl
@[simp] theorem State.withOut_ueLog (x : List Out) : (s.withOut x).ueLog = s.ueLog := Eq.trans rfl rfl
@[simp] theorem State.withOut_zeroed (x : List Out) : (s.withOut x).zeroed = s.zeroed := Eq.trans rfl rfl
@[simp] theorem State.withOut_force (x : List Out) : (s.withOut x).force = s.force := Eq.trans rfl rfl
@[simp] theorem State.withOut_ctxs (x : List Out) : (s.withOut x).ctxs = s.ctxs := Eq.trans rfl rfl
@[simp] theorem State.withOut_cores (x : List Out) : (s.withOut x).cores = s.cores := Eq.trans rfl rfl
@[simp] theorem State.withOut_tasks (x : List Out) : (s.withOut x).tasks = s.tasks := Eq.trans rfl rfl
@[simp] theorem State.withOut_rts (x : List Out) : (s.withOut x).rts = s.rts := Eq.trans rfl rfl
@[simp] theorem State.withOut_dirs (x : List Out) : (s.withOut x).dirs = s.dirs := Eq.trans rfl rfl
@[simp] theorem State.withOut_gms (x : List Out) : (s.withOut x).gms = s.gms := Eq.trans rfl rfl
@[simp] theorem State.withOut_mxes (x : List Out) : (s.withOut x).mxes = s.mxes := Eq.trans rfl rfl
@[simp] theorem State.withOut_curs (x : List Out) : (s.withOut x).curs = s.curs := Eq.trans rfl rfl
@[simp] theorem State.withOut_mctxs (x : List Out) : (s.withOut x).mctxs = s.mctxs := Eq.trans rfl rfl
@[simp] theorem State.withOut_net (x : List Out) : (s.withOut x).net = s.net := Eq.trans rfl rfl
@[simp] theorem State.withOut_answers (x : List Out) : (s.withOut x).answers = s.answers := Eq.trans rfl rfl
@[simp] theorem State.withOut_crets (x : List Out) : (s.withOut x).crets = s.crets := Eq.trans rfl rfl
@[simp] theorem State.withOut_rings (x : List Out) : (s.withOut x).rings = s.rings := Eq.trans rfl rfl
@[simp] theorem State.withOut_unans (x : List Out) : (s.withOut x).unans = s.unans := Eq.trans rfl rfl
@[simp] theorem State.withOut_cqs (x : List Out) : (s.withOut x).cqs = s.cqs := Eq.trans rfl rfl
@[simp] theorem State.withOut_turns (x : List Out) : (s.withOut x).turns = s.turns := Eq.trans rfl rfl
@[simp] theorem State.withOut_tfes (x : List Out) : (s.withOut x).tfes = s.tfes := Eq.trans rfl rfl
@[simp] theorem State.withOut_pkts (x : List Out) : (s.withOut x).pkts = s.pkts := Eq.trans rfl rfl
@[simp] theorem State.withOut_rtrs (x : List Out) : (s.withOut x).rtrs = s.rtrs := Eq.trans rfl rfl
@[simp] theorem State.withOut_sv (x : List Out) : (s.withOut x).sv = s.sv := Eq.trans rfl rfl
@[simp] theorem State.withOut_mss (x : List Out) : (s.withOut x).mss = s.mss := Eq.trans rfl rfl
@[simp] theorem State.withOut_ports (x : List Out) : (s.withOut x).ports = s.ports := Eq.trans rfl rfl
@[simp] theorem State.withOut_lamps (x : List Out) : (s.withOut x).lamps = s.lamps := Eq.trans rfl rfl
@[simp] theorem State.withOut_ptp (x : List Out) : (s.withOut x).ptp = s.ptp := Eq.trans rfl rfl
@[simp] theorem State.withOut_mrs (x : List Out) : (s.withOut x).mrs = s.mrs := Eq.trans rfl rfl
@[simp] theorem State.withOut_host (x : List Out) : (s.withOut x).host = s.host := Eq.trans rfl rfl
@[simp] theorem State.withOut_sec (x : List Out) : (s.withOut x).sec = s.sec := Eq.trans rfl rfl
@[simp] theorem State.withOut_boot (x : List Out) : (s.withOut x).boot = s.boot := Eq.trans rfl rfl
@[simp] theorem State.withOut_tst (x : List Out) : (s.withOut x).tst = s.tst := Eq.trans rfl rfl
@[simp] theorem State.withOut_fr (x : List Out) : (s.withOut x).fr = s.fr := Eq.trans rfl rfl
@[simp] theorem State.withOut_pwr (x : List Out) : (s.withOut x).pwr = s.pwr := Eq.trans rfl rfl
@[simp] theorem State.withOut_greset (x : List Out) : (s.withOut x).greset = s.greset := Eq.trans rfl rfl
@[simp] theorem State.withOut_ctx_ (x : List Out) (j : Nat) : (s.withOut x).ctx j = s.ctx j := Eq.trans rfl rfl
@[simp] theorem State.withOut_mctx_ (x : List Out) (j : Nat) : (s.withOut x).mctx j = s.mctx j := Eq.trans rfl rfl
@[simp] theorem State.withOut_reg (x : List Out) (a : Nat) : (s.withOut x).reg a = s.reg a := Eq.trans rfl rfl
@[simp] theorem State.withOut_fld (x : List Out) (f : Fld) : (s.withOut x).fld f = s.fld f := Eq.trans rfl rfl
@[simp] theorem State.withOut_sub (x : List Out) (a w i : Nat) : (s.withOut x).sub a w i = s.sub a w i := Eq.trans rfl rfl
@[simp] theorem State.withOut_rdByte (x : List Out) (j : Nat) : (s.withOut x).rdByte j = s.rdByte j := Eq.trans rfl rfl

/-! ### withMode -/

@[simp] theorem State.withMode_pending (x : ModState) : (s.withMode x).pending = s.pending := Eq.trans rfl rfl
@[simp] theorem State.withMode_now (x : ModState) : (s.withMode x).now = s.now := Eq.trans rfl rfl
@[simp] theorem State.withMode_free (x : ModState) : (s.withMode x).free = s.free := Eq.trans rfl rfl
@[simp] theorem State.withMode_out (x : ModState) : (s.withMode x).out = s.out := Eq.trans rfl rfl
@[simp] theorem State.withMode_mode (x : ModState) : (s.withMode x).mode = x := Eq.trans rfl rfl
@[simp] theorem State.withMode_drip (x : ModState) : (s.withMode x).drip = s.drip := Eq.trans rfl rfl
@[simp] theorem State.withMode_csr (x : ModState) : (s.withMode x).csr = s.csr := Eq.trans rfl rfl
@[simp] theorem State.withMode_mem (x : ModState) : (s.withMode x).mem = s.mem := Eq.trans rfl rfl
@[simp] theorem State.withMode_poison (x : ModState) : (s.withMode x).poison = s.poison := Eq.trans rfl rfl
@[simp] theorem State.withMode_gpoison (x : ModState) : (s.withMode x).gpoison = s.gpoison := Eq.trans rfl rfl
@[simp] theorem State.withMode_ueLog (x : ModState) : (s.withMode x).ueLog = s.ueLog := Eq.trans rfl rfl
@[simp] theorem State.withMode_zeroed (x : ModState) : (s.withMode x).zeroed = s.zeroed := Eq.trans rfl rfl
@[simp] theorem State.withMode_force (x : ModState) : (s.withMode x).force = s.force := Eq.trans rfl rfl
@[simp] theorem State.withMode_ctxs (x : ModState) : (s.withMode x).ctxs = s.ctxs := Eq.trans rfl rfl
@[simp] theorem State.withMode_cores (x : ModState) : (s.withMode x).cores = s.cores := Eq.trans rfl rfl
@[simp] theorem State.withMode_tasks (x : ModState) : (s.withMode x).tasks = s.tasks := Eq.trans rfl rfl
@[simp] theorem State.withMode_rts (x : ModState) : (s.withMode x).rts = s.rts := Eq.trans rfl rfl
@[simp] theorem State.withMode_dirs (x : ModState) : (s.withMode x).dirs = s.dirs := Eq.trans rfl rfl
@[simp] theorem State.withMode_gms (x : ModState) : (s.withMode x).gms = s.gms := Eq.trans rfl rfl
@[simp] theorem State.withMode_mxes (x : ModState) : (s.withMode x).mxes = s.mxes := Eq.trans rfl rfl
@[simp] theorem State.withMode_curs (x : ModState) : (s.withMode x).curs = s.curs := Eq.trans rfl rfl
@[simp] theorem State.withMode_mctxs (x : ModState) : (s.withMode x).mctxs = s.mctxs := Eq.trans rfl rfl
@[simp] theorem State.withMode_net (x : ModState) : (s.withMode x).net = s.net := Eq.trans rfl rfl
@[simp] theorem State.withMode_answers (x : ModState) : (s.withMode x).answers = s.answers := Eq.trans rfl rfl
@[simp] theorem State.withMode_crets (x : ModState) : (s.withMode x).crets = s.crets := Eq.trans rfl rfl
@[simp] theorem State.withMode_rings (x : ModState) : (s.withMode x).rings = s.rings := Eq.trans rfl rfl
@[simp] theorem State.withMode_unans (x : ModState) : (s.withMode x).unans = s.unans := Eq.trans rfl rfl
@[simp] theorem State.withMode_cqs (x : ModState) : (s.withMode x).cqs = s.cqs := Eq.trans rfl rfl
@[simp] theorem State.withMode_turns (x : ModState) : (s.withMode x).turns = s.turns := Eq.trans rfl rfl
@[simp] theorem State.withMode_tfes (x : ModState) : (s.withMode x).tfes = s.tfes := Eq.trans rfl rfl
@[simp] theorem State.withMode_pkts (x : ModState) : (s.withMode x).pkts = s.pkts := Eq.trans rfl rfl
@[simp] theorem State.withMode_rtrs (x : ModState) : (s.withMode x).rtrs = s.rtrs := Eq.trans rfl rfl
@[simp] theorem State.withMode_sv (x : ModState) : (s.withMode x).sv = s.sv := Eq.trans rfl rfl
@[simp] theorem State.withMode_mss (x : ModState) : (s.withMode x).mss = s.mss := Eq.trans rfl rfl
@[simp] theorem State.withMode_ports (x : ModState) : (s.withMode x).ports = s.ports := Eq.trans rfl rfl
@[simp] theorem State.withMode_lamps (x : ModState) : (s.withMode x).lamps = s.lamps := Eq.trans rfl rfl
@[simp] theorem State.withMode_ptp (x : ModState) : (s.withMode x).ptp = s.ptp := Eq.trans rfl rfl
@[simp] theorem State.withMode_mrs (x : ModState) : (s.withMode x).mrs = s.mrs := Eq.trans rfl rfl
@[simp] theorem State.withMode_host (x : ModState) : (s.withMode x).host = s.host := Eq.trans rfl rfl
@[simp] theorem State.withMode_sec (x : ModState) : (s.withMode x).sec = s.sec := Eq.trans rfl rfl
@[simp] theorem State.withMode_boot (x : ModState) : (s.withMode x).boot = s.boot := Eq.trans rfl rfl
@[simp] theorem State.withMode_tst (x : ModState) : (s.withMode x).tst = s.tst := Eq.trans rfl rfl
@[simp] theorem State.withMode_fr (x : ModState) : (s.withMode x).fr = s.fr := Eq.trans rfl rfl
@[simp] theorem State.withMode_pwr (x : ModState) : (s.withMode x).pwr = s.pwr := Eq.trans rfl rfl
@[simp] theorem State.withMode_greset (x : ModState) : (s.withMode x).greset = s.greset := Eq.trans rfl rfl
@[simp] theorem State.withMode_ctx_ (x : ModState) (j : Nat) : (s.withMode x).ctx j = s.ctx j := Eq.trans rfl rfl
@[simp] theorem State.withMode_mctx_ (x : ModState) (j : Nat) : (s.withMode x).mctx j = s.mctx j := Eq.trans rfl rfl
@[simp] theorem State.withMode_reg (x : ModState) (a : Nat) : (s.withMode x).reg a = s.reg a := Eq.trans rfl rfl
@[simp] theorem State.withMode_fld (x : ModState) (f : Fld) : (s.withMode x).fld f = s.fld f := Eq.trans rfl rfl
@[simp] theorem State.withMode_sub (x : ModState) (a w i : Nat) : (s.withMode x).sub a w i = s.sub a w i := Eq.trans rfl rfl
@[simp] theorem State.withMode_rdByte (x : ModState) (j : Nat) : (s.withMode x).rdByte j = s.rdByte j := Eq.trans rfl rfl

/-! ### withDrip -/

@[simp] theorem State.withDrip_pending (x : DripSt) : (s.withDrip x).pending = s.pending := Eq.trans rfl rfl
@[simp] theorem State.withDrip_now (x : DripSt) : (s.withDrip x).now = s.now := Eq.trans rfl rfl
@[simp] theorem State.withDrip_free (x : DripSt) : (s.withDrip x).free = s.free := Eq.trans rfl rfl
@[simp] theorem State.withDrip_out (x : DripSt) : (s.withDrip x).out = s.out := Eq.trans rfl rfl
@[simp] theorem State.withDrip_mode (x : DripSt) : (s.withDrip x).mode = s.mode := Eq.trans rfl rfl
@[simp] theorem State.withDrip_drip (x : DripSt) : (s.withDrip x).drip = x := Eq.trans rfl rfl
@[simp] theorem State.withDrip_csr (x : DripSt) : (s.withDrip x).csr = s.csr := Eq.trans rfl rfl
@[simp] theorem State.withDrip_mem (x : DripSt) : (s.withDrip x).mem = s.mem := Eq.trans rfl rfl
@[simp] theorem State.withDrip_poison (x : DripSt) : (s.withDrip x).poison = s.poison := Eq.trans rfl rfl
@[simp] theorem State.withDrip_gpoison (x : DripSt) : (s.withDrip x).gpoison = s.gpoison := Eq.trans rfl rfl
@[simp] theorem State.withDrip_ueLog (x : DripSt) : (s.withDrip x).ueLog = s.ueLog := Eq.trans rfl rfl
@[simp] theorem State.withDrip_zeroed (x : DripSt) : (s.withDrip x).zeroed = s.zeroed := Eq.trans rfl rfl
@[simp] theorem State.withDrip_force (x : DripSt) : (s.withDrip x).force = s.force := Eq.trans rfl rfl
@[simp] theorem State.withDrip_ctxs (x : DripSt) : (s.withDrip x).ctxs = s.ctxs := Eq.trans rfl rfl
@[simp] theorem State.withDrip_cores (x : DripSt) : (s.withDrip x).cores = s.cores := Eq.trans rfl rfl
@[simp] theorem State.withDrip_tasks (x : DripSt) : (s.withDrip x).tasks = s.tasks := Eq.trans rfl rfl
@[simp] theorem State.withDrip_rts (x : DripSt) : (s.withDrip x).rts = s.rts := Eq.trans rfl rfl
@[simp] theorem State.withDrip_dirs (x : DripSt) : (s.withDrip x).dirs = s.dirs := Eq.trans rfl rfl
@[simp] theorem State.withDrip_gms (x : DripSt) : (s.withDrip x).gms = s.gms := Eq.trans rfl rfl
@[simp] theorem State.withDrip_mxes (x : DripSt) : (s.withDrip x).mxes = s.mxes := Eq.trans rfl rfl
@[simp] theorem State.withDrip_curs (x : DripSt) : (s.withDrip x).curs = s.curs := Eq.trans rfl rfl
@[simp] theorem State.withDrip_mctxs (x : DripSt) : (s.withDrip x).mctxs = s.mctxs := Eq.trans rfl rfl
@[simp] theorem State.withDrip_net (x : DripSt) : (s.withDrip x).net = s.net := Eq.trans rfl rfl
@[simp] theorem State.withDrip_answers (x : DripSt) : (s.withDrip x).answers = s.answers := Eq.trans rfl rfl
@[simp] theorem State.withDrip_crets (x : DripSt) : (s.withDrip x).crets = s.crets := Eq.trans rfl rfl
@[simp] theorem State.withDrip_rings (x : DripSt) : (s.withDrip x).rings = s.rings := Eq.trans rfl rfl
@[simp] theorem State.withDrip_unans (x : DripSt) : (s.withDrip x).unans = s.unans := Eq.trans rfl rfl
@[simp] theorem State.withDrip_cqs (x : DripSt) : (s.withDrip x).cqs = s.cqs := Eq.trans rfl rfl
@[simp] theorem State.withDrip_turns (x : DripSt) : (s.withDrip x).turns = s.turns := Eq.trans rfl rfl
@[simp] theorem State.withDrip_tfes (x : DripSt) : (s.withDrip x).tfes = s.tfes := Eq.trans rfl rfl
@[simp] theorem State.withDrip_pkts (x : DripSt) : (s.withDrip x).pkts = s.pkts := Eq.trans rfl rfl
@[simp] theorem State.withDrip_rtrs (x : DripSt) : (s.withDrip x).rtrs = s.rtrs := Eq.trans rfl rfl
@[simp] theorem State.withDrip_sv (x : DripSt) : (s.withDrip x).sv = s.sv := Eq.trans rfl rfl
@[simp] theorem State.withDrip_mss (x : DripSt) : (s.withDrip x).mss = s.mss := Eq.trans rfl rfl
@[simp] theorem State.withDrip_ports (x : DripSt) : (s.withDrip x).ports = s.ports := Eq.trans rfl rfl
@[simp] theorem State.withDrip_lamps (x : DripSt) : (s.withDrip x).lamps = s.lamps := Eq.trans rfl rfl
@[simp] theorem State.withDrip_ptp (x : DripSt) : (s.withDrip x).ptp = s.ptp := Eq.trans rfl rfl
@[simp] theorem State.withDrip_mrs (x : DripSt) : (s.withDrip x).mrs = s.mrs := Eq.trans rfl rfl
@[simp] theorem State.withDrip_host (x : DripSt) : (s.withDrip x).host = s.host := Eq.trans rfl rfl
@[simp] theorem State.withDrip_sec (x : DripSt) : (s.withDrip x).sec = s.sec := Eq.trans rfl rfl
@[simp] theorem State.withDrip_boot (x : DripSt) : (s.withDrip x).boot = s.boot := Eq.trans rfl rfl
@[simp] theorem State.withDrip_tst (x : DripSt) : (s.withDrip x).tst = s.tst := Eq.trans rfl rfl
@[simp] theorem State.withDrip_fr (x : DripSt) : (s.withDrip x).fr = s.fr := Eq.trans rfl rfl
@[simp] theorem State.withDrip_pwr (x : DripSt) : (s.withDrip x).pwr = s.pwr := Eq.trans rfl rfl
@[simp] theorem State.withDrip_greset (x : DripSt) : (s.withDrip x).greset = s.greset := Eq.trans rfl rfl
@[simp] theorem State.withDrip_ctx_ (x : DripSt) (j : Nat) : (s.withDrip x).ctx j = s.ctx j := Eq.trans rfl rfl
@[simp] theorem State.withDrip_mctx_ (x : DripSt) (j : Nat) : (s.withDrip x).mctx j = s.mctx j := Eq.trans rfl rfl
@[simp] theorem State.withDrip_reg (x : DripSt) (a : Nat) : (s.withDrip x).reg a = s.reg a := Eq.trans rfl rfl
@[simp] theorem State.withDrip_fld (x : DripSt) (f : Fld) : (s.withDrip x).fld f = s.fld f := Eq.trans rfl rfl
@[simp] theorem State.withDrip_sub (x : DripSt) (a w i : Nat) : (s.withDrip x).sub a w i = s.sub a w i := Eq.trans rfl rfl
@[simp] theorem State.withDrip_rdByte (x : DripSt) (j : Nat) : (s.withDrip x).rdByte j = s.rdByte j := Eq.trans rfl rfl

/-! ### withCsr -/

@[simp] theorem State.withCsr_pending (x : SMap Word) : (s.withCsr x).pending = s.pending := Eq.trans rfl rfl
@[simp] theorem State.withCsr_now (x : SMap Word) : (s.withCsr x).now = s.now := Eq.trans rfl rfl
@[simp] theorem State.withCsr_free (x : SMap Word) : (s.withCsr x).free = s.free := Eq.trans rfl rfl
@[simp] theorem State.withCsr_out (x : SMap Word) : (s.withCsr x).out = s.out := Eq.trans rfl rfl
@[simp] theorem State.withCsr_mode (x : SMap Word) : (s.withCsr x).mode = s.mode := Eq.trans rfl rfl
@[simp] theorem State.withCsr_drip (x : SMap Word) : (s.withCsr x).drip = s.drip := Eq.trans rfl rfl
@[simp] theorem State.withCsr_csr (x : SMap Word) : (s.withCsr x).csr = x := Eq.trans rfl rfl
@[simp] theorem State.withCsr_mem (x : SMap Word) : (s.withCsr x).mem = s.mem := Eq.trans rfl rfl
@[simp] theorem State.withCsr_poison (x : SMap Word) : (s.withCsr x).poison = s.poison := Eq.trans rfl rfl
@[simp] theorem State.withCsr_gpoison (x : SMap Word) : (s.withCsr x).gpoison = s.gpoison := Eq.trans rfl rfl
@[simp] theorem State.withCsr_ueLog (x : SMap Word) : (s.withCsr x).ueLog = s.ueLog := Eq.trans rfl rfl
@[simp] theorem State.withCsr_zeroed (x : SMap Word) : (s.withCsr x).zeroed = s.zeroed := Eq.trans rfl rfl
@[simp] theorem State.withCsr_force (x : SMap Word) : (s.withCsr x).force = s.force := Eq.trans rfl rfl
@[simp] theorem State.withCsr_ctxs (x : SMap Word) : (s.withCsr x).ctxs = s.ctxs := Eq.trans rfl rfl
@[simp] theorem State.withCsr_cores (x : SMap Word) : (s.withCsr x).cores = s.cores := Eq.trans rfl rfl
@[simp] theorem State.withCsr_tasks (x : SMap Word) : (s.withCsr x).tasks = s.tasks := Eq.trans rfl rfl
@[simp] theorem State.withCsr_rts (x : SMap Word) : (s.withCsr x).rts = s.rts := Eq.trans rfl rfl
@[simp] theorem State.withCsr_dirs (x : SMap Word) : (s.withCsr x).dirs = s.dirs := Eq.trans rfl rfl
@[simp] theorem State.withCsr_gms (x : SMap Word) : (s.withCsr x).gms = s.gms := Eq.trans rfl rfl
@[simp] theorem State.withCsr_mxes (x : SMap Word) : (s.withCsr x).mxes = s.mxes := Eq.trans rfl rfl
@[simp] theorem State.withCsr_curs (x : SMap Word) : (s.withCsr x).curs = s.curs := Eq.trans rfl rfl
@[simp] theorem State.withCsr_mctxs (x : SMap Word) : (s.withCsr x).mctxs = s.mctxs := Eq.trans rfl rfl
@[simp] theorem State.withCsr_net (x : SMap Word) : (s.withCsr x).net = s.net := Eq.trans rfl rfl
@[simp] theorem State.withCsr_answers (x : SMap Word) : (s.withCsr x).answers = s.answers := Eq.trans rfl rfl
@[simp] theorem State.withCsr_crets (x : SMap Word) : (s.withCsr x).crets = s.crets := Eq.trans rfl rfl
@[simp] theorem State.withCsr_rings (x : SMap Word) : (s.withCsr x).rings = s.rings := Eq.trans rfl rfl
@[simp] theorem State.withCsr_unans (x : SMap Word) : (s.withCsr x).unans = s.unans := Eq.trans rfl rfl
@[simp] theorem State.withCsr_cqs (x : SMap Word) : (s.withCsr x).cqs = s.cqs := Eq.trans rfl rfl
@[simp] theorem State.withCsr_turns (x : SMap Word) : (s.withCsr x).turns = s.turns := Eq.trans rfl rfl
@[simp] theorem State.withCsr_tfes (x : SMap Word) : (s.withCsr x).tfes = s.tfes := Eq.trans rfl rfl
@[simp] theorem State.withCsr_pkts (x : SMap Word) : (s.withCsr x).pkts = s.pkts := Eq.trans rfl rfl
@[simp] theorem State.withCsr_rtrs (x : SMap Word) : (s.withCsr x).rtrs = s.rtrs := Eq.trans rfl rfl
@[simp] theorem State.withCsr_sv (x : SMap Word) : (s.withCsr x).sv = s.sv := Eq.trans rfl rfl
@[simp] theorem State.withCsr_mss (x : SMap Word) : (s.withCsr x).mss = s.mss := Eq.trans rfl rfl
@[simp] theorem State.withCsr_ports (x : SMap Word) : (s.withCsr x).ports = s.ports := Eq.trans rfl rfl
@[simp] theorem State.withCsr_lamps (x : SMap Word) : (s.withCsr x).lamps = s.lamps := Eq.trans rfl rfl
@[simp] theorem State.withCsr_ptp (x : SMap Word) : (s.withCsr x).ptp = s.ptp := Eq.trans rfl rfl
@[simp] theorem State.withCsr_mrs (x : SMap Word) : (s.withCsr x).mrs = s.mrs := Eq.trans rfl rfl
@[simp] theorem State.withCsr_host (x : SMap Word) : (s.withCsr x).host = s.host := Eq.trans rfl rfl
@[simp] theorem State.withCsr_sec (x : SMap Word) : (s.withCsr x).sec = s.sec := Eq.trans rfl rfl
@[simp] theorem State.withCsr_boot (x : SMap Word) : (s.withCsr x).boot = s.boot := Eq.trans rfl rfl
@[simp] theorem State.withCsr_tst (x : SMap Word) : (s.withCsr x).tst = s.tst := Eq.trans rfl rfl
@[simp] theorem State.withCsr_fr (x : SMap Word) : (s.withCsr x).fr = s.fr := Eq.trans rfl rfl
@[simp] theorem State.withCsr_pwr (x : SMap Word) : (s.withCsr x).pwr = s.pwr := Eq.trans rfl rfl
@[simp] theorem State.withCsr_greset (x : SMap Word) : (s.withCsr x).greset = s.greset := Eq.trans rfl rfl
@[simp] theorem State.withCsr_ctx_ (x : SMap Word) (j : Nat) : (s.withCsr x).ctx j = s.ctx j := Eq.trans rfl rfl
@[simp] theorem State.withCsr_mctx_ (x : SMap Word) (j : Nat) : (s.withCsr x).mctx j = s.mctx j := Eq.trans rfl rfl
@[simp] theorem State.withCsr_rdByte (x : SMap Word) (j : Nat) : (s.withCsr x).rdByte j = s.rdByte j := Eq.trans rfl rfl

/-! ### withMem -/

@[simp] theorem State.withMem_pending (x : List Host.Cell) : (s.withMem x).pending = s.pending := Eq.trans rfl rfl
@[simp] theorem State.withMem_now (x : List Host.Cell) : (s.withMem x).now = s.now := Eq.trans rfl rfl
@[simp] theorem State.withMem_free (x : List Host.Cell) : (s.withMem x).free = s.free := Eq.trans rfl rfl
@[simp] theorem State.withMem_out (x : List Host.Cell) : (s.withMem x).out = s.out := Eq.trans rfl rfl
@[simp] theorem State.withMem_mode (x : List Host.Cell) : (s.withMem x).mode = s.mode := Eq.trans rfl rfl
@[simp] theorem State.withMem_drip (x : List Host.Cell) : (s.withMem x).drip = s.drip := Eq.trans rfl rfl
@[simp] theorem State.withMem_csr (x : List Host.Cell) : (s.withMem x).csr = s.csr := Eq.trans rfl rfl
@[simp] theorem State.withMem_mem (x : List Host.Cell) : (s.withMem x).mem = x := Eq.trans rfl rfl
@[simp] theorem State.withMem_poison (x : List Host.Cell) : (s.withMem x).poison = s.poison := Eq.trans rfl rfl
@[simp] theorem State.withMem_gpoison (x : List Host.Cell) : (s.withMem x).gpoison = s.gpoison := Eq.trans rfl rfl
@[simp] theorem State.withMem_ueLog (x : List Host.Cell) : (s.withMem x).ueLog = s.ueLog := Eq.trans rfl rfl
@[simp] theorem State.withMem_zeroed (x : List Host.Cell) : (s.withMem x).zeroed = s.zeroed := Eq.trans rfl rfl
@[simp] theorem State.withMem_force (x : List Host.Cell) : (s.withMem x).force = s.force := Eq.trans rfl rfl
@[simp] theorem State.withMem_ctxs (x : List Host.Cell) : (s.withMem x).ctxs = s.ctxs := Eq.trans rfl rfl
@[simp] theorem State.withMem_cores (x : List Host.Cell) : (s.withMem x).cores = s.cores := Eq.trans rfl rfl
@[simp] theorem State.withMem_tasks (x : List Host.Cell) : (s.withMem x).tasks = s.tasks := Eq.trans rfl rfl
@[simp] theorem State.withMem_rts (x : List Host.Cell) : (s.withMem x).rts = s.rts := Eq.trans rfl rfl
@[simp] theorem State.withMem_dirs (x : List Host.Cell) : (s.withMem x).dirs = s.dirs := Eq.trans rfl rfl
@[simp] theorem State.withMem_gms (x : List Host.Cell) : (s.withMem x).gms = s.gms := Eq.trans rfl rfl
@[simp] theorem State.withMem_mxes (x : List Host.Cell) : (s.withMem x).mxes = s.mxes := Eq.trans rfl rfl
@[simp] theorem State.withMem_curs (x : List Host.Cell) : (s.withMem x).curs = s.curs := Eq.trans rfl rfl
@[simp] theorem State.withMem_mctxs (x : List Host.Cell) : (s.withMem x).mctxs = s.mctxs := Eq.trans rfl rfl
@[simp] theorem State.withMem_net (x : List Host.Cell) : (s.withMem x).net = s.net := Eq.trans rfl rfl
@[simp] theorem State.withMem_answers (x : List Host.Cell) : (s.withMem x).answers = s.answers := Eq.trans rfl rfl
@[simp] theorem State.withMem_crets (x : List Host.Cell) : (s.withMem x).crets = s.crets := Eq.trans rfl rfl
@[simp] theorem State.withMem_rings (x : List Host.Cell) : (s.withMem x).rings = s.rings := Eq.trans rfl rfl
@[simp] theorem State.withMem_unans (x : List Host.Cell) : (s.withMem x).unans = s.unans := Eq.trans rfl rfl
@[simp] theorem State.withMem_cqs (x : List Host.Cell) : (s.withMem x).cqs = s.cqs := Eq.trans rfl rfl
@[simp] theorem State.withMem_turns (x : List Host.Cell) : (s.withMem x).turns = s.turns := Eq.trans rfl rfl
@[simp] theorem State.withMem_tfes (x : List Host.Cell) : (s.withMem x).tfes = s.tfes := Eq.trans rfl rfl
@[simp] theorem State.withMem_pkts (x : List Host.Cell) : (s.withMem x).pkts = s.pkts := Eq.trans rfl rfl
@[simp] theorem State.withMem_rtrs (x : List Host.Cell) : (s.withMem x).rtrs = s.rtrs := Eq.trans rfl rfl
@[simp] theorem State.withMem_sv (x : List Host.Cell) : (s.withMem x).sv = s.sv := Eq.trans rfl rfl
@[simp] theorem State.withMem_mss (x : List Host.Cell) : (s.withMem x).mss = s.mss := Eq.trans rfl rfl
@[simp] theorem State.withMem_ports (x : List Host.Cell) : (s.withMem x).ports = s.ports := Eq.trans rfl rfl
@[simp] theorem State.withMem_lamps (x : List Host.Cell) : (s.withMem x).lamps = s.lamps := Eq.trans rfl rfl
@[simp] theorem State.withMem_ptp (x : List Host.Cell) : (s.withMem x).ptp = s.ptp := Eq.trans rfl rfl
@[simp] theorem State.withMem_mrs (x : List Host.Cell) : (s.withMem x).mrs = s.mrs := Eq.trans rfl rfl
@[simp] theorem State.withMem_host (x : List Host.Cell) : (s.withMem x).host = s.host := Eq.trans rfl rfl
@[simp] theorem State.withMem_sec (x : List Host.Cell) : (s.withMem x).sec = s.sec := Eq.trans rfl rfl
@[simp] theorem State.withMem_boot (x : List Host.Cell) : (s.withMem x).boot = s.boot := Eq.trans rfl rfl
@[simp] theorem State.withMem_tst (x : List Host.Cell) : (s.withMem x).tst = s.tst := Eq.trans rfl rfl
@[simp] theorem State.withMem_fr (x : List Host.Cell) : (s.withMem x).fr = s.fr := Eq.trans rfl rfl
@[simp] theorem State.withMem_pwr (x : List Host.Cell) : (s.withMem x).pwr = s.pwr := Eq.trans rfl rfl
@[simp] theorem State.withMem_greset (x : List Host.Cell) : (s.withMem x).greset = s.greset := Eq.trans rfl rfl
@[simp] theorem State.withMem_ctx_ (x : List Host.Cell) (j : Nat) : (s.withMem x).ctx j = s.ctx j := Eq.trans rfl rfl
@[simp] theorem State.withMem_mctx_ (x : List Host.Cell) (j : Nat) : (s.withMem x).mctx j = s.mctx j := Eq.trans rfl rfl
@[simp] theorem State.withMem_reg (x : List Host.Cell) (a : Nat) : (s.withMem x).reg a = s.reg a := Eq.trans rfl rfl
@[simp] theorem State.withMem_fld (x : List Host.Cell) (f : Fld) : (s.withMem x).fld f = s.fld f := Eq.trans rfl rfl
@[simp] theorem State.withMem_sub (x : List Host.Cell) (a w i : Nat) : (s.withMem x).sub a w i = s.sub a w i := Eq.trans rfl rfl

/-! ### withPoison -/

@[simp] theorem State.withPoison_pending (x : SMap Nat) : (s.withPoison x).pending = s.pending := Eq.trans rfl rfl
@[simp] theorem State.withPoison_now (x : SMap Nat) : (s.withPoison x).now = s.now := Eq.trans rfl rfl
@[simp] theorem State.withPoison_free (x : SMap Nat) : (s.withPoison x).free = s.free := Eq.trans rfl rfl
@[simp] theorem State.withPoison_out (x : SMap Nat) : (s.withPoison x).out = s.out := Eq.trans rfl rfl
@[simp] theorem State.withPoison_mode (x : SMap Nat) : (s.withPoison x).mode = s.mode := Eq.trans rfl rfl
@[simp] theorem State.withPoison_drip (x : SMap Nat) : (s.withPoison x).drip = s.drip := Eq.trans rfl rfl
@[simp] theorem State.withPoison_csr (x : SMap Nat) : (s.withPoison x).csr = s.csr := Eq.trans rfl rfl
@[simp] theorem State.withPoison_mem (x : SMap Nat) : (s.withPoison x).mem = s.mem := Eq.trans rfl rfl
@[simp] theorem State.withPoison_poison (x : SMap Nat) : (s.withPoison x).poison = x := Eq.trans rfl rfl
@[simp] theorem State.withPoison_gpoison (x : SMap Nat) : (s.withPoison x).gpoison = s.gpoison := Eq.trans rfl rfl
@[simp] theorem State.withPoison_ueLog (x : SMap Nat) : (s.withPoison x).ueLog = s.ueLog := Eq.trans rfl rfl
@[simp] theorem State.withPoison_zeroed (x : SMap Nat) : (s.withPoison x).zeroed = s.zeroed := Eq.trans rfl rfl
@[simp] theorem State.withPoison_force (x : SMap Nat) : (s.withPoison x).force = s.force := Eq.trans rfl rfl
@[simp] theorem State.withPoison_ctxs (x : SMap Nat) : (s.withPoison x).ctxs = s.ctxs := Eq.trans rfl rfl
@[simp] theorem State.withPoison_cores (x : SMap Nat) : (s.withPoison x).cores = s.cores := Eq.trans rfl rfl
@[simp] theorem State.withPoison_tasks (x : SMap Nat) : (s.withPoison x).tasks = s.tasks := Eq.trans rfl rfl
@[simp] theorem State.withPoison_rts (x : SMap Nat) : (s.withPoison x).rts = s.rts := Eq.trans rfl rfl
@[simp] theorem State.withPoison_dirs (x : SMap Nat) : (s.withPoison x).dirs = s.dirs := Eq.trans rfl rfl
@[simp] theorem State.withPoison_gms (x : SMap Nat) : (s.withPoison x).gms = s.gms := Eq.trans rfl rfl
@[simp] theorem State.withPoison_mxes (x : SMap Nat) : (s.withPoison x).mxes = s.mxes := Eq.trans rfl rfl
@[simp] theorem State.withPoison_curs (x : SMap Nat) : (s.withPoison x).curs = s.curs := Eq.trans rfl rfl
@[simp] theorem State.withPoison_mctxs (x : SMap Nat) : (s.withPoison x).mctxs = s.mctxs := Eq.trans rfl rfl
@[simp] theorem State.withPoison_net (x : SMap Nat) : (s.withPoison x).net = s.net := Eq.trans rfl rfl
@[simp] theorem State.withPoison_answers (x : SMap Nat) : (s.withPoison x).answers = s.answers := Eq.trans rfl rfl
@[simp] theorem State.withPoison_crets (x : SMap Nat) : (s.withPoison x).crets = s.crets := Eq.trans rfl rfl
@[simp] theorem State.withPoison_rings (x : SMap Nat) : (s.withPoison x).rings = s.rings := Eq.trans rfl rfl
@[simp] theorem State.withPoison_unans (x : SMap Nat) : (s.withPoison x).unans = s.unans := Eq.trans rfl rfl
@[simp] theorem State.withPoison_cqs (x : SMap Nat) : (s.withPoison x).cqs = s.cqs := Eq.trans rfl rfl
@[simp] theorem State.withPoison_turns (x : SMap Nat) : (s.withPoison x).turns = s.turns := Eq.trans rfl rfl
@[simp] theorem State.withPoison_tfes (x : SMap Nat) : (s.withPoison x).tfes = s.tfes := Eq.trans rfl rfl
@[simp] theorem State.withPoison_pkts (x : SMap Nat) : (s.withPoison x).pkts = s.pkts := Eq.trans rfl rfl
@[simp] theorem State.withPoison_rtrs (x : SMap Nat) : (s.withPoison x).rtrs = s.rtrs := Eq.trans rfl rfl
@[simp] theorem State.withPoison_sv (x : SMap Nat) : (s.withPoison x).sv = s.sv := Eq.trans rfl rfl
@[simp] theorem State.withPoison_mss (x : SMap Nat) : (s.withPoison x).mss = s.mss := Eq.trans rfl rfl
@[simp] theorem State.withPoison_ports (x : SMap Nat) : (s.withPoison x).ports = s.ports := Eq.trans rfl rfl
@[simp] theorem State.withPoison_lamps (x : SMap Nat) : (s.withPoison x).lamps = s.lamps := Eq.trans rfl rfl
@[simp] theorem State.withPoison_ptp (x : SMap Nat) : (s.withPoison x).ptp = s.ptp := Eq.trans rfl rfl
@[simp] theorem State.withPoison_mrs (x : SMap Nat) : (s.withPoison x).mrs = s.mrs := Eq.trans rfl rfl
@[simp] theorem State.withPoison_host (x : SMap Nat) : (s.withPoison x).host = s.host := Eq.trans rfl rfl
@[simp] theorem State.withPoison_sec (x : SMap Nat) : (s.withPoison x).sec = s.sec := Eq.trans rfl rfl
@[simp] theorem State.withPoison_boot (x : SMap Nat) : (s.withPoison x).boot = s.boot := Eq.trans rfl rfl
@[simp] theorem State.withPoison_tst (x : SMap Nat) : (s.withPoison x).tst = s.tst := Eq.trans rfl rfl
@[simp] theorem State.withPoison_fr (x : SMap Nat) : (s.withPoison x).fr = s.fr := Eq.trans rfl rfl
@[simp] theorem State.withPoison_pwr (x : SMap Nat) : (s.withPoison x).pwr = s.pwr := Eq.trans rfl rfl
@[simp] theorem State.withPoison_greset (x : SMap Nat) : (s.withPoison x).greset = s.greset := Eq.trans rfl rfl
@[simp] theorem State.withPoison_ctx_ (x : SMap Nat) (j : Nat) : (s.withPoison x).ctx j = s.ctx j := Eq.trans rfl rfl
@[simp] theorem State.withPoison_mctx_ (x : SMap Nat) (j : Nat) : (s.withPoison x).mctx j = s.mctx j := Eq.trans rfl rfl
@[simp] theorem State.withPoison_reg (x : SMap Nat) (a : Nat) : (s.withPoison x).reg a = s.reg a := Eq.trans rfl rfl
@[simp] theorem State.withPoison_fld (x : SMap Nat) (f : Fld) : (s.withPoison x).fld f = s.fld f := Eq.trans rfl rfl
@[simp] theorem State.withPoison_sub (x : SMap Nat) (a w i : Nat) : (s.withPoison x).sub a w i = s.sub a w i := Eq.trans rfl rfl
@[simp] theorem State.withPoison_rdByte (x : SMap Nat) (j : Nat) : (s.withPoison x).rdByte j = s.rdByte j := Eq.trans rfl rfl

/-! ### withGpoison -/

@[simp] theorem State.withGpoison_pending (x : SMap Nat) : (s.withGpoison x).pending = s.pending := Eq.trans rfl rfl
@[simp] theorem State.withGpoison_now (x : SMap Nat) : (s.withGpoison x).now = s.now := Eq.trans rfl rfl
@[simp] theorem State.withGpoison_free (x : SMap Nat) : (s.withGpoison x).free = s.free := Eq.trans rfl rfl
@[simp] theorem State.withGpoison_out (x : SMap Nat) : (s.withGpoison x).out = s.out := Eq.trans rfl rfl
@[simp] theorem State.withGpoison_mode (x : SMap Nat) : (s.withGpoison x).mode = s.mode := Eq.trans rfl rfl
@[simp] theorem State.withGpoison_drip (x : SMap Nat) : (s.withGpoison x).drip = s.drip := Eq.trans rfl rfl
@[simp] theorem State.withGpoison_csr (x : SMap Nat) : (s.withGpoison x).csr = s.csr := Eq.trans rfl rfl
@[simp] theorem State.withGpoison_mem (x : SMap Nat) : (s.withGpoison x).mem = s.mem := Eq.trans rfl rfl
@[simp] theorem State.withGpoison_poison (x : SMap Nat) : (s.withGpoison x).poison = s.poison := Eq.trans rfl rfl
@[simp] theorem State.withGpoison_gpoison (x : SMap Nat) : (s.withGpoison x).gpoison = x := Eq.trans rfl rfl
@[simp] theorem State.withGpoison_ueLog (x : SMap Nat) : (s.withGpoison x).ueLog = s.ueLog := Eq.trans rfl rfl
@[simp] theorem State.withGpoison_zeroed (x : SMap Nat) : (s.withGpoison x).zeroed = s.zeroed := Eq.trans rfl rfl
@[simp] theorem State.withGpoison_force (x : SMap Nat) : (s.withGpoison x).force = s.force := Eq.trans rfl rfl
@[simp] theorem State.withGpoison_ctxs (x : SMap Nat) : (s.withGpoison x).ctxs = s.ctxs := Eq.trans rfl rfl
@[simp] theorem State.withGpoison_cores (x : SMap Nat) : (s.withGpoison x).cores = s.cores := Eq.trans rfl rfl
@[simp] theorem State.withGpoison_tasks (x : SMap Nat) : (s.withGpoison x).tasks = s.tasks := Eq.trans rfl rfl
@[simp] theorem State.withGpoison_rts (x : SMap Nat) : (s.withGpoison x).rts = s.rts := Eq.trans rfl rfl
@[simp] theorem State.withGpoison_dirs (x : SMap Nat) : (s.withGpoison x).dirs = s.dirs := Eq.trans rfl rfl
@[simp] theorem State.withGpoison_gms (x : SMap Nat) : (s.withGpoison x).gms = s.gms := Eq.trans rfl rfl
@[simp] theorem State.withGpoison_mxes (x : SMap Nat) : (s.withGpoison x).mxes = s.mxes := Eq.trans rfl rfl
@[simp] theorem State.withGpoison_curs (x : SMap Nat) : (s.withGpoison x).curs = s.curs := Eq.trans rfl rfl
@[simp] theorem State.withGpoison_mctxs (x : SMap Nat) : (s.withGpoison x).mctxs = s.mctxs := Eq.trans rfl rfl
@[simp] theorem State.withGpoison_net (x : SMap Nat) : (s.withGpoison x).net = s.net := Eq.trans rfl rfl
@[simp] theorem State.withGpoison_answers (x : SMap Nat) : (s.withGpoison x).answers = s.answers := Eq.trans rfl rfl
@[simp] theorem State.withGpoison_crets (x : SMap Nat) : (s.withGpoison x).crets = s.crets := Eq.trans rfl rfl
@[simp] theorem State.withGpoison_rings (x : SMap Nat) : (s.withGpoison x).rings = s.rings := Eq.trans rfl rfl
@[simp] theorem State.withGpoison_unans (x : SMap Nat) : (s.withGpoison x).unans = s.unans := Eq.trans rfl rfl
@[simp] theorem State.withGpoison_cqs (x : SMap Nat) : (s.withGpoison x).cqs = s.cqs := Eq.trans rfl rfl
@[simp] theorem State.withGpoison_turns (x : SMap Nat) : (s.withGpoison x).turns = s.turns := Eq.trans rfl rfl
@[simp] theorem State.withGpoison_tfes (x : SMap Nat) : (s.withGpoison x).tfes = s.tfes := Eq.trans rfl rfl
@[simp] theorem State.withGpoison_pkts (x : SMap Nat) : (s.withGpoison x).pkts = s.pkts := Eq.trans rfl rfl
@[simp] theorem State.withGpoison_rtrs (x : SMap Nat) : (s.withGpoison x).rtrs = s.rtrs := Eq.trans rfl rfl
@[simp] theorem State.withGpoison_sv (x : SMap Nat) : (s.withGpoison x).sv = s.sv := Eq.trans rfl rfl
@[simp] theorem State.withGpoison_mss (x : SMap Nat) : (s.withGpoison x).mss = s.mss := Eq.trans rfl rfl
@[simp] theorem State.withGpoison_ports (x : SMap Nat) : (s.withGpoison x).ports = s.ports := Eq.trans rfl rfl
@[simp] theorem State.withGpoison_lamps (x : SMap Nat) : (s.withGpoison x).lamps = s.lamps := Eq.trans rfl rfl
@[simp] theorem State.withGpoison_ptp (x : SMap Nat) : (s.withGpoison x).ptp = s.ptp := Eq.trans rfl rfl
@[simp] theorem State.withGpoison_mrs (x : SMap Nat) : (s.withGpoison x).mrs = s.mrs := Eq.trans rfl rfl
@[simp] theorem State.withGpoison_host (x : SMap Nat) : (s.withGpoison x).host = s.host := Eq.trans rfl rfl
@[simp] theorem State.withGpoison_sec (x : SMap Nat) : (s.withGpoison x).sec = s.sec := Eq.trans rfl rfl
@[simp] theorem State.withGpoison_boot (x : SMap Nat) : (s.withGpoison x).boot = s.boot := Eq.trans rfl rfl
@[simp] theorem State.withGpoison_tst (x : SMap Nat) : (s.withGpoison x).tst = s.tst := Eq.trans rfl rfl
@[simp] theorem State.withGpoison_fr (x : SMap Nat) : (s.withGpoison x).fr = s.fr := Eq.trans rfl rfl
@[simp] theorem State.withGpoison_pwr (x : SMap Nat) : (s.withGpoison x).pwr = s.pwr := Eq.trans rfl rfl
@[simp] theorem State.withGpoison_greset (x : SMap Nat) : (s.withGpoison x).greset = s.greset := Eq.trans rfl rfl
@[simp] theorem State.withGpoison_ctx_ (x : SMap Nat) (j : Nat) : (s.withGpoison x).ctx j = s.ctx j := Eq.trans rfl rfl
@[simp] theorem State.withGpoison_mctx_ (x : SMap Nat) (j : Nat) : (s.withGpoison x).mctx j = s.mctx j := Eq.trans rfl rfl
@[simp] theorem State.withGpoison_reg (x : SMap Nat) (a : Nat) : (s.withGpoison x).reg a = s.reg a := Eq.trans rfl rfl
@[simp] theorem State.withGpoison_fld (x : SMap Nat) (f : Fld) : (s.withGpoison x).fld f = s.fld f := Eq.trans rfl rfl
@[simp] theorem State.withGpoison_sub (x : SMap Nat) (a w i : Nat) : (s.withGpoison x).sub a w i = s.sub a w i := Eq.trans rfl rfl
@[simp] theorem State.withGpoison_rdByte (x : SMap Nat) (j : Nat) : (s.withGpoison x).rdByte j = s.rdByte j := Eq.trans rfl rfl

/-! ### withUeLog -/

@[simp] theorem State.withUeLog_pending (x : List Nat) : (s.withUeLog x).pending = s.pending := Eq.trans rfl rfl
@[simp] theorem State.withUeLog_now (x : List Nat) : (s.withUeLog x).now = s.now := Eq.trans rfl rfl
@[simp] theorem State.withUeLog_free (x : List Nat) : (s.withUeLog x).free = s.free := Eq.trans rfl rfl
@[simp] theorem State.withUeLog_out (x : List Nat) : (s.withUeLog x).out = s.out := Eq.trans rfl rfl
@[simp] theorem State.withUeLog_mode (x : List Nat) : (s.withUeLog x).mode = s.mode := Eq.trans rfl rfl
@[simp] theorem State.withUeLog_drip (x : List Nat) : (s.withUeLog x).drip = s.drip := Eq.trans rfl rfl
@[simp] theorem State.withUeLog_csr (x : List Nat) : (s.withUeLog x).csr = s.csr := Eq.trans rfl rfl
@[simp] theorem State.withUeLog_mem (x : List Nat) : (s.withUeLog x).mem = s.mem := Eq.trans rfl rfl
@[simp] theorem State.withUeLog_poison (x : List Nat) : (s.withUeLog x).poison = s.poison := Eq.trans rfl rfl
@[simp] theorem State.withUeLog_gpoison (x : List Nat) : (s.withUeLog x).gpoison = s.gpoison := Eq.trans rfl rfl
@[simp] theorem State.withUeLog_ueLog (x : List Nat) : (s.withUeLog x).ueLog = x := Eq.trans rfl rfl
@[simp] theorem State.withUeLog_zeroed (x : List Nat) : (s.withUeLog x).zeroed = s.zeroed := Eq.trans rfl rfl
@[simp] theorem State.withUeLog_force (x : List Nat) : (s.withUeLog x).force = s.force := Eq.trans rfl rfl
@[simp] theorem State.withUeLog_ctxs (x : List Nat) : (s.withUeLog x).ctxs = s.ctxs := Eq.trans rfl rfl
@[simp] theorem State.withUeLog_cores (x : List Nat) : (s.withUeLog x).cores = s.cores := Eq.trans rfl rfl
@[simp] theorem State.withUeLog_tasks (x : List Nat) : (s.withUeLog x).tasks = s.tasks := Eq.trans rfl rfl
@[simp] theorem State.withUeLog_rts (x : List Nat) : (s.withUeLog x).rts = s.rts := Eq.trans rfl rfl
@[simp] theorem State.withUeLog_dirs (x : List Nat) : (s.withUeLog x).dirs = s.dirs := Eq.trans rfl rfl
@[simp] theorem State.withUeLog_gms (x : List Nat) : (s.withUeLog x).gms = s.gms := Eq.trans rfl rfl
@[simp] theorem State.withUeLog_mxes (x : List Nat) : (s.withUeLog x).mxes = s.mxes := Eq.trans rfl rfl
@[simp] theorem State.withUeLog_curs (x : List Nat) : (s.withUeLog x).curs = s.curs := Eq.trans rfl rfl
@[simp] theorem State.withUeLog_mctxs (x : List Nat) : (s.withUeLog x).mctxs = s.mctxs := Eq.trans rfl rfl
@[simp] theorem State.withUeLog_net (x : List Nat) : (s.withUeLog x).net = s.net := Eq.trans rfl rfl
@[simp] theorem State.withUeLog_answers (x : List Nat) : (s.withUeLog x).answers = s.answers := Eq.trans rfl rfl
@[simp] theorem State.withUeLog_crets (x : List Nat) : (s.withUeLog x).crets = s.crets := Eq.trans rfl rfl
@[simp] theorem State.withUeLog_rings (x : List Nat) : (s.withUeLog x).rings = s.rings := Eq.trans rfl rfl
@[simp] theorem State.withUeLog_unans (x : List Nat) : (s.withUeLog x).unans = s.unans := Eq.trans rfl rfl
@[simp] theorem State.withUeLog_cqs (x : List Nat) : (s.withUeLog x).cqs = s.cqs := Eq.trans rfl rfl
@[simp] theorem State.withUeLog_turns (x : List Nat) : (s.withUeLog x).turns = s.turns := Eq.trans rfl rfl
@[simp] theorem State.withUeLog_tfes (x : List Nat) : (s.withUeLog x).tfes = s.tfes := Eq.trans rfl rfl
@[simp] theorem State.withUeLog_pkts (x : List Nat) : (s.withUeLog x).pkts = s.pkts := Eq.trans rfl rfl
@[simp] theorem State.withUeLog_rtrs (x : List Nat) : (s.withUeLog x).rtrs = s.rtrs := Eq.trans rfl rfl
@[simp] theorem State.withUeLog_sv (x : List Nat) : (s.withUeLog x).sv = s.sv := Eq.trans rfl rfl
@[simp] theorem State.withUeLog_mss (x : List Nat) : (s.withUeLog x).mss = s.mss := Eq.trans rfl rfl
@[simp] theorem State.withUeLog_ports (x : List Nat) : (s.withUeLog x).ports = s.ports := Eq.trans rfl rfl
@[simp] theorem State.withUeLog_lamps (x : List Nat) : (s.withUeLog x).lamps = s.lamps := Eq.trans rfl rfl
@[simp] theorem State.withUeLog_ptp (x : List Nat) : (s.withUeLog x).ptp = s.ptp := Eq.trans rfl rfl
@[simp] theorem State.withUeLog_mrs (x : List Nat) : (s.withUeLog x).mrs = s.mrs := Eq.trans rfl rfl
@[simp] theorem State.withUeLog_host (x : List Nat) : (s.withUeLog x).host = s.host := Eq.trans rfl rfl
@[simp] theorem State.withUeLog_sec (x : List Nat) : (s.withUeLog x).sec = s.sec := Eq.trans rfl rfl
@[simp] theorem State.withUeLog_boot (x : List Nat) : (s.withUeLog x).boot = s.boot := Eq.trans rfl rfl
@[simp] theorem State.withUeLog_tst (x : List Nat) : (s.withUeLog x).tst = s.tst := Eq.trans rfl rfl
@[simp] theorem State.withUeLog_fr (x : List Nat) : (s.withUeLog x).fr = s.fr := Eq.trans rfl rfl
@[simp] theorem State.withUeLog_pwr (x : List Nat) : (s.withUeLog x).pwr = s.pwr := Eq.trans rfl rfl
@[simp] theorem State.withUeLog_greset (x : List Nat) : (s.withUeLog x).greset = s.greset := Eq.trans rfl rfl
@[simp] theorem State.withUeLog_ctx_ (x : List Nat) (j : Nat) : (s.withUeLog x).ctx j = s.ctx j := Eq.trans rfl rfl
@[simp] theorem State.withUeLog_mctx_ (x : List Nat) (j : Nat) : (s.withUeLog x).mctx j = s.mctx j := Eq.trans rfl rfl
@[simp] theorem State.withUeLog_reg (x : List Nat) (a : Nat) : (s.withUeLog x).reg a = s.reg a := Eq.trans rfl rfl
@[simp] theorem State.withUeLog_fld (x : List Nat) (f : Fld) : (s.withUeLog x).fld f = s.fld f := Eq.trans rfl rfl
@[simp] theorem State.withUeLog_sub (x : List Nat) (a w i : Nat) : (s.withUeLog x).sub a w i = s.sub a w i := Eq.trans rfl rfl
@[simp] theorem State.withUeLog_rdByte (x : List Nat) (j : Nat) : (s.withUeLog x).rdByte j = s.rdByte j := Eq.trans rfl rfl

/-! ### withZeroed -/

@[simp] theorem State.withZeroed_pending (x : List Nat) : (s.withZeroed x).pending = s.pending := Eq.trans rfl rfl
@[simp] theorem State.withZeroed_now (x : List Nat) : (s.withZeroed x).now = s.now := Eq.trans rfl rfl
@[simp] theorem State.withZeroed_free (x : List Nat) : (s.withZeroed x).free = s.free := Eq.trans rfl rfl
@[simp] theorem State.withZeroed_out (x : List Nat) : (s.withZeroed x).out = s.out := Eq.trans rfl rfl
@[simp] theorem State.withZeroed_mode (x : List Nat) : (s.withZeroed x).mode = s.mode := Eq.trans rfl rfl
@[simp] theorem State.withZeroed_drip (x : List Nat) : (s.withZeroed x).drip = s.drip := Eq.trans rfl rfl
@[simp] theorem State.withZeroed_csr (x : List Nat) : (s.withZeroed x).csr = s.csr := Eq.trans rfl rfl
@[simp] theorem State.withZeroed_mem (x : List Nat) : (s.withZeroed x).mem = s.mem := Eq.trans rfl rfl
@[simp] theorem State.withZeroed_poison (x : List Nat) : (s.withZeroed x).poison = s.poison := Eq.trans rfl rfl
@[simp] theorem State.withZeroed_gpoison (x : List Nat) : (s.withZeroed x).gpoison = s.gpoison := Eq.trans rfl rfl
@[simp] theorem State.withZeroed_ueLog (x : List Nat) : (s.withZeroed x).ueLog = s.ueLog := Eq.trans rfl rfl
@[simp] theorem State.withZeroed_zeroed (x : List Nat) : (s.withZeroed x).zeroed = x := Eq.trans rfl rfl
@[simp] theorem State.withZeroed_force (x : List Nat) : (s.withZeroed x).force = s.force := Eq.trans rfl rfl
@[simp] theorem State.withZeroed_ctxs (x : List Nat) : (s.withZeroed x).ctxs = s.ctxs := Eq.trans rfl rfl
@[simp] theorem State.withZeroed_cores (x : List Nat) : (s.withZeroed x).cores = s.cores := Eq.trans rfl rfl
@[simp] theorem State.withZeroed_tasks (x : List Nat) : (s.withZeroed x).tasks = s.tasks := Eq.trans rfl rfl
@[simp] theorem State.withZeroed_rts (x : List Nat) : (s.withZeroed x).rts = s.rts := Eq.trans rfl rfl
@[simp] theorem State.withZeroed_dirs (x : List Nat) : (s.withZeroed x).dirs = s.dirs := Eq.trans rfl rfl
@[simp] theorem State.withZeroed_gms (x : List Nat) : (s.withZeroed x).gms = s.gms := Eq.trans rfl rfl
@[simp] theorem State.withZeroed_mxes (x : List Nat) : (s.withZeroed x).mxes = s.mxes := Eq.trans rfl rfl
@[simp] theorem State.withZeroed_curs (x : List Nat) : (s.withZeroed x).curs = s.curs := Eq.trans rfl rfl
@[simp] theorem State.withZeroed_mctxs (x : List Nat) : (s.withZeroed x).mctxs = s.mctxs := Eq.trans rfl rfl
@[simp] theorem State.withZeroed_net (x : List Nat) : (s.withZeroed x).net = s.net := Eq.trans rfl rfl
@[simp] theorem State.withZeroed_answers (x : List Nat) : (s.withZeroed x).answers = s.answers := Eq.trans rfl rfl
@[simp] theorem State.withZeroed_crets (x : List Nat) : (s.withZeroed x).crets = s.crets := Eq.trans rfl rfl
@[simp] theorem State.withZeroed_rings (x : List Nat) : (s.withZeroed x).rings = s.rings := Eq.trans rfl rfl
@[simp] theorem State.withZeroed_unans (x : List Nat) : (s.withZeroed x).unans = s.unans := Eq.trans rfl rfl
@[simp] theorem State.withZeroed_cqs (x : List Nat) : (s.withZeroed x).cqs = s.cqs := Eq.trans rfl rfl
@[simp] theorem State.withZeroed_turns (x : List Nat) : (s.withZeroed x).turns = s.turns := Eq.trans rfl rfl
@[simp] theorem State.withZeroed_tfes (x : List Nat) : (s.withZeroed x).tfes = s.tfes := Eq.trans rfl rfl
@[simp] theorem State.withZeroed_pkts (x : List Nat) : (s.withZeroed x).pkts = s.pkts := Eq.trans rfl rfl
@[simp] theorem State.withZeroed_rtrs (x : List Nat) : (s.withZeroed x).rtrs = s.rtrs := Eq.trans rfl rfl
@[simp] theorem State.withZeroed_sv (x : List Nat) : (s.withZeroed x).sv = s.sv := Eq.trans rfl rfl
@[simp] theorem State.withZeroed_mss (x : List Nat) : (s.withZeroed x).mss = s.mss := Eq.trans rfl rfl
@[simp] theorem State.withZeroed_ports (x : List Nat) : (s.withZeroed x).ports = s.ports := Eq.trans rfl rfl
@[simp] theorem State.withZeroed_lamps (x : List Nat) : (s.withZeroed x).lamps = s.lamps := Eq.trans rfl rfl
@[simp] theorem State.withZeroed_ptp (x : List Nat) : (s.withZeroed x).ptp = s.ptp := Eq.trans rfl rfl
@[simp] theorem State.withZeroed_mrs (x : List Nat) : (s.withZeroed x).mrs = s.mrs := Eq.trans rfl rfl
@[simp] theorem State.withZeroed_host (x : List Nat) : (s.withZeroed x).host = s.host := Eq.trans rfl rfl
@[simp] theorem State.withZeroed_sec (x : List Nat) : (s.withZeroed x).sec = s.sec := Eq.trans rfl rfl
@[simp] theorem State.withZeroed_boot (x : List Nat) : (s.withZeroed x).boot = s.boot := Eq.trans rfl rfl
@[simp] theorem State.withZeroed_tst (x : List Nat) : (s.withZeroed x).tst = s.tst := Eq.trans rfl rfl
@[simp] theorem State.withZeroed_fr (x : List Nat) : (s.withZeroed x).fr = s.fr := Eq.trans rfl rfl
@[simp] theorem State.withZeroed_pwr (x : List Nat) : (s.withZeroed x).pwr = s.pwr := Eq.trans rfl rfl
@[simp] theorem State.withZeroed_greset (x : List Nat) : (s.withZeroed x).greset = s.greset := Eq.trans rfl rfl
@[simp] theorem State.withZeroed_ctx_ (x : List Nat) (j : Nat) : (s.withZeroed x).ctx j = s.ctx j := Eq.trans rfl rfl
@[simp] theorem State.withZeroed_mctx_ (x : List Nat) (j : Nat) : (s.withZeroed x).mctx j = s.mctx j := Eq.trans rfl rfl
@[simp] theorem State.withZeroed_reg (x : List Nat) (a : Nat) : (s.withZeroed x).reg a = s.reg a := Eq.trans rfl rfl
@[simp] theorem State.withZeroed_fld (x : List Nat) (f : Fld) : (s.withZeroed x).fld f = s.fld f := Eq.trans rfl rfl
@[simp] theorem State.withZeroed_sub (x : List Nat) (a w i : Nat) : (s.withZeroed x).sub a w i = s.sub a w i := Eq.trans rfl rfl
@[simp] theorem State.withZeroed_rdByte (x : List Nat) (j : Nat) : (s.withZeroed x).rdByte j = s.rdByte j := Eq.trans rfl rfl

/-! ### withForce -/

@[simp] theorem State.withForce_pending (x : SMap Budget) : (s.withForce x).pending = s.pending := Eq.trans rfl rfl
@[simp] theorem State.withForce_now (x : SMap Budget) : (s.withForce x).now = s.now := Eq.trans rfl rfl
@[simp] theorem State.withForce_free (x : SMap Budget) : (s.withForce x).free = s.free := Eq.trans rfl rfl
@[simp] theorem State.withForce_out (x : SMap Budget) : (s.withForce x).out = s.out := Eq.trans rfl rfl
@[simp] theorem State.withForce_mode (x : SMap Budget) : (s.withForce x).mode = s.mode := Eq.trans rfl rfl
@[simp] theorem State.withForce_drip (x : SMap Budget) : (s.withForce x).drip = s.drip := Eq.trans rfl rfl
@[simp] theorem State.withForce_csr (x : SMap Budget) : (s.withForce x).csr = s.csr := Eq.trans rfl rfl
@[simp] theorem State.withForce_mem (x : SMap Budget) : (s.withForce x).mem = s.mem := Eq.trans rfl rfl
@[simp] theorem State.withForce_poison (x : SMap Budget) : (s.withForce x).poison = s.poison := Eq.trans rfl rfl
@[simp] theorem State.withForce_gpoison (x : SMap Budget) : (s.withForce x).gpoison = s.gpoison := Eq.trans rfl rfl
@[simp] theorem State.withForce_ueLog (x : SMap Budget) : (s.withForce x).ueLog = s.ueLog := Eq.trans rfl rfl
@[simp] theorem State.withForce_zeroed (x : SMap Budget) : (s.withForce x).zeroed = s.zeroed := Eq.trans rfl rfl
@[simp] theorem State.withForce_force (x : SMap Budget) : (s.withForce x).force = x := Eq.trans rfl rfl
@[simp] theorem State.withForce_ctxs (x : SMap Budget) : (s.withForce x).ctxs = s.ctxs := Eq.trans rfl rfl
@[simp] theorem State.withForce_cores (x : SMap Budget) : (s.withForce x).cores = s.cores := Eq.trans rfl rfl
@[simp] theorem State.withForce_tasks (x : SMap Budget) : (s.withForce x).tasks = s.tasks := Eq.trans rfl rfl
@[simp] theorem State.withForce_rts (x : SMap Budget) : (s.withForce x).rts = s.rts := Eq.trans rfl rfl
@[simp] theorem State.withForce_dirs (x : SMap Budget) : (s.withForce x).dirs = s.dirs := Eq.trans rfl rfl
@[simp] theorem State.withForce_gms (x : SMap Budget) : (s.withForce x).gms = s.gms := Eq.trans rfl rfl
@[simp] theorem State.withForce_mxes (x : SMap Budget) : (s.withForce x).mxes = s.mxes := Eq.trans rfl rfl
@[simp] theorem State.withForce_curs (x : SMap Budget) : (s.withForce x).curs = s.curs := Eq.trans rfl rfl
@[simp] theorem State.withForce_mctxs (x : SMap Budget) : (s.withForce x).mctxs = s.mctxs := Eq.trans rfl rfl
@[simp] theorem State.withForce_net (x : SMap Budget) : (s.withForce x).net = s.net := Eq.trans rfl rfl
@[simp] theorem State.withForce_answers (x : SMap Budget) : (s.withForce x).answers = s.answers := Eq.trans rfl rfl
@[simp] theorem State.withForce_crets (x : SMap Budget) : (s.withForce x).crets = s.crets := Eq.trans rfl rfl
@[simp] theorem State.withForce_rings (x : SMap Budget) : (s.withForce x).rings = s.rings := Eq.trans rfl rfl
@[simp] theorem State.withForce_unans (x : SMap Budget) : (s.withForce x).unans = s.unans := Eq.trans rfl rfl
@[simp] theorem State.withForce_cqs (x : SMap Budget) : (s.withForce x).cqs = s.cqs := Eq.trans rfl rfl
@[simp] theorem State.withForce_turns (x : SMap Budget) : (s.withForce x).turns = s.turns := Eq.trans rfl rfl
@[simp] theorem State.withForce_tfes (x : SMap Budget) : (s.withForce x).tfes = s.tfes := Eq.trans rfl rfl
@[simp] theorem State.withForce_pkts (x : SMap Budget) : (s.withForce x).pkts = s.pkts := Eq.trans rfl rfl
@[simp] theorem State.withForce_rtrs (x : SMap Budget) : (s.withForce x).rtrs = s.rtrs := Eq.trans rfl rfl
@[simp] theorem State.withForce_sv (x : SMap Budget) : (s.withForce x).sv = s.sv := Eq.trans rfl rfl
@[simp] theorem State.withForce_mss (x : SMap Budget) : (s.withForce x).mss = s.mss := Eq.trans rfl rfl
@[simp] theorem State.withForce_ports (x : SMap Budget) : (s.withForce x).ports = s.ports := Eq.trans rfl rfl
@[simp] theorem State.withForce_lamps (x : SMap Budget) : (s.withForce x).lamps = s.lamps := Eq.trans rfl rfl
@[simp] theorem State.withForce_ptp (x : SMap Budget) : (s.withForce x).ptp = s.ptp := Eq.trans rfl rfl
@[simp] theorem State.withForce_mrs (x : SMap Budget) : (s.withForce x).mrs = s.mrs := Eq.trans rfl rfl
@[simp] theorem State.withForce_host (x : SMap Budget) : (s.withForce x).host = s.host := Eq.trans rfl rfl
@[simp] theorem State.withForce_sec (x : SMap Budget) : (s.withForce x).sec = s.sec := Eq.trans rfl rfl
@[simp] theorem State.withForce_boot (x : SMap Budget) : (s.withForce x).boot = s.boot := Eq.trans rfl rfl
@[simp] theorem State.withForce_tst (x : SMap Budget) : (s.withForce x).tst = s.tst := Eq.trans rfl rfl
@[simp] theorem State.withForce_fr (x : SMap Budget) : (s.withForce x).fr = s.fr := Eq.trans rfl rfl
@[simp] theorem State.withForce_pwr (x : SMap Budget) : (s.withForce x).pwr = s.pwr := Eq.trans rfl rfl
@[simp] theorem State.withForce_greset (x : SMap Budget) : (s.withForce x).greset = s.greset := Eq.trans rfl rfl
@[simp] theorem State.withForce_ctx_ (x : SMap Budget) (j : Nat) : (s.withForce x).ctx j = s.ctx j := Eq.trans rfl rfl
@[simp] theorem State.withForce_mctx_ (x : SMap Budget) (j : Nat) : (s.withForce x).mctx j = s.mctx j := Eq.trans rfl rfl
@[simp] theorem State.withForce_reg (x : SMap Budget) (a : Nat) : (s.withForce x).reg a = s.reg a := Eq.trans rfl rfl
@[simp] theorem State.withForce_fld (x : SMap Budget) (f : Fld) : (s.withForce x).fld f = s.fld f := Eq.trans rfl rfl
@[simp] theorem State.withForce_sub (x : SMap Budget) (a w i : Nat) : (s.withForce x).sub a w i = s.sub a w i := Eq.trans rfl rfl
@[simp] theorem State.withForce_rdByte (x : SMap Budget) (j : Nat) : (s.withForce x).rdByte j = s.rdByte j := Eq.trans rfl rfl

/-! ### withCtxs -/

@[simp] theorem State.withCtxs_pending (x : SMap Ctx) : (s.withCtxs x).pending = s.pending := Eq.trans rfl rfl
@[simp] theorem State.withCtxs_now (x : SMap Ctx) : (s.withCtxs x).now = s.now := Eq.trans rfl rfl
@[simp] theorem State.withCtxs_free (x : SMap Ctx) : (s.withCtxs x).free = s.free := Eq.trans rfl rfl
@[simp] theorem State.withCtxs_out (x : SMap Ctx) : (s.withCtxs x).out = s.out := Eq.trans rfl rfl
@[simp] theorem State.withCtxs_mode (x : SMap Ctx) : (s.withCtxs x).mode = s.mode := Eq.trans rfl rfl
@[simp] theorem State.withCtxs_drip (x : SMap Ctx) : (s.withCtxs x).drip = s.drip := Eq.trans rfl rfl
@[simp] theorem State.withCtxs_csr (x : SMap Ctx) : (s.withCtxs x).csr = s.csr := Eq.trans rfl rfl
@[simp] theorem State.withCtxs_mem (x : SMap Ctx) : (s.withCtxs x).mem = s.mem := Eq.trans rfl rfl
@[simp] theorem State.withCtxs_poison (x : SMap Ctx) : (s.withCtxs x).poison = s.poison := Eq.trans rfl rfl
@[simp] theorem State.withCtxs_gpoison (x : SMap Ctx) : (s.withCtxs x).gpoison = s.gpoison := Eq.trans rfl rfl
@[simp] theorem State.withCtxs_ueLog (x : SMap Ctx) : (s.withCtxs x).ueLog = s.ueLog := Eq.trans rfl rfl
@[simp] theorem State.withCtxs_zeroed (x : SMap Ctx) : (s.withCtxs x).zeroed = s.zeroed := Eq.trans rfl rfl
@[simp] theorem State.withCtxs_force (x : SMap Ctx) : (s.withCtxs x).force = s.force := Eq.trans rfl rfl
@[simp] theorem State.withCtxs_ctxs (x : SMap Ctx) : (s.withCtxs x).ctxs = x := Eq.trans rfl rfl
@[simp] theorem State.withCtxs_cores (x : SMap Ctx) : (s.withCtxs x).cores = s.cores := Eq.trans rfl rfl
@[simp] theorem State.withCtxs_tasks (x : SMap Ctx) : (s.withCtxs x).tasks = s.tasks := Eq.trans rfl rfl
@[simp] theorem State.withCtxs_rts (x : SMap Ctx) : (s.withCtxs x).rts = s.rts := Eq.trans rfl rfl
@[simp] theorem State.withCtxs_dirs (x : SMap Ctx) : (s.withCtxs x).dirs = s.dirs := Eq.trans rfl rfl
@[simp] theorem State.withCtxs_gms (x : SMap Ctx) : (s.withCtxs x).gms = s.gms := Eq.trans rfl rfl
@[simp] theorem State.withCtxs_mxes (x : SMap Ctx) : (s.withCtxs x).mxes = s.mxes := Eq.trans rfl rfl
@[simp] theorem State.withCtxs_curs (x : SMap Ctx) : (s.withCtxs x).curs = s.curs := Eq.trans rfl rfl
@[simp] theorem State.withCtxs_mctxs (x : SMap Ctx) : (s.withCtxs x).mctxs = s.mctxs := Eq.trans rfl rfl
@[simp] theorem State.withCtxs_net (x : SMap Ctx) : (s.withCtxs x).net = s.net := Eq.trans rfl rfl
@[simp] theorem State.withCtxs_answers (x : SMap Ctx) : (s.withCtxs x).answers = s.answers := Eq.trans rfl rfl
@[simp] theorem State.withCtxs_crets (x : SMap Ctx) : (s.withCtxs x).crets = s.crets := Eq.trans rfl rfl
@[simp] theorem State.withCtxs_rings (x : SMap Ctx) : (s.withCtxs x).rings = s.rings := Eq.trans rfl rfl
@[simp] theorem State.withCtxs_unans (x : SMap Ctx) : (s.withCtxs x).unans = s.unans := Eq.trans rfl rfl
@[simp] theorem State.withCtxs_cqs (x : SMap Ctx) : (s.withCtxs x).cqs = s.cqs := Eq.trans rfl rfl
@[simp] theorem State.withCtxs_turns (x : SMap Ctx) : (s.withCtxs x).turns = s.turns := Eq.trans rfl rfl
@[simp] theorem State.withCtxs_tfes (x : SMap Ctx) : (s.withCtxs x).tfes = s.tfes := Eq.trans rfl rfl
@[simp] theorem State.withCtxs_pkts (x : SMap Ctx) : (s.withCtxs x).pkts = s.pkts := Eq.trans rfl rfl
@[simp] theorem State.withCtxs_rtrs (x : SMap Ctx) : (s.withCtxs x).rtrs = s.rtrs := Eq.trans rfl rfl
@[simp] theorem State.withCtxs_sv (x : SMap Ctx) : (s.withCtxs x).sv = s.sv := Eq.trans rfl rfl
@[simp] theorem State.withCtxs_mss (x : SMap Ctx) : (s.withCtxs x).mss = s.mss := Eq.trans rfl rfl
@[simp] theorem State.withCtxs_ports (x : SMap Ctx) : (s.withCtxs x).ports = s.ports := Eq.trans rfl rfl
@[simp] theorem State.withCtxs_lamps (x : SMap Ctx) : (s.withCtxs x).lamps = s.lamps := Eq.trans rfl rfl
@[simp] theorem State.withCtxs_ptp (x : SMap Ctx) : (s.withCtxs x).ptp = s.ptp := Eq.trans rfl rfl
@[simp] theorem State.withCtxs_mrs (x : SMap Ctx) : (s.withCtxs x).mrs = s.mrs := Eq.trans rfl rfl
@[simp] theorem State.withCtxs_host (x : SMap Ctx) : (s.withCtxs x).host = s.host := Eq.trans rfl rfl
@[simp] theorem State.withCtxs_sec (x : SMap Ctx) : (s.withCtxs x).sec = s.sec := Eq.trans rfl rfl
@[simp] theorem State.withCtxs_boot (x : SMap Ctx) : (s.withCtxs x).boot = s.boot := Eq.trans rfl rfl
@[simp] theorem State.withCtxs_tst (x : SMap Ctx) : (s.withCtxs x).tst = s.tst := Eq.trans rfl rfl
@[simp] theorem State.withCtxs_fr (x : SMap Ctx) : (s.withCtxs x).fr = s.fr := Eq.trans rfl rfl
@[simp] theorem State.withCtxs_pwr (x : SMap Ctx) : (s.withCtxs x).pwr = s.pwr := Eq.trans rfl rfl
@[simp] theorem State.withCtxs_greset (x : SMap Ctx) : (s.withCtxs x).greset = s.greset := Eq.trans rfl rfl
@[simp] theorem State.withCtxs_mctx_ (x : SMap Ctx) (j : Nat) : (s.withCtxs x).mctx j = s.mctx j := Eq.trans rfl rfl
@[simp] theorem State.withCtxs_reg (x : SMap Ctx) (a : Nat) : (s.withCtxs x).reg a = s.reg a := Eq.trans rfl rfl
@[simp] theorem State.withCtxs_fld (x : SMap Ctx) (f : Fld) : (s.withCtxs x).fld f = s.fld f := Eq.trans rfl rfl
@[simp] theorem State.withCtxs_sub (x : SMap Ctx) (a w i : Nat) : (s.withCtxs x).sub a w i = s.sub a w i := Eq.trans rfl rfl
@[simp] theorem State.withCtxs_rdByte (x : SMap Ctx) (j : Nat) : (s.withCtxs x).rdByte j = s.rdByte j := Eq.trans rfl rfl

/-! ### withCores -/

@[simp] theorem State.withCores_pending (x : SMap CoreSt) : (s.withCores x).pending = s.pending := Eq.trans rfl rfl
@[simp] theorem State.withCores_now (x : SMap CoreSt) : (s.withCores x).now = s.now := Eq.trans rfl rfl
@[simp] theorem State.withCores_free (x : SMap CoreSt) : (s.withCores x).free = s.free := Eq.trans rfl rfl
@[simp] theorem State.withCores_out (x : SMap CoreSt) : (s.withCores x).out = s.out := Eq.trans rfl rfl
@[simp] theorem State.withCores_mode (x : SMap CoreSt) : (s.withCores x).mode = s.mode := Eq.trans rfl rfl
@[simp] theorem State.withCores_drip (x : SMap CoreSt) : (s.withCores x).drip = s.drip := Eq.trans rfl rfl
@[simp] theorem State.withCores_csr (x : SMap CoreSt) : (s.withCores x).csr = s.csr := Eq.trans rfl rfl
@[simp] theorem State.withCores_mem (x : SMap CoreSt) : (s.withCores x).mem = s.mem := Eq.trans rfl rfl
@[simp] theorem State.withCores_poison (x : SMap CoreSt) : (s.withCores x).poison = s.poison := Eq.trans rfl rfl
@[simp] theorem State.withCores_gpoison (x : SMap CoreSt) : (s.withCores x).gpoison = s.gpoison := Eq.trans rfl rfl
@[simp] theorem State.withCores_ueLog (x : SMap CoreSt) : (s.withCores x).ueLog = s.ueLog := Eq.trans rfl rfl
@[simp] theorem State.withCores_zeroed (x : SMap CoreSt) : (s.withCores x).zeroed = s.zeroed := Eq.trans rfl rfl
@[simp] theorem State.withCores_force (x : SMap CoreSt) : (s.withCores x).force = s.force := Eq.trans rfl rfl
@[simp] theorem State.withCores_ctxs (x : SMap CoreSt) : (s.withCores x).ctxs = s.ctxs := Eq.trans rfl rfl
@[simp] theorem State.withCores_cores (x : SMap CoreSt) : (s.withCores x).cores = x := Eq.trans rfl rfl
@[simp] theorem State.withCores_tasks (x : SMap CoreSt) : (s.withCores x).tasks = s.tasks := Eq.trans rfl rfl
@[simp] theorem State.withCores_rts (x : SMap CoreSt) : (s.withCores x).rts = s.rts := Eq.trans rfl rfl
@[simp] theorem State.withCores_dirs (x : SMap CoreSt) : (s.withCores x).dirs = s.dirs := Eq.trans rfl rfl
@[simp] theorem State.withCores_gms (x : SMap CoreSt) : (s.withCores x).gms = s.gms := Eq.trans rfl rfl
@[simp] theorem State.withCores_mxes (x : SMap CoreSt) : (s.withCores x).mxes = s.mxes := Eq.trans rfl rfl
@[simp] theorem State.withCores_curs (x : SMap CoreSt) : (s.withCores x).curs = s.curs := Eq.trans rfl rfl
@[simp] theorem State.withCores_mctxs (x : SMap CoreSt) : (s.withCores x).mctxs = s.mctxs := Eq.trans rfl rfl
@[simp] theorem State.withCores_net (x : SMap CoreSt) : (s.withCores x).net = s.net := Eq.trans rfl rfl
@[simp] theorem State.withCores_answers (x : SMap CoreSt) : (s.withCores x).answers = s.answers := Eq.trans rfl rfl
@[simp] theorem State.withCores_crets (x : SMap CoreSt) : (s.withCores x).crets = s.crets := Eq.trans rfl rfl
@[simp] theorem State.withCores_rings (x : SMap CoreSt) : (s.withCores x).rings = s.rings := Eq.trans rfl rfl
@[simp] theorem State.withCores_unans (x : SMap CoreSt) : (s.withCores x).unans = s.unans := Eq.trans rfl rfl
@[simp] theorem State.withCores_cqs (x : SMap CoreSt) : (s.withCores x).cqs = s.cqs := Eq.trans rfl rfl
@[simp] theorem State.withCores_turns (x : SMap CoreSt) : (s.withCores x).turns = s.turns := Eq.trans rfl rfl
@[simp] theorem State.withCores_tfes (x : SMap CoreSt) : (s.withCores x).tfes = s.tfes := Eq.trans rfl rfl
@[simp] theorem State.withCores_pkts (x : SMap CoreSt) : (s.withCores x).pkts = s.pkts := Eq.trans rfl rfl
@[simp] theorem State.withCores_rtrs (x : SMap CoreSt) : (s.withCores x).rtrs = s.rtrs := Eq.trans rfl rfl
@[simp] theorem State.withCores_sv (x : SMap CoreSt) : (s.withCores x).sv = s.sv := Eq.trans rfl rfl
@[simp] theorem State.withCores_mss (x : SMap CoreSt) : (s.withCores x).mss = s.mss := Eq.trans rfl rfl
@[simp] theorem State.withCores_ports (x : SMap CoreSt) : (s.withCores x).ports = s.ports := Eq.trans rfl rfl
@[simp] theorem State.withCores_lamps (x : SMap CoreSt) : (s.withCores x).lamps = s.lamps := Eq.trans rfl rfl
@[simp] theorem State.withCores_ptp (x : SMap CoreSt) : (s.withCores x).ptp = s.ptp := Eq.trans rfl rfl
@[simp] theorem State.withCores_mrs (x : SMap CoreSt) : (s.withCores x).mrs = s.mrs := Eq.trans rfl rfl
@[simp] theorem State.withCores_host (x : SMap CoreSt) : (s.withCores x).host = s.host := Eq.trans rfl rfl
@[simp] theorem State.withCores_sec (x : SMap CoreSt) : (s.withCores x).sec = s.sec := Eq.trans rfl rfl
@[simp] theorem State.withCores_boot (x : SMap CoreSt) : (s.withCores x).boot = s.boot := Eq.trans rfl rfl
@[simp] theorem State.withCores_tst (x : SMap CoreSt) : (s.withCores x).tst = s.tst := Eq.trans rfl rfl
@[simp] theorem State.withCores_fr (x : SMap CoreSt) : (s.withCores x).fr = s.fr := Eq.trans rfl rfl
@[simp] theorem State.withCores_pwr (x : SMap CoreSt) : (s.withCores x).pwr = s.pwr := Eq.trans rfl rfl
@[simp] theorem State.withCores_greset (x : SMap CoreSt) : (s.withCores x).greset = s.greset := Eq.trans rfl rfl
@[simp] theorem State.withCores_ctx_ (x : SMap CoreSt) (j : Nat) : (s.withCores x).ctx j = s.ctx j := Eq.trans rfl rfl
@[simp] theorem State.withCores_mctx_ (x : SMap CoreSt) (j : Nat) : (s.withCores x).mctx j = s.mctx j := Eq.trans rfl rfl
@[simp] theorem State.withCores_reg (x : SMap CoreSt) (a : Nat) : (s.withCores x).reg a = s.reg a := Eq.trans rfl rfl
@[simp] theorem State.withCores_fld (x : SMap CoreSt) (f : Fld) : (s.withCores x).fld f = s.fld f := Eq.trans rfl rfl
@[simp] theorem State.withCores_sub (x : SMap CoreSt) (a w i : Nat) : (s.withCores x).sub a w i = s.sub a w i := Eq.trans rfl rfl
@[simp] theorem State.withCores_rdByte (x : SMap CoreSt) (j : Nat) : (s.withCores x).rdByte j = s.rdByte j := Eq.trans rfl rfl

/-! ### withTasks -/

@[simp] theorem State.withTasks_pending (x : SMap TaskSt) : (s.withTasks x).pending = s.pending := Eq.trans rfl rfl
@[simp] theorem State.withTasks_now (x : SMap TaskSt) : (s.withTasks x).now = s.now := Eq.trans rfl rfl
@[simp] theorem State.withTasks_free (x : SMap TaskSt) : (s.withTasks x).free = s.free := Eq.trans rfl rfl
@[simp] theorem State.withTasks_out (x : SMap TaskSt) : (s.withTasks x).out = s.out := Eq.trans rfl rfl
@[simp] theorem State.withTasks_mode (x : SMap TaskSt) : (s.withTasks x).mode = s.mode := Eq.trans rfl rfl
@[simp] theorem State.withTasks_drip (x : SMap TaskSt) : (s.withTasks x).drip = s.drip := Eq.trans rfl rfl
@[simp] theorem State.withTasks_csr (x : SMap TaskSt) : (s.withTasks x).csr = s.csr := Eq.trans rfl rfl
@[simp] theorem State.withTasks_mem (x : SMap TaskSt) : (s.withTasks x).mem = s.mem := Eq.trans rfl rfl
@[simp] theorem State.withTasks_poison (x : SMap TaskSt) : (s.withTasks x).poison = s.poison := Eq.trans rfl rfl
@[simp] theorem State.withTasks_gpoison (x : SMap TaskSt) : (s.withTasks x).gpoison = s.gpoison := Eq.trans rfl rfl
@[simp] theorem State.withTasks_ueLog (x : SMap TaskSt) : (s.withTasks x).ueLog = s.ueLog := Eq.trans rfl rfl
@[simp] theorem State.withTasks_zeroed (x : SMap TaskSt) : (s.withTasks x).zeroed = s.zeroed := Eq.trans rfl rfl
@[simp] theorem State.withTasks_force (x : SMap TaskSt) : (s.withTasks x).force = s.force := Eq.trans rfl rfl
@[simp] theorem State.withTasks_ctxs (x : SMap TaskSt) : (s.withTasks x).ctxs = s.ctxs := Eq.trans rfl rfl
@[simp] theorem State.withTasks_cores (x : SMap TaskSt) : (s.withTasks x).cores = s.cores := Eq.trans rfl rfl
@[simp] theorem State.withTasks_tasks (x : SMap TaskSt) : (s.withTasks x).tasks = x := Eq.trans rfl rfl
@[simp] theorem State.withTasks_rts (x : SMap TaskSt) : (s.withTasks x).rts = s.rts := Eq.trans rfl rfl
@[simp] theorem State.withTasks_dirs (x : SMap TaskSt) : (s.withTasks x).dirs = s.dirs := Eq.trans rfl rfl
@[simp] theorem State.withTasks_gms (x : SMap TaskSt) : (s.withTasks x).gms = s.gms := Eq.trans rfl rfl
@[simp] theorem State.withTasks_mxes (x : SMap TaskSt) : (s.withTasks x).mxes = s.mxes := Eq.trans rfl rfl
@[simp] theorem State.withTasks_curs (x : SMap TaskSt) : (s.withTasks x).curs = s.curs := Eq.trans rfl rfl
@[simp] theorem State.withTasks_mctxs (x : SMap TaskSt) : (s.withTasks x).mctxs = s.mctxs := Eq.trans rfl rfl
@[simp] theorem State.withTasks_net (x : SMap TaskSt) : (s.withTasks x).net = s.net := Eq.trans rfl rfl
@[simp] theorem State.withTasks_answers (x : SMap TaskSt) : (s.withTasks x).answers = s.answers := Eq.trans rfl rfl
@[simp] theorem State.withTasks_crets (x : SMap TaskSt) : (s.withTasks x).crets = s.crets := Eq.trans rfl rfl
@[simp] theorem State.withTasks_rings (x : SMap TaskSt) : (s.withTasks x).rings = s.rings := Eq.trans rfl rfl
@[simp] theorem State.withTasks_unans (x : SMap TaskSt) : (s.withTasks x).unans = s.unans := Eq.trans rfl rfl
@[simp] theorem State.withTasks_cqs (x : SMap TaskSt) : (s.withTasks x).cqs = s.cqs := Eq.trans rfl rfl
@[simp] theorem State.withTasks_turns (x : SMap TaskSt) : (s.withTasks x).turns = s.turns := Eq.trans rfl rfl
@[simp] theorem State.withTasks_tfes (x : SMap TaskSt) : (s.withTasks x).tfes = s.tfes := Eq.trans rfl rfl
@[simp] theorem State.withTasks_pkts (x : SMap TaskSt) : (s.withTasks x).pkts = s.pkts := Eq.trans rfl rfl
@[simp] theorem State.withTasks_rtrs (x : SMap TaskSt) : (s.withTasks x).rtrs = s.rtrs := Eq.trans rfl rfl
@[simp] theorem State.withTasks_sv (x : SMap TaskSt) : (s.withTasks x).sv = s.sv := Eq.trans rfl rfl
@[simp] theorem State.withTasks_mss (x : SMap TaskSt) : (s.withTasks x).mss = s.mss := Eq.trans rfl rfl
@[simp] theorem State.withTasks_ports (x : SMap TaskSt) : (s.withTasks x).ports = s.ports := Eq.trans rfl rfl
@[simp] theorem State.withTasks_lamps (x : SMap TaskSt) : (s.withTasks x).lamps = s.lamps := Eq.trans rfl rfl
@[simp] theorem State.withTasks_ptp (x : SMap TaskSt) : (s.withTasks x).ptp = s.ptp := Eq.trans rfl rfl
@[simp] theorem State.withTasks_mrs (x : SMap TaskSt) : (s.withTasks x).mrs = s.mrs := Eq.trans rfl rfl
@[simp] theorem State.withTasks_host (x : SMap TaskSt) : (s.withTasks x).host = s.host := Eq.trans rfl rfl
@[simp] theorem State.withTasks_sec (x : SMap TaskSt) : (s.withTasks x).sec = s.sec := Eq.trans rfl rfl
@[simp] theorem State.withTasks_boot (x : SMap TaskSt) : (s.withTasks x).boot = s.boot := Eq.trans rfl rfl
@[simp] theorem State.withTasks_tst (x : SMap TaskSt) : (s.withTasks x).tst = s.tst := Eq.trans rfl rfl
@[simp] theorem State.withTasks_fr (x : SMap TaskSt) : (s.withTasks x).fr = s.fr := Eq.trans rfl rfl
@[simp] theorem State.withTasks_pwr (x : SMap TaskSt) : (s.withTasks x).pwr = s.pwr := Eq.trans rfl rfl
@[simp] theorem State.withTasks_greset (x : SMap TaskSt) : (s.withTasks x).greset = s.greset := Eq.trans rfl rfl
@[simp] theorem State.withTasks_ctx_ (x : SMap TaskSt) (j : Nat) : (s.withTasks x).ctx j = s.ctx j := Eq.trans rfl rfl
@[simp] theorem State.withTasks_mctx_ (x : SMap TaskSt) (j : Nat) : (s.withTasks x).mctx j = s.mctx j := Eq.trans rfl rfl
@[simp] theorem State.withTasks_reg (x : SMap TaskSt) (a : Nat) : (s.withTasks x).reg a = s.reg a := Eq.trans rfl rfl
@[simp] theorem State.withTasks_fld (x : SMap TaskSt) (f : Fld) : (s.withTasks x).fld f = s.fld f := Eq.trans rfl rfl
@[simp] theorem State.withTasks_sub (x : SMap TaskSt) (a w i : Nat) : (s.withTasks x).sub a w i = s.sub a w i := Eq.trans rfl rfl
@[simp] theorem State.withTasks_rdByte (x : SMap TaskSt) (j : Nat) : (s.withTasks x).rdByte j = s.rdByte j := Eq.trans rfl rfl

/-! ### withRts -/

@[simp] theorem State.withRts_pending (x : SMap RtSt) : (s.withRts x).pending = s.pending := Eq.trans rfl rfl
@[simp] theorem State.withRts_now (x : SMap RtSt) : (s.withRts x).now = s.now := Eq.trans rfl rfl
@[simp] theorem State.withRts_free (x : SMap RtSt) : (s.withRts x).free = s.free := Eq.trans rfl rfl
@[simp] theorem State.withRts_out (x : SMap RtSt) : (s.withRts x).out = s.out := Eq.trans rfl rfl
@[simp] theorem State.withRts_mode (x : SMap RtSt) : (s.withRts x).mode = s.mode := Eq.trans rfl rfl
@[simp] theorem State.withRts_drip (x : SMap RtSt) : (s.withRts x).drip = s.drip := Eq.trans rfl rfl
@[simp] theorem State.withRts_csr (x : SMap RtSt) : (s.withRts x).csr = s.csr := Eq.trans rfl rfl
@[simp] theorem State.withRts_mem (x : SMap RtSt) : (s.withRts x).mem = s.mem := Eq.trans rfl rfl
@[simp] theorem State.withRts_poison (x : SMap RtSt) : (s.withRts x).poison = s.poison := Eq.trans rfl rfl
@[simp] theorem State.withRts_gpoison (x : SMap RtSt) : (s.withRts x).gpoison = s.gpoison := Eq.trans rfl rfl
@[simp] theorem State.withRts_ueLog (x : SMap RtSt) : (s.withRts x).ueLog = s.ueLog := Eq.trans rfl rfl
@[simp] theorem State.withRts_zeroed (x : SMap RtSt) : (s.withRts x).zeroed = s.zeroed := Eq.trans rfl rfl
@[simp] theorem State.withRts_force (x : SMap RtSt) : (s.withRts x).force = s.force := Eq.trans rfl rfl
@[simp] theorem State.withRts_ctxs (x : SMap RtSt) : (s.withRts x).ctxs = s.ctxs := Eq.trans rfl rfl
@[simp] theorem State.withRts_cores (x : SMap RtSt) : (s.withRts x).cores = s.cores := Eq.trans rfl rfl
@[simp] theorem State.withRts_tasks (x : SMap RtSt) : (s.withRts x).tasks = s.tasks := Eq.trans rfl rfl
@[simp] theorem State.withRts_rts (x : SMap RtSt) : (s.withRts x).rts = x := Eq.trans rfl rfl
@[simp] theorem State.withRts_dirs (x : SMap RtSt) : (s.withRts x).dirs = s.dirs := Eq.trans rfl rfl
@[simp] theorem State.withRts_gms (x : SMap RtSt) : (s.withRts x).gms = s.gms := Eq.trans rfl rfl
@[simp] theorem State.withRts_mxes (x : SMap RtSt) : (s.withRts x).mxes = s.mxes := Eq.trans rfl rfl
@[simp] theorem State.withRts_curs (x : SMap RtSt) : (s.withRts x).curs = s.curs := Eq.trans rfl rfl
@[simp] theorem State.withRts_mctxs (x : SMap RtSt) : (s.withRts x).mctxs = s.mctxs := Eq.trans rfl rfl
@[simp] theorem State.withRts_net (x : SMap RtSt) : (s.withRts x).net = s.net := Eq.trans rfl rfl
@[simp] theorem State.withRts_answers (x : SMap RtSt) : (s.withRts x).answers = s.answers := Eq.trans rfl rfl
@[simp] theorem State.withRts_crets (x : SMap RtSt) : (s.withRts x).crets = s.crets := Eq.trans rfl rfl
@[simp] theorem State.withRts_rings (x : SMap RtSt) : (s.withRts x).rings = s.rings := Eq.trans rfl rfl
@[simp] theorem State.withRts_unans (x : SMap RtSt) : (s.withRts x).unans = s.unans := Eq.trans rfl rfl
@[simp] theorem State.withRts_cqs (x : SMap RtSt) : (s.withRts x).cqs = s.cqs := Eq.trans rfl rfl
@[simp] theorem State.withRts_turns (x : SMap RtSt) : (s.withRts x).turns = s.turns := Eq.trans rfl rfl
@[simp] theorem State.withRts_tfes (x : SMap RtSt) : (s.withRts x).tfes = s.tfes := Eq.trans rfl rfl
@[simp] theorem State.withRts_pkts (x : SMap RtSt) : (s.withRts x).pkts = s.pkts := Eq.trans rfl rfl
@[simp] theorem State.withRts_rtrs (x : SMap RtSt) : (s.withRts x).rtrs = s.rtrs := Eq.trans rfl rfl
@[simp] theorem State.withRts_sv (x : SMap RtSt) : (s.withRts x).sv = s.sv := Eq.trans rfl rfl
@[simp] theorem State.withRts_mss (x : SMap RtSt) : (s.withRts x).mss = s.mss := Eq.trans rfl rfl
@[simp] theorem State.withRts_ports (x : SMap RtSt) : (s.withRts x).ports = s.ports := Eq.trans rfl rfl
@[simp] theorem State.withRts_lamps (x : SMap RtSt) : (s.withRts x).lamps = s.lamps := Eq.trans rfl rfl
@[simp] theorem State.withRts_ptp (x : SMap RtSt) : (s.withRts x).ptp = s.ptp := Eq.trans rfl rfl
@[simp] theorem State.withRts_mrs (x : SMap RtSt) : (s.withRts x).mrs = s.mrs := Eq.trans rfl rfl
@[simp] theorem State.withRts_host (x : SMap RtSt) : (s.withRts x).host = s.host := Eq.trans rfl rfl
@[simp] theorem State.withRts_sec (x : SMap RtSt) : (s.withRts x).sec = s.sec := Eq.trans rfl rfl
@[simp] theorem State.withRts_boot (x : SMap RtSt) : (s.withRts x).boot = s.boot := Eq.trans rfl rfl
@[simp] theorem State.withRts_tst (x : SMap RtSt) : (s.withRts x).tst = s.tst := Eq.trans rfl rfl
@[simp] theorem State.withRts_fr (x : SMap RtSt) : (s.withRts x).fr = s.fr := Eq.trans rfl rfl
@[simp] theorem State.withRts_pwr (x : SMap RtSt) : (s.withRts x).pwr = s.pwr := Eq.trans rfl rfl
@[simp] theorem State.withRts_greset (x : SMap RtSt) : (s.withRts x).greset = s.greset := Eq.trans rfl rfl
@[simp] theorem State.withRts_ctx_ (x : SMap RtSt) (j : Nat) : (s.withRts x).ctx j = s.ctx j := Eq.trans rfl rfl
@[simp] theorem State.withRts_mctx_ (x : SMap RtSt) (j : Nat) : (s.withRts x).mctx j = s.mctx j := Eq.trans rfl rfl
@[simp] theorem State.withRts_reg (x : SMap RtSt) (a : Nat) : (s.withRts x).reg a = s.reg a := Eq.trans rfl rfl
@[simp] theorem State.withRts_fld (x : SMap RtSt) (f : Fld) : (s.withRts x).fld f = s.fld f := Eq.trans rfl rfl
@[simp] theorem State.withRts_sub (x : SMap RtSt) (a w i : Nat) : (s.withRts x).sub a w i = s.sub a w i := Eq.trans rfl rfl
@[simp] theorem State.withRts_rdByte (x : SMap RtSt) (j : Nat) : (s.withRts x).rdByte j = s.rdByte j := Eq.trans rfl rfl

/-! ### withDirs -/

@[simp] theorem State.withDirs_pending (x : SMap DirSt) : (s.withDirs x).pending = s.pending := Eq.trans rfl rfl
@[simp] theorem State.withDirs_now (x : SMap DirSt) : (s.withDirs x).now = s.now := Eq.trans rfl rfl
@[simp] theorem State.withDirs_free (x : SMap DirSt) : (s.withDirs x).free = s.free := Eq.trans rfl rfl
@[simp] theorem State.withDirs_out (x : SMap DirSt) : (s.withDirs x).out = s.out := Eq.trans rfl rfl
@[simp] theorem State.withDirs_mode (x : SMap DirSt) : (s.withDirs x).mode = s.mode := Eq.trans rfl rfl
@[simp] theorem State.withDirs_drip (x : SMap DirSt) : (s.withDirs x).drip = s.drip := Eq.trans rfl rfl
@[simp] theorem State.withDirs_csr (x : SMap DirSt) : (s.withDirs x).csr = s.csr := Eq.trans rfl rfl
@[simp] theorem State.withDirs_mem (x : SMap DirSt) : (s.withDirs x).mem = s.mem := Eq.trans rfl rfl
@[simp] theorem State.withDirs_poison (x : SMap DirSt) : (s.withDirs x).poison = s.poison := Eq.trans rfl rfl
@[simp] theorem State.withDirs_gpoison (x : SMap DirSt) : (s.withDirs x).gpoison = s.gpoison := Eq.trans rfl rfl
@[simp] theorem State.withDirs_ueLog (x : SMap DirSt) : (s.withDirs x).ueLog = s.ueLog := Eq.trans rfl rfl
@[simp] theorem State.withDirs_zeroed (x : SMap DirSt) : (s.withDirs x).zeroed = s.zeroed := Eq.trans rfl rfl
@[simp] theorem State.withDirs_force (x : SMap DirSt) : (s.withDirs x).force = s.force := Eq.trans rfl rfl
@[simp] theorem State.withDirs_ctxs (x : SMap DirSt) : (s.withDirs x).ctxs = s.ctxs := Eq.trans rfl rfl
@[simp] theorem State.withDirs_cores (x : SMap DirSt) : (s.withDirs x).cores = s.cores := Eq.trans rfl rfl
@[simp] theorem State.withDirs_tasks (x : SMap DirSt) : (s.withDirs x).tasks = s.tasks := Eq.trans rfl rfl
@[simp] theorem State.withDirs_rts (x : SMap DirSt) : (s.withDirs x).rts = s.rts := Eq.trans rfl rfl
@[simp] theorem State.withDirs_dirs (x : SMap DirSt) : (s.withDirs x).dirs = x := Eq.trans rfl rfl
@[simp] theorem State.withDirs_gms (x : SMap DirSt) : (s.withDirs x).gms = s.gms := Eq.trans rfl rfl
@[simp] theorem State.withDirs_mxes (x : SMap DirSt) : (s.withDirs x).mxes = s.mxes := Eq.trans rfl rfl
@[simp] theorem State.withDirs_curs (x : SMap DirSt) : (s.withDirs x).curs = s.curs := Eq.trans rfl rfl
@[simp] theorem State.withDirs_mctxs (x : SMap DirSt) : (s.withDirs x).mctxs = s.mctxs := Eq.trans rfl rfl
@[simp] theorem State.withDirs_net (x : SMap DirSt) : (s.withDirs x).net = s.net := Eq.trans rfl rfl
@[simp] theorem State.withDirs_answers (x : SMap DirSt) : (s.withDirs x).answers = s.answers := Eq.trans rfl rfl
@[simp] theorem State.withDirs_crets (x : SMap DirSt) : (s.withDirs x).crets = s.crets := Eq.trans rfl rfl
@[simp] theorem State.withDirs_rings (x : SMap DirSt) : (s.withDirs x).rings = s.rings := Eq.trans rfl rfl
@[simp] theorem State.withDirs_unans (x : SMap DirSt) : (s.withDirs x).unans = s.unans := Eq.trans rfl rfl
@[simp] theorem State.withDirs_cqs (x : SMap DirSt) : (s.withDirs x).cqs = s.cqs := Eq.trans rfl rfl
@[simp] theorem State.withDirs_turns (x : SMap DirSt) : (s.withDirs x).turns = s.turns := Eq.trans rfl rfl
@[simp] theorem State.withDirs_tfes (x : SMap DirSt) : (s.withDirs x).tfes = s.tfes := Eq.trans rfl rfl
@[simp] theorem State.withDirs_pkts (x : SMap DirSt) : (s.withDirs x).pkts = s.pkts := Eq.trans rfl rfl
@[simp] theorem State.withDirs_rtrs (x : SMap DirSt) : (s.withDirs x).rtrs = s.rtrs := Eq.trans rfl rfl
@[simp] theorem State.withDirs_sv (x : SMap DirSt) : (s.withDirs x).sv = s.sv := Eq.trans rfl rfl
@[simp] theorem State.withDirs_mss (x : SMap DirSt) : (s.withDirs x).mss = s.mss := Eq.trans rfl rfl
@[simp] theorem State.withDirs_ports (x : SMap DirSt) : (s.withDirs x).ports = s.ports := Eq.trans rfl rfl
@[simp] theorem State.withDirs_lamps (x : SMap DirSt) : (s.withDirs x).lamps = s.lamps := Eq.trans rfl rfl
@[simp] theorem State.withDirs_ptp (x : SMap DirSt) : (s.withDirs x).ptp = s.ptp := Eq.trans rfl rfl
@[simp] theorem State.withDirs_mrs (x : SMap DirSt) : (s.withDirs x).mrs = s.mrs := Eq.trans rfl rfl
@[simp] theorem State.withDirs_host (x : SMap DirSt) : (s.withDirs x).host = s.host := Eq.trans rfl rfl
@[simp] theorem State.withDirs_sec (x : SMap DirSt) : (s.withDirs x).sec = s.sec := Eq.trans rfl rfl
@[simp] theorem State.withDirs_boot (x : SMap DirSt) : (s.withDirs x).boot = s.boot := Eq.trans rfl rfl
@[simp] theorem State.withDirs_tst (x : SMap DirSt) : (s.withDirs x).tst = s.tst := Eq.trans rfl rfl
@[simp] theorem State.withDirs_fr (x : SMap DirSt) : (s.withDirs x).fr = s.fr := Eq.trans rfl rfl
@[simp] theorem State.withDirs_pwr (x : SMap DirSt) : (s.withDirs x).pwr = s.pwr := Eq.trans rfl rfl
@[simp] theorem State.withDirs_greset (x : SMap DirSt) : (s.withDirs x).greset = s.greset := Eq.trans rfl rfl
@[simp] theorem State.withDirs_ctx_ (x : SMap DirSt) (j : Nat) : (s.withDirs x).ctx j = s.ctx j := Eq.trans rfl rfl
@[simp] theorem State.withDirs_mctx_ (x : SMap DirSt) (j : Nat) : (s.withDirs x).mctx j = s.mctx j := Eq.trans rfl rfl
@[simp] theorem State.withDirs_reg (x : SMap DirSt) (a : Nat) : (s.withDirs x).reg a = s.reg a := Eq.trans rfl rfl
@[simp] theorem State.withDirs_fld (x : SMap DirSt) (f : Fld) : (s.withDirs x).fld f = s.fld f := Eq.trans rfl rfl
@[simp] theorem State.withDirs_sub (x : SMap DirSt) (a w i : Nat) : (s.withDirs x).sub a w i = s.sub a w i := Eq.trans rfl rfl
@[simp] theorem State.withDirs_rdByte (x : SMap DirSt) (j : Nat) : (s.withDirs x).rdByte j = s.rdByte j := Eq.trans rfl rfl

/-! ### withGms -/

@[simp] theorem State.withGms_pending (x : SMap GmSt) : (s.withGms x).pending = s.pending := Eq.trans rfl rfl
@[simp] theorem State.withGms_now (x : SMap GmSt) : (s.withGms x).now = s.now := Eq.trans rfl rfl
@[simp] theorem State.withGms_free (x : SMap GmSt) : (s.withGms x).free = s.free := Eq.trans rfl rfl
@[simp] theorem State.withGms_out (x : SMap GmSt) : (s.withGms x).out = s.out := Eq.trans rfl rfl
@[simp] theorem State.withGms_mode (x : SMap GmSt) : (s.withGms x).mode = s.mode := Eq.trans rfl rfl
@[simp] theorem State.withGms_drip (x : SMap GmSt) : (s.withGms x).drip = s.drip := Eq.trans rfl rfl
@[simp] theorem State.withGms_csr (x : SMap GmSt) : (s.withGms x).csr = s.csr := Eq.trans rfl rfl
@[simp] theorem State.withGms_mem (x : SMap GmSt) : (s.withGms x).mem = s.mem := Eq.trans rfl rfl
@[simp] theorem State.withGms_poison (x : SMap GmSt) : (s.withGms x).poison = s.poison := Eq.trans rfl rfl
@[simp] theorem State.withGms_gpoison (x : SMap GmSt) : (s.withGms x).gpoison = s.gpoison := Eq.trans rfl rfl
@[simp] theorem State.withGms_ueLog (x : SMap GmSt) : (s.withGms x).ueLog = s.ueLog := Eq.trans rfl rfl
@[simp] theorem State.withGms_zeroed (x : SMap GmSt) : (s.withGms x).zeroed = s.zeroed := Eq.trans rfl rfl
@[simp] theorem State.withGms_force (x : SMap GmSt) : (s.withGms x).force = s.force := Eq.trans rfl rfl
@[simp] theorem State.withGms_ctxs (x : SMap GmSt) : (s.withGms x).ctxs = s.ctxs := Eq.trans rfl rfl
@[simp] theorem State.withGms_cores (x : SMap GmSt) : (s.withGms x).cores = s.cores := Eq.trans rfl rfl
@[simp] theorem State.withGms_tasks (x : SMap GmSt) : (s.withGms x).tasks = s.tasks := Eq.trans rfl rfl
@[simp] theorem State.withGms_rts (x : SMap GmSt) : (s.withGms x).rts = s.rts := Eq.trans rfl rfl
@[simp] theorem State.withGms_dirs (x : SMap GmSt) : (s.withGms x).dirs = s.dirs := Eq.trans rfl rfl
@[simp] theorem State.withGms_gms (x : SMap GmSt) : (s.withGms x).gms = x := Eq.trans rfl rfl
@[simp] theorem State.withGms_mxes (x : SMap GmSt) : (s.withGms x).mxes = s.mxes := Eq.trans rfl rfl
@[simp] theorem State.withGms_curs (x : SMap GmSt) : (s.withGms x).curs = s.curs := Eq.trans rfl rfl
@[simp] theorem State.withGms_mctxs (x : SMap GmSt) : (s.withGms x).mctxs = s.mctxs := Eq.trans rfl rfl
@[simp] theorem State.withGms_net (x : SMap GmSt) : (s.withGms x).net = s.net := Eq.trans rfl rfl
@[simp] theorem State.withGms_answers (x : SMap GmSt) : (s.withGms x).answers = s.answers := Eq.trans rfl rfl
@[simp] theorem State.withGms_crets (x : SMap GmSt) : (s.withGms x).crets = s.crets := Eq.trans rfl rfl
@[simp] theorem State.withGms_rings (x : SMap GmSt) : (s.withGms x).rings = s.rings := Eq.trans rfl rfl
@[simp] theorem State.withGms_unans (x : SMap GmSt) : (s.withGms x).unans = s.unans := Eq.trans rfl rfl
@[simp] theorem State.withGms_cqs (x : SMap GmSt) : (s.withGms x).cqs = s.cqs := Eq.trans rfl rfl
@[simp] theorem State.withGms_turns (x : SMap GmSt) : (s.withGms x).turns = s.turns := Eq.trans rfl rfl
@[simp] theorem State.withGms_tfes (x : SMap GmSt) : (s.withGms x).tfes = s.tfes := Eq.trans rfl rfl
@[simp] theorem State.withGms_pkts (x : SMap GmSt) : (s.withGms x).pkts = s.pkts := Eq.trans rfl rfl
@[simp] theorem State.withGms_rtrs (x : SMap GmSt) : (s.withGms x).rtrs = s.rtrs := Eq.trans rfl rfl
@[simp] theorem State.withGms_sv (x : SMap GmSt) : (s.withGms x).sv = s.sv := Eq.trans rfl rfl
@[simp] theorem State.withGms_mss (x : SMap GmSt) : (s.withGms x).mss = s.mss := Eq.trans rfl rfl
@[simp] theorem State.withGms_ports (x : SMap GmSt) : (s.withGms x).ports = s.ports := Eq.trans rfl rfl
@[simp] theorem State.withGms_lamps (x : SMap GmSt) : (s.withGms x).lamps = s.lamps := Eq.trans rfl rfl
@[simp] theorem State.withGms_ptp (x : SMap GmSt) : (s.withGms x).ptp = s.ptp := Eq.trans rfl rfl
@[simp] theorem State.withGms_mrs (x : SMap GmSt) : (s.withGms x).mrs = s.mrs := Eq.trans rfl rfl
@[simp] theorem State.withGms_host (x : SMap GmSt) : (s.withGms x).host = s.host := Eq.trans rfl rfl
@[simp] theorem State.withGms_sec (x : SMap GmSt) : (s.withGms x).sec = s.sec := Eq.trans rfl rfl
@[simp] theorem State.withGms_boot (x : SMap GmSt) : (s.withGms x).boot = s.boot := Eq.trans rfl rfl
@[simp] theorem State.withGms_tst (x : SMap GmSt) : (s.withGms x).tst = s.tst := Eq.trans rfl rfl
@[simp] theorem State.withGms_fr (x : SMap GmSt) : (s.withGms x).fr = s.fr := Eq.trans rfl rfl
@[simp] theorem State.withGms_pwr (x : SMap GmSt) : (s.withGms x).pwr = s.pwr := Eq.trans rfl rfl
@[simp] theorem State.withGms_greset (x : SMap GmSt) : (s.withGms x).greset = s.greset := Eq.trans rfl rfl
@[simp] theorem State.withGms_ctx_ (x : SMap GmSt) (j : Nat) : (s.withGms x).ctx j = s.ctx j := Eq.trans rfl rfl
@[simp] theorem State.withGms_mctx_ (x : SMap GmSt) (j : Nat) : (s.withGms x).mctx j = s.mctx j := Eq.trans rfl rfl
@[simp] theorem State.withGms_reg (x : SMap GmSt) (a : Nat) : (s.withGms x).reg a = s.reg a := Eq.trans rfl rfl
@[simp] theorem State.withGms_fld (x : SMap GmSt) (f : Fld) : (s.withGms x).fld f = s.fld f := Eq.trans rfl rfl
@[simp] theorem State.withGms_sub (x : SMap GmSt) (a w i : Nat) : (s.withGms x).sub a w i = s.sub a w i := Eq.trans rfl rfl
@[simp] theorem State.withGms_rdByte (x : SMap GmSt) (j : Nat) : (s.withGms x).rdByte j = s.rdByte j := Eq.trans rfl rfl

/-! ### withMxes -/

@[simp] theorem State.withMxes_pending (x : SMap MxeSt) : (s.withMxes x).pending = s.pending := Eq.trans rfl rfl
@[simp] theorem State.withMxes_now (x : SMap MxeSt) : (s.withMxes x).now = s.now := Eq.trans rfl rfl
@[simp] theorem State.withMxes_free (x : SMap MxeSt) : (s.withMxes x).free = s.free := Eq.trans rfl rfl
@[simp] theorem State.withMxes_out (x : SMap MxeSt) : (s.withMxes x).out = s.out := Eq.trans rfl rfl
@[simp] theorem State.withMxes_mode (x : SMap MxeSt) : (s.withMxes x).mode = s.mode := Eq.trans rfl rfl
@[simp] theorem State.withMxes_drip (x : SMap MxeSt) : (s.withMxes x).drip = s.drip := Eq.trans rfl rfl
@[simp] theorem State.withMxes_csr (x : SMap MxeSt) : (s.withMxes x).csr = s.csr := Eq.trans rfl rfl
@[simp] theorem State.withMxes_mem (x : SMap MxeSt) : (s.withMxes x).mem = s.mem := Eq.trans rfl rfl
@[simp] theorem State.withMxes_poison (x : SMap MxeSt) : (s.withMxes x).poison = s.poison := Eq.trans rfl rfl
@[simp] theorem State.withMxes_gpoison (x : SMap MxeSt) : (s.withMxes x).gpoison = s.gpoison := Eq.trans rfl rfl
@[simp] theorem State.withMxes_ueLog (x : SMap MxeSt) : (s.withMxes x).ueLog = s.ueLog := Eq.trans rfl rfl
@[simp] theorem State.withMxes_zeroed (x : SMap MxeSt) : (s.withMxes x).zeroed = s.zeroed := Eq.trans rfl rfl
@[simp] theorem State.withMxes_force (x : SMap MxeSt) : (s.withMxes x).force = s.force := Eq.trans rfl rfl
@[simp] theorem State.withMxes_ctxs (x : SMap MxeSt) : (s.withMxes x).ctxs = s.ctxs := Eq.trans rfl rfl
@[simp] theorem State.withMxes_cores (x : SMap MxeSt) : (s.withMxes x).cores = s.cores := Eq.trans rfl rfl
@[simp] theorem State.withMxes_tasks (x : SMap MxeSt) : (s.withMxes x).tasks = s.tasks := Eq.trans rfl rfl
@[simp] theorem State.withMxes_rts (x : SMap MxeSt) : (s.withMxes x).rts = s.rts := Eq.trans rfl rfl
@[simp] theorem State.withMxes_dirs (x : SMap MxeSt) : (s.withMxes x).dirs = s.dirs := Eq.trans rfl rfl
@[simp] theorem State.withMxes_gms (x : SMap MxeSt) : (s.withMxes x).gms = s.gms := Eq.trans rfl rfl
@[simp] theorem State.withMxes_mxes (x : SMap MxeSt) : (s.withMxes x).mxes = x := Eq.trans rfl rfl
@[simp] theorem State.withMxes_curs (x : SMap MxeSt) : (s.withMxes x).curs = s.curs := Eq.trans rfl rfl
@[simp] theorem State.withMxes_mctxs (x : SMap MxeSt) : (s.withMxes x).mctxs = s.mctxs := Eq.trans rfl rfl
@[simp] theorem State.withMxes_net (x : SMap MxeSt) : (s.withMxes x).net = s.net := Eq.trans rfl rfl
@[simp] theorem State.withMxes_answers (x : SMap MxeSt) : (s.withMxes x).answers = s.answers := Eq.trans rfl rfl
@[simp] theorem State.withMxes_crets (x : SMap MxeSt) : (s.withMxes x).crets = s.crets := Eq.trans rfl rfl
@[simp] theorem State.withMxes_rings (x : SMap MxeSt) : (s.withMxes x).rings = s.rings := Eq.trans rfl rfl
@[simp] theorem State.withMxes_unans (x : SMap MxeSt) : (s.withMxes x).unans = s.unans := Eq.trans rfl rfl
@[simp] theorem State.withMxes_cqs (x : SMap MxeSt) : (s.withMxes x).cqs = s.cqs := Eq.trans rfl rfl
@[simp] theorem State.withMxes_turns (x : SMap MxeSt) : (s.withMxes x).turns = s.turns := Eq.trans rfl rfl
@[simp] theorem State.withMxes_tfes (x : SMap MxeSt) : (s.withMxes x).tfes = s.tfes := Eq.trans rfl rfl
@[simp] theorem State.withMxes_pkts (x : SMap MxeSt) : (s.withMxes x).pkts = s.pkts := Eq.trans rfl rfl
@[simp] theorem State.withMxes_rtrs (x : SMap MxeSt) : (s.withMxes x).rtrs = s.rtrs := Eq.trans rfl rfl
@[simp] theorem State.withMxes_sv (x : SMap MxeSt) : (s.withMxes x).sv = s.sv := Eq.trans rfl rfl
@[simp] theorem State.withMxes_mss (x : SMap MxeSt) : (s.withMxes x).mss = s.mss := Eq.trans rfl rfl
@[simp] theorem State.withMxes_ports (x : SMap MxeSt) : (s.withMxes x).ports = s.ports := Eq.trans rfl rfl
@[simp] theorem State.withMxes_lamps (x : SMap MxeSt) : (s.withMxes x).lamps = s.lamps := Eq.trans rfl rfl
@[simp] theorem State.withMxes_ptp (x : SMap MxeSt) : (s.withMxes x).ptp = s.ptp := Eq.trans rfl rfl
@[simp] theorem State.withMxes_mrs (x : SMap MxeSt) : (s.withMxes x).mrs = s.mrs := Eq.trans rfl rfl
@[simp] theorem State.withMxes_host (x : SMap MxeSt) : (s.withMxes x).host = s.host := Eq.trans rfl rfl
@[simp] theorem State.withMxes_sec (x : SMap MxeSt) : (s.withMxes x).sec = s.sec := Eq.trans rfl rfl
@[simp] theorem State.withMxes_boot (x : SMap MxeSt) : (s.withMxes x).boot = s.boot := Eq.trans rfl rfl
@[simp] theorem State.withMxes_tst (x : SMap MxeSt) : (s.withMxes x).tst = s.tst := Eq.trans rfl rfl
@[simp] theorem State.withMxes_fr (x : SMap MxeSt) : (s.withMxes x).fr = s.fr := Eq.trans rfl rfl
@[simp] theorem State.withMxes_pwr (x : SMap MxeSt) : (s.withMxes x).pwr = s.pwr := Eq.trans rfl rfl
@[simp] theorem State.withMxes_greset (x : SMap MxeSt) : (s.withMxes x).greset = s.greset := Eq.trans rfl rfl
@[simp] theorem State.withMxes_ctx_ (x : SMap MxeSt) (j : Nat) : (s.withMxes x).ctx j = s.ctx j := Eq.trans rfl rfl
@[simp] theorem State.withMxes_mctx_ (x : SMap MxeSt) (j : Nat) : (s.withMxes x).mctx j = s.mctx j := Eq.trans rfl rfl
@[simp] theorem State.withMxes_reg (x : SMap MxeSt) (a : Nat) : (s.withMxes x).reg a = s.reg a := Eq.trans rfl rfl
@[simp] theorem State.withMxes_fld (x : SMap MxeSt) (f : Fld) : (s.withMxes x).fld f = s.fld f := Eq.trans rfl rfl
@[simp] theorem State.withMxes_sub (x : SMap MxeSt) (a w i : Nat) : (s.withMxes x).sub a w i = s.sub a w i := Eq.trans rfl rfl
@[simp] theorem State.withMxes_rdByte (x : SMap MxeSt) (j : Nat) : (s.withMxes x).rdByte j = s.rdByte j := Eq.trans rfl rfl

/-! ### withCurs -/

@[simp] theorem State.withCurs_pending (x : SMap CurSt) : (s.withCurs x).pending = s.pending := Eq.trans rfl rfl
@[simp] theorem State.withCurs_now (x : SMap CurSt) : (s.withCurs x).now = s.now := Eq.trans rfl rfl
@[simp] theorem State.withCurs_free (x : SMap CurSt) : (s.withCurs x).free = s.free := Eq.trans rfl rfl
@[simp] theorem State.withCurs_out (x : SMap CurSt) : (s.withCurs x).out = s.out := Eq.trans rfl rfl
@[simp] theorem State.withCurs_mode (x : SMap CurSt) : (s.withCurs x).mode = s.mode := Eq.trans rfl rfl
@[simp] theorem State.withCurs_drip (x : SMap CurSt) : (s.withCurs x).drip = s.drip := Eq.trans rfl rfl
@[simp] theorem State.withCurs_csr (x : SMap CurSt) : (s.withCurs x).csr = s.csr := Eq.trans rfl rfl
@[simp] theorem State.withCurs_mem (x : SMap CurSt) : (s.withCurs x).mem = s.mem := Eq.trans rfl rfl
@[simp] theorem State.withCurs_poison (x : SMap CurSt) : (s.withCurs x).poison = s.poison := Eq.trans rfl rfl
@[simp] theorem State.withCurs_gpoison (x : SMap CurSt) : (s.withCurs x).gpoison = s.gpoison := Eq.trans rfl rfl
@[simp] theorem State.withCurs_ueLog (x : SMap CurSt) : (s.withCurs x).ueLog = s.ueLog := Eq.trans rfl rfl
@[simp] theorem State.withCurs_zeroed (x : SMap CurSt) : (s.withCurs x).zeroed = s.zeroed := Eq.trans rfl rfl
@[simp] theorem State.withCurs_force (x : SMap CurSt) : (s.withCurs x).force = s.force := Eq.trans rfl rfl
@[simp] theorem State.withCurs_ctxs (x : SMap CurSt) : (s.withCurs x).ctxs = s.ctxs := Eq.trans rfl rfl
@[simp] theorem State.withCurs_cores (x : SMap CurSt) : (s.withCurs x).cores = s.cores := Eq.trans rfl rfl
@[simp] theorem State.withCurs_tasks (x : SMap CurSt) : (s.withCurs x).tasks = s.tasks := Eq.trans rfl rfl
@[simp] theorem State.withCurs_rts (x : SMap CurSt) : (s.withCurs x).rts = s.rts := Eq.trans rfl rfl
@[simp] theorem State.withCurs_dirs (x : SMap CurSt) : (s.withCurs x).dirs = s.dirs := Eq.trans rfl rfl
@[simp] theorem State.withCurs_gms (x : SMap CurSt) : (s.withCurs x).gms = s.gms := Eq.trans rfl rfl
@[simp] theorem State.withCurs_mxes (x : SMap CurSt) : (s.withCurs x).mxes = s.mxes := Eq.trans rfl rfl
@[simp] theorem State.withCurs_curs (x : SMap CurSt) : (s.withCurs x).curs = x := Eq.trans rfl rfl
@[simp] theorem State.withCurs_mctxs (x : SMap CurSt) : (s.withCurs x).mctxs = s.mctxs := Eq.trans rfl rfl
@[simp] theorem State.withCurs_net (x : SMap CurSt) : (s.withCurs x).net = s.net := Eq.trans rfl rfl
@[simp] theorem State.withCurs_answers (x : SMap CurSt) : (s.withCurs x).answers = s.answers := Eq.trans rfl rfl
@[simp] theorem State.withCurs_crets (x : SMap CurSt) : (s.withCurs x).crets = s.crets := Eq.trans rfl rfl
@[simp] theorem State.withCurs_rings (x : SMap CurSt) : (s.withCurs x).rings = s.rings := Eq.trans rfl rfl
@[simp] theorem State.withCurs_unans (x : SMap CurSt) : (s.withCurs x).unans = s.unans := Eq.trans rfl rfl
@[simp] theorem State.withCurs_cqs (x : SMap CurSt) : (s.withCurs x).cqs = s.cqs := Eq.trans rfl rfl
@[simp] theorem State.withCurs_turns (x : SMap CurSt) : (s.withCurs x).turns = s.turns := Eq.trans rfl rfl
@[simp] theorem State.withCurs_tfes (x : SMap CurSt) : (s.withCurs x).tfes = s.tfes := Eq.trans rfl rfl
@[simp] theorem State.withCurs_pkts (x : SMap CurSt) : (s.withCurs x).pkts = s.pkts := Eq.trans rfl rfl
@[simp] theorem State.withCurs_rtrs (x : SMap CurSt) : (s.withCurs x).rtrs = s.rtrs := Eq.trans rfl rfl
@[simp] theorem State.withCurs_sv (x : SMap CurSt) : (s.withCurs x).sv = s.sv := Eq.trans rfl rfl
@[simp] theorem State.withCurs_mss (x : SMap CurSt) : (s.withCurs x).mss = s.mss := Eq.trans rfl rfl
@[simp] theorem State.withCurs_ports (x : SMap CurSt) : (s.withCurs x).ports = s.ports := Eq.trans rfl rfl
@[simp] theorem State.withCurs_lamps (x : SMap CurSt) : (s.withCurs x).lamps = s.lamps := Eq.trans rfl rfl
@[simp] theorem State.withCurs_ptp (x : SMap CurSt) : (s.withCurs x).ptp = s.ptp := Eq.trans rfl rfl
@[simp] theorem State.withCurs_mrs (x : SMap CurSt) : (s.withCurs x).mrs = s.mrs := Eq.trans rfl rfl
@[simp] theorem State.withCurs_host (x : SMap CurSt) : (s.withCurs x).host = s.host := Eq.trans rfl rfl
@[simp] theorem State.withCurs_sec (x : SMap CurSt) : (s.withCurs x).sec = s.sec := Eq.trans rfl rfl
@[simp] theorem State.withCurs_boot (x : SMap CurSt) : (s.withCurs x).boot = s.boot := Eq.trans rfl rfl
@[simp] theorem State.withCurs_tst (x : SMap CurSt) : (s.withCurs x).tst = s.tst := Eq.trans rfl rfl
@[simp] theorem State.withCurs_fr (x : SMap CurSt) : (s.withCurs x).fr = s.fr := Eq.trans rfl rfl
@[simp] theorem State.withCurs_pwr (x : SMap CurSt) : (s.withCurs x).pwr = s.pwr := Eq.trans rfl rfl
@[simp] theorem State.withCurs_greset (x : SMap CurSt) : (s.withCurs x).greset = s.greset := Eq.trans rfl rfl
@[simp] theorem State.withCurs_ctx_ (x : SMap CurSt) (j : Nat) : (s.withCurs x).ctx j = s.ctx j := Eq.trans rfl rfl
@[simp] theorem State.withCurs_mctx_ (x : SMap CurSt) (j : Nat) : (s.withCurs x).mctx j = s.mctx j := Eq.trans rfl rfl
@[simp] theorem State.withCurs_reg (x : SMap CurSt) (a : Nat) : (s.withCurs x).reg a = s.reg a := Eq.trans rfl rfl
@[simp] theorem State.withCurs_fld (x : SMap CurSt) (f : Fld) : (s.withCurs x).fld f = s.fld f := Eq.trans rfl rfl
@[simp] theorem State.withCurs_sub (x : SMap CurSt) (a w i : Nat) : (s.withCurs x).sub a w i = s.sub a w i := Eq.trans rfl rfl
@[simp] theorem State.withCurs_rdByte (x : SMap CurSt) (j : Nat) : (s.withCurs x).rdByte j = s.rdByte j := Eq.trans rfl rfl

/-! ### withMctxs -/

@[simp] theorem State.withMctxs_pending (x : SMap Ctx) : (s.withMctxs x).pending = s.pending := Eq.trans rfl rfl
@[simp] theorem State.withMctxs_now (x : SMap Ctx) : (s.withMctxs x).now = s.now := Eq.trans rfl rfl
@[simp] theorem State.withMctxs_free (x : SMap Ctx) : (s.withMctxs x).free = s.free := Eq.trans rfl rfl
@[simp] theorem State.withMctxs_out (x : SMap Ctx) : (s.withMctxs x).out = s.out := Eq.trans rfl rfl
@[simp] theorem State.withMctxs_mode (x : SMap Ctx) : (s.withMctxs x).mode = s.mode := Eq.trans rfl rfl
@[simp] theorem State.withMctxs_drip (x : SMap Ctx) : (s.withMctxs x).drip = s.drip := Eq.trans rfl rfl
@[simp] theorem State.withMctxs_csr (x : SMap Ctx) : (s.withMctxs x).csr = s.csr := Eq.trans rfl rfl
@[simp] theorem State.withMctxs_mem (x : SMap Ctx) : (s.withMctxs x).mem = s.mem := Eq.trans rfl rfl
@[simp] theorem State.withMctxs_poison (x : SMap Ctx) : (s.withMctxs x).poison = s.poison := Eq.trans rfl rfl
@[simp] theorem State.withMctxs_gpoison (x : SMap Ctx) : (s.withMctxs x).gpoison = s.gpoison := Eq.trans rfl rfl
@[simp] theorem State.withMctxs_ueLog (x : SMap Ctx) : (s.withMctxs x).ueLog = s.ueLog := Eq.trans rfl rfl
@[simp] theorem State.withMctxs_zeroed (x : SMap Ctx) : (s.withMctxs x).zeroed = s.zeroed := Eq.trans rfl rfl
@[simp] theorem State.withMctxs_force (x : SMap Ctx) : (s.withMctxs x).force = s.force := Eq.trans rfl rfl
@[simp] theorem State.withMctxs_ctxs (x : SMap Ctx) : (s.withMctxs x).ctxs = s.ctxs := Eq.trans rfl rfl
@[simp] theorem State.withMctxs_cores (x : SMap Ctx) : (s.withMctxs x).cores = s.cores := Eq.trans rfl rfl
@[simp] theorem State.withMctxs_tasks (x : SMap Ctx) : (s.withMctxs x).tasks = s.tasks := Eq.trans rfl rfl
@[simp] theorem State.withMctxs_rts (x : SMap Ctx) : (s.withMctxs x).rts = s.rts := Eq.trans rfl rfl
@[simp] theorem State.withMctxs_dirs (x : SMap Ctx) : (s.withMctxs x).dirs = s.dirs := Eq.trans rfl rfl
@[simp] theorem State.withMctxs_gms (x : SMap Ctx) : (s.withMctxs x).gms = s.gms := Eq.trans rfl rfl
@[simp] theorem State.withMctxs_mxes (x : SMap Ctx) : (s.withMctxs x).mxes = s.mxes := Eq.trans rfl rfl
@[simp] theorem State.withMctxs_curs (x : SMap Ctx) : (s.withMctxs x).curs = s.curs := Eq.trans rfl rfl
@[simp] theorem State.withMctxs_mctxs (x : SMap Ctx) : (s.withMctxs x).mctxs = x := Eq.trans rfl rfl
@[simp] theorem State.withMctxs_net (x : SMap Ctx) : (s.withMctxs x).net = s.net := Eq.trans rfl rfl
@[simp] theorem State.withMctxs_answers (x : SMap Ctx) : (s.withMctxs x).answers = s.answers := Eq.trans rfl rfl
@[simp] theorem State.withMctxs_crets (x : SMap Ctx) : (s.withMctxs x).crets = s.crets := Eq.trans rfl rfl
@[simp] theorem State.withMctxs_rings (x : SMap Ctx) : (s.withMctxs x).rings = s.rings := Eq.trans rfl rfl
@[simp] theorem State.withMctxs_unans (x : SMap Ctx) : (s.withMctxs x).unans = s.unans := Eq.trans rfl rfl
@[simp] theorem State.withMctxs_cqs (x : SMap Ctx) : (s.withMctxs x).cqs = s.cqs := Eq.trans rfl rfl
@[simp] theorem State.withMctxs_turns (x : SMap Ctx) : (s.withMctxs x).turns = s.turns := Eq.trans rfl rfl
@[simp] theorem State.withMctxs_tfes (x : SMap Ctx) : (s.withMctxs x).tfes = s.tfes := Eq.trans rfl rfl
@[simp] theorem State.withMctxs_pkts (x : SMap Ctx) : (s.withMctxs x).pkts = s.pkts := Eq.trans rfl rfl
@[simp] theorem State.withMctxs_rtrs (x : SMap Ctx) : (s.withMctxs x).rtrs = s.rtrs := Eq.trans rfl rfl
@[simp] theorem State.withMctxs_sv (x : SMap Ctx) : (s.withMctxs x).sv = s.sv := Eq.trans rfl rfl
@[simp] theorem State.withMctxs_mss (x : SMap Ctx) : (s.withMctxs x).mss = s.mss := Eq.trans rfl rfl
@[simp] theorem State.withMctxs_ports (x : SMap Ctx) : (s.withMctxs x).ports = s.ports := Eq.trans rfl rfl
@[simp] theorem State.withMctxs_lamps (x : SMap Ctx) : (s.withMctxs x).lamps = s.lamps := Eq.trans rfl rfl
@[simp] theorem State.withMctxs_ptp (x : SMap Ctx) : (s.withMctxs x).ptp = s.ptp := Eq.trans rfl rfl
@[simp] theorem State.withMctxs_mrs (x : SMap Ctx) : (s.withMctxs x).mrs = s.mrs := Eq.trans rfl rfl
@[simp] theorem State.withMctxs_host (x : SMap Ctx) : (s.withMctxs x).host = s.host := Eq.trans rfl rfl
@[simp] theorem State.withMctxs_sec (x : SMap Ctx) : (s.withMctxs x).sec = s.sec := Eq.trans rfl rfl
@[simp] theorem State.withMctxs_boot (x : SMap Ctx) : (s.withMctxs x).boot = s.boot := Eq.trans rfl rfl
@[simp] theorem State.withMctxs_tst (x : SMap Ctx) : (s.withMctxs x).tst = s.tst := Eq.trans rfl rfl
@[simp] theorem State.withMctxs_fr (x : SMap Ctx) : (s.withMctxs x).fr = s.fr := Eq.trans rfl rfl
@[simp] theorem State.withMctxs_pwr (x : SMap Ctx) : (s.withMctxs x).pwr = s.pwr := Eq.trans rfl rfl
@[simp] theorem State.withMctxs_greset (x : SMap Ctx) : (s.withMctxs x).greset = s.greset := Eq.trans rfl rfl
@[simp] theorem State.withMctxs_ctx_ (x : SMap Ctx) (j : Nat) : (s.withMctxs x).ctx j = s.ctx j := Eq.trans rfl rfl
@[simp] theorem State.withMctxs_reg (x : SMap Ctx) (a : Nat) : (s.withMctxs x).reg a = s.reg a := Eq.trans rfl rfl
@[simp] theorem State.withMctxs_fld (x : SMap Ctx) (f : Fld) : (s.withMctxs x).fld f = s.fld f := Eq.trans rfl rfl
@[simp] theorem State.withMctxs_sub (x : SMap Ctx) (a w i : Nat) : (s.withMctxs x).sub a w i = s.sub a w i := Eq.trans rfl rfl
@[simp] theorem State.withMctxs_rdByte (x : SMap Ctx) (j : Nat) : (s.withMctxs x).rdByte j = s.rdByte j := Eq.trans rfl rfl

/-! ### withNet -/

@[simp] theorem State.withNet_pending (x : List Rec) : (s.withNet x).pending = s.pending := Eq.trans rfl rfl
@[simp] theorem State.withNet_now (x : List Rec) : (s.withNet x).now = s.now := Eq.trans rfl rfl
@[simp] theorem State.withNet_free (x : List Rec) : (s.withNet x).free = s.free := Eq.trans rfl rfl
@[simp] theorem State.withNet_out (x : List Rec) : (s.withNet x).out = s.out := Eq.trans rfl rfl
@[simp] theorem State.withNet_mode (x : List Rec) : (s.withNet x).mode = s.mode := Eq.trans rfl rfl
@[simp] theorem State.withNet_drip (x : List Rec) : (s.withNet x).drip = s.drip := Eq.trans rfl rfl
@[simp] theorem State.withNet_csr (x : List Rec) : (s.withNet x).csr = s.csr := Eq.trans rfl rfl
@[simp] theorem State.withNet_mem (x : List Rec) : (s.withNet x).mem = s.mem := Eq.trans rfl rfl
@[simp] theorem State.withNet_poison (x : List Rec) : (s.withNet x).poison = s.poison := Eq.trans rfl rfl
@[simp] theorem State.withNet_gpoison (x : List Rec) : (s.withNet x).gpoison = s.gpoison := Eq.trans rfl rfl
@[simp] theorem State.withNet_ueLog (x : List Rec) : (s.withNet x).ueLog = s.ueLog := Eq.trans rfl rfl
@[simp] theorem State.withNet_zeroed (x : List Rec) : (s.withNet x).zeroed = s.zeroed := Eq.trans rfl rfl
@[simp] theorem State.withNet_force (x : List Rec) : (s.withNet x).force = s.force := Eq.trans rfl rfl
@[simp] theorem State.withNet_ctxs (x : List Rec) : (s.withNet x).ctxs = s.ctxs := Eq.trans rfl rfl
@[simp] theorem State.withNet_cores (x : List Rec) : (s.withNet x).cores = s.cores := Eq.trans rfl rfl
@[simp] theorem State.withNet_tasks (x : List Rec) : (s.withNet x).tasks = s.tasks := Eq.trans rfl rfl
@[simp] theorem State.withNet_rts (x : List Rec) : (s.withNet x).rts = s.rts := Eq.trans rfl rfl
@[simp] theorem State.withNet_dirs (x : List Rec) : (s.withNet x).dirs = s.dirs := Eq.trans rfl rfl
@[simp] theorem State.withNet_gms (x : List Rec) : (s.withNet x).gms = s.gms := Eq.trans rfl rfl
@[simp] theorem State.withNet_mxes (x : List Rec) : (s.withNet x).mxes = s.mxes := Eq.trans rfl rfl
@[simp] theorem State.withNet_curs (x : List Rec) : (s.withNet x).curs = s.curs := Eq.trans rfl rfl
@[simp] theorem State.withNet_mctxs (x : List Rec) : (s.withNet x).mctxs = s.mctxs := Eq.trans rfl rfl
@[simp] theorem State.withNet_net (x : List Rec) : (s.withNet x).net = x := Eq.trans rfl rfl
@[simp] theorem State.withNet_answers (x : List Rec) : (s.withNet x).answers = s.answers := Eq.trans rfl rfl
@[simp] theorem State.withNet_crets (x : List Rec) : (s.withNet x).crets = s.crets := Eq.trans rfl rfl
@[simp] theorem State.withNet_rings (x : List Rec) : (s.withNet x).rings = s.rings := Eq.trans rfl rfl
@[simp] theorem State.withNet_unans (x : List Rec) : (s.withNet x).unans = s.unans := Eq.trans rfl rfl
@[simp] theorem State.withNet_cqs (x : List Rec) : (s.withNet x).cqs = s.cqs := Eq.trans rfl rfl
@[simp] theorem State.withNet_turns (x : List Rec) : (s.withNet x).turns = s.turns := Eq.trans rfl rfl
@[simp] theorem State.withNet_tfes (x : List Rec) : (s.withNet x).tfes = s.tfes := Eq.trans rfl rfl
@[simp] theorem State.withNet_pkts (x : List Rec) : (s.withNet x).pkts = s.pkts := Eq.trans rfl rfl
@[simp] theorem State.withNet_rtrs (x : List Rec) : (s.withNet x).rtrs = s.rtrs := Eq.trans rfl rfl
@[simp] theorem State.withNet_sv (x : List Rec) : (s.withNet x).sv = s.sv := Eq.trans rfl rfl
@[simp] theorem State.withNet_mss (x : List Rec) : (s.withNet x).mss = s.mss := Eq.trans rfl rfl
@[simp] theorem State.withNet_ports (x : List Rec) : (s.withNet x).ports = s.ports := Eq.trans rfl rfl
@[simp] theorem State.withNet_lamps (x : List Rec) : (s.withNet x).lamps = s.lamps := Eq.trans rfl rfl
@[simp] theorem State.withNet_ptp (x : List Rec) : (s.withNet x).ptp = s.ptp := Eq.trans rfl rfl
@[simp] theorem State.withNet_mrs (x : List Rec) : (s.withNet x).mrs = s.mrs := Eq.trans rfl rfl
@[simp] theorem State.withNet_host (x : List Rec) : (s.withNet x).host = s.host := Eq.trans rfl rfl
@[simp] theorem State.withNet_sec (x : List Rec) : (s.withNet x).sec = s.sec := Eq.trans rfl rfl
@[simp] theorem State.withNet_boot (x : List Rec) : (s.withNet x).boot = s.boot := Eq.trans rfl rfl
@[simp] theorem State.withNet_tst (x : List Rec) : (s.withNet x).tst = s.tst := Eq.trans rfl rfl
@[simp] theorem State.withNet_fr (x : List Rec) : (s.withNet x).fr = s.fr := Eq.trans rfl rfl
@[simp] theorem State.withNet_pwr (x : List Rec) : (s.withNet x).pwr = s.pwr := Eq.trans rfl rfl
@[simp] theorem State.withNet_greset (x : List Rec) : (s.withNet x).greset = s.greset := Eq.trans rfl rfl
@[simp] theorem State.withNet_ctx_ (x : List Rec) (j : Nat) : (s.withNet x).ctx j = s.ctx j := Eq.trans rfl rfl
@[simp] theorem State.withNet_mctx_ (x : List Rec) (j : Nat) : (s.withNet x).mctx j = s.mctx j := Eq.trans rfl rfl
@[simp] theorem State.withNet_reg (x : List Rec) (a : Nat) : (s.withNet x).reg a = s.reg a := Eq.trans rfl rfl
@[simp] theorem State.withNet_fld (x : List Rec) (f : Fld) : (s.withNet x).fld f = s.fld f := Eq.trans rfl rfl
@[simp] theorem State.withNet_sub (x : List Rec) (a w i : Nat) : (s.withNet x).sub a w i = s.sub a w i := Eq.trans rfl rfl
@[simp] theorem State.withNet_rdByte (x : List Rec) (j : Nat) : (s.withNet x).rdByte j = s.rdByte j := Eq.trans rfl rfl

/-! ### withAnswers -/

@[simp] theorem State.withAnswers_pending (x : List Ans) : (s.withAnswers x).pending = s.pending := Eq.trans rfl rfl
@[simp] theorem State.withAnswers_now (x : List Ans) : (s.withAnswers x).now = s.now := Eq.trans rfl rfl
@[simp] theorem State.withAnswers_free (x : List Ans) : (s.withAnswers x).free = s.free := Eq.trans rfl rfl
@[simp] theorem State.withAnswers_out (x : List Ans) : (s.withAnswers x).out = s.out := Eq.trans rfl rfl
@[simp] theorem State.withAnswers_mode (x : List Ans) : (s.withAnswers x).mode = s.mode := Eq.trans rfl rfl
@[simp] theorem State.withAnswers_drip (x : List Ans) : (s.withAnswers x).drip = s.drip := Eq.trans rfl rfl
@[simp] theorem State.withAnswers_csr (x : List Ans) : (s.withAnswers x).csr = s.csr := Eq.trans rfl rfl
@[simp] theorem State.withAnswers_mem (x : List Ans) : (s.withAnswers x).mem = s.mem := Eq.trans rfl rfl
@[simp] theorem State.withAnswers_poison (x : List Ans) : (s.withAnswers x).poison = s.poison := Eq.trans rfl rfl
@[simp] theorem State.withAnswers_gpoison (x : List Ans) : (s.withAnswers x).gpoison = s.gpoison := Eq.trans rfl rfl
@[simp] theorem State.withAnswers_ueLog (x : List Ans) : (s.withAnswers x).ueLog = s.ueLog := Eq.trans rfl rfl
@[simp] theorem State.withAnswers_zeroed (x : List Ans) : (s.withAnswers x).zeroed = s.zeroed := Eq.trans rfl rfl
@[simp] theorem State.withAnswers_force (x : List Ans) : (s.withAnswers x).force = s.force := Eq.trans rfl rfl
@[simp] theorem State.withAnswers_ctxs (x : List Ans) : (s.withAnswers x).ctxs = s.ctxs := Eq.trans rfl rfl
@[simp] theorem State.withAnswers_cores (x : List Ans) : (s.withAnswers x).cores = s.cores := Eq.trans rfl rfl
@[simp] theorem State.withAnswers_tasks (x : List Ans) : (s.withAnswers x).tasks = s.tasks := Eq.trans rfl rfl
@[simp] theorem State.withAnswers_rts (x : List Ans) : (s.withAnswers x).rts = s.rts := Eq.trans rfl rfl
@[simp] theorem State.withAnswers_dirs (x : List Ans) : (s.withAnswers x).dirs = s.dirs := Eq.trans rfl rfl
@[simp] theorem State.withAnswers_gms (x : List Ans) : (s.withAnswers x).gms = s.gms := Eq.trans rfl rfl
@[simp] theorem State.withAnswers_mxes (x : List Ans) : (s.withAnswers x).mxes = s.mxes := Eq.trans rfl rfl
@[simp] theorem State.withAnswers_curs (x : List Ans) : (s.withAnswers x).curs = s.curs := Eq.trans rfl rfl
@[simp] theorem State.withAnswers_mctxs (x : List Ans) : (s.withAnswers x).mctxs = s.mctxs := Eq.trans rfl rfl
@[simp] theorem State.withAnswers_net (x : List Ans) : (s.withAnswers x).net = s.net := Eq.trans rfl rfl
@[simp] theorem State.withAnswers_answers (x : List Ans) : (s.withAnswers x).answers = x := Eq.trans rfl rfl
@[simp] theorem State.withAnswers_crets (x : List Ans) : (s.withAnswers x).crets = s.crets := Eq.trans rfl rfl
@[simp] theorem State.withAnswers_rings (x : List Ans) : (s.withAnswers x).rings = s.rings := Eq.trans rfl rfl
@[simp] theorem State.withAnswers_unans (x : List Ans) : (s.withAnswers x).unans = s.unans := Eq.trans rfl rfl
@[simp] theorem State.withAnswers_cqs (x : List Ans) : (s.withAnswers x).cqs = s.cqs := Eq.trans rfl rfl
@[simp] theorem State.withAnswers_turns (x : List Ans) : (s.withAnswers x).turns = s.turns := Eq.trans rfl rfl
@[simp] theorem State.withAnswers_tfes (x : List Ans) : (s.withAnswers x).tfes = s.tfes := Eq.trans rfl rfl
@[simp] theorem State.withAnswers_pkts (x : List Ans) : (s.withAnswers x).pkts = s.pkts := Eq.trans rfl rfl
@[simp] theorem State.withAnswers_rtrs (x : List Ans) : (s.withAnswers x).rtrs = s.rtrs := Eq.trans rfl rfl
@[simp] theorem State.withAnswers_sv (x : List Ans) : (s.withAnswers x).sv = s.sv := Eq.trans rfl rfl
@[simp] theorem State.withAnswers_mss (x : List Ans) : (s.withAnswers x).mss = s.mss := Eq.trans rfl rfl
@[simp] theorem State.withAnswers_ports (x : List Ans) : (s.withAnswers x).ports = s.ports := Eq.trans rfl rfl
@[simp] theorem State.withAnswers_lamps (x : List Ans) : (s.withAnswers x).lamps = s.lamps := Eq.trans rfl rfl
@[simp] theorem State.withAnswers_ptp (x : List Ans) : (s.withAnswers x).ptp = s.ptp := Eq.trans rfl rfl
@[simp] theorem State.withAnswers_mrs (x : List Ans) : (s.withAnswers x).mrs = s.mrs := Eq.trans rfl rfl
@[simp] theorem State.withAnswers_host (x : List Ans) : (s.withAnswers x).host = s.host := Eq.trans rfl rfl
@[simp] theorem State.withAnswers_sec (x : List Ans) : (s.withAnswers x).sec = s.sec := Eq.trans rfl rfl
@[simp] theorem State.withAnswers_boot (x : List Ans) : (s.withAnswers x).boot = s.boot := Eq.trans rfl rfl
@[simp] theorem State.withAnswers_tst (x : List Ans) : (s.withAnswers x).tst = s.tst := Eq.trans rfl rfl
@[simp] theorem State.withAnswers_fr (x : List Ans) : (s.withAnswers x).fr = s.fr := Eq.trans rfl rfl
@[simp] theorem State.withAnswers_pwr (x : List Ans) : (s.withAnswers x).pwr = s.pwr := Eq.trans rfl rfl
@[simp] theorem State.withAnswers_greset (x : List Ans) : (s.withAnswers x).greset = s.greset := Eq.trans rfl rfl
@[simp] theorem State.withAnswers_ctx_ (x : List Ans) (j : Nat) : (s.withAnswers x).ctx j = s.ctx j := Eq.trans rfl rfl
@[simp] theorem State.withAnswers_mctx_ (x : List Ans) (j : Nat) : (s.withAnswers x).mctx j = s.mctx j := Eq.trans rfl rfl
@[simp] theorem State.withAnswers_reg (x : List Ans) (a : Nat) : (s.withAnswers x).reg a = s.reg a := Eq.trans rfl rfl
@[simp] theorem State.withAnswers_fld (x : List Ans) (f : Fld) : (s.withAnswers x).fld f = s.fld f := Eq.trans rfl rfl
@[simp] theorem State.withAnswers_sub (x : List Ans) (a w i : Nat) : (s.withAnswers x).sub a w i = s.sub a w i := Eq.trans rfl rfl
@[simp] theorem State.withAnswers_rdByte (x : List Ans) (j : Nat) : (s.withAnswers x).rdByte j = s.rdByte j := Eq.trans rfl rfl

/-! ### withCrets -/

@[simp] theorem State.withCrets_pending (x : List Cret) : (s.withCrets x).pending = s.pending := Eq.trans rfl rfl
@[simp] theorem State.withCrets_now (x : List Cret) : (s.withCrets x).now = s.now := Eq.trans rfl rfl
@[simp] theorem State.withCrets_free (x : List Cret) : (s.withCrets x).free = s.free := Eq.trans rfl rfl
@[simp] theorem State.withCrets_out (x : List Cret) : (s.withCrets x).out = s.out := Eq.trans rfl rfl
@[simp] theorem State.withCrets_mode (x : List Cret) : (s.withCrets x).mode = s.mode := Eq.trans rfl rfl
@[simp] theorem State.withCrets_drip (x : List Cret) : (s.withCrets x).drip = s.drip := Eq.trans rfl rfl
@[simp] theorem State.withCrets_csr (x : List Cret) : (s.withCrets x).csr = s.csr := Eq.trans rfl rfl
@[simp] theorem State.withCrets_mem (x : List Cret) : (s.withCrets x).mem = s.mem := Eq.trans rfl rfl
@[simp] theorem State.withCrets_poison (x : List Cret) : (s.withCrets x).poison = s.poison := Eq.trans rfl rfl
@[simp] theorem State.withCrets_gpoison (x : List Cret) : (s.withCrets x).gpoison = s.gpoison := Eq.trans rfl rfl
@[simp] theorem State.withCrets_ueLog (x : List Cret) : (s.withCrets x).ueLog = s.ueLog := Eq.trans rfl rfl
@[simp] theorem State.withCrets_zeroed (x : List Cret) : (s.withCrets x).zeroed = s.zeroed := Eq.trans rfl rfl
@[simp] theorem State.withCrets_force (x : List Cret) : (s.withCrets x).force = s.force := Eq.trans rfl rfl
@[simp] theorem State.withCrets_ctxs (x : List Cret) : (s.withCrets x).ctxs = s.ctxs := Eq.trans rfl rfl
@[simp] theorem State.withCrets_cores (x : List Cret) : (s.withCrets x).cores = s.cores := Eq.trans rfl rfl
@[simp] theorem State.withCrets_tasks (x : List Cret) : (s.withCrets x).tasks = s.tasks := Eq.trans rfl rfl
@[simp] theorem State.withCrets_rts (x : List Cret) : (s.withCrets x).rts = s.rts := Eq.trans rfl rfl
@[simp] theorem State.withCrets_dirs (x : List Cret) : (s.withCrets x).dirs = s.dirs := Eq.trans rfl rfl
@[simp] theorem State.withCrets_gms (x : List Cret) : (s.withCrets x).gms = s.gms := Eq.trans rfl rfl
@[simp] theorem State.withCrets_mxes (x : List Cret) : (s.withCrets x).mxes = s.mxes := Eq.trans rfl rfl
@[simp] theorem State.withCrets_curs (x : List Cret) : (s.withCrets x).curs = s.curs := Eq.trans rfl rfl
@[simp] theorem State.withCrets_mctxs (x : List Cret) : (s.withCrets x).mctxs = s.mctxs := Eq.trans rfl rfl
@[simp] theorem State.withCrets_net (x : List Cret) : (s.withCrets x).net = s.net := Eq.trans rfl rfl
@[simp] theorem State.withCrets_answers (x : List Cret) : (s.withCrets x).answers = s.answers := Eq.trans rfl rfl
@[simp] theorem State.withCrets_crets (x : List Cret) : (s.withCrets x).crets = x := Eq.trans rfl rfl
@[simp] theorem State.withCrets_rings (x : List Cret) : (s.withCrets x).rings = s.rings := Eq.trans rfl rfl
@[simp] theorem State.withCrets_unans (x : List Cret) : (s.withCrets x).unans = s.unans := Eq.trans rfl rfl
@[simp] theorem State.withCrets_cqs (x : List Cret) : (s.withCrets x).cqs = s.cqs := Eq.trans rfl rfl
@[simp] theorem State.withCrets_turns (x : List Cret) : (s.withCrets x).turns = s.turns := Eq.trans rfl rfl
@[simp] theorem State.withCrets_tfes (x : List Cret) : (s.withCrets x).tfes = s.tfes := Eq.trans rfl rfl
@[simp] theorem State.withCrets_pkts (x : List Cret) : (s.withCrets x).pkts = s.pkts := Eq.trans rfl rfl
@[simp] theorem State.withCrets_rtrs (x : List Cret) : (s.withCrets x).rtrs = s.rtrs := Eq.trans rfl rfl
@[simp] theorem State.withCrets_sv (x : List Cret) : (s.withCrets x).sv = s.sv := Eq.trans rfl rfl
@[simp] theorem State.withCrets_mss (x : List Cret) : (s.withCrets x).mss = s.mss := Eq.trans rfl rfl
@[simp] theorem State.withCrets_ports (x : List Cret) : (s.withCrets x).ports = s.ports := Eq.trans rfl rfl
@[simp] theorem State.withCrets_lamps (x : List Cret) : (s.withCrets x).lamps = s.lamps := Eq.trans rfl rfl
@[simp] theorem State.withCrets_ptp (x : List Cret) : (s.withCrets x).ptp = s.ptp := Eq.trans rfl rfl
@[simp] theorem State.withCrets_mrs (x : List Cret) : (s.withCrets x).mrs = s.mrs := Eq.trans rfl rfl
@[simp] theorem State.withCrets_host (x : List Cret) : (s.withCrets x).host = s.host := Eq.trans rfl rfl
@[simp] theorem State.withCrets_sec (x : List Cret) : (s.withCrets x).sec = s.sec := Eq.trans rfl rfl
@[simp] theorem State.withCrets_boot (x : List Cret) : (s.withCrets x).boot = s.boot := Eq.trans rfl rfl
@[simp] theorem State.withCrets_tst (x : List Cret) : (s.withCrets x).tst = s.tst := Eq.trans rfl rfl
@[simp] theorem State.withCrets_fr (x : List Cret) : (s.withCrets x).fr = s.fr := Eq.trans rfl rfl
@[simp] theorem State.withCrets_pwr (x : List Cret) : (s.withCrets x).pwr = s.pwr := Eq.trans rfl rfl
@[simp] theorem State.withCrets_greset (x : List Cret) : (s.withCrets x).greset = s.greset := Eq.trans rfl rfl
@[simp] theorem State.withCrets_ctx_ (x : List Cret) (j : Nat) : (s.withCrets x).ctx j = s.ctx j := Eq.trans rfl rfl
@[simp] theorem State.withCrets_mctx_ (x : List Cret) (j : Nat) : (s.withCrets x).mctx j = s.mctx j := Eq.trans rfl rfl
@[simp] theorem State.withCrets_reg (x : List Cret) (a : Nat) : (s.withCrets x).reg a = s.reg a := Eq.trans rfl rfl
@[simp] theorem State.withCrets_fld (x : List Cret) (f : Fld) : (s.withCrets x).fld f = s.fld f := Eq.trans rfl rfl
@[simp] theorem State.withCrets_sub (x : List Cret) (a w i : Nat) : (s.withCrets x).sub a w i = s.sub a w i := Eq.trans rfl rfl
@[simp] theorem State.withCrets_rdByte (x : List Cret) (j : Nat) : (s.withCrets x).rdByte j = s.rdByte j := Eq.trans rfl rfl

/-! ### withRings -/

@[simp] theorem State.withRings_pending (x : SMap RingSt) : (s.withRings x).pending = s.pending := Eq.trans rfl rfl
@[simp] theorem State.withRings_now (x : SMap RingSt) : (s.withRings x).now = s.now := Eq.trans rfl rfl
@[simp] theorem State.withRings_free (x : SMap RingSt) : (s.withRings x).free = s.free := Eq.trans rfl rfl
@[simp] theorem State.withRings_out (x : SMap RingSt) : (s.withRings x).out = s.out := Eq.trans rfl rfl
@[simp] theorem State.withRings_mode (x : SMap RingSt) : (s.withRings x).mode = s.mode := Eq.trans rfl rfl
@[simp] theorem State.withRings_drip (x : SMap RingSt) : (s.withRings x).drip = s.drip := Eq.trans rfl rfl
@[simp] theorem State.withRings_csr (x : SMap RingSt) : (s.withRings x).csr = s.csr := Eq.trans rfl rfl
@[simp] theorem State.withRings_mem (x : SMap RingSt) : (s.withRings x).mem = s.mem := Eq.trans rfl rfl
@[simp] theorem State.withRings_poison (x : SMap RingSt) : (s.withRings x).poison = s.poison := Eq.trans rfl rfl
@[simp] theorem State.withRings_gpoison (x : SMap RingSt) : (s.withRings x).gpoison = s.gpoison := Eq.trans rfl rfl
@[simp] theorem State.withRings_ueLog (x : SMap RingSt) : (s.withRings x).ueLog = s.ueLog := Eq.trans rfl rfl
@[simp] theorem State.withRings_zeroed (x : SMap RingSt) : (s.withRings x).zeroed = s.zeroed := Eq.trans rfl rfl
@[simp] theorem State.withRings_force (x : SMap RingSt) : (s.withRings x).force = s.force := Eq.trans rfl rfl
@[simp] theorem State.withRings_ctxs (x : SMap RingSt) : (s.withRings x).ctxs = s.ctxs := Eq.trans rfl rfl
@[simp] theorem State.withRings_cores (x : SMap RingSt) : (s.withRings x).cores = s.cores := Eq.trans rfl rfl
@[simp] theorem State.withRings_tasks (x : SMap RingSt) : (s.withRings x).tasks = s.tasks := Eq.trans rfl rfl
@[simp] theorem State.withRings_rts (x : SMap RingSt) : (s.withRings x).rts = s.rts := Eq.trans rfl rfl
@[simp] theorem State.withRings_dirs (x : SMap RingSt) : (s.withRings x).dirs = s.dirs := Eq.trans rfl rfl
@[simp] theorem State.withRings_gms (x : SMap RingSt) : (s.withRings x).gms = s.gms := Eq.trans rfl rfl
@[simp] theorem State.withRings_mxes (x : SMap RingSt) : (s.withRings x).mxes = s.mxes := Eq.trans rfl rfl
@[simp] theorem State.withRings_curs (x : SMap RingSt) : (s.withRings x).curs = s.curs := Eq.trans rfl rfl
@[simp] theorem State.withRings_mctxs (x : SMap RingSt) : (s.withRings x).mctxs = s.mctxs := Eq.trans rfl rfl
@[simp] theorem State.withRings_net (x : SMap RingSt) : (s.withRings x).net = s.net := Eq.trans rfl rfl
@[simp] theorem State.withRings_answers (x : SMap RingSt) : (s.withRings x).answers = s.answers := Eq.trans rfl rfl
@[simp] theorem State.withRings_crets (x : SMap RingSt) : (s.withRings x).crets = s.crets := Eq.trans rfl rfl
@[simp] theorem State.withRings_rings (x : SMap RingSt) : (s.withRings x).rings = x := Eq.trans rfl rfl
@[simp] theorem State.withRings_unans (x : SMap RingSt) : (s.withRings x).unans = s.unans := Eq.trans rfl rfl
@[simp] theorem State.withRings_cqs (x : SMap RingSt) : (s.withRings x).cqs = s.cqs := Eq.trans rfl rfl
@[simp] theorem State.withRings_turns (x : SMap RingSt) : (s.withRings x).turns = s.turns := Eq.trans rfl rfl
@[simp] theorem State.withRings_tfes (x : SMap RingSt) : (s.withRings x).tfes = s.tfes := Eq.trans rfl rfl
@[simp] theorem State.withRings_pkts (x : SMap RingSt) : (s.withRings x).pkts = s.pkts := Eq.trans rfl rfl
@[simp] theorem State.withRings_rtrs (x : SMap RingSt) : (s.withRings x).rtrs = s.rtrs := Eq.trans rfl rfl
@[simp] theorem State.withRings_sv (x : SMap RingSt) : (s.withRings x).sv = s.sv := Eq.trans rfl rfl
@[simp] theorem State.withRings_mss (x : SMap RingSt) : (s.withRings x).mss = s.mss := Eq.trans rfl rfl
@[simp] theorem State.withRings_ports (x : SMap RingSt) : (s.withRings x).ports = s.ports := Eq.trans rfl rfl
@[simp] theorem State.withRings_lamps (x : SMap RingSt) : (s.withRings x).lamps = s.lamps := Eq.trans rfl rfl
@[simp] theorem State.withRings_ptp (x : SMap RingSt) : (s.withRings x).ptp = s.ptp := Eq.trans rfl rfl
@[simp] theorem State.withRings_mrs (x : SMap RingSt) : (s.withRings x).mrs = s.mrs := Eq.trans rfl rfl
@[simp] theorem State.withRings_host (x : SMap RingSt) : (s.withRings x).host = s.host := Eq.trans rfl rfl
@[simp] theorem State.withRings_sec (x : SMap RingSt) : (s.withRings x).sec = s.sec := Eq.trans rfl rfl
@[simp] theorem State.withRings_boot (x : SMap RingSt) : (s.withRings x).boot = s.boot := Eq.trans rfl rfl
@[simp] theorem State.withRings_tst (x : SMap RingSt) : (s.withRings x).tst = s.tst := Eq.trans rfl rfl
@[simp] theorem State.withRings_fr (x : SMap RingSt) : (s.withRings x).fr = s.fr := Eq.trans rfl rfl
@[simp] theorem State.withRings_pwr (x : SMap RingSt) : (s.withRings x).pwr = s.pwr := Eq.trans rfl rfl
@[simp] theorem State.withRings_greset (x : SMap RingSt) : (s.withRings x).greset = s.greset := Eq.trans rfl rfl
@[simp] theorem State.withRings_ctx_ (x : SMap RingSt) (j : Nat) : (s.withRings x).ctx j = s.ctx j := Eq.trans rfl rfl
@[simp] theorem State.withRings_mctx_ (x : SMap RingSt) (j : Nat) : (s.withRings x).mctx j = s.mctx j := Eq.trans rfl rfl
@[simp] theorem State.withRings_reg (x : SMap RingSt) (a : Nat) : (s.withRings x).reg a = s.reg a := Eq.trans rfl rfl
@[simp] theorem State.withRings_fld (x : SMap RingSt) (f : Fld) : (s.withRings x).fld f = s.fld f := Eq.trans rfl rfl
@[simp] theorem State.withRings_sub (x : SMap RingSt) (a w i : Nat) : (s.withRings x).sub a w i = s.sub a w i := Eq.trans rfl rfl
@[simp] theorem State.withRings_rdByte (x : SMap RingSt) (j : Nat) : (s.withRings x).rdByte j = s.rdByte j := Eq.trans rfl rfl

/-! ### withUnans -/

@[simp] theorem State.withUnans_pending (x : SMap (List Unans)) : (s.withUnans x).pending = s.pending := Eq.trans rfl rfl
@[simp] theorem State.withUnans_now (x : SMap (List Unans)) : (s.withUnans x).now = s.now := Eq.trans rfl rfl
@[simp] theorem State.withUnans_free (x : SMap (List Unans)) : (s.withUnans x).free = s.free := Eq.trans rfl rfl
@[simp] theorem State.withUnans_out (x : SMap (List Unans)) : (s.withUnans x).out = s.out := Eq.trans rfl rfl
@[simp] theorem State.withUnans_mode (x : SMap (List Unans)) : (s.withUnans x).mode = s.mode := Eq.trans rfl rfl
@[simp] theorem State.withUnans_drip (x : SMap (List Unans)) : (s.withUnans x).drip = s.drip := Eq.trans rfl rfl
@[simp] theorem State.withUnans_csr (x : SMap (List Unans)) : (s.withUnans x).csr = s.csr := Eq.trans rfl rfl
@[simp] theorem State.withUnans_mem (x : SMap (List Unans)) : (s.withUnans x).mem = s.mem := Eq.trans rfl rfl
@[simp] theorem State.withUnans_poison (x : SMap (List Unans)) : (s.withUnans x).poison = s.poison := Eq.trans rfl rfl
@[simp] theorem State.withUnans_gpoison (x : SMap (List Unans)) : (s.withUnans x).gpoison = s.gpoison := Eq.trans rfl rfl
@[simp] theorem State.withUnans_ueLog (x : SMap (List Unans)) : (s.withUnans x).ueLog = s.ueLog := Eq.trans rfl rfl
@[simp] theorem State.withUnans_zeroed (x : SMap (List Unans)) : (s.withUnans x).zeroed = s.zeroed := Eq.trans rfl rfl
@[simp] theorem State.withUnans_force (x : SMap (List Unans)) : (s.withUnans x).force = s.force := Eq.trans rfl rfl
@[simp] theorem State.withUnans_ctxs (x : SMap (List Unans)) : (s.withUnans x).ctxs = s.ctxs := Eq.trans rfl rfl
@[simp] theorem State.withUnans_cores (x : SMap (List Unans)) : (s.withUnans x).cores = s.cores := Eq.trans rfl rfl
@[simp] theorem State.withUnans_tasks (x : SMap (List Unans)) : (s.withUnans x).tasks = s.tasks := Eq.trans rfl rfl
@[simp] theorem State.withUnans_rts (x : SMap (List Unans)) : (s.withUnans x).rts = s.rts := Eq.trans rfl rfl
@[simp] theorem State.withUnans_dirs (x : SMap (List Unans)) : (s.withUnans x).dirs = s.dirs := Eq.trans rfl rfl
@[simp] theorem State.withUnans_gms (x : SMap (List Unans)) : (s.withUnans x).gms = s.gms := Eq.trans rfl rfl
@[simp] theorem State.withUnans_mxes (x : SMap (List Unans)) : (s.withUnans x).mxes = s.mxes := Eq.trans rfl rfl
@[simp] theorem State.withUnans_curs (x : SMap (List Unans)) : (s.withUnans x).curs = s.curs := Eq.trans rfl rfl
@[simp] theorem State.withUnans_mctxs (x : SMap (List Unans)) : (s.withUnans x).mctxs = s.mctxs := Eq.trans rfl rfl
@[simp] theorem State.withUnans_net (x : SMap (List Unans)) : (s.withUnans x).net = s.net := Eq.trans rfl rfl
@[simp] theorem State.withUnans_answers (x : SMap (List Unans)) : (s.withUnans x).answers = s.answers := Eq.trans rfl rfl
@[simp] theorem State.withUnans_crets (x : SMap (List Unans)) : (s.withUnans x).crets = s.crets := Eq.trans rfl rfl
@[simp] theorem State.withUnans_rings (x : SMap (List Unans)) : (s.withUnans x).rings = s.rings := Eq.trans rfl rfl
@[simp] theorem State.withUnans_unans (x : SMap (List Unans)) : (s.withUnans x).unans = x := Eq.trans rfl rfl
@[simp] theorem State.withUnans_cqs (x : SMap (List Unans)) : (s.withUnans x).cqs = s.cqs := Eq.trans rfl rfl
@[simp] theorem State.withUnans_turns (x : SMap (List Unans)) : (s.withUnans x).turns = s.turns := Eq.trans rfl rfl
@[simp] theorem State.withUnans_tfes (x : SMap (List Unans)) : (s.withUnans x).tfes = s.tfes := Eq.trans rfl rfl
@[simp] theorem State.withUnans_pkts (x : SMap (List Unans)) : (s.withUnans x).pkts = s.pkts := Eq.trans rfl rfl
@[simp] theorem State.withUnans_rtrs (x : SMap (List Unans)) : (s.withUnans x).rtrs = s.rtrs := Eq.trans rfl rfl
@[simp] theorem State.withUnans_sv (x : SMap (List Unans)) : (s.withUnans x).sv = s.sv := Eq.trans rfl rfl
@[simp] theorem State.withUnans_mss (x : SMap (List Unans)) : (s.withUnans x).mss = s.mss := Eq.trans rfl rfl
@[simp] theorem State.withUnans_ports (x : SMap (List Unans)) : (s.withUnans x).ports = s.ports := Eq.trans rfl rfl
@[simp] theorem State.withUnans_lamps (x : SMap (List Unans)) : (s.withUnans x).lamps = s.lamps := Eq.trans rfl rfl
@[simp] theorem State.withUnans_ptp (x : SMap (List Unans)) : (s.withUnans x).ptp = s.ptp := Eq.trans rfl rfl
@[simp] theorem State.withUnans_mrs (x : SMap (List Unans)) : (s.withUnans x).mrs = s.mrs := Eq.trans rfl rfl
@[simp] theorem State.withUnans_host (x : SMap (List Unans)) : (s.withUnans x).host = s.host := Eq.trans rfl rfl
@[simp] theorem State.withUnans_sec (x : SMap (List Unans)) : (s.withUnans x).sec = s.sec := Eq.trans rfl rfl
@[simp] theorem State.withUnans_boot (x : SMap (List Unans)) : (s.withUnans x).boot = s.boot := Eq.trans rfl rfl
@[simp] theorem State.withUnans_tst (x : SMap (List Unans)) : (s.withUnans x).tst = s.tst := Eq.trans rfl rfl
@[simp] theorem State.withUnans_fr (x : SMap (List Unans)) : (s.withUnans x).fr = s.fr := Eq.trans rfl rfl
@[simp] theorem State.withUnans_pwr (x : SMap (List Unans)) : (s.withUnans x).pwr = s.pwr := Eq.trans rfl rfl
@[simp] theorem State.withUnans_greset (x : SMap (List Unans)) : (s.withUnans x).greset = s.greset := Eq.trans rfl rfl
@[simp] theorem State.withUnans_ctx_ (x : SMap (List Unans)) (j : Nat) : (s.withUnans x).ctx j = s.ctx j := Eq.trans rfl rfl
@[simp] theorem State.withUnans_mctx_ (x : SMap (List Unans)) (j : Nat) : (s.withUnans x).mctx j = s.mctx j := Eq.trans rfl rfl
@[simp] theorem State.withUnans_reg (x : SMap (List Unans)) (a : Nat) : (s.withUnans x).reg a = s.reg a := Eq.trans rfl rfl
@[simp] theorem State.withUnans_fld (x : SMap (List Unans)) (f : Fld) : (s.withUnans x).fld f = s.fld f := Eq.trans rfl rfl
@[simp] theorem State.withUnans_sub (x : SMap (List Unans)) (a w i : Nat) : (s.withUnans x).sub a w i = s.sub a w i := Eq.trans rfl rfl
@[simp] theorem State.withUnans_rdByte (x : SMap (List Unans)) (j : Nat) : (s.withUnans x).rdByte j = s.rdByte j := Eq.trans rfl rfl

/-! ### withCqs -/

@[simp] theorem State.withCqs_pending (x : SMap (List CqRec)) : (s.withCqs x).pending = s.pending := Eq.trans rfl rfl
@[simp] theorem State.withCqs_now (x : SMap (List CqRec)) : (s.withCqs x).now = s.now := Eq.trans rfl rfl
@[simp] theorem State.withCqs_free (x : SMap (List CqRec)) : (s.withCqs x).free = s.free := Eq.trans rfl rfl
@[simp] theorem State.withCqs_out (x : SMap (List CqRec)) : (s.withCqs x).out = s.out := Eq.trans rfl rfl
@[simp] theorem State.withCqs_mode (x : SMap (List CqRec)) : (s.withCqs x).mode = s.mode := Eq.trans rfl rfl
@[simp] theorem State.withCqs_drip (x : SMap (List CqRec)) : (s.withCqs x).drip = s.drip := Eq.trans rfl rfl
@[simp] theorem State.withCqs_csr (x : SMap (List CqRec)) : (s.withCqs x).csr = s.csr := Eq.trans rfl rfl
@[simp] theorem State.withCqs_mem (x : SMap (List CqRec)) : (s.withCqs x).mem = s.mem := Eq.trans rfl rfl
@[simp] theorem State.withCqs_poison (x : SMap (List CqRec)) : (s.withCqs x).poison = s.poison := Eq.trans rfl rfl
@[simp] theorem State.withCqs_gpoison (x : SMap (List CqRec)) : (s.withCqs x).gpoison = s.gpoison := Eq.trans rfl rfl
@[simp] theorem State.withCqs_ueLog (x : SMap (List CqRec)) : (s.withCqs x).ueLog = s.ueLog := Eq.trans rfl rfl
@[simp] theorem State.withCqs_zeroed (x : SMap (List CqRec)) : (s.withCqs x).zeroed = s.zeroed := Eq.trans rfl rfl
@[simp] theorem State.withCqs_force (x : SMap (List CqRec)) : (s.withCqs x).force = s.force := Eq.trans rfl rfl
@[simp] theorem State.withCqs_ctxs (x : SMap (List CqRec)) : (s.withCqs x).ctxs = s.ctxs := Eq.trans rfl rfl
@[simp] theorem State.withCqs_cores (x : SMap (List CqRec)) : (s.withCqs x).cores = s.cores := Eq.trans rfl rfl
@[simp] theorem State.withCqs_tasks (x : SMap (List CqRec)) : (s.withCqs x).tasks = s.tasks := Eq.trans rfl rfl
@[simp] theorem State.withCqs_rts (x : SMap (List CqRec)) : (s.withCqs x).rts = s.rts := Eq.trans rfl rfl
@[simp] theorem State.withCqs_dirs (x : SMap (List CqRec)) : (s.withCqs x).dirs = s.dirs := Eq.trans rfl rfl
@[simp] theorem State.withCqs_gms (x : SMap (List CqRec)) : (s.withCqs x).gms = s.gms := Eq.trans rfl rfl
@[simp] theorem State.withCqs_mxes (x : SMap (List CqRec)) : (s.withCqs x).mxes = s.mxes := Eq.trans rfl rfl
@[simp] theorem State.withCqs_curs (x : SMap (List CqRec)) : (s.withCqs x).curs = s.curs := Eq.trans rfl rfl
@[simp] theorem State.withCqs_mctxs (x : SMap (List CqRec)) : (s.withCqs x).mctxs = s.mctxs := Eq.trans rfl rfl
@[simp] theorem State.withCqs_net (x : SMap (List CqRec)) : (s.withCqs x).net = s.net := Eq.trans rfl rfl
@[simp] theorem State.withCqs_answers (x : SMap (List CqRec)) : (s.withCqs x).answers = s.answers := Eq.trans rfl rfl
@[simp] theorem State.withCqs_crets (x : SMap (List CqRec)) : (s.withCqs x).crets = s.crets := Eq.trans rfl rfl
@[simp] theorem State.withCqs_rings (x : SMap (List CqRec)) : (s.withCqs x).rings = s.rings := Eq.trans rfl rfl
@[simp] theorem State.withCqs_unans (x : SMap (List CqRec)) : (s.withCqs x).unans = s.unans := Eq.trans rfl rfl
@[simp] theorem State.withCqs_cqs (x : SMap (List CqRec)) : (s.withCqs x).cqs = x := Eq.trans rfl rfl
@[simp] theorem State.withCqs_turns (x : SMap (List CqRec)) : (s.withCqs x).turns = s.turns := Eq.trans rfl rfl
@[simp] theorem State.withCqs_tfes (x : SMap (List CqRec)) : (s.withCqs x).tfes = s.tfes := Eq.trans rfl rfl
@[simp] theorem State.withCqs_pkts (x : SMap (List CqRec)) : (s.withCqs x).pkts = s.pkts := Eq.trans rfl rfl
@[simp] theorem State.withCqs_rtrs (x : SMap (List CqRec)) : (s.withCqs x).rtrs = s.rtrs := Eq.trans rfl rfl
@[simp] theorem State.withCqs_sv (x : SMap (List CqRec)) : (s.withCqs x).sv = s.sv := Eq.trans rfl rfl
@[simp] theorem State.withCqs_mss (x : SMap (List CqRec)) : (s.withCqs x).mss = s.mss := Eq.trans rfl rfl
@[simp] theorem State.withCqs_ports (x : SMap (List CqRec)) : (s.withCqs x).ports = s.ports := Eq.trans rfl rfl
@[simp] theorem State.withCqs_lamps (x : SMap (List CqRec)) : (s.withCqs x).lamps = s.lamps := Eq.trans rfl rfl
@[simp] theorem State.withCqs_ptp (x : SMap (List CqRec)) : (s.withCqs x).ptp = s.ptp := Eq.trans rfl rfl
@[simp] theorem State.withCqs_mrs (x : SMap (List CqRec)) : (s.withCqs x).mrs = s.mrs := Eq.trans rfl rfl
@[simp] theorem State.withCqs_host (x : SMap (List CqRec)) : (s.withCqs x).host = s.host := Eq.trans rfl rfl
@[simp] theorem State.withCqs_sec (x : SMap (List CqRec)) : (s.withCqs x).sec = s.sec := Eq.trans rfl rfl
@[simp] theorem State.withCqs_boot (x : SMap (List CqRec)) : (s.withCqs x).boot = s.boot := Eq.trans rfl rfl
@[simp] theorem State.withCqs_tst (x : SMap (List CqRec)) : (s.withCqs x).tst = s.tst := Eq.trans rfl rfl
@[simp] theorem State.withCqs_fr (x : SMap (List CqRec)) : (s.withCqs x).fr = s.fr := Eq.trans rfl rfl
@[simp] theorem State.withCqs_pwr (x : SMap (List CqRec)) : (s.withCqs x).pwr = s.pwr := Eq.trans rfl rfl
@[simp] theorem State.withCqs_greset (x : SMap (List CqRec)) : (s.withCqs x).greset = s.greset := Eq.trans rfl rfl
@[simp] theorem State.withCqs_ctx_ (x : SMap (List CqRec)) (j : Nat) : (s.withCqs x).ctx j = s.ctx j := Eq.trans rfl rfl
@[simp] theorem State.withCqs_mctx_ (x : SMap (List CqRec)) (j : Nat) : (s.withCqs x).mctx j = s.mctx j := Eq.trans rfl rfl
@[simp] theorem State.withCqs_reg (x : SMap (List CqRec)) (a : Nat) : (s.withCqs x).reg a = s.reg a := Eq.trans rfl rfl
@[simp] theorem State.withCqs_fld (x : SMap (List CqRec)) (f : Fld) : (s.withCqs x).fld f = s.fld f := Eq.trans rfl rfl
@[simp] theorem State.withCqs_sub (x : SMap (List CqRec)) (a w i : Nat) : (s.withCqs x).sub a w i = s.sub a w i := Eq.trans rfl rfl
@[simp] theorem State.withCqs_rdByte (x : SMap (List CqRec)) (j : Nat) : (s.withCqs x).rdByte j = s.rdByte j := Eq.trans rfl rfl

/-! ### withTurns -/

@[simp] theorem State.withTurns_pending (x : SMap Nat) : (s.withTurns x).pending = s.pending := Eq.trans rfl rfl
@[simp] theorem State.withTurns_now (x : SMap Nat) : (s.withTurns x).now = s.now := Eq.trans rfl rfl
@[simp] theorem State.withTurns_free (x : SMap Nat) : (s.withTurns x).free = s.free := Eq.trans rfl rfl
@[simp] theorem State.withTurns_out (x : SMap Nat) : (s.withTurns x).out = s.out := Eq.trans rfl rfl
@[simp] theorem State.withTurns_mode (x : SMap Nat) : (s.withTurns x).mode = s.mode := Eq.trans rfl rfl
@[simp] theorem State.withTurns_drip (x : SMap Nat) : (s.withTurns x).drip = s.drip := Eq.trans rfl rfl
@[simp] theorem State.withTurns_csr (x : SMap Nat) : (s.withTurns x).csr = s.csr := Eq.trans rfl rfl
@[simp] theorem State.withTurns_mem (x : SMap Nat) : (s.withTurns x).mem = s.mem := Eq.trans rfl rfl
@[simp] theorem State.withTurns_poison (x : SMap Nat) : (s.withTurns x).poison = s.poison := Eq.trans rfl rfl
@[simp] theorem State.withTurns_gpoison (x : SMap Nat) : (s.withTurns x).gpoison = s.gpoison := Eq.trans rfl rfl
@[simp] theorem State.withTurns_ueLog (x : SMap Nat) : (s.withTurns x).ueLog = s.ueLog := Eq.trans rfl rfl
@[simp] theorem State.withTurns_zeroed (x : SMap Nat) : (s.withTurns x).zeroed = s.zeroed := Eq.trans rfl rfl
@[simp] theorem State.withTurns_force (x : SMap Nat) : (s.withTurns x).force = s.force := Eq.trans rfl rfl
@[simp] theorem State.withTurns_ctxs (x : SMap Nat) : (s.withTurns x).ctxs = s.ctxs := Eq.trans rfl rfl
@[simp] theorem State.withTurns_cores (x : SMap Nat) : (s.withTurns x).cores = s.cores := Eq.trans rfl rfl
@[simp] theorem State.withTurns_tasks (x : SMap Nat) : (s.withTurns x).tasks = s.tasks := Eq.trans rfl rfl
@[simp] theorem State.withTurns_rts (x : SMap Nat) : (s.withTurns x).rts = s.rts := Eq.trans rfl rfl
@[simp] theorem State.withTurns_dirs (x : SMap Nat) : (s.withTurns x).dirs = s.dirs := Eq.trans rfl rfl
@[simp] theorem State.withTurns_gms (x : SMap Nat) : (s.withTurns x).gms = s.gms := Eq.trans rfl rfl
@[simp] theorem State.withTurns_mxes (x : SMap Nat) : (s.withTurns x).mxes = s.mxes := Eq.trans rfl rfl
@[simp] theorem State.withTurns_curs (x : SMap Nat) : (s.withTurns x).curs = s.curs := Eq.trans rfl rfl
@[simp] theorem State.withTurns_mctxs (x : SMap Nat) : (s.withTurns x).mctxs = s.mctxs := Eq.trans rfl rfl
@[simp] theorem State.withTurns_net (x : SMap Nat) : (s.withTurns x).net = s.net := Eq.trans rfl rfl
@[simp] theorem State.withTurns_answers (x : SMap Nat) : (s.withTurns x).answers = s.answers := Eq.trans rfl rfl
@[simp] theorem State.withTurns_crets (x : SMap Nat) : (s.withTurns x).crets = s.crets := Eq.trans rfl rfl
@[simp] theorem State.withTurns_rings (x : SMap Nat) : (s.withTurns x).rings = s.rings := Eq.trans rfl rfl
@[simp] theorem State.withTurns_unans (x : SMap Nat) : (s.withTurns x).unans = s.unans := Eq.trans rfl rfl
@[simp] theorem State.withTurns_cqs (x : SMap Nat) : (s.withTurns x).cqs = s.cqs := Eq.trans rfl rfl
@[simp] theorem State.withTurns_turns (x : SMap Nat) : (s.withTurns x).turns = x := Eq.trans rfl rfl
@[simp] theorem State.withTurns_tfes (x : SMap Nat) : (s.withTurns x).tfes = s.tfes := Eq.trans rfl rfl
@[simp] theorem State.withTurns_pkts (x : SMap Nat) : (s.withTurns x).pkts = s.pkts := Eq.trans rfl rfl
@[simp] theorem State.withTurns_rtrs (x : SMap Nat) : (s.withTurns x).rtrs = s.rtrs := Eq.trans rfl rfl
@[simp] theorem State.withTurns_sv (x : SMap Nat) : (s.withTurns x).sv = s.sv := Eq.trans rfl rfl
@[simp] theorem State.withTurns_mss (x : SMap Nat) : (s.withTurns x).mss = s.mss := Eq.trans rfl rfl
@[simp] theorem State.withTurns_ports (x : SMap Nat) : (s.withTurns x).ports = s.ports := Eq.trans rfl rfl
@[simp] theorem State.withTurns_lamps (x : SMap Nat) : (s.withTurns x).lamps = s.lamps := Eq.trans rfl rfl
@[simp] theorem State.withTurns_ptp (x : SMap Nat) : (s.withTurns x).ptp = s.ptp := Eq.trans rfl rfl
@[simp] theorem State.withTurns_mrs (x : SMap Nat) : (s.withTurns x).mrs = s.mrs := Eq.trans rfl rfl
@[simp] theorem State.withTurns_host (x : SMap Nat) : (s.withTurns x).host = s.host := Eq.trans rfl rfl
@[simp] theorem State.withTurns_sec (x : SMap Nat) : (s.withTurns x).sec = s.sec := Eq.trans rfl rfl
@[simp] theorem State.withTurns_boot (x : SMap Nat) : (s.withTurns x).boot = s.boot := Eq.trans rfl rfl
@[simp] theorem State.withTurns_tst (x : SMap Nat) : (s.withTurns x).tst = s.tst := Eq.trans rfl rfl
@[simp] theorem State.withTurns_fr (x : SMap Nat) : (s.withTurns x).fr = s.fr := Eq.trans rfl rfl
@[simp] theorem State.withTurns_pwr (x : SMap Nat) : (s.withTurns x).pwr = s.pwr := Eq.trans rfl rfl
@[simp] theorem State.withTurns_greset (x : SMap Nat) : (s.withTurns x).greset = s.greset := Eq.trans rfl rfl
@[simp] theorem State.withTurns_ctx_ (x : SMap Nat) (j : Nat) : (s.withTurns x).ctx j = s.ctx j := Eq.trans rfl rfl
@[simp] theorem State.withTurns_mctx_ (x : SMap Nat) (j : Nat) : (s.withTurns x).mctx j = s.mctx j := Eq.trans rfl rfl
@[simp] theorem State.withTurns_reg (x : SMap Nat) (a : Nat) : (s.withTurns x).reg a = s.reg a := Eq.trans rfl rfl
@[simp] theorem State.withTurns_fld (x : SMap Nat) (f : Fld) : (s.withTurns x).fld f = s.fld f := Eq.trans rfl rfl
@[simp] theorem State.withTurns_sub (x : SMap Nat) (a w i : Nat) : (s.withTurns x).sub a w i = s.sub a w i := Eq.trans rfl rfl
@[simp] theorem State.withTurns_rdByte (x : SMap Nat) (j : Nat) : (s.withTurns x).rdByte j = s.rdByte j := Eq.trans rfl rfl

/-! ### withTfes -/

@[simp] theorem State.withTfes_pending (x : SMap TfeSt) : (s.withTfes x).pending = s.pending := Eq.trans rfl rfl
@[simp] theorem State.withTfes_now (x : SMap TfeSt) : (s.withTfes x).now = s.now := Eq.trans rfl rfl
@[simp] theorem State.withTfes_free (x : SMap TfeSt) : (s.withTfes x).free = s.free := Eq.trans rfl rfl
@[simp] theorem State.withTfes_out (x : SMap TfeSt) : (s.withTfes x).out = s.out := Eq.trans rfl rfl
@[simp] theorem State.withTfes_mode (x : SMap TfeSt) : (s.withTfes x).mode = s.mode := Eq.trans rfl rfl
@[simp] theorem State.withTfes_drip (x : SMap TfeSt) : (s.withTfes x).drip = s.drip := Eq.trans rfl rfl
@[simp] theorem State.withTfes_csr (x : SMap TfeSt) : (s.withTfes x).csr = s.csr := Eq.trans rfl rfl
@[simp] theorem State.withTfes_mem (x : SMap TfeSt) : (s.withTfes x).mem = s.mem := Eq.trans rfl rfl
@[simp] theorem State.withTfes_poison (x : SMap TfeSt) : (s.withTfes x).poison = s.poison := Eq.trans rfl rfl
@[simp] theorem State.withTfes_gpoison (x : SMap TfeSt) : (s.withTfes x).gpoison = s.gpoison := Eq.trans rfl rfl
@[simp] theorem State.withTfes_ueLog (x : SMap TfeSt) : (s.withTfes x).ueLog = s.ueLog := Eq.trans rfl rfl
@[simp] theorem State.withTfes_zeroed (x : SMap TfeSt) : (s.withTfes x).zeroed = s.zeroed := Eq.trans rfl rfl
@[simp] theorem State.withTfes_force (x : SMap TfeSt) : (s.withTfes x).force = s.force := Eq.trans rfl rfl
@[simp] theorem State.withTfes_ctxs (x : SMap TfeSt) : (s.withTfes x).ctxs = s.ctxs := Eq.trans rfl rfl
@[simp] theorem State.withTfes_cores (x : SMap TfeSt) : (s.withTfes x).cores = s.cores := Eq.trans rfl rfl
@[simp] theorem State.withTfes_tasks (x : SMap TfeSt) : (s.withTfes x).tasks = s.tasks := Eq.trans rfl rfl
@[simp] theorem State.withTfes_rts (x : SMap TfeSt) : (s.withTfes x).rts = s.rts := Eq.trans rfl rfl
@[simp] theorem State.withTfes_dirs (x : SMap TfeSt) : (s.withTfes x).dirs = s.dirs := Eq.trans rfl rfl
@[simp] theorem State.withTfes_gms (x : SMap TfeSt) : (s.withTfes x).gms = s.gms := Eq.trans rfl rfl
@[simp] theorem State.withTfes_mxes (x : SMap TfeSt) : (s.withTfes x).mxes = s.mxes := Eq.trans rfl rfl
@[simp] theorem State.withTfes_curs (x : SMap TfeSt) : (s.withTfes x).curs = s.curs := Eq.trans rfl rfl
@[simp] theorem State.withTfes_mctxs (x : SMap TfeSt) : (s.withTfes x).mctxs = s.mctxs := Eq.trans rfl rfl
@[simp] theorem State.withTfes_net (x : SMap TfeSt) : (s.withTfes x).net = s.net := Eq.trans rfl rfl
@[simp] theorem State.withTfes_answers (x : SMap TfeSt) : (s.withTfes x).answers = s.answers := Eq.trans rfl rfl
@[simp] theorem State.withTfes_crets (x : SMap TfeSt) : (s.withTfes x).crets = s.crets := Eq.trans rfl rfl
@[simp] theorem State.withTfes_rings (x : SMap TfeSt) : (s.withTfes x).rings = s.rings := Eq.trans rfl rfl
@[simp] theorem State.withTfes_unans (x : SMap TfeSt) : (s.withTfes x).unans = s.unans := Eq.trans rfl rfl
@[simp] theorem State.withTfes_cqs (x : SMap TfeSt) : (s.withTfes x).cqs = s.cqs := Eq.trans rfl rfl
@[simp] theorem State.withTfes_turns (x : SMap TfeSt) : (s.withTfes x).turns = s.turns := Eq.trans rfl rfl
@[simp] theorem State.withTfes_tfes (x : SMap TfeSt) : (s.withTfes x).tfes = x := Eq.trans rfl rfl
@[simp] theorem State.withTfes_pkts (x : SMap TfeSt) : (s.withTfes x).pkts = s.pkts := Eq.trans rfl rfl
@[simp] theorem State.withTfes_rtrs (x : SMap TfeSt) : (s.withTfes x).rtrs = s.rtrs := Eq.trans rfl rfl
@[simp] theorem State.withTfes_sv (x : SMap TfeSt) : (s.withTfes x).sv = s.sv := Eq.trans rfl rfl
@[simp] theorem State.withTfes_mss (x : SMap TfeSt) : (s.withTfes x).mss = s.mss := Eq.trans rfl rfl
@[simp] theorem State.withTfes_ports (x : SMap TfeSt) : (s.withTfes x).ports = s.ports := Eq.trans rfl rfl
@[simp] theorem State.withTfes_lamps (x : SMap TfeSt) : (s.withTfes x).lamps = s.lamps := Eq.trans rfl rfl
@[simp] theorem State.withTfes_ptp (x : SMap TfeSt) : (s.withTfes x).ptp = s.ptp := Eq.trans rfl rfl
@[simp] theorem State.withTfes_mrs (x : SMap TfeSt) : (s.withTfes x).mrs = s.mrs := Eq.trans rfl rfl
@[simp] theorem State.withTfes_host (x : SMap TfeSt) : (s.withTfes x).host = s.host := Eq.trans rfl rfl
@[simp] theorem State.withTfes_sec (x : SMap TfeSt) : (s.withTfes x).sec = s.sec := Eq.trans rfl rfl
@[simp] theorem State.withTfes_boot (x : SMap TfeSt) : (s.withTfes x).boot = s.boot := Eq.trans rfl rfl
@[simp] theorem State.withTfes_tst (x : SMap TfeSt) : (s.withTfes x).tst = s.tst := Eq.trans rfl rfl
@[simp] theorem State.withTfes_fr (x : SMap TfeSt) : (s.withTfes x).fr = s.fr := Eq.trans rfl rfl
@[simp] theorem State.withTfes_pwr (x : SMap TfeSt) : (s.withTfes x).pwr = s.pwr := Eq.trans rfl rfl
@[simp] theorem State.withTfes_greset (x : SMap TfeSt) : (s.withTfes x).greset = s.greset := Eq.trans rfl rfl
@[simp] theorem State.withTfes_ctx_ (x : SMap TfeSt) (j : Nat) : (s.withTfes x).ctx j = s.ctx j := Eq.trans rfl rfl
@[simp] theorem State.withTfes_mctx_ (x : SMap TfeSt) (j : Nat) : (s.withTfes x).mctx j = s.mctx j := Eq.trans rfl rfl
@[simp] theorem State.withTfes_reg (x : SMap TfeSt) (a : Nat) : (s.withTfes x).reg a = s.reg a := Eq.trans rfl rfl
@[simp] theorem State.withTfes_fld (x : SMap TfeSt) (f : Fld) : (s.withTfes x).fld f = s.fld f := Eq.trans rfl rfl
@[simp] theorem State.withTfes_sub (x : SMap TfeSt) (a w i : Nat) : (s.withTfes x).sub a w i = s.sub a w i := Eq.trans rfl rfl
@[simp] theorem State.withTfes_rdByte (x : SMap TfeSt) (j : Nat) : (s.withTfes x).rdByte j = s.rdByte j := Eq.trans rfl rfl

/-! ### withPkts -/

@[simp] theorem State.withPkts_pending (x : List Pkt) : (s.withPkts x).pending = s.pending := Eq.trans rfl rfl
@[simp] theorem State.withPkts_now (x : List Pkt) : (s.withPkts x).now = s.now := Eq.trans rfl rfl
@[simp] theorem State.withPkts_free (x : List Pkt) : (s.withPkts x).free = s.free := Eq.trans rfl rfl
@[simp] theorem State.withPkts_out (x : List Pkt) : (s.withPkts x).out = s.out := Eq.trans rfl rfl
@[simp] theorem State.withPkts_mode (x : List Pkt) : (s.withPkts x).mode = s.mode := Eq.trans rfl rfl
@[simp] theorem State.withPkts_drip (x : List Pkt) : (s.withPkts x).drip = s.drip := Eq.trans rfl rfl
@[simp] theorem State.withPkts_csr (x : List Pkt) : (s.withPkts x).csr = s.csr := Eq.trans rfl rfl
@[simp] theorem State.withPkts_mem (x : List Pkt) : (s.withPkts x).mem = s.mem := Eq.trans rfl rfl
@[simp] theorem State.withPkts_poison (x : List Pkt) : (s.withPkts x).poison = s.poison := Eq.trans rfl rfl
@[simp] theorem State.withPkts_gpoison (x : List Pkt) : (s.withPkts x).gpoison = s.gpoison := Eq.trans rfl rfl
@[simp] theorem State.withPkts_ueLog (x : List Pkt) : (s.withPkts x).ueLog = s.ueLog := Eq.trans rfl rfl
@[simp] theorem State.withPkts_zeroed (x : List Pkt) : (s.withPkts x).zeroed = s.zeroed := Eq.trans rfl rfl
@[simp] theorem State.withPkts_force (x : List Pkt) : (s.withPkts x).force = s.force := Eq.trans rfl rfl
@[simp] theorem State.withPkts_ctxs (x : List Pkt) : (s.withPkts x).ctxs = s.ctxs := Eq.trans rfl rfl
@[simp] theorem State.withPkts_cores (x : List Pkt) : (s.withPkts x).cores = s.cores := Eq.trans rfl rfl
@[simp] theorem State.withPkts_tasks (x : List Pkt) : (s.withPkts x).tasks = s.tasks := Eq.trans rfl rfl
@[simp] theorem State.withPkts_rts (x : List Pkt) : (s.withPkts x).rts = s.rts := Eq.trans rfl rfl
@[simp] theorem State.withPkts_dirs (x : List Pkt) : (s.withPkts x).dirs = s.dirs := Eq.trans rfl rfl
@[simp] theorem State.withPkts_gms (x : List Pkt) : (s.withPkts x).gms = s.gms := Eq.trans rfl rfl
@[simp] theorem State.withPkts_mxes (x : List Pkt) : (s.withPkts x).mxes = s.mxes := Eq.trans rfl rfl
@[simp] theorem State.withPkts_curs (x : List Pkt) : (s.withPkts x).curs = s.curs := Eq.trans rfl rfl
@[simp] theorem State.withPkts_mctxs (x : List Pkt) : (s.withPkts x).mctxs = s.mctxs := Eq.trans rfl rfl
@[simp] theorem State.withPkts_net (x : List Pkt) : (s.withPkts x).net = s.net := Eq.trans rfl rfl
@[simp] theorem State.withPkts_answers (x : List Pkt) : (s.withPkts x).answers = s.answers := Eq.trans rfl rfl
@[simp] theorem State.withPkts_crets (x : List Pkt) : (s.withPkts x).crets = s.crets := Eq.trans rfl rfl
@[simp] theorem State.withPkts_rings (x : List Pkt) : (s.withPkts x).rings = s.rings := Eq.trans rfl rfl
@[simp] theorem State.withPkts_unans (x : List Pkt) : (s.withPkts x).unans = s.unans := Eq.trans rfl rfl
@[simp] theorem State.withPkts_cqs (x : List Pkt) : (s.withPkts x).cqs = s.cqs := Eq.trans rfl rfl
@[simp] theorem State.withPkts_turns (x : List Pkt) : (s.withPkts x).turns = s.turns := Eq.trans rfl rfl
@[simp] theorem State.withPkts_tfes (x : List Pkt) : (s.withPkts x).tfes = s.tfes := Eq.trans rfl rfl
@[simp] theorem State.withPkts_pkts (x : List Pkt) : (s.withPkts x).pkts = x := Eq.trans rfl rfl
@[simp] theorem State.withPkts_rtrs (x : List Pkt) : (s.withPkts x).rtrs = s.rtrs := Eq.trans rfl rfl
@[simp] theorem State.withPkts_sv (x : List Pkt) : (s.withPkts x).sv = s.sv := Eq.trans rfl rfl
@[simp] theorem State.withPkts_mss (x : List Pkt) : (s.withPkts x).mss = s.mss := Eq.trans rfl rfl
@[simp] theorem State.withPkts_ports (x : List Pkt) : (s.withPkts x).ports = s.ports := Eq.trans rfl rfl
@[simp] theorem State.withPkts_lamps (x : List Pkt) : (s.withPkts x).lamps = s.lamps := Eq.trans rfl rfl
@[simp] theorem State.withPkts_ptp (x : List Pkt) : (s.withPkts x).ptp = s.ptp := Eq.trans rfl rfl
@[simp] theorem State.withPkts_mrs (x : List Pkt) : (s.withPkts x).mrs = s.mrs := Eq.trans rfl rfl
@[simp] theorem State.withPkts_host (x : List Pkt) : (s.withPkts x).host = s.host := Eq.trans rfl rfl
@[simp] theorem State.withPkts_sec (x : List Pkt) : (s.withPkts x).sec = s.sec := Eq.trans rfl rfl
@[simp] theorem State.withPkts_boot (x : List Pkt) : (s.withPkts x).boot = s.boot := Eq.trans rfl rfl
@[simp] theorem State.withPkts_tst (x : List Pkt) : (s.withPkts x).tst = s.tst := Eq.trans rfl rfl
@[simp] theorem State.withPkts_fr (x : List Pkt) : (s.withPkts x).fr = s.fr := Eq.trans rfl rfl
@[simp] theorem State.withPkts_pwr (x : List Pkt) : (s.withPkts x).pwr = s.pwr := Eq.trans rfl rfl
@[simp] theorem State.withPkts_greset (x : List Pkt) : (s.withPkts x).greset = s.greset := Eq.trans rfl rfl
@[simp] theorem State.withPkts_ctx_ (x : List Pkt) (j : Nat) : (s.withPkts x).ctx j = s.ctx j := Eq.trans rfl rfl
@[simp] theorem State.withPkts_mctx_ (x : List Pkt) (j : Nat) : (s.withPkts x).mctx j = s.mctx j := Eq.trans rfl rfl
@[simp] theorem State.withPkts_reg (x : List Pkt) (a : Nat) : (s.withPkts x).reg a = s.reg a := Eq.trans rfl rfl
@[simp] theorem State.withPkts_fld (x : List Pkt) (f : Fld) : (s.withPkts x).fld f = s.fld f := Eq.trans rfl rfl
@[simp] theorem State.withPkts_sub (x : List Pkt) (a w i : Nat) : (s.withPkts x).sub a w i = s.sub a w i := Eq.trans rfl rfl
@[simp] theorem State.withPkts_rdByte (x : List Pkt) (j : Nat) : (s.withPkts x).rdByte j = s.rdByte j := Eq.trans rfl rfl

/-! ### withRtrs -/

@[simp] theorem State.withRtrs_pending (x : SMap RtrSt) : (s.withRtrs x).pending = s.pending := Eq.trans rfl rfl
@[simp] theorem State.withRtrs_now (x : SMap RtrSt) : (s.withRtrs x).now = s.now := Eq.trans rfl rfl
@[simp] theorem State.withRtrs_free (x : SMap RtrSt) : (s.withRtrs x).free = s.free := Eq.trans rfl rfl
@[simp] theorem State.withRtrs_out (x : SMap RtrSt) : (s.withRtrs x).out = s.out := Eq.trans rfl rfl
@[simp] theorem State.withRtrs_mode (x : SMap RtrSt) : (s.withRtrs x).mode = s.mode := Eq.trans rfl rfl
@[simp] theorem State.withRtrs_drip (x : SMap RtrSt) : (s.withRtrs x).drip = s.drip := Eq.trans rfl rfl
@[simp] theorem State.withRtrs_csr (x : SMap RtrSt) : (s.withRtrs x).csr = s.csr := Eq.trans rfl rfl
@[simp] theorem State.withRtrs_mem (x : SMap RtrSt) : (s.withRtrs x).mem = s.mem := Eq.trans rfl rfl
@[simp] theorem State.withRtrs_poison (x : SMap RtrSt) : (s.withRtrs x).poison = s.poison := Eq.trans rfl rfl
@[simp] theorem State.withRtrs_gpoison (x : SMap RtrSt) : (s.withRtrs x).gpoison = s.gpoison := Eq.trans rfl rfl
@[simp] theorem State.withRtrs_ueLog (x : SMap RtrSt) : (s.withRtrs x).ueLog = s.ueLog := Eq.trans rfl rfl
@[simp] theorem State.withRtrs_zeroed (x : SMap RtrSt) : (s.withRtrs x).zeroed = s.zeroed := Eq.trans rfl rfl
@[simp] theorem State.withRtrs_force (x : SMap RtrSt) : (s.withRtrs x).force = s.force := Eq.trans rfl rfl
@[simp] theorem State.withRtrs_ctxs (x : SMap RtrSt) : (s.withRtrs x).ctxs = s.ctxs := Eq.trans rfl rfl
@[simp] theorem State.withRtrs_cores (x : SMap RtrSt) : (s.withRtrs x).cores = s.cores := Eq.trans rfl rfl
@[simp] theorem State.withRtrs_tasks (x : SMap RtrSt) : (s.withRtrs x).tasks = s.tasks := Eq.trans rfl rfl
@[simp] theorem State.withRtrs_rts (x : SMap RtrSt) : (s.withRtrs x).rts = s.rts := Eq.trans rfl rfl
@[simp] theorem State.withRtrs_dirs (x : SMap RtrSt) : (s.withRtrs x).dirs = s.dirs := Eq.trans rfl rfl
@[simp] theorem State.withRtrs_gms (x : SMap RtrSt) : (s.withRtrs x).gms = s.gms := Eq.trans rfl rfl
@[simp] theorem State.withRtrs_mxes (x : SMap RtrSt) : (s.withRtrs x).mxes = s.mxes := Eq.trans rfl rfl
@[simp] theorem State.withRtrs_curs (x : SMap RtrSt) : (s.withRtrs x).curs = s.curs := Eq.trans rfl rfl
@[simp] theorem State.withRtrs_mctxs (x : SMap RtrSt) : (s.withRtrs x).mctxs = s.mctxs := Eq.trans rfl rfl
@[simp] theorem State.withRtrs_net (x : SMap RtrSt) : (s.withRtrs x).net = s.net := Eq.trans rfl rfl
@[simp] theorem State.withRtrs_answers (x : SMap RtrSt) : (s.withRtrs x).answers = s.answers := Eq.trans rfl rfl
@[simp] theorem State.withRtrs_crets (x : SMap RtrSt) : (s.withRtrs x).crets = s.crets := Eq.trans rfl rfl
@[simp] theorem State.withRtrs_rings (x : SMap RtrSt) : (s.withRtrs x).rings = s.rings := Eq.trans rfl rfl
@[simp] theorem State.withRtrs_unans (x : SMap RtrSt) : (s.withRtrs x).unans = s.unans := Eq.trans rfl rfl
@[simp] theorem State.withRtrs_cqs (x : SMap RtrSt) : (s.withRtrs x).cqs = s.cqs := Eq.trans rfl rfl
@[simp] theorem State.withRtrs_turns (x : SMap RtrSt) : (s.withRtrs x).turns = s.turns := Eq.trans rfl rfl
@[simp] theorem State.withRtrs_tfes (x : SMap RtrSt) : (s.withRtrs x).tfes = s.tfes := Eq.trans rfl rfl
@[simp] theorem State.withRtrs_pkts (x : SMap RtrSt) : (s.withRtrs x).pkts = s.pkts := Eq.trans rfl rfl
@[simp] theorem State.withRtrs_rtrs (x : SMap RtrSt) : (s.withRtrs x).rtrs = x := Eq.trans rfl rfl
@[simp] theorem State.withRtrs_sv (x : SMap RtrSt) : (s.withRtrs x).sv = s.sv := Eq.trans rfl rfl
@[simp] theorem State.withRtrs_mss (x : SMap RtrSt) : (s.withRtrs x).mss = s.mss := Eq.trans rfl rfl
@[simp] theorem State.withRtrs_ports (x : SMap RtrSt) : (s.withRtrs x).ports = s.ports := Eq.trans rfl rfl
@[simp] theorem State.withRtrs_lamps (x : SMap RtrSt) : (s.withRtrs x).lamps = s.lamps := Eq.trans rfl rfl
@[simp] theorem State.withRtrs_ptp (x : SMap RtrSt) : (s.withRtrs x).ptp = s.ptp := Eq.trans rfl rfl
@[simp] theorem State.withRtrs_mrs (x : SMap RtrSt) : (s.withRtrs x).mrs = s.mrs := Eq.trans rfl rfl
@[simp] theorem State.withRtrs_host (x : SMap RtrSt) : (s.withRtrs x).host = s.host := Eq.trans rfl rfl
@[simp] theorem State.withRtrs_sec (x : SMap RtrSt) : (s.withRtrs x).sec = s.sec := Eq.trans rfl rfl
@[simp] theorem State.withRtrs_boot (x : SMap RtrSt) : (s.withRtrs x).boot = s.boot := Eq.trans rfl rfl
@[simp] theorem State.withRtrs_tst (x : SMap RtrSt) : (s.withRtrs x).tst = s.tst := Eq.trans rfl rfl
@[simp] theorem State.withRtrs_fr (x : SMap RtrSt) : (s.withRtrs x).fr = s.fr := Eq.trans rfl rfl
@[simp] theorem State.withRtrs_pwr (x : SMap RtrSt) : (s.withRtrs x).pwr = s.pwr := Eq.trans rfl rfl
@[simp] theorem State.withRtrs_greset (x : SMap RtrSt) : (s.withRtrs x).greset = s.greset := Eq.trans rfl rfl
@[simp] theorem State.withRtrs_ctx_ (x : SMap RtrSt) (j : Nat) : (s.withRtrs x).ctx j = s.ctx j := Eq.trans rfl rfl
@[simp] theorem State.withRtrs_mctx_ (x : SMap RtrSt) (j : Nat) : (s.withRtrs x).mctx j = s.mctx j := Eq.trans rfl rfl
@[simp] theorem State.withRtrs_reg (x : SMap RtrSt) (a : Nat) : (s.withRtrs x).reg a = s.reg a := Eq.trans rfl rfl
@[simp] theorem State.withRtrs_fld (x : SMap RtrSt) (f : Fld) : (s.withRtrs x).fld f = s.fld f := Eq.trans rfl rfl
@[simp] theorem State.withRtrs_sub (x : SMap RtrSt) (a w i : Nat) : (s.withRtrs x).sub a w i = s.sub a w i := Eq.trans rfl rfl
@[simp] theorem State.withRtrs_rdByte (x : SMap RtrSt) (j : Nat) : (s.withRtrs x).rdByte j = s.rdByte j := Eq.trans rfl rfl

/-! ### withSv -/

@[simp] theorem State.withSv_pending (x : SvSt) : (s.withSv x).pending = s.pending := Eq.trans rfl rfl
@[simp] theorem State.withSv_now (x : SvSt) : (s.withSv x).now = s.now := Eq.trans rfl rfl
@[simp] theorem State.withSv_free (x : SvSt) : (s.withSv x).free = s.free := Eq.trans rfl rfl
@[simp] theorem State.withSv_out (x : SvSt) : (s.withSv x).out = s.out := Eq.trans rfl rfl
@[simp] theorem State.withSv_mode (x : SvSt) : (s.withSv x).mode = s.mode := Eq.trans rfl rfl
@[simp] theorem State.withSv_drip (x : SvSt) : (s.withSv x).drip = s.drip := Eq.trans rfl rfl
@[simp] theorem State.withSv_csr (x : SvSt) : (s.withSv x).csr = s.csr := Eq.trans rfl rfl
@[simp] theorem State.withSv_mem (x : SvSt) : (s.withSv x).mem = s.mem := Eq.trans rfl rfl
@[simp] theorem State.withSv_poison (x : SvSt) : (s.withSv x).poison = s.poison := Eq.trans rfl rfl
@[simp] theorem State.withSv_gpoison (x : SvSt) : (s.withSv x).gpoison = s.gpoison := Eq.trans rfl rfl
@[simp] theorem State.withSv_ueLog (x : SvSt) : (s.withSv x).ueLog = s.ueLog := Eq.trans rfl rfl
@[simp] theorem State.withSv_zeroed (x : SvSt) : (s.withSv x).zeroed = s.zeroed := Eq.trans rfl rfl
@[simp] theorem State.withSv_force (x : SvSt) : (s.withSv x).force = s.force := Eq.trans rfl rfl
@[simp] theorem State.withSv_ctxs (x : SvSt) : (s.withSv x).ctxs = s.ctxs := Eq.trans rfl rfl
@[simp] theorem State.withSv_cores (x : SvSt) : (s.withSv x).cores = s.cores := Eq.trans rfl rfl
@[simp] theorem State.withSv_tasks (x : SvSt) : (s.withSv x).tasks = s.tasks := Eq.trans rfl rfl
@[simp] theorem State.withSv_rts (x : SvSt) : (s.withSv x).rts = s.rts := Eq.trans rfl rfl
@[simp] theorem State.withSv_dirs (x : SvSt) : (s.withSv x).dirs = s.dirs := Eq.trans rfl rfl
@[simp] theorem State.withSv_gms (x : SvSt) : (s.withSv x).gms = s.gms := Eq.trans rfl rfl
@[simp] theorem State.withSv_mxes (x : SvSt) : (s.withSv x).mxes = s.mxes := Eq.trans rfl rfl
@[simp] theorem State.withSv_curs (x : SvSt) : (s.withSv x).curs = s.curs := Eq.trans rfl rfl
@[simp] theorem State.withSv_mctxs (x : SvSt) : (s.withSv x).mctxs = s.mctxs := Eq.trans rfl rfl
@[simp] theorem State.withSv_net (x : SvSt) : (s.withSv x).net = s.net := Eq.trans rfl rfl
@[simp] theorem State.withSv_answers (x : SvSt) : (s.withSv x).answers = s.answers := Eq.trans rfl rfl
@[simp] theorem State.withSv_crets (x : SvSt) : (s.withSv x).crets = s.crets := Eq.trans rfl rfl
@[simp] theorem State.withSv_rings (x : SvSt) : (s.withSv x).rings = s.rings := Eq.trans rfl rfl
@[simp] theorem State.withSv_unans (x : SvSt) : (s.withSv x).unans = s.unans := Eq.trans rfl rfl
@[simp] theorem State.withSv_cqs (x : SvSt) : (s.withSv x).cqs = s.cqs := Eq.trans rfl rfl
@[simp] theorem State.withSv_turns (x : SvSt) : (s.withSv x).turns = s.turns := Eq.trans rfl rfl
@[simp] theorem State.withSv_tfes (x : SvSt) : (s.withSv x).tfes = s.tfes := Eq.trans rfl rfl
@[simp] theorem State.withSv_pkts (x : SvSt) : (s.withSv x).pkts = s.pkts := Eq.trans rfl rfl
@[simp] theorem State.withSv_rtrs (x : SvSt) : (s.withSv x).rtrs = s.rtrs := Eq.trans rfl rfl
@[simp] theorem State.withSv_sv (x : SvSt) : (s.withSv x).sv = x := Eq.trans rfl rfl
@[simp] theorem State.withSv_mss (x : SvSt) : (s.withSv x).mss = s.mss := Eq.trans rfl rfl
@[simp] theorem State.withSv_ports (x : SvSt) : (s.withSv x).ports = s.ports := Eq.trans rfl rfl
@[simp] theorem State.withSv_lamps (x : SvSt) : (s.withSv x).lamps = s.lamps := Eq.trans rfl rfl
@[simp] theorem State.withSv_ptp (x : SvSt) : (s.withSv x).ptp = s.ptp := Eq.trans rfl rfl
@[simp] theorem State.withSv_mrs (x : SvSt) : (s.withSv x).mrs = s.mrs := Eq.trans rfl rfl
@[simp] theorem State.withSv_host (x : SvSt) : (s.withSv x).host = s.host := Eq.trans rfl rfl
@[simp] theorem State.withSv_sec (x : SvSt) : (s.withSv x).sec = s.sec := Eq.trans rfl rfl
@[simp] theorem State.withSv_boot (x : SvSt) : (s.withSv x).boot = s.boot := Eq.trans rfl rfl
@[simp] theorem State.withSv_tst (x : SvSt) : (s.withSv x).tst = s.tst := Eq.trans rfl rfl
@[simp] theorem State.withSv_fr (x : SvSt) : (s.withSv x).fr = s.fr := Eq.trans rfl rfl
@[simp] theorem State.withSv_pwr (x : SvSt) : (s.withSv x).pwr = s.pwr := Eq.trans rfl rfl
@[simp] theorem State.withSv_greset (x : SvSt) : (s.withSv x).greset = s.greset := Eq.trans rfl rfl
@[simp] theorem State.withSv_ctx_ (x : SvSt) (j : Nat) : (s.withSv x).ctx j = s.ctx j := Eq.trans rfl rfl
@[simp] theorem State.withSv_mctx_ (x : SvSt) (j : Nat) : (s.withSv x).mctx j = s.mctx j := Eq.trans rfl rfl
@[simp] theorem State.withSv_reg (x : SvSt) (a : Nat) : (s.withSv x).reg a = s.reg a := Eq.trans rfl rfl
@[simp] theorem State.withSv_fld (x : SvSt) (f : Fld) : (s.withSv x).fld f = s.fld f := Eq.trans rfl rfl
@[simp] theorem State.withSv_sub (x : SvSt) (a w i : Nat) : (s.withSv x).sub a w i = s.sub a w i := Eq.trans rfl rfl
@[simp] theorem State.withSv_rdByte (x : SvSt) (j : Nat) : (s.withSv x).rdByte j = s.rdByte j := Eq.trans rfl rfl

/-! ### withMss -/

@[simp] theorem State.withMss_pending (x : SMap MsSt) : (s.withMss x).pending = s.pending := Eq.trans rfl rfl
@[simp] theorem State.withMss_now (x : SMap MsSt) : (s.withMss x).now = s.now := Eq.trans rfl rfl
@[simp] theorem State.withMss_free (x : SMap MsSt) : (s.withMss x).free = s.free := Eq.trans rfl rfl
@[simp] theorem State.withMss_out (x : SMap MsSt) : (s.withMss x).out = s.out := Eq.trans rfl rfl
@[simp] theorem State.withMss_mode (x : SMap MsSt) : (s.withMss x).mode = s.mode := Eq.trans rfl rfl
@[simp] theorem State.withMss_drip (x : SMap MsSt) : (s.withMss x).drip = s.drip := Eq.trans rfl rfl
@[simp] theorem State.withMss_csr (x : SMap MsSt) : (s.withMss x).csr = s.csr := Eq.trans rfl rfl
@[simp] theorem State.withMss_mem (x : SMap MsSt) : (s.withMss x).mem = s.mem := Eq.trans rfl rfl
@[simp] theorem State.withMss_poison (x : SMap MsSt) : (s.withMss x).poison = s.poison := Eq.trans rfl rfl
@[simp] theorem State.withMss_gpoison (x : SMap MsSt) : (s.withMss x).gpoison = s.gpoison := Eq.trans rfl rfl
@[simp] theorem State.withMss_ueLog (x : SMap MsSt) : (s.withMss x).ueLog = s.ueLog := Eq.trans rfl rfl
@[simp] theorem State.withMss_zeroed (x : SMap MsSt) : (s.withMss x).zeroed = s.zeroed := Eq.trans rfl rfl
@[simp] theorem State.withMss_force (x : SMap MsSt) : (s.withMss x).force = s.force := Eq.trans rfl rfl
@[simp] theorem State.withMss_ctxs (x : SMap MsSt) : (s.withMss x).ctxs = s.ctxs := Eq.trans rfl rfl
@[simp] theorem State.withMss_cores (x : SMap MsSt) : (s.withMss x).cores = s.cores := Eq.trans rfl rfl
@[simp] theorem State.withMss_tasks (x : SMap MsSt) : (s.withMss x).tasks = s.tasks := Eq.trans rfl rfl
@[simp] theorem State.withMss_rts (x : SMap MsSt) : (s.withMss x).rts = s.rts := Eq.trans rfl rfl
@[simp] theorem State.withMss_dirs (x : SMap MsSt) : (s.withMss x).dirs = s.dirs := Eq.trans rfl rfl
@[simp] theorem State.withMss_gms (x : SMap MsSt) : (s.withMss x).gms = s.gms := Eq.trans rfl rfl
@[simp] theorem State.withMss_mxes (x : SMap MsSt) : (s.withMss x).mxes = s.mxes := Eq.trans rfl rfl
@[simp] theorem State.withMss_curs (x : SMap MsSt) : (s.withMss x).curs = s.curs := Eq.trans rfl rfl
@[simp] theorem State.withMss_mctxs (x : SMap MsSt) : (s.withMss x).mctxs = s.mctxs := Eq.trans rfl rfl
@[simp] theorem State.withMss_net (x : SMap MsSt) : (s.withMss x).net = s.net := Eq.trans rfl rfl
@[simp] theorem State.withMss_answers (x : SMap MsSt) : (s.withMss x).answers = s.answers := Eq.trans rfl rfl
@[simp] theorem State.withMss_crets (x : SMap MsSt) : (s.withMss x).crets = s.crets := Eq.trans rfl rfl
@[simp] theorem State.withMss_rings (x : SMap MsSt) : (s.withMss x).rings = s.rings := Eq.trans rfl rfl
@[simp] theorem State.withMss_unans (x : SMap MsSt) : (s.withMss x).unans = s.unans := Eq.trans rfl rfl
@[simp] theorem State.withMss_cqs (x : SMap MsSt) : (s.withMss x).cqs = s.cqs := Eq.trans rfl rfl
@[simp] theorem State.withMss_turns (x : SMap MsSt) : (s.withMss x).turns = s.turns := Eq.trans rfl rfl
@[simp] theorem State.withMss_tfes (x : SMap MsSt) : (s.withMss x).tfes = s.tfes := Eq.trans rfl rfl
@[simp] theorem State.withMss_pkts (x : SMap MsSt) : (s.withMss x).pkts = s.pkts := Eq.trans rfl rfl
@[simp] theorem State.withMss_rtrs (x : SMap MsSt) : (s.withMss x).rtrs = s.rtrs := Eq.trans rfl rfl
@[simp] theorem State.withMss_sv (x : SMap MsSt) : (s.withMss x).sv = s.sv := Eq.trans rfl rfl
@[simp] theorem State.withMss_mss (x : SMap MsSt) : (s.withMss x).mss = x := Eq.trans rfl rfl
@[simp] theorem State.withMss_ports (x : SMap MsSt) : (s.withMss x).ports = s.ports := Eq.trans rfl rfl
@[simp] theorem State.withMss_lamps (x : SMap MsSt) : (s.withMss x).lamps = s.lamps := Eq.trans rfl rfl
@[simp] theorem State.withMss_ptp (x : SMap MsSt) : (s.withMss x).ptp = s.ptp := Eq.trans rfl rfl
@[simp] theorem State.withMss_mrs (x : SMap MsSt) : (s.withMss x).mrs = s.mrs := Eq.trans rfl rfl
@[simp] theorem State.withMss_host (x : SMap MsSt) : (s.withMss x).host = s.host := Eq.trans rfl rfl
@[simp] theorem State.withMss_sec (x : SMap MsSt) : (s.withMss x).sec = s.sec := Eq.trans rfl rfl
@[simp] theorem State.withMss_boot (x : SMap MsSt) : (s.withMss x).boot = s.boot := Eq.trans rfl rfl
@[simp] theorem State.withMss_tst (x : SMap MsSt) : (s.withMss x).tst = s.tst := Eq.trans rfl rfl
@[simp] theorem State.withMss_fr (x : SMap MsSt) : (s.withMss x).fr = s.fr := Eq.trans rfl rfl
@[simp] theorem State.withMss_pwr (x : SMap MsSt) : (s.withMss x).pwr = s.pwr := Eq.trans rfl rfl
@[simp] theorem State.withMss_greset (x : SMap MsSt) : (s.withMss x).greset = s.greset := Eq.trans rfl rfl
@[simp] theorem State.withMss_ctx_ (x : SMap MsSt) (j : Nat) : (s.withMss x).ctx j = s.ctx j := Eq.trans rfl rfl
@[simp] theorem State.withMss_mctx_ (x : SMap MsSt) (j : Nat) : (s.withMss x).mctx j = s.mctx j := Eq.trans rfl rfl
@[simp] theorem State.withMss_reg (x : SMap MsSt) (a : Nat) : (s.withMss x).reg a = s.reg a := Eq.trans rfl rfl
@[simp] theorem State.withMss_fld (x : SMap MsSt) (f : Fld) : (s.withMss x).fld f = s.fld f := Eq.trans rfl rfl
@[simp] theorem State.withMss_sub (x : SMap MsSt) (a w i : Nat) : (s.withMss x).sub a w i = s.sub a w i := Eq.trans rfl rfl
@[simp] theorem State.withMss_rdByte (x : SMap MsSt) (j : Nat) : (s.withMss x).rdByte j = s.rdByte j := Eq.trans rfl rfl

/-! ### withPorts -/

@[simp] theorem State.withPorts_pending (x : SMap PortSt) : (s.withPorts x).pending = s.pending := Eq.trans rfl rfl
@[simp] theorem State.withPorts_now (x : SMap PortSt) : (s.withPorts x).now = s.now := Eq.trans rfl rfl
@[simp] theorem State.withPorts_free (x : SMap PortSt) : (s.withPorts x).free = s.free := Eq.trans rfl rfl
@[simp] theorem State.withPorts_out (x : SMap PortSt) : (s.withPorts x).out = s.out := Eq.trans rfl rfl
@[simp] theorem State.withPorts_mode (x : SMap PortSt) : (s.withPorts x).mode = s.mode := Eq.trans rfl rfl
@[simp] theorem State.withPorts_drip (x : SMap PortSt) : (s.withPorts x).drip = s.drip := Eq.trans rfl rfl
@[simp] theorem State.withPorts_csr (x : SMap PortSt) : (s.withPorts x).csr = s.csr := Eq.trans rfl rfl
@[simp] theorem State.withPorts_mem (x : SMap PortSt) : (s.withPorts x).mem = s.mem := Eq.trans rfl rfl
@[simp] theorem State.withPorts_poison (x : SMap PortSt) : (s.withPorts x).poison = s.poison := Eq.trans rfl rfl
@[simp] theorem State.withPorts_gpoison (x : SMap PortSt) : (s.withPorts x).gpoison = s.gpoison := Eq.trans rfl rfl
@[simp] theorem State.withPorts_ueLog (x : SMap PortSt) : (s.withPorts x).ueLog = s.ueLog := Eq.trans rfl rfl
@[simp] theorem State.withPorts_zeroed (x : SMap PortSt) : (s.withPorts x).zeroed = s.zeroed := Eq.trans rfl rfl
@[simp] theorem State.withPorts_force (x : SMap PortSt) : (s.withPorts x).force = s.force := Eq.trans rfl rfl
@[simp] theorem State.withPorts_ctxs (x : SMap PortSt) : (s.withPorts x).ctxs = s.ctxs := Eq.trans rfl rfl
@[simp] theorem State.withPorts_cores (x : SMap PortSt) : (s.withPorts x).cores = s.cores := Eq.trans rfl rfl
@[simp] theorem State.withPorts_tasks (x : SMap PortSt) : (s.withPorts x).tasks = s.tasks := Eq.trans rfl rfl
@[simp] theorem State.withPorts_rts (x : SMap PortSt) : (s.withPorts x).rts = s.rts := Eq.trans rfl rfl
@[simp] theorem State.withPorts_dirs (x : SMap PortSt) : (s.withPorts x).dirs = s.dirs := Eq.trans rfl rfl
@[simp] theorem State.withPorts_gms (x : SMap PortSt) : (s.withPorts x).gms = s.gms := Eq.trans rfl rfl
@[simp] theorem State.withPorts_mxes (x : SMap PortSt) : (s.withPorts x).mxes = s.mxes := Eq.trans rfl rfl
@[simp] theorem State.withPorts_curs (x : SMap PortSt) : (s.withPorts x).curs = s.curs := Eq.trans rfl rfl
@[simp] theorem State.withPorts_mctxs (x : SMap PortSt) : (s.withPorts x).mctxs = s.mctxs := Eq.trans rfl rfl
@[simp] theorem State.withPorts_net (x : SMap PortSt) : (s.withPorts x).net = s.net := Eq.trans rfl rfl
@[simp] theorem State.withPorts_answers (x : SMap PortSt) : (s.withPorts x).answers = s.answers := Eq.trans rfl rfl
@[simp] theorem State.withPorts_crets (x : SMap PortSt) : (s.withPorts x).crets = s.crets := Eq.trans rfl rfl
@[simp] theorem State.withPorts_rings (x : SMap PortSt) : (s.withPorts x).rings = s.rings := Eq.trans rfl rfl
@[simp] theorem State.withPorts_unans (x : SMap PortSt) : (s.withPorts x).unans = s.unans := Eq.trans rfl rfl
@[simp] theorem State.withPorts_cqs (x : SMap PortSt) : (s.withPorts x).cqs = s.cqs := Eq.trans rfl rfl
@[simp] theorem State.withPorts_turns (x : SMap PortSt) : (s.withPorts x).turns = s.turns := Eq.trans rfl rfl
@[simp] theorem State.withPorts_tfes (x : SMap PortSt) : (s.withPorts x).tfes = s.tfes := Eq.trans rfl rfl
@[simp] theorem State.withPorts_pkts (x : SMap PortSt) : (s.withPorts x).pkts = s.pkts := Eq.trans rfl rfl
@[simp] theorem State.withPorts_rtrs (x : SMap PortSt) : (s.withPorts x).rtrs = s.rtrs := Eq.trans rfl rfl
@[simp] theorem State.withPorts_sv (x : SMap PortSt) : (s.withPorts x).sv = s.sv := Eq.trans rfl rfl
@[simp] theorem State.withPorts_mss (x : SMap PortSt) : (s.withPorts x).mss = s.mss := Eq.trans rfl rfl
@[simp] theorem State.withPorts_ports (x : SMap PortSt) : (s.withPorts x).ports = x := Eq.trans rfl rfl
@[simp] theorem State.withPorts_lamps (x : SMap PortSt) : (s.withPorts x).lamps = s.lamps := Eq.trans rfl rfl
@[simp] theorem State.withPorts_ptp (x : SMap PortSt) : (s.withPorts x).ptp = s.ptp := Eq.trans rfl rfl
@[simp] theorem State.withPorts_mrs (x : SMap PortSt) : (s.withPorts x).mrs = s.mrs := Eq.trans rfl rfl
@[simp] theorem State.withPorts_host (x : SMap PortSt) : (s.withPorts x).host = s.host := Eq.trans rfl rfl
@[simp] theorem State.withPorts_sec (x : SMap PortSt) : (s.withPorts x).sec = s.sec := Eq.trans rfl rfl
@[simp] theorem State.withPorts_boot (x : SMap PortSt) : (s.withPorts x).boot = s.boot := Eq.trans rfl rfl
@[simp] theorem State.withPorts_tst (x : SMap PortSt) : (s.withPorts x).tst = s.tst := Eq.trans rfl rfl
@[simp] theorem State.withPorts_fr (x : SMap PortSt) : (s.withPorts x).fr = s.fr := Eq.trans rfl rfl
@[simp] theorem State.withPorts_pwr (x : SMap PortSt) : (s.withPorts x).pwr = s.pwr := Eq.trans rfl rfl
@[simp] theorem State.withPorts_greset (x : SMap PortSt) : (s.withPorts x).greset = s.greset := Eq.trans rfl rfl
@[simp] theorem State.withPorts_ctx_ (x : SMap PortSt) (j : Nat) : (s.withPorts x).ctx j = s.ctx j := Eq.trans rfl rfl
@[simp] theorem State.withPorts_mctx_ (x : SMap PortSt) (j : Nat) : (s.withPorts x).mctx j = s.mctx j := Eq.trans rfl rfl
@[simp] theorem State.withPorts_reg (x : SMap PortSt) (a : Nat) : (s.withPorts x).reg a = s.reg a := Eq.trans rfl rfl
@[simp] theorem State.withPorts_fld (x : SMap PortSt) (f : Fld) : (s.withPorts x).fld f = s.fld f := Eq.trans rfl rfl
@[simp] theorem State.withPorts_sub (x : SMap PortSt) (a w i : Nat) : (s.withPorts x).sub a w i = s.sub a w i := Eq.trans rfl rfl
@[simp] theorem State.withPorts_rdByte (x : SMap PortSt) (j : Nat) : (s.withPorts x).rdByte j = s.rdByte j := Eq.trans rfl rfl

/-! ### withLamps -/

@[simp] theorem State.withLamps_pending (x : SMap LampSt) : (s.withLamps x).pending = s.pending := Eq.trans rfl rfl
@[simp] theorem State.withLamps_now (x : SMap LampSt) : (s.withLamps x).now = s.now := Eq.trans rfl rfl
@[simp] theorem State.withLamps_free (x : SMap LampSt) : (s.withLamps x).free = s.free := Eq.trans rfl rfl
@[simp] theorem State.withLamps_out (x : SMap LampSt) : (s.withLamps x).out = s.out := Eq.trans rfl rfl
@[simp] theorem State.withLamps_mode (x : SMap LampSt) : (s.withLamps x).mode = s.mode := Eq.trans rfl rfl
@[simp] theorem State.withLamps_drip (x : SMap LampSt) : (s.withLamps x).drip = s.drip := Eq.trans rfl rfl
@[simp] theorem State.withLamps_csr (x : SMap LampSt) : (s.withLamps x).csr = s.csr := Eq.trans rfl rfl
@[simp] theorem State.withLamps_mem (x : SMap LampSt) : (s.withLamps x).mem = s.mem := Eq.trans rfl rfl
@[simp] theorem State.withLamps_poison (x : SMap LampSt) : (s.withLamps x).poison = s.poison := Eq.trans rfl rfl
@[simp] theorem State.withLamps_gpoison (x : SMap LampSt) : (s.withLamps x).gpoison = s.gpoison := Eq.trans rfl rfl
@[simp] theorem State.withLamps_ueLog (x : SMap LampSt) : (s.withLamps x).ueLog = s.ueLog := Eq.trans rfl rfl
@[simp] theorem State.withLamps_zeroed (x : SMap LampSt) : (s.withLamps x).zeroed = s.zeroed := Eq.trans rfl rfl
@[simp] theorem State.withLamps_force (x : SMap LampSt) : (s.withLamps x).force = s.force := Eq.trans rfl rfl
@[simp] theorem State.withLamps_ctxs (x : SMap LampSt) : (s.withLamps x).ctxs = s.ctxs := Eq.trans rfl rfl
@[simp] theorem State.withLamps_cores (x : SMap LampSt) : (s.withLamps x).cores = s.cores := Eq.trans rfl rfl
@[simp] theorem State.withLamps_tasks (x : SMap LampSt) : (s.withLamps x).tasks = s.tasks := Eq.trans rfl rfl
@[simp] theorem State.withLamps_rts (x : SMap LampSt) : (s.withLamps x).rts = s.rts := Eq.trans rfl rfl
@[simp] theorem State.withLamps_dirs (x : SMap LampSt) : (s.withLamps x).dirs = s.dirs := Eq.trans rfl rfl
@[simp] theorem State.withLamps_gms (x : SMap LampSt) : (s.withLamps x).gms = s.gms := Eq.trans rfl rfl
@[simp] theorem State.withLamps_mxes (x : SMap LampSt) : (s.withLamps x).mxes = s.mxes := Eq.trans rfl rfl
@[simp] theorem State.withLamps_curs (x : SMap LampSt) : (s.withLamps x).curs = s.curs := Eq.trans rfl rfl
@[simp] theorem State.withLamps_mctxs (x : SMap LampSt) : (s.withLamps x).mctxs = s.mctxs := Eq.trans rfl rfl
@[simp] theorem State.withLamps_net (x : SMap LampSt) : (s.withLamps x).net = s.net := Eq.trans rfl rfl
@[simp] theorem State.withLamps_answers (x : SMap LampSt) : (s.withLamps x).answers = s.answers := Eq.trans rfl rfl
@[simp] theorem State.withLamps_crets (x : SMap LampSt) : (s.withLamps x).crets = s.crets := Eq.trans rfl rfl
@[simp] theorem State.withLamps_rings (x : SMap LampSt) : (s.withLamps x).rings = s.rings := Eq.trans rfl rfl
@[simp] theorem State.withLamps_unans (x : SMap LampSt) : (s.withLamps x).unans = s.unans := Eq.trans rfl rfl
@[simp] theorem State.withLamps_cqs (x : SMap LampSt) : (s.withLamps x).cqs = s.cqs := Eq.trans rfl rfl
@[simp] theorem State.withLamps_turns (x : SMap LampSt) : (s.withLamps x).turns = s.turns := Eq.trans rfl rfl
@[simp] theorem State.withLamps_tfes (x : SMap LampSt) : (s.withLamps x).tfes = s.tfes := Eq.trans rfl rfl
@[simp] theorem State.withLamps_pkts (x : SMap LampSt) : (s.withLamps x).pkts = s.pkts := Eq.trans rfl rfl
@[simp] theorem State.withLamps_rtrs (x : SMap LampSt) : (s.withLamps x).rtrs = s.rtrs := Eq.trans rfl rfl
@[simp] theorem State.withLamps_sv (x : SMap LampSt) : (s.withLamps x).sv = s.sv := Eq.trans rfl rfl
@[simp] theorem State.withLamps_mss (x : SMap LampSt) : (s.withLamps x).mss = s.mss := Eq.trans rfl rfl
@[simp] theorem State.withLamps_ports (x : SMap LampSt) : (s.withLamps x).ports = s.ports := Eq.trans rfl rfl
@[simp] theorem State.withLamps_lamps (x : SMap LampSt) : (s.withLamps x).lamps = x := Eq.trans rfl rfl
@[simp] theorem State.withLamps_ptp (x : SMap LampSt) : (s.withLamps x).ptp = s.ptp := Eq.trans rfl rfl
@[simp] theorem State.withLamps_mrs (x : SMap LampSt) : (s.withLamps x).mrs = s.mrs := Eq.trans rfl rfl
@[simp] theorem State.withLamps_host (x : SMap LampSt) : (s.withLamps x).host = s.host := Eq.trans rfl rfl
@[simp] theorem State.withLamps_sec (x : SMap LampSt) : (s.withLamps x).sec = s.sec := Eq.trans rfl rfl
@[simp] theorem State.withLamps_boot (x : SMap LampSt) : (s.withLamps x).boot = s.boot := Eq.trans rfl rfl
@[simp] theorem State.withLamps_tst (x : SMap LampSt) : (s.withLamps x).tst = s.tst := Eq.trans rfl rfl
@[simp] theorem State.withLamps_fr (x : SMap LampSt) : (s.withLamps x).fr = s.fr := Eq.trans rfl rfl
@[simp] theorem State.withLamps_pwr (x : SMap LampSt) : (s.withLamps x).pwr = s.pwr := Eq.trans rfl rfl
@[simp] theorem State.withLamps_greset (x : SMap LampSt) : (s.withLamps x).greset = s.greset := Eq.trans rfl rfl
@[simp] theorem State.withLamps_ctx_ (x : SMap LampSt) (j : Nat) : (s.withLamps x).ctx j = s.ctx j := Eq.trans rfl rfl
@[simp] theorem State.withLamps_mctx_ (x : SMap LampSt) (j : Nat) : (s.withLamps x).mctx j = s.mctx j := Eq.trans rfl rfl
@[simp] theorem State.withLamps_reg (x : SMap LampSt) (a : Nat) : (s.withLamps x).reg a = s.reg a := Eq.trans rfl rfl
@[simp] theorem State.withLamps_fld (x : SMap LampSt) (f : Fld) : (s.withLamps x).fld f = s.fld f := Eq.trans rfl rfl
@[simp] theorem State.withLamps_sub (x : SMap LampSt) (a w i : Nat) : (s.withLamps x).sub a w i = s.sub a w i := Eq.trans rfl rfl
@[simp] theorem State.withLamps_rdByte (x : SMap LampSt) (j : Nat) : (s.withLamps x).rdByte j = s.rdByte j := Eq.trans rfl rfl

/-! ### withPtp -/

@[simp] theorem State.withPtp_pending (x : PtpSt) : (s.withPtp x).pending = s.pending := Eq.trans rfl rfl
@[simp] theorem State.withPtp_now (x : PtpSt) : (s.withPtp x).now = s.now := Eq.trans rfl rfl
@[simp] theorem State.withPtp_free (x : PtpSt) : (s.withPtp x).free = s.free := Eq.trans rfl rfl
@[simp] theorem State.withPtp_out (x : PtpSt) : (s.withPtp x).out = s.out := Eq.trans rfl rfl
@[simp] theorem State.withPtp_mode (x : PtpSt) : (s.withPtp x).mode = s.mode := Eq.trans rfl rfl
@[simp] theorem State.withPtp_drip (x : PtpSt) : (s.withPtp x).drip = s.drip := Eq.trans rfl rfl
@[simp] theorem State.withPtp_csr (x : PtpSt) : (s.withPtp x).csr = s.csr := Eq.trans rfl rfl
@[simp] theorem State.withPtp_mem (x : PtpSt) : (s.withPtp x).mem = s.mem := Eq.trans rfl rfl
@[simp] theorem State.withPtp_poison (x : PtpSt) : (s.withPtp x).poison = s.poison := Eq.trans rfl rfl
@[simp] theorem State.withPtp_gpoison (x : PtpSt) : (s.withPtp x).gpoison = s.gpoison := Eq.trans rfl rfl
@[simp] theorem State.withPtp_ueLog (x : PtpSt) : (s.withPtp x).ueLog = s.ueLog := Eq.trans rfl rfl
@[simp] theorem State.withPtp_zeroed (x : PtpSt) : (s.withPtp x).zeroed = s.zeroed := Eq.trans rfl rfl
@[simp] theorem State.withPtp_force (x : PtpSt) : (s.withPtp x).force = s.force := Eq.trans rfl rfl
@[simp] theorem State.withPtp_ctxs (x : PtpSt) : (s.withPtp x).ctxs = s.ctxs := Eq.trans rfl rfl
@[simp] theorem State.withPtp_cores (x : PtpSt) : (s.withPtp x).cores = s.cores := Eq.trans rfl rfl
@[simp] theorem State.withPtp_tasks (x : PtpSt) : (s.withPtp x).tasks = s.tasks := Eq.trans rfl rfl
@[simp] theorem State.withPtp_rts (x : PtpSt) : (s.withPtp x).rts = s.rts := Eq.trans rfl rfl
@[simp] theorem State.withPtp_dirs (x : PtpSt) : (s.withPtp x).dirs = s.dirs := Eq.trans rfl rfl
@[simp] theorem State.withPtp_gms (x : PtpSt) : (s.withPtp x).gms = s.gms := Eq.trans rfl rfl
@[simp] theorem State.withPtp_mxes (x : PtpSt) : (s.withPtp x).mxes = s.mxes := Eq.trans rfl rfl
@[simp] theorem State.withPtp_curs (x : PtpSt) : (s.withPtp x).curs = s.curs := Eq.trans rfl rfl
@[simp] theorem State.withPtp_mctxs (x : PtpSt) : (s.withPtp x).mctxs = s.mctxs := Eq.trans rfl rfl
@[simp] theorem State.withPtp_net (x : PtpSt) : (s.withPtp x).net = s.net := Eq.trans rfl rfl
@[simp] theorem State.withPtp_answers (x : PtpSt) : (s.withPtp x).answers = s.answers := Eq.trans rfl rfl
@[simp] theorem State.withPtp_crets (x : PtpSt) : (s.withPtp x).crets = s.crets := Eq.trans rfl rfl
@[simp] theorem State.withPtp_rings (x : PtpSt) : (s.withPtp x).rings = s.rings := Eq.trans rfl rfl
@[simp] theorem State.withPtp_unans (x : PtpSt) : (s.withPtp x).unans = s.unans := Eq.trans rfl rfl
@[simp] theorem State.withPtp_cqs (x : PtpSt) : (s.withPtp x).cqs = s.cqs := Eq.trans rfl rfl
@[simp] theorem State.withPtp_turns (x : PtpSt) : (s.withPtp x).turns = s.turns := Eq.trans rfl rfl
@[simp] theorem State.withPtp_tfes (x : PtpSt) : (s.withPtp x).tfes = s.tfes := Eq.trans rfl rfl
@[simp] theorem State.withPtp_pkts (x : PtpSt) : (s.withPtp x).pkts = s.pkts := Eq.trans rfl rfl
@[simp] theorem State.withPtp_rtrs (x : PtpSt) : (s.withPtp x).rtrs = s.rtrs := Eq.trans rfl rfl
@[simp] theorem State.withPtp_sv (x : PtpSt) : (s.withPtp x).sv = s.sv := Eq.trans rfl rfl
@[simp] theorem State.withPtp_mss (x : PtpSt) : (s.withPtp x).mss = s.mss := Eq.trans rfl rfl
@[simp] theorem State.withPtp_ports (x : PtpSt) : (s.withPtp x).ports = s.ports := Eq.trans rfl rfl
@[simp] theorem State.withPtp_lamps (x : PtpSt) : (s.withPtp x).lamps = s.lamps := Eq.trans rfl rfl
@[simp] theorem State.withPtp_ptp (x : PtpSt) : (s.withPtp x).ptp = x := Eq.trans rfl rfl
@[simp] theorem State.withPtp_mrs (x : PtpSt) : (s.withPtp x).mrs = s.mrs := Eq.trans rfl rfl
@[simp] theorem State.withPtp_host (x : PtpSt) : (s.withPtp x).host = s.host := Eq.trans rfl rfl
@[simp] theorem State.withPtp_sec (x : PtpSt) : (s.withPtp x).sec = s.sec := Eq.trans rfl rfl
@[simp] theorem State.withPtp_boot (x : PtpSt) : (s.withPtp x).boot = s.boot := Eq.trans rfl rfl
@[simp] theorem State.withPtp_tst (x : PtpSt) : (s.withPtp x).tst = s.tst := Eq.trans rfl rfl
@[simp] theorem State.withPtp_fr (x : PtpSt) : (s.withPtp x).fr = s.fr := Eq.trans rfl rfl
@[simp] theorem State.withPtp_pwr (x : PtpSt) : (s.withPtp x).pwr = s.pwr := Eq.trans rfl rfl
@[simp] theorem State.withPtp_greset (x : PtpSt) : (s.withPtp x).greset = s.greset := Eq.trans rfl rfl
@[simp] theorem State.withPtp_ctx_ (x : PtpSt) (j : Nat) : (s.withPtp x).ctx j = s.ctx j := Eq.trans rfl rfl
@[simp] theorem State.withPtp_mctx_ (x : PtpSt) (j : Nat) : (s.withPtp x).mctx j = s.mctx j := Eq.trans rfl rfl
@[simp] theorem State.withPtp_reg (x : PtpSt) (a : Nat) : (s.withPtp x).reg a = s.reg a := Eq.trans rfl rfl
@[simp] theorem State.withPtp_fld (x : PtpSt) (f : Fld) : (s.withPtp x).fld f = s.fld f := Eq.trans rfl rfl
@[simp] theorem State.withPtp_sub (x : PtpSt) (a w i : Nat) : (s.withPtp x).sub a w i = s.sub a w i := Eq.trans rfl rfl
@[simp] theorem State.withPtp_rdByte (x : PtpSt) (j : Nat) : (s.withPtp x).rdByte j = s.rdByte j := Eq.trans rfl rfl

/-! ### withMrs -/

@[simp] theorem State.withMrs_pending (x : SMap MrSt) : (s.withMrs x).pending = s.pending := Eq.trans rfl rfl
@[simp] theorem State.withMrs_now (x : SMap MrSt) : (s.withMrs x).now = s.now := Eq.trans rfl rfl
@[simp] theorem State.withMrs_free (x : SMap MrSt) : (s.withMrs x).free = s.free := Eq.trans rfl rfl
@[simp] theorem State.withMrs_out (x : SMap MrSt) : (s.withMrs x).out = s.out := Eq.trans rfl rfl
@[simp] theorem State.withMrs_mode (x : SMap MrSt) : (s.withMrs x).mode = s.mode := Eq.trans rfl rfl
@[simp] theorem State.withMrs_drip (x : SMap MrSt) : (s.withMrs x).drip = s.drip := Eq.trans rfl rfl
@[simp] theorem State.withMrs_csr (x : SMap MrSt) : (s.withMrs x).csr = s.csr := Eq.trans rfl rfl
@[simp] theorem State.withMrs_mem (x : SMap MrSt) : (s.withMrs x).mem = s.mem := Eq.trans rfl rfl
@[simp] theorem State.withMrs_poison (x : SMap MrSt) : (s.withMrs x).poison = s.poison := Eq.trans rfl rfl
@[simp] theorem State.withMrs_gpoison (x : SMap MrSt) : (s.withMrs x).gpoison = s.gpoison := Eq.trans rfl rfl
@[simp] theorem State.withMrs_ueLog (x : SMap MrSt) : (s.withMrs x).ueLog = s.ueLog := Eq.trans rfl rfl
@[simp] theorem State.withMrs_zeroed (x : SMap MrSt) : (s.withMrs x).zeroed = s.zeroed := Eq.trans rfl rfl
@[simp] theorem State.withMrs_force (x : SMap MrSt) : (s.withMrs x).force = s.force := Eq.trans rfl rfl
@[simp] theorem State.withMrs_ctxs (x : SMap MrSt) : (s.withMrs x).ctxs = s.ctxs := Eq.trans rfl rfl
@[simp] theorem State.withMrs_cores (x : SMap MrSt) : (s.withMrs x).cores = s.cores := Eq.trans rfl rfl
@[simp] theorem State.withMrs_tasks (x : SMap MrSt) : (s.withMrs x).tasks = s.tasks := Eq.trans rfl rfl
@[simp] theorem State.withMrs_rts (x : SMap MrSt) : (s.withMrs x).rts = s.rts := Eq.trans rfl rfl
@[simp] theorem State.withMrs_dirs (x : SMap MrSt) : (s.withMrs x).dirs = s.dirs := Eq.trans rfl rfl
@[simp] theorem State.withMrs_gms (x : SMap MrSt) : (s.withMrs x).gms = s.gms := Eq.trans rfl rfl
@[simp] theorem State.withMrs_mxes (x : SMap MrSt) : (s.withMrs x).mxes = s.mxes := Eq.trans rfl rfl
@[simp] theorem State.withMrs_curs (x : SMap MrSt) : (s.withMrs x).curs = s.curs := Eq.trans rfl rfl
@[simp] theorem State.withMrs_mctxs (x : SMap MrSt) : (s.withMrs x).mctxs = s.mctxs := Eq.trans rfl rfl
@[simp] theorem State.withMrs_net (x : SMap MrSt) : (s.withMrs x).net = s.net := Eq.trans rfl rfl
@[simp] theorem State.withMrs_answers (x : SMap MrSt) : (s.withMrs x).answers = s.answers := Eq.trans rfl rfl
@[simp] theorem State.withMrs_crets (x : SMap MrSt) : (s.withMrs x).crets = s.crets := Eq.trans rfl rfl
@[simp] theorem State.withMrs_rings (x : SMap MrSt) : (s.withMrs x).rings = s.rings := Eq.trans rfl rfl
@[simp] theorem State.withMrs_unans (x : SMap MrSt) : (s.withMrs x).unans = s.unans := Eq.trans rfl rfl
@[simp] theorem State.withMrs_cqs (x : SMap MrSt) : (s.withMrs x).cqs = s.cqs := Eq.trans rfl rfl
@[simp] theorem State.withMrs_turns (x : SMap MrSt) : (s.withMrs x).turns = s.turns := Eq.trans rfl rfl
@[simp] theorem State.withMrs_tfes (x : SMap MrSt) : (s.withMrs x).tfes = s.tfes := Eq.trans rfl rfl
@[simp] theorem State.withMrs_pkts (x : SMap MrSt) : (s.withMrs x).pkts = s.pkts := Eq.trans rfl rfl
@[simp] theorem State.withMrs_rtrs (x : SMap MrSt) : (s.withMrs x).rtrs = s.rtrs := Eq.trans rfl rfl
@[simp] theorem State.withMrs_sv (x : SMap MrSt) : (s.withMrs x).sv = s.sv := Eq.trans rfl rfl
@[simp] theorem State.withMrs_mss (x : SMap MrSt) : (s.withMrs x).mss = s.mss := Eq.trans rfl rfl
@[simp] theorem State.withMrs_ports (x : SMap MrSt) : (s.withMrs x).ports = s.ports := Eq.trans rfl rfl
@[simp] theorem State.withMrs_lamps (x : SMap MrSt) : (s.withMrs x).lamps = s.lamps := Eq.trans rfl rfl
@[simp] theorem State.withMrs_ptp (x : SMap MrSt) : (s.withMrs x).ptp = s.ptp := Eq.trans rfl rfl
@[simp] theorem State.withMrs_mrs (x : SMap MrSt) : (s.withMrs x).mrs = x := Eq.trans rfl rfl
@[simp] theorem State.withMrs_host (x : SMap MrSt) : (s.withMrs x).host = s.host := Eq.trans rfl rfl
@[simp] theorem State.withMrs_sec (x : SMap MrSt) : (s.withMrs x).sec = s.sec := Eq.trans rfl rfl
@[simp] theorem State.withMrs_boot (x : SMap MrSt) : (s.withMrs x).boot = s.boot := Eq.trans rfl rfl
@[simp] theorem State.withMrs_tst (x : SMap MrSt) : (s.withMrs x).tst = s.tst := Eq.trans rfl rfl
@[simp] theorem State.withMrs_fr (x : SMap MrSt) : (s.withMrs x).fr = s.fr := Eq.trans rfl rfl
@[simp] theorem State.withMrs_pwr (x : SMap MrSt) : (s.withMrs x).pwr = s.pwr := Eq.trans rfl rfl
@[simp] theorem State.withMrs_greset (x : SMap MrSt) : (s.withMrs x).greset = s.greset := Eq.trans rfl rfl
@[simp] theorem State.withMrs_ctx_ (x : SMap MrSt) (j : Nat) : (s.withMrs x).ctx j = s.ctx j := Eq.trans rfl rfl
@[simp] theorem State.withMrs_mctx_ (x : SMap MrSt) (j : Nat) : (s.withMrs x).mctx j = s.mctx j := Eq.trans rfl rfl
@[simp] theorem State.withMrs_reg (x : SMap MrSt) (a : Nat) : (s.withMrs x).reg a = s.reg a := Eq.trans rfl rfl
@[simp] theorem State.withMrs_fld (x : SMap MrSt) (f : Fld) : (s.withMrs x).fld f = s.fld f := Eq.trans rfl rfl
@[simp] theorem State.withMrs_sub (x : SMap MrSt) (a w i : Nat) : (s.withMrs x).sub a w i = s.sub a w i := Eq.trans rfl rfl
@[simp] theorem State.withMrs_rdByte (x : SMap MrSt) (j : Nat) : (s.withMrs x).rdByte j = s.rdByte j := Eq.trans rfl rfl

/-! ### withHost -/

@[simp] theorem State.withHost_pending (x : HostSt) : (s.withHost x).pending = s.pending := Eq.trans rfl rfl
@[simp] theorem State.withHost_now (x : HostSt) : (s.withHost x).now = s.now := Eq.trans rfl rfl
@[simp] theorem State.withHost_free (x : HostSt) : (s.withHost x).free = s.free := Eq.trans rfl rfl
@[simp] theorem State.withHost_out (x : HostSt) : (s.withHost x).out = s.out := Eq.trans rfl rfl
@[simp] theorem State.withHost_mode (x : HostSt) : (s.withHost x).mode = s.mode := Eq.trans rfl rfl
@[simp] theorem State.withHost_drip (x : HostSt) : (s.withHost x).drip = s.drip := Eq.trans rfl rfl
@[simp] theorem State.withHost_csr (x : HostSt) : (s.withHost x).csr = s.csr := Eq.trans rfl rfl
@[simp] theorem State.withHost_mem (x : HostSt) : (s.withHost x).mem = s.mem := Eq.trans rfl rfl
@[simp] theorem State.withHost_poison (x : HostSt) : (s.withHost x).poison = s.poison := Eq.trans rfl rfl
@[simp] theorem State.withHost_gpoison (x : HostSt) : (s.withHost x).gpoison = s.gpoison := Eq.trans rfl rfl
@[simp] theorem State.withHost_ueLog (x : HostSt) : (s.withHost x).ueLog = s.ueLog := Eq.trans rfl rfl
@[simp] theorem State.withHost_zeroed (x : HostSt) : (s.withHost x).zeroed = s.zeroed := Eq.trans rfl rfl
@[simp] theorem State.withHost_force (x : HostSt) : (s.withHost x).force = s.force := Eq.trans rfl rfl
@[simp] theorem State.withHost_ctxs (x : HostSt) : (s.withHost x).ctxs = s.ctxs := Eq.trans rfl rfl
@[simp] theorem State.withHost_cores (x : HostSt) : (s.withHost x).cores = s.cores := Eq.trans rfl rfl
@[simp] theorem State.withHost_tasks (x : HostSt) : (s.withHost x).tasks = s.tasks := Eq.trans rfl rfl
@[simp] theorem State.withHost_rts (x : HostSt) : (s.withHost x).rts = s.rts := Eq.trans rfl rfl
@[simp] theorem State.withHost_dirs (x : HostSt) : (s.withHost x).dirs = s.dirs := Eq.trans rfl rfl
@[simp] theorem State.withHost_gms (x : HostSt) : (s.withHost x).gms = s.gms := Eq.trans rfl rfl
@[simp] theorem State.withHost_mxes (x : HostSt) : (s.withHost x).mxes = s.mxes := Eq.trans rfl rfl
@[simp] theorem State.withHost_curs (x : HostSt) : (s.withHost x).curs = s.curs := Eq.trans rfl rfl
@[simp] theorem State.withHost_mctxs (x : HostSt) : (s.withHost x).mctxs = s.mctxs := Eq.trans rfl rfl
@[simp] theorem State.withHost_net (x : HostSt) : (s.withHost x).net = s.net := Eq.trans rfl rfl
@[simp] theorem State.withHost_answers (x : HostSt) : (s.withHost x).answers = s.answers := Eq.trans rfl rfl
@[simp] theorem State.withHost_crets (x : HostSt) : (s.withHost x).crets = s.crets := Eq.trans rfl rfl
@[simp] theorem State.withHost_rings (x : HostSt) : (s.withHost x).rings = s.rings := Eq.trans rfl rfl
@[simp] theorem State.withHost_unans (x : HostSt) : (s.withHost x).unans = s.unans := Eq.trans rfl rfl
@[simp] theorem State.withHost_cqs (x : HostSt) : (s.withHost x).cqs = s.cqs := Eq.trans rfl rfl
@[simp] theorem State.withHost_turns (x : HostSt) : (s.withHost x).turns = s.turns := Eq.trans rfl rfl
@[simp] theorem State.withHost_tfes (x : HostSt) : (s.withHost x).tfes = s.tfes := Eq.trans rfl rfl
@[simp] theorem State.withHost_pkts (x : HostSt) : (s.withHost x).pkts = s.pkts := Eq.trans rfl rfl
@[simp] theorem State.withHost_rtrs (x : HostSt) : (s.withHost x).rtrs = s.rtrs := Eq.trans rfl rfl
@[simp] theorem State.withHost_sv (x : HostSt) : (s.withHost x).sv = s.sv := Eq.trans rfl rfl
@[simp] theorem State.withHost_mss (x : HostSt) : (s.withHost x).mss = s.mss := Eq.trans rfl rfl
@[simp] theorem State.withHost_ports (x : HostSt) : (s.withHost x).ports = s.ports := Eq.trans rfl rfl
@[simp] theorem State.withHost_lamps (x : HostSt) : (s.withHost x).lamps = s.lamps := Eq.trans rfl rfl
@[simp] theorem State.withHost_ptp (x : HostSt) : (s.withHost x).ptp = s.ptp := Eq.trans rfl rfl
@[simp] theorem State.withHost_mrs (x : HostSt) : (s.withHost x).mrs = s.mrs := Eq.trans rfl rfl
@[simp] theorem State.withHost_host (x : HostSt) : (s.withHost x).host = x := Eq.trans rfl rfl
@[simp] theorem State.withHost_sec (x : HostSt) : (s.withHost x).sec = s.sec := Eq.trans rfl rfl
@[simp] theorem State.withHost_boot (x : HostSt) : (s.withHost x).boot = s.boot := Eq.trans rfl rfl
@[simp] theorem State.withHost_tst (x : HostSt) : (s.withHost x).tst = s.tst := Eq.trans rfl rfl
@[simp] theorem State.withHost_fr (x : HostSt) : (s.withHost x).fr = s.fr := Eq.trans rfl rfl
@[simp] theorem State.withHost_pwr (x : HostSt) : (s.withHost x).pwr = s.pwr := Eq.trans rfl rfl
@[simp] theorem State.withHost_greset (x : HostSt) : (s.withHost x).greset = s.greset := Eq.trans rfl rfl
@[simp] theorem State.withHost_ctx_ (x : HostSt) (j : Nat) : (s.withHost x).ctx j = s.ctx j := Eq.trans rfl rfl
@[simp] theorem State.withHost_mctx_ (x : HostSt) (j : Nat) : (s.withHost x).mctx j = s.mctx j := Eq.trans rfl rfl
@[simp] theorem State.withHost_reg (x : HostSt) (a : Nat) : (s.withHost x).reg a = s.reg a := Eq.trans rfl rfl
@[simp] theorem State.withHost_fld (x : HostSt) (f : Fld) : (s.withHost x).fld f = s.fld f := Eq.trans rfl rfl
@[simp] theorem State.withHost_sub (x : HostSt) (a w i : Nat) : (s.withHost x).sub a w i = s.sub a w i := Eq.trans rfl rfl
@[simp] theorem State.withHost_rdByte (x : HostSt) (j : Nat) : (s.withHost x).rdByte j = s.rdByte j := Eq.trans rfl rfl

/-! ### withSec -/

@[simp] theorem State.withSec_pending (x : SecSt) : (s.withSec x).pending = s.pending := Eq.trans rfl rfl
@[simp] theorem State.withSec_now (x : SecSt) : (s.withSec x).now = s.now := Eq.trans rfl rfl
@[simp] theorem State.withSec_free (x : SecSt) : (s.withSec x).free = s.free := Eq.trans rfl rfl
@[simp] theorem State.withSec_out (x : SecSt) : (s.withSec x).out = s.out := Eq.trans rfl rfl
@[simp] theorem State.withSec_mode (x : SecSt) : (s.withSec x).mode = s.mode := Eq.trans rfl rfl
@[simp] theorem State.withSec_drip (x : SecSt) : (s.withSec x).drip = s.drip := Eq.trans rfl rfl
@[simp] theorem State.withSec_csr (x : SecSt) : (s.withSec x).csr = s.csr := Eq.trans rfl rfl
@[simp] theorem State.withSec_mem (x : SecSt) : (s.withSec x).mem = s.mem := Eq.trans rfl rfl
@[simp] theorem State.withSec_poison (x : SecSt) : (s.withSec x).poison = s.poison := Eq.trans rfl rfl
@[simp] theorem State.withSec_gpoison (x : SecSt) : (s.withSec x).gpoison = s.gpoison := Eq.trans rfl rfl
@[simp] theorem State.withSec_ueLog (x : SecSt) : (s.withSec x).ueLog = s.ueLog := Eq.trans rfl rfl
@[simp] theorem State.withSec_zeroed (x : SecSt) : (s.withSec x).zeroed = s.zeroed := Eq.trans rfl rfl
@[simp] theorem State.withSec_force (x : SecSt) : (s.withSec x).force = s.force := Eq.trans rfl rfl
@[simp] theorem State.withSec_ctxs (x : SecSt) : (s.withSec x).ctxs = s.ctxs := Eq.trans rfl rfl
@[simp] theorem State.withSec_cores (x : SecSt) : (s.withSec x).cores = s.cores := Eq.trans rfl rfl
@[simp] theorem State.withSec_tasks (x : SecSt) : (s.withSec x).tasks = s.tasks := Eq.trans rfl rfl
@[simp] theorem State.withSec_rts (x : SecSt) : (s.withSec x).rts = s.rts := Eq.trans rfl rfl
@[simp] theorem State.withSec_dirs (x : SecSt) : (s.withSec x).dirs = s.dirs := Eq.trans rfl rfl
@[simp] theorem State.withSec_gms (x : SecSt) : (s.withSec x).gms = s.gms := Eq.trans rfl rfl
@[simp] theorem State.withSec_mxes (x : SecSt) : (s.withSec x).mxes = s.mxes := Eq.trans rfl rfl
@[simp] theorem State.withSec_curs (x : SecSt) : (s.withSec x).curs = s.curs := Eq.trans rfl rfl
@[simp] theorem State.withSec_mctxs (x : SecSt) : (s.withSec x).mctxs = s.mctxs := Eq.trans rfl rfl
@[simp] theorem State.withSec_net (x : SecSt) : (s.withSec x).net = s.net := Eq.trans rfl rfl
@[simp] theorem State.withSec_answers (x : SecSt) : (s.withSec x).answers = s.answers := Eq.trans rfl rfl
@[simp] theorem State.withSec_crets (x : SecSt) : (s.withSec x).crets = s.crets := Eq.trans rfl rfl
@[simp] theorem State.withSec_rings (x : SecSt) : (s.withSec x).rings = s.rings := Eq.trans rfl rfl
@[simp] theorem State.withSec_unans (x : SecSt) : (s.withSec x).unans = s.unans := Eq.trans rfl rfl
@[simp] theorem State.withSec_cqs (x : SecSt) : (s.withSec x).cqs = s.cqs := Eq.trans rfl rfl
@[simp] theorem State.withSec_turns (x : SecSt) : (s.withSec x).turns = s.turns := Eq.trans rfl rfl
@[simp] theorem State.withSec_tfes (x : SecSt) : (s.withSec x).tfes = s.tfes := Eq.trans rfl rfl
@[simp] theorem State.withSec_pkts (x : SecSt) : (s.withSec x).pkts = s.pkts := Eq.trans rfl rfl
@[simp] theorem State.withSec_rtrs (x : SecSt) : (s.withSec x).rtrs = s.rtrs := Eq.trans rfl rfl
@[simp] theorem State.withSec_sv (x : SecSt) : (s.withSec x).sv = s.sv := Eq.trans rfl rfl
@[simp] theorem State.withSec_mss (x : SecSt) : (s.withSec x).mss = s.mss := Eq.trans rfl rfl
@[simp] theorem State.withSec_ports (x : SecSt) : (s.withSec x).ports = s.ports := Eq.trans rfl rfl
@[simp] theorem State.withSec_lamps (x : SecSt) : (s.withSec x).lamps = s.lamps := Eq.trans rfl rfl
@[simp] theorem State.withSec_ptp (x : SecSt) : (s.withSec x).ptp = s.ptp := Eq.trans rfl rfl
@[simp] theorem State.withSec_mrs (x : SecSt) : (s.withSec x).mrs = s.mrs := Eq.trans rfl rfl
@[simp] theorem State.withSec_host (x : SecSt) : (s.withSec x).host = s.host := Eq.trans rfl rfl
@[simp] theorem State.withSec_sec (x : SecSt) : (s.withSec x).sec = x := Eq.trans rfl rfl
@[simp] theorem State.withSec_boot (x : SecSt) : (s.withSec x).boot = s.boot := Eq.trans rfl rfl
@[simp] theorem State.withSec_tst (x : SecSt) : (s.withSec x).tst = s.tst := Eq.trans rfl rfl
@[simp] theorem State.withSec_fr (x : SecSt) : (s.withSec x).fr = s.fr := Eq.trans rfl rfl
@[simp] theorem State.withSec_pwr (x : SecSt) : (s.withSec x).pwr = s.pwr := Eq.trans rfl rfl
@[simp] theorem State.withSec_greset (x : SecSt) : (s.withSec x).greset = s.greset := Eq.trans rfl rfl
@[simp] theorem State.withSec_ctx_ (x : SecSt) (j : Nat) : (s.withSec x).ctx j = s.ctx j := Eq.trans rfl rfl
@[simp] theorem State.withSec_mctx_ (x : SecSt) (j : Nat) : (s.withSec x).mctx j = s.mctx j := Eq.trans rfl rfl
@[simp] theorem State.withSec_reg (x : SecSt) (a : Nat) : (s.withSec x).reg a = s.reg a := Eq.trans rfl rfl
@[simp] theorem State.withSec_fld (x : SecSt) (f : Fld) : (s.withSec x).fld f = s.fld f := Eq.trans rfl rfl
@[simp] theorem State.withSec_sub (x : SecSt) (a w i : Nat) : (s.withSec x).sub a w i = s.sub a w i := Eq.trans rfl rfl
@[simp] theorem State.withSec_rdByte (x : SecSt) (j : Nat) : (s.withSec x).rdByte j = s.rdByte j := Eq.trans rfl rfl

/-! ### withBoot -/

@[simp] theorem State.withBoot_pending (x : BootSt) : (s.withBoot x).pending = s.pending := Eq.trans rfl rfl
@[simp] theorem State.withBoot_now (x : BootSt) : (s.withBoot x).now = s.now := Eq.trans rfl rfl
@[simp] theorem State.withBoot_free (x : BootSt) : (s.withBoot x).free = s.free := Eq.trans rfl rfl
@[simp] theorem State.withBoot_out (x : BootSt) : (s.withBoot x).out = s.out := Eq.trans rfl rfl
@[simp] theorem State.withBoot_mode (x : BootSt) : (s.withBoot x).mode = s.mode := Eq.trans rfl rfl
@[simp] theorem State.withBoot_drip (x : BootSt) : (s.withBoot x).drip = s.drip := Eq.trans rfl rfl
@[simp] theorem State.withBoot_csr (x : BootSt) : (s.withBoot x).csr = s.csr := Eq.trans rfl rfl
@[simp] theorem State.withBoot_mem (x : BootSt) : (s.withBoot x).mem = s.mem := Eq.trans rfl rfl
@[simp] theorem State.withBoot_poison (x : BootSt) : (s.withBoot x).poison = s.poison := Eq.trans rfl rfl
@[simp] theorem State.withBoot_gpoison (x : BootSt) : (s.withBoot x).gpoison = s.gpoison := Eq.trans rfl rfl
@[simp] theorem State.withBoot_ueLog (x : BootSt) : (s.withBoot x).ueLog = s.ueLog := Eq.trans rfl rfl
@[simp] theorem State.withBoot_zeroed (x : BootSt) : (s.withBoot x).zeroed = s.zeroed := Eq.trans rfl rfl
@[simp] theorem State.withBoot_force (x : BootSt) : (s.withBoot x).force = s.force := Eq.trans rfl rfl
@[simp] theorem State.withBoot_ctxs (x : BootSt) : (s.withBoot x).ctxs = s.ctxs := Eq.trans rfl rfl
@[simp] theorem State.withBoot_cores (x : BootSt) : (s.withBoot x).cores = s.cores := Eq.trans rfl rfl
@[simp] theorem State.withBoot_tasks (x : BootSt) : (s.withBoot x).tasks = s.tasks := Eq.trans rfl rfl
@[simp] theorem State.withBoot_rts (x : BootSt) : (s.withBoot x).rts = s.rts := Eq.trans rfl rfl
@[simp] theorem State.withBoot_dirs (x : BootSt) : (s.withBoot x).dirs = s.dirs := Eq.trans rfl rfl
@[simp] theorem State.withBoot_gms (x : BootSt) : (s.withBoot x).gms = s.gms := Eq.trans rfl rfl
@[simp] theorem State.withBoot_mxes (x : BootSt) : (s.withBoot x).mxes = s.mxes := Eq.trans rfl rfl
@[simp] theorem State.withBoot_curs (x : BootSt) : (s.withBoot x).curs = s.curs := Eq.trans rfl rfl
@[simp] theorem State.withBoot_mctxs (x : BootSt) : (s.withBoot x).mctxs = s.mctxs := Eq.trans rfl rfl
@[simp] theorem State.withBoot_net (x : BootSt) : (s.withBoot x).net = s.net := Eq.trans rfl rfl
@[simp] theorem State.withBoot_answers (x : BootSt) : (s.withBoot x).answers = s.answers := Eq.trans rfl rfl
@[simp] theorem State.withBoot_crets (x : BootSt) : (s.withBoot x).crets = s.crets := Eq.trans rfl rfl
@[simp] theorem State.withBoot_rings (x : BootSt) : (s.withBoot x).rings = s.rings := Eq.trans rfl rfl
@[simp] theorem State.withBoot_unans (x : BootSt) : (s.withBoot x).unans = s.unans := Eq.trans rfl rfl
@[simp] theorem State.withBoot_cqs (x : BootSt) : (s.withBoot x).cqs = s.cqs := Eq.trans rfl rfl
@[simp] theorem State.withBoot_turns (x : BootSt) : (s.withBoot x).turns = s.turns := Eq.trans rfl rfl
@[simp] theorem State.withBoot_tfes (x : BootSt) : (s.withBoot x).tfes = s.tfes := Eq.trans rfl rfl
@[simp] theorem State.withBoot_pkts (x : BootSt) : (s.withBoot x).pkts = s.pkts := Eq.trans rfl rfl
@[simp] theorem State.withBoot_rtrs (x : BootSt) : (s.withBoot x).rtrs = s.rtrs := Eq.trans rfl rfl
@[simp] theorem State.withBoot_sv (x : BootSt) : (s.withBoot x).sv = s.sv := Eq.trans rfl rfl
@[simp] theorem State.withBoot_mss (x : BootSt) : (s.withBoot x).mss = s.mss := Eq.trans rfl rfl
@[simp] theorem State.withBoot_ports (x : BootSt) : (s.withBoot x).ports = s.ports := Eq.trans rfl rfl
@[simp] theorem State.withBoot_lamps (x : BootSt) : (s.withBoot x).lamps = s.lamps := Eq.trans rfl rfl
@[simp] theorem State.withBoot_ptp (x : BootSt) : (s.withBoot x).ptp = s.ptp := Eq.trans rfl rfl
@[simp] theorem State.withBoot_mrs (x : BootSt) : (s.withBoot x).mrs = s.mrs := Eq.trans rfl rfl
@[simp] theorem State.withBoot_host (x : BootSt) : (s.withBoot x).host = s.host := Eq.trans rfl rfl
@[simp] theorem State.withBoot_sec (x : BootSt) : (s.withBoot x).sec = s.sec := Eq.trans rfl rfl
@[simp] theorem State.withBoot_boot (x : BootSt) : (s.withBoot x).boot = x := Eq.trans rfl rfl
@[simp] theorem State.withBoot_tst (x : BootSt) : (s.withBoot x).tst = s.tst := Eq.trans rfl rfl
@[simp] theorem State.withBoot_fr (x : BootSt) : (s.withBoot x).fr = s.fr := Eq.trans rfl rfl
@[simp] theorem State.withBoot_pwr (x : BootSt) : (s.withBoot x).pwr = s.pwr := Eq.trans rfl rfl
@[simp] theorem State.withBoot_greset (x : BootSt) : (s.withBoot x).greset = s.greset := Eq.trans rfl rfl
@[simp] theorem State.withBoot_ctx_ (x : BootSt) (j : Nat) : (s.withBoot x).ctx j = s.ctx j := Eq.trans rfl rfl
@[simp] theorem State.withBoot_mctx_ (x : BootSt) (j : Nat) : (s.withBoot x).mctx j = s.mctx j := Eq.trans rfl rfl
@[simp] theorem State.withBoot_reg (x : BootSt) (a : Nat) : (s.withBoot x).reg a = s.reg a := Eq.trans rfl rfl
@[simp] theorem State.withBoot_fld (x : BootSt) (f : Fld) : (s.withBoot x).fld f = s.fld f := Eq.trans rfl rfl
@[simp] theorem State.withBoot_sub (x : BootSt) (a w i : Nat) : (s.withBoot x).sub a w i = s.sub a w i := Eq.trans rfl rfl
@[simp] theorem State.withBoot_rdByte (x : BootSt) (j : Nat) : (s.withBoot x).rdByte j = s.rdByte j := Eq.trans rfl rfl

/-! ### withTst -/

@[simp] theorem State.withTst_pending (x : TstSt) : (s.withTst x).pending = s.pending := Eq.trans rfl rfl
@[simp] theorem State.withTst_now (x : TstSt) : (s.withTst x).now = s.now := Eq.trans rfl rfl
@[simp] theorem State.withTst_free (x : TstSt) : (s.withTst x).free = s.free := Eq.trans rfl rfl
@[simp] theorem State.withTst_out (x : TstSt) : (s.withTst x).out = s.out := Eq.trans rfl rfl
@[simp] theorem State.withTst_mode (x : TstSt) : (s.withTst x).mode = s.mode := Eq.trans rfl rfl
@[simp] theorem State.withTst_drip (x : TstSt) : (s.withTst x).drip = s.drip := Eq.trans rfl rfl
@[simp] theorem State.withTst_csr (x : TstSt) : (s.withTst x).csr = s.csr := Eq.trans rfl rfl
@[simp] theorem State.withTst_mem (x : TstSt) : (s.withTst x).mem = s.mem := Eq.trans rfl rfl
@[simp] theorem State.withTst_poison (x : TstSt) : (s.withTst x).poison = s.poison := Eq.trans rfl rfl
@[simp] theorem State.withTst_gpoison (x : TstSt) : (s.withTst x).gpoison = s.gpoison := Eq.trans rfl rfl
@[simp] theorem State.withTst_ueLog (x : TstSt) : (s.withTst x).ueLog = s.ueLog := Eq.trans rfl rfl
@[simp] theorem State.withTst_zeroed (x : TstSt) : (s.withTst x).zeroed = s.zeroed := Eq.trans rfl rfl
@[simp] theorem State.withTst_force (x : TstSt) : (s.withTst x).force = s.force := Eq.trans rfl rfl
@[simp] theorem State.withTst_ctxs (x : TstSt) : (s.withTst x).ctxs = s.ctxs := Eq.trans rfl rfl
@[simp] theorem State.withTst_cores (x : TstSt) : (s.withTst x).cores = s.cores := Eq.trans rfl rfl
@[simp] theorem State.withTst_tasks (x : TstSt) : (s.withTst x).tasks = s.tasks := Eq.trans rfl rfl
@[simp] theorem State.withTst_rts (x : TstSt) : (s.withTst x).rts = s.rts := Eq.trans rfl rfl
@[simp] theorem State.withTst_dirs (x : TstSt) : (s.withTst x).dirs = s.dirs := Eq.trans rfl rfl
@[simp] theorem State.withTst_gms (x : TstSt) : (s.withTst x).gms = s.gms := Eq.trans rfl rfl
@[simp] theorem State.withTst_mxes (x : TstSt) : (s.withTst x).mxes = s.mxes := Eq.trans rfl rfl
@[simp] theorem State.withTst_curs (x : TstSt) : (s.withTst x).curs = s.curs := Eq.trans rfl rfl
@[simp] theorem State.withTst_mctxs (x : TstSt) : (s.withTst x).mctxs = s.mctxs := Eq.trans rfl rfl
@[simp] theorem State.withTst_net (x : TstSt) : (s.withTst x).net = s.net := Eq.trans rfl rfl
@[simp] theorem State.withTst_answers (x : TstSt) : (s.withTst x).answers = s.answers := Eq.trans rfl rfl
@[simp] theorem State.withTst_crets (x : TstSt) : (s.withTst x).crets = s.crets := Eq.trans rfl rfl
@[simp] theorem State.withTst_rings (x : TstSt) : (s.withTst x).rings = s.rings := Eq.trans rfl rfl
@[simp] theorem State.withTst_unans (x : TstSt) : (s.withTst x).unans = s.unans := Eq.trans rfl rfl
@[simp] theorem State.withTst_cqs (x : TstSt) : (s.withTst x).cqs = s.cqs := Eq.trans rfl rfl
@[simp] theorem State.withTst_turns (x : TstSt) : (s.withTst x).turns = s.turns := Eq.trans rfl rfl
@[simp] theorem State.withTst_tfes (x : TstSt) : (s.withTst x).tfes = s.tfes := Eq.trans rfl rfl
@[simp] theorem State.withTst_pkts (x : TstSt) : (s.withTst x).pkts = s.pkts := Eq.trans rfl rfl
@[simp] theorem State.withTst_rtrs (x : TstSt) : (s.withTst x).rtrs = s.rtrs := Eq.trans rfl rfl
@[simp] theorem State.withTst_sv (x : TstSt) : (s.withTst x).sv = s.sv := Eq.trans rfl rfl
@[simp] theorem State.withTst_mss (x : TstSt) : (s.withTst x).mss = s.mss := Eq.trans rfl rfl
@[simp] theorem State.withTst_ports (x : TstSt) : (s.withTst x).ports = s.ports := Eq.trans rfl rfl
@[simp] theorem State.withTst_lamps (x : TstSt) : (s.withTst x).lamps = s.lamps := Eq.trans rfl rfl
@[simp] theorem State.withTst_ptp (x : TstSt) : (s.withTst x).ptp = s.ptp := Eq.trans rfl rfl
@[simp] theorem State.withTst_mrs (x : TstSt) : (s.withTst x).mrs = s.mrs := Eq.trans rfl rfl
@[simp] theorem State.withTst_host (x : TstSt) : (s.withTst x).host = s.host := Eq.trans rfl rfl
@[simp] theorem State.withTst_sec (x : TstSt) : (s.withTst x).sec = s.sec := Eq.trans rfl rfl
@[simp] theorem State.withTst_boot (x : TstSt) : (s.withTst x).boot = s.boot := Eq.trans rfl rfl
@[simp] theorem State.withTst_tst (x : TstSt) : (s.withTst x).tst = x := Eq.trans rfl rfl
@[simp] theorem State.withTst_fr (x : TstSt) : (s.withTst x).fr = s.fr := Eq.trans rfl rfl
@[simp] theorem State.withTst_pwr (x : TstSt) : (s.withTst x).pwr = s.pwr := Eq.trans rfl rfl
@[simp] theorem State.withTst_greset (x : TstSt) : (s.withTst x).greset = s.greset := Eq.trans rfl rfl
@[simp] theorem State.withTst_ctx_ (x : TstSt) (j : Nat) : (s.withTst x).ctx j = s.ctx j := Eq.trans rfl rfl
@[simp] theorem State.withTst_mctx_ (x : TstSt) (j : Nat) : (s.withTst x).mctx j = s.mctx j := Eq.trans rfl rfl
@[simp] theorem State.withTst_reg (x : TstSt) (a : Nat) : (s.withTst x).reg a = s.reg a := Eq.trans rfl rfl
@[simp] theorem State.withTst_fld (x : TstSt) (f : Fld) : (s.withTst x).fld f = s.fld f := Eq.trans rfl rfl
@[simp] theorem State.withTst_sub (x : TstSt) (a w i : Nat) : (s.withTst x).sub a w i = s.sub a w i := Eq.trans rfl rfl
@[simp] theorem State.withTst_rdByte (x : TstSt) (j : Nat) : (s.withTst x).rdByte j = s.rdByte j := Eq.trans rfl rfl

/-! ### withFr -/

@[simp] theorem State.withFr_pending (x : FrSt) : (s.withFr x).pending = s.pending := Eq.trans rfl rfl
@[simp] theorem State.withFr_now (x : FrSt) : (s.withFr x).now = s.now := Eq.trans rfl rfl
@[simp] theorem State.withFr_free (x : FrSt) : (s.withFr x).free = s.free := Eq.trans rfl rfl
@[simp] theorem State.withFr_out (x : FrSt) : (s.withFr x).out = s.out := Eq.trans rfl rfl
@[simp] theorem State.withFr_mode (x : FrSt) : (s.withFr x).mode = s.mode := Eq.trans rfl rfl
@[simp] theorem State.withFr_drip (x : FrSt) : (s.withFr x).drip = s.drip := Eq.trans rfl rfl
@[simp] theorem State.withFr_csr (x : FrSt) : (s.withFr x).csr = s.csr := Eq.trans rfl rfl
@[simp] theorem State.withFr_mem (x : FrSt) : (s.withFr x).mem = s.mem := Eq.trans rfl rfl
@[simp] theorem State.withFr_poison (x : FrSt) : (s.withFr x).poison = s.poison := Eq.trans rfl rfl
@[simp] theorem State.withFr_gpoison (x : FrSt) : (s.withFr x).gpoison = s.gpoison := Eq.trans rfl rfl
@[simp] theorem State.withFr_ueLog (x : FrSt) : (s.withFr x).ueLog = s.ueLog := Eq.trans rfl rfl
@[simp] theorem State.withFr_zeroed (x : FrSt) : (s.withFr x).zeroed = s.zeroed := Eq.trans rfl rfl
@[simp] theorem State.withFr_force (x : FrSt) : (s.withFr x).force = s.force := Eq.trans rfl rfl
@[simp] theorem State.withFr_ctxs (x : FrSt) : (s.withFr x).ctxs = s.ctxs := Eq.trans rfl rfl
@[simp] theorem State.withFr_cores (x : FrSt) : (s.withFr x).cores = s.cores := Eq.trans rfl rfl
@[simp] theorem State.withFr_tasks (x : FrSt) : (s.withFr x).tasks = s.tasks := Eq.trans rfl rfl
@[simp] theorem State.withFr_rts (x : FrSt) : (s.withFr x).rts = s.rts := Eq.trans rfl rfl
@[simp] theorem State.withFr_dirs (x : FrSt) : (s.withFr x).dirs = s.dirs := Eq.trans rfl rfl
@[simp] theorem State.withFr_gms (x : FrSt) : (s.withFr x).gms = s.gms := Eq.trans rfl rfl
@[simp] theorem State.withFr_mxes (x : FrSt) : (s.withFr x).mxes = s.mxes := Eq.trans rfl rfl
@[simp] theorem State.withFr_curs (x : FrSt) : (s.withFr x).curs = s.curs := Eq.trans rfl rfl
@[simp] theorem State.withFr_mctxs (x : FrSt) : (s.withFr x).mctxs = s.mctxs := Eq.trans rfl rfl
@[simp] theorem State.withFr_net (x : FrSt) : (s.withFr x).net = s.net := Eq.trans rfl rfl
@[simp] theorem State.withFr_answers (x : FrSt) : (s.withFr x).answers = s.answers := Eq.trans rfl rfl
@[simp] theorem State.withFr_crets (x : FrSt) : (s.withFr x).crets = s.crets := Eq.trans rfl rfl
@[simp] theorem State.withFr_rings (x : FrSt) : (s.withFr x).rings = s.rings := Eq.trans rfl rfl
@[simp] theorem State.withFr_unans (x : FrSt) : (s.withFr x).unans = s.unans := Eq.trans rfl rfl
@[simp] theorem State.withFr_cqs (x : FrSt) : (s.withFr x).cqs = s.cqs := Eq.trans rfl rfl
@[simp] theorem State.withFr_turns (x : FrSt) : (s.withFr x).turns = s.turns := Eq.trans rfl rfl
@[simp] theorem State.withFr_tfes (x : FrSt) : (s.withFr x).tfes = s.tfes := Eq.trans rfl rfl
@[simp] theorem State.withFr_pkts (x : FrSt) : (s.withFr x).pkts = s.pkts := Eq.trans rfl rfl
@[simp] theorem State.withFr_rtrs (x : FrSt) : (s.withFr x).rtrs = s.rtrs := Eq.trans rfl rfl
@[simp] theorem State.withFr_sv (x : FrSt) : (s.withFr x).sv = s.sv := Eq.trans rfl rfl
@[simp] theorem State.withFr_mss (x : FrSt) : (s.withFr x).mss = s.mss := Eq.trans rfl rfl
@[simp] theorem State.withFr_ports (x : FrSt) : (s.withFr x).ports = s.ports := Eq.trans rfl rfl
@[simp] theorem State.withFr_lamps (x : FrSt) : (s.withFr x).lamps = s.lamps := Eq.trans rfl rfl
@[simp] theorem State.withFr_ptp (x : FrSt) : (s.withFr x).ptp = s.ptp := Eq.trans rfl rfl
@[simp] theorem State.withFr_mrs (x : FrSt) : (s.withFr x).mrs = s.mrs := Eq.trans rfl rfl
@[simp] theorem State.withFr_host (x : FrSt) : (s.withFr x).host = s.host := Eq.trans rfl rfl
@[simp] theorem State.withFr_sec (x : FrSt) : (s.withFr x).sec = s.sec := Eq.trans rfl rfl
@[simp] theorem State.withFr_boot (x : FrSt) : (s.withFr x).boot = s.boot := Eq.trans rfl rfl
@[simp] theorem State.withFr_tst (x : FrSt) : (s.withFr x).tst = s.tst := Eq.trans rfl rfl
@[simp] theorem State.withFr_fr (x : FrSt) : (s.withFr x).fr = x := Eq.trans rfl rfl
@[simp] theorem State.withFr_pwr (x : FrSt) : (s.withFr x).pwr = s.pwr := Eq.trans rfl rfl
@[simp] theorem State.withFr_greset (x : FrSt) : (s.withFr x).greset = s.greset := Eq.trans rfl rfl
@[simp] theorem State.withFr_ctx_ (x : FrSt) (j : Nat) : (s.withFr x).ctx j = s.ctx j := Eq.trans rfl rfl
@[simp] theorem State.withFr_mctx_ (x : FrSt) (j : Nat) : (s.withFr x).mctx j = s.mctx j := Eq.trans rfl rfl
@[simp] theorem State.withFr_reg (x : FrSt) (a : Nat) : (s.withFr x).reg a = s.reg a := Eq.trans rfl rfl
@[simp] theorem State.withFr_fld (x : FrSt) (f : Fld) : (s.withFr x).fld f = s.fld f := Eq.trans rfl rfl
@[simp] theorem State.withFr_sub (x : FrSt) (a w i : Nat) : (s.withFr x).sub a w i = s.sub a w i := Eq.trans rfl rfl
@[simp] theorem State.withFr_rdByte (x : FrSt) (j : Nat) : (s.withFr x).rdByte j = s.rdByte j := Eq.trans rfl rfl

/-! ### withPwr -/

@[simp] theorem State.withPwr_pending (x : PwrSt) : (s.withPwr x).pending = s.pending := Eq.trans rfl rfl
@[simp] theorem State.withPwr_now (x : PwrSt) : (s.withPwr x).now = s.now := Eq.trans rfl rfl
@[simp] theorem State.withPwr_free (x : PwrSt) : (s.withPwr x).free = s.free := Eq.trans rfl rfl
@[simp] theorem State.withPwr_out (x : PwrSt) : (s.withPwr x).out = s.out := Eq.trans rfl rfl
@[simp] theorem State.withPwr_mode (x : PwrSt) : (s.withPwr x).mode = s.mode := Eq.trans rfl rfl
@[simp] theorem State.withPwr_drip (x : PwrSt) : (s.withPwr x).drip = s.drip := Eq.trans rfl rfl
@[simp] theorem State.withPwr_csr (x : PwrSt) : (s.withPwr x).csr = s.csr := Eq.trans rfl rfl
@[simp] theorem State.withPwr_mem (x : PwrSt) : (s.withPwr x).mem = s.mem := Eq.trans rfl rfl
@[simp] theorem State.withPwr_poison (x : PwrSt) : (s.withPwr x).poison = s.poison := Eq.trans rfl rfl
@[simp] theorem State.withPwr_gpoison (x : PwrSt) : (s.withPwr x).gpoison = s.gpoison := Eq.trans rfl rfl
@[simp] theorem State.withPwr_ueLog (x : PwrSt) : (s.withPwr x).ueLog = s.ueLog := Eq.trans rfl rfl
@[simp] theorem State.withPwr_zeroed (x : PwrSt) : (s.withPwr x).zeroed = s.zeroed := Eq.trans rfl rfl
@[simp] theorem State.withPwr_force (x : PwrSt) : (s.withPwr x).force = s.force := Eq.trans rfl rfl
@[simp] theorem State.withPwr_ctxs (x : PwrSt) : (s.withPwr x).ctxs = s.ctxs := Eq.trans rfl rfl
@[simp] theorem State.withPwr_cores (x : PwrSt) : (s.withPwr x).cores = s.cores := Eq.trans rfl rfl
@[simp] theorem State.withPwr_tasks (x : PwrSt) : (s.withPwr x).tasks = s.tasks := Eq.trans rfl rfl
@[simp] theorem State.withPwr_rts (x : PwrSt) : (s.withPwr x).rts = s.rts := Eq.trans rfl rfl
@[simp] theorem State.withPwr_dirs (x : PwrSt) : (s.withPwr x).dirs = s.dirs := Eq.trans rfl rfl
@[simp] theorem State.withPwr_gms (x : PwrSt) : (s.withPwr x).gms = s.gms := Eq.trans rfl rfl
@[simp] theorem State.withPwr_mxes (x : PwrSt) : (s.withPwr x).mxes = s.mxes := Eq.trans rfl rfl
@[simp] theorem State.withPwr_curs (x : PwrSt) : (s.withPwr x).curs = s.curs := Eq.trans rfl rfl
@[simp] theorem State.withPwr_mctxs (x : PwrSt) : (s.withPwr x).mctxs = s.mctxs := Eq.trans rfl rfl
@[simp] theorem State.withPwr_net (x : PwrSt) : (s.withPwr x).net = s.net := Eq.trans rfl rfl
@[simp] theorem State.withPwr_answers (x : PwrSt) : (s.withPwr x).answers = s.answers := Eq.trans rfl rfl
@[simp] theorem State.withPwr_crets (x : PwrSt) : (s.withPwr x).crets = s.crets := Eq.trans rfl rfl
@[simp] theorem State.withPwr_rings (x : PwrSt) : (s.withPwr x).rings = s.rings := Eq.trans rfl rfl
@[simp] theorem State.withPwr_unans (x : PwrSt) : (s.withPwr x).unans = s.unans := Eq.trans rfl rfl
@[simp] theorem State.withPwr_cqs (x : PwrSt) : (s.withPwr x).cqs = s.cqs := Eq.trans rfl rfl
@[simp] theorem State.withPwr_turns (x : PwrSt) : (s.withPwr x).turns = s.turns := Eq.trans rfl rfl
@[simp] theorem State.withPwr_tfes (x : PwrSt) : (s.withPwr x).tfes = s.tfes := Eq.trans rfl rfl
@[simp] theorem State.withPwr_pkts (x : PwrSt) : (s.withPwr x).pkts = s.pkts := Eq.trans rfl rfl
@[simp] theorem State.withPwr_rtrs (x : PwrSt) : (s.withPwr x).rtrs = s.rtrs := Eq.trans rfl rfl
@[simp] theorem State.withPwr_sv (x : PwrSt) : (s.withPwr x).sv = s.sv := Eq.trans rfl rfl
@[simp] theorem State.withPwr_mss (x : PwrSt) : (s.withPwr x).mss = s.mss := Eq.trans rfl rfl
@[simp] theorem State.withPwr_ports (x : PwrSt) : (s.withPwr x).ports = s.ports := Eq.trans rfl rfl
@[simp] theorem State.withPwr_lamps (x : PwrSt) : (s.withPwr x).lamps = s.lamps := Eq.trans rfl rfl
@[simp] theorem State.withPwr_ptp (x : PwrSt) : (s.withPwr x).ptp = s.ptp := Eq.trans rfl rfl
@[simp] theorem State.withPwr_mrs (x : PwrSt) : (s.withPwr x).mrs = s.mrs := Eq.trans rfl rfl
@[simp] theorem State.withPwr_host (x : PwrSt) : (s.withPwr x).host = s.host := Eq.trans rfl rfl
@[simp] theorem State.withPwr_sec (x : PwrSt) : (s.withPwr x).sec = s.sec := Eq.trans rfl rfl
@[simp] theorem State.withPwr_boot (x : PwrSt) : (s.withPwr x).boot = s.boot := Eq.trans rfl rfl
@[simp] theorem State.withPwr_tst (x : PwrSt) : (s.withPwr x).tst = s.tst := Eq.trans rfl rfl
@[simp] theorem State.withPwr_fr (x : PwrSt) : (s.withPwr x).fr = s.fr := Eq.trans rfl rfl
@[simp] theorem State.withPwr_pwr (x : PwrSt) : (s.withPwr x).pwr = x := Eq.trans rfl rfl
@[simp] theorem State.withPwr_greset (x : PwrSt) : (s.withPwr x).greset = s.greset := Eq.trans rfl rfl
@[simp] theorem State.withPwr_ctx_ (x : PwrSt) (j : Nat) : (s.withPwr x).ctx j = s.ctx j := Eq.trans rfl rfl
@[simp] theorem State.withPwr_mctx_ (x : PwrSt) (j : Nat) : (s.withPwr x).mctx j = s.mctx j := Eq.trans rfl rfl
@[simp] theorem State.withPwr_reg (x : PwrSt) (a : Nat) : (s.withPwr x).reg a = s.reg a := Eq.trans rfl rfl
@[simp] theorem State.withPwr_fld (x : PwrSt) (f : Fld) : (s.withPwr x).fld f = s.fld f := Eq.trans rfl rfl
@[simp] theorem State.withPwr_sub (x : PwrSt) (a w i : Nat) : (s.withPwr x).sub a w i = s.sub a w i := Eq.trans rfl rfl
@[simp] theorem State.withPwr_rdByte (x : PwrSt) (j : Nat) : (s.withPwr x).rdByte j = s.rdByte j := Eq.trans rfl rfl

/-! ### withGreset -/

@[simp] theorem State.withGreset_pending (x : SMap GReset) : (s.withGreset x).pending = s.pending := Eq.trans rfl rfl
@[simp] theorem State.withGreset_now (x : SMap GReset) : (s.withGreset x).now = s.now := Eq.trans rfl rfl
@[simp] theorem State.withGreset_free (x : SMap GReset) : (s.withGreset x).free = s.free := Eq.trans rfl rfl
@[simp] theorem State.withGreset_out (x : SMap GReset) : (s.withGreset x).out = s.out := Eq.trans rfl rfl
@[simp] theorem State.withGreset_mode (x : SMap GReset) : (s.withGreset x).mode = s.mode := Eq.trans rfl rfl
@[simp] theorem State.withGreset_drip (x : SMap GReset) : (s.withGreset x).drip = s.drip := Eq.trans rfl rfl
@[simp] theorem State.withGreset_csr (x : SMap GReset) : (s.withGreset x).csr = s.csr := Eq.trans rfl rfl
@[simp] theorem State.withGreset_mem (x : SMap GReset) : (s.withGreset x).mem = s.mem := Eq.trans rfl rfl
@[simp] theorem State.withGreset_poison (x : SMap GReset) : (s.withGreset x).poison = s.poison := Eq.trans rfl rfl
@[simp] theorem State.withGreset_gpoison (x : SMap GReset) : (s.withGreset x).gpoison = s.gpoison := Eq.trans rfl rfl
@[simp] theorem State.withGreset_ueLog (x : SMap GReset) : (s.withGreset x).ueLog = s.ueLog := Eq.trans rfl rfl
@[simp] theorem State.withGreset_zeroed (x : SMap GReset) : (s.withGreset x).zeroed = s.zeroed := Eq.trans rfl rfl
@[simp] theorem State.withGreset_force (x : SMap GReset) : (s.withGreset x).force = s.force := Eq.trans rfl rfl
@[simp] theorem State.withGreset_ctxs (x : SMap GReset) : (s.withGreset x).ctxs = s.ctxs := Eq.trans rfl rfl
@[simp] theorem State.withGreset_cores (x : SMap GReset) : (s.withGreset x).cores = s.cores := Eq.trans rfl rfl
@[simp] theorem State.withGreset_tasks (x : SMap GReset) : (s.withGreset x).tasks = s.tasks := Eq.trans rfl rfl
@[simp] theorem State.withGreset_rts (x : SMap GReset) : (s.withGreset x).rts = s.rts := Eq.trans rfl rfl
@[simp] theorem State.withGreset_dirs (x : SMap GReset) : (s.withGreset x).dirs = s.dirs := Eq.trans rfl rfl
@[simp] theorem State.withGreset_gms (x : SMap GReset) : (s.withGreset x).gms = s.gms := Eq.trans rfl rfl
@[simp] theorem State.withGreset_mxes (x : SMap GReset) : (s.withGreset x).mxes = s.mxes := Eq.trans rfl rfl
@[simp] theorem State.withGreset_curs (x : SMap GReset) : (s.withGreset x).curs = s.curs := Eq.trans rfl rfl
@[simp] theorem State.withGreset_mctxs (x : SMap GReset) : (s.withGreset x).mctxs = s.mctxs := Eq.trans rfl rfl
@[simp] theorem State.withGreset_net (x : SMap GReset) : (s.withGreset x).net = s.net := Eq.trans rfl rfl
@[simp] theorem State.withGreset_answers (x : SMap GReset) : (s.withGreset x).answers = s.answers := Eq.trans rfl rfl
@[simp] theorem State.withGreset_crets (x : SMap GReset) : (s.withGreset x).crets = s.crets := Eq.trans rfl rfl
@[simp] theorem State.withGreset_rings (x : SMap GReset) : (s.withGreset x).rings = s.rings := Eq.trans rfl rfl
@[simp] theorem State.withGreset_unans (x : SMap GReset) : (s.withGreset x).unans = s.unans := Eq.trans rfl rfl
@[simp] theorem State.withGreset_cqs (x : SMap GReset) : (s.withGreset x).cqs = s.cqs := Eq.trans rfl rfl
@[simp] theorem State.withGreset_turns (x : SMap GReset) : (s.withGreset x).turns = s.turns := Eq.trans rfl rfl
@[simp] theorem State.withGreset_tfes (x : SMap GReset) : (s.withGreset x).tfes = s.tfes := Eq.trans rfl rfl
@[simp] theorem State.withGreset_pkts (x : SMap GReset) : (s.withGreset x).pkts = s.pkts := Eq.trans rfl rfl
@[simp] theorem State.withGreset_rtrs (x : SMap GReset) : (s.withGreset x).rtrs = s.rtrs := Eq.trans rfl rfl
@[simp] theorem State.withGreset_sv (x : SMap GReset) : (s.withGreset x).sv = s.sv := Eq.trans rfl rfl
@[simp] theorem State.withGreset_mss (x : SMap GReset) : (s.withGreset x).mss = s.mss := Eq.trans rfl rfl
@[simp] theorem State.withGreset_ports (x : SMap GReset) : (s.withGreset x).ports = s.ports := Eq.trans rfl rfl
@[simp] theorem State.withGreset_lamps (x : SMap GReset) : (s.withGreset x).lamps = s.lamps := Eq.trans rfl rfl
@[simp] theorem State.withGreset_ptp (x : SMap GReset) : (s.withGreset x).ptp = s.ptp := Eq.trans rfl rfl
@[simp] theorem State.withGreset_mrs (x : SMap GReset) : (s.withGreset x).mrs = s.mrs := Eq.trans rfl rfl
@[simp] theorem State.withGreset_host (x : SMap GReset) : (s.withGreset x).host = s.host := Eq.trans rfl rfl
@[simp] theorem State.withGreset_sec (x : SMap GReset) : (s.withGreset x).sec = s.sec := Eq.trans rfl rfl
@[simp] theorem State.withGreset_boot (x : SMap GReset) : (s.withGreset x).boot = s.boot := Eq.trans rfl rfl
@[simp] theorem State.withGreset_tst (x : SMap GReset) : (s.withGreset x).tst = s.tst := Eq.trans rfl rfl
@[simp] theorem State.withGreset_fr (x : SMap GReset) : (s.withGreset x).fr = s.fr := Eq.trans rfl rfl
@[simp] theorem State.withGreset_pwr (x : SMap GReset) : (s.withGreset x).pwr = s.pwr := Eq.trans rfl rfl
@[simp] theorem State.withGreset_greset (x : SMap GReset) : (s.withGreset x).greset = x := Eq.trans rfl rfl
@[simp] theorem State.withGreset_ctx_ (x : SMap GReset) (j : Nat) : (s.withGreset x).ctx j = s.ctx j := Eq.trans rfl rfl
@[simp] theorem State.withGreset_mctx_ (x : SMap GReset) (j : Nat) : (s.withGreset x).mctx j = s.mctx j := Eq.trans rfl rfl
@[simp] theorem State.withGreset_reg (x : SMap GReset) (a : Nat) : (s.withGreset x).reg a = s.reg a := Eq.trans rfl rfl
@[simp] theorem State.withGreset_fld (x : SMap GReset) (f : Fld) : (s.withGreset x).fld f = s.fld f := Eq.trans rfl rfl
@[simp] theorem State.withGreset_sub (x : SMap GReset) (a w i : Nat) : (s.withGreset x).sub a w i = s.sub a w i := Eq.trans rfl rfl
@[simp] theorem State.withGreset_rdByte (x : SMap GReset) (j : Nat) : (s.withGreset x).rdByte j = s.rdByte j := Eq.trans rfl rfl

/-! ### setBud -/

@[simp] theorem State.setBud_pending (k : Nat) (x : Budget) : (s.setBud k x).pending = s.pending := Eq.trans rfl rfl
@[simp] theorem State.setBud_now (k : Nat) (x : Budget) : (s.setBud k x).now = s.now := Eq.trans rfl rfl
@[simp] theorem State.setBud_free (k : Nat) (x : Budget) : (s.setBud k x).free = s.free := Eq.trans rfl rfl
@[simp] theorem State.setBud_out (k : Nat) (x : Budget) : (s.setBud k x).out = s.out := Eq.trans rfl rfl
@[simp] theorem State.setBud_mode (k : Nat) (x : Budget) : (s.setBud k x).mode = s.mode := Eq.trans rfl rfl
@[simp] theorem State.setBud_drip (k : Nat) (x : Budget) : (s.setBud k x).drip = s.drip := Eq.trans rfl rfl
@[simp] theorem State.setBud_csr (k : Nat) (x : Budget) : (s.setBud k x).csr = s.csr := Eq.trans rfl rfl
@[simp] theorem State.setBud_mem (k : Nat) (x : Budget) : (s.setBud k x).mem = s.mem := Eq.trans rfl rfl
@[simp] theorem State.setBud_poison (k : Nat) (x : Budget) : (s.setBud k x).poison = s.poison := Eq.trans rfl rfl
@[simp] theorem State.setBud_gpoison (k : Nat) (x : Budget) : (s.setBud k x).gpoison = s.gpoison := Eq.trans rfl rfl
@[simp] theorem State.setBud_ueLog (k : Nat) (x : Budget) : (s.setBud k x).ueLog = s.ueLog := Eq.trans rfl rfl
@[simp] theorem State.setBud_zeroed (k : Nat) (x : Budget) : (s.setBud k x).zeroed = s.zeroed := Eq.trans rfl rfl
@[simp] theorem State.setBud_ctxs (k : Nat) (x : Budget) : (s.setBud k x).ctxs = s.ctxs := Eq.trans rfl rfl
@[simp] theorem State.setBud_cores (k : Nat) (x : Budget) : (s.setBud k x).cores = s.cores := Eq.trans rfl rfl
@[simp] theorem State.setBud_tasks (k : Nat) (x : Budget) : (s.setBud k x).tasks = s.tasks := Eq.trans rfl rfl
@[simp] theorem State.setBud_rts (k : Nat) (x : Budget) : (s.setBud k x).rts = s.rts := Eq.trans rfl rfl
@[simp] theorem State.setBud_dirs (k : Nat) (x : Budget) : (s.setBud k x).dirs = s.dirs := Eq.trans rfl rfl
@[simp] theorem State.setBud_gms (k : Nat) (x : Budget) : (s.setBud k x).gms = s.gms := Eq.trans rfl rfl
@[simp] theorem State.setBud_mxes (k : Nat) (x : Budget) : (s.setBud k x).mxes = s.mxes := Eq.trans rfl rfl
@[simp] theorem State.setBud_curs (k : Nat) (x : Budget) : (s.setBud k x).curs = s.curs := Eq.trans rfl rfl
@[simp] theorem State.setBud_mctxs (k : Nat) (x : Budget) : (s.setBud k x).mctxs = s.mctxs := Eq.trans rfl rfl
@[simp] theorem State.setBud_net (k : Nat) (x : Budget) : (s.setBud k x).net = s.net := Eq.trans rfl rfl
@[simp] theorem State.setBud_answers (k : Nat) (x : Budget) : (s.setBud k x).answers = s.answers := Eq.trans rfl rfl
@[simp] theorem State.setBud_crets (k : Nat) (x : Budget) : (s.setBud k x).crets = s.crets := Eq.trans rfl rfl
@[simp] theorem State.setBud_rings (k : Nat) (x : Budget) : (s.setBud k x).rings = s.rings := Eq.trans rfl rfl
@[simp] theorem State.setBud_unans (k : Nat) (x : Budget) : (s.setBud k x).unans = s.unans := Eq.trans rfl rfl
@[simp] theorem State.setBud_cqs (k : Nat) (x : Budget) : (s.setBud k x).cqs = s.cqs := Eq.trans rfl rfl
@[simp] theorem State.setBud_turns (k : Nat) (x : Budget) : (s.setBud k x).turns = s.turns := Eq.trans rfl rfl
@[simp] theorem State.setBud_tfes (k : Nat) (x : Budget) : (s.setBud k x).tfes = s.tfes := Eq.trans rfl rfl
@[simp] theorem State.setBud_pkts (k : Nat) (x : Budget) : (s.setBud k x).pkts = s.pkts := Eq.trans rfl rfl
@[simp] theorem State.setBud_rtrs (k : Nat) (x : Budget) : (s.setBud k x).rtrs = s.rtrs := Eq.trans rfl rfl
@[simp] theorem State.setBud_sv (k : Nat) (x : Budget) : (s.setBud k x).sv = s.sv := Eq.trans rfl rfl
@[simp] theorem State.setBud_mss (k : Nat) (x : Budget) : (s.setBud k x).mss = s.mss := Eq.trans rfl rfl
@[simp] theorem State.setBud_ports (k : Nat) (x : Budget) : (s.setBud k x).ports = s.ports := Eq.trans rfl rfl
@[simp] theorem State.setBud_lamps (k : Nat) (x : Budget) : (s.setBud k x).lamps = s.lamps := Eq.trans rfl rfl
@[simp] theorem State.setBud_ptp (k : Nat) (x : Budget) : (s.setBud k x).ptp = s.ptp := Eq.trans rfl rfl
@[simp] theorem State.setBud_mrs (k : Nat) (x : Budget) : (s.setBud k x).mrs = s.mrs := Eq.trans rfl rfl
@[simp] theorem State.setBud_host (k : Nat) (x : Budget) : (s.setBud k x).host = s.host := Eq.trans rfl rfl
@[simp] theorem State.setBud_sec (k : Nat) (x : Budget) : (s.setBud k x).sec = s.sec := Eq.trans rfl rfl
@[simp] theorem State.setBud_boot (k : Nat) (x : Budget) : (s.setBud k x).boot = s.boot := Eq.trans rfl rfl
@[simp] theorem State.setBud_tst (k : Nat) (x : Budget) : (s.setBud k x).tst = s.tst := Eq.trans rfl rfl
@[simp] theorem State.setBud_fr (k : Nat) (x : Budget) : (s.setBud k x).fr = s.fr := Eq.trans rfl rfl
@[simp] theorem State.setBud_pwr (k : Nat) (x : Budget) : (s.setBud k x).pwr = s.pwr := Eq.trans rfl rfl
@[simp] theorem State.setBud_greset (k : Nat) (x : Budget) : (s.setBud k x).greset = s.greset := Eq.trans rfl rfl
@[simp] theorem State.setBud_ctx_ (k : Nat) (x : Budget) (j : Nat) : (s.setBud k x).ctx j = s.ctx j := Eq.trans rfl rfl
@[simp] theorem State.setBud_core_ (k : Nat) (x : Budget) (j : Nat) : (s.setBud k x).core j = s.core j := Eq.trans rfl rfl
@[simp] theorem State.setBud_task_ (k : Nat) (x : Budget) (j : Nat) : (s.setBud k x).task j = s.task j := Eq.trans rfl rfl
@[simp] theorem State.setBud_rt_ (k : Nat) (x : Budget) (j : Nat) : (s.setBud k x).rt j = s.rt j := Eq.trans rfl rfl
@[simp] theorem State.setBud_dir_ (k : Nat) (x : Budget) (j : Nat) : (s.setBud k x).dir j = s.dir j := Eq.trans rfl rfl
@[simp] theorem State.setBud_gm_ (k : Nat) (x : Budget) (j : Nat) : (s.setBud k x).gm j = s.gm j := Eq.trans rfl rfl
@[simp] theorem State.setBud_mxe_ (k : Nat) (x : Budget) (j : Nat) : (s.setBud k x).mxe j = s.mxe j := Eq.trans rfl rfl
@[simp] theorem State.setBud_cur_ (k : Nat) (x : Budget) (j : Nat) : (s.setBud k x).cur j = s.cur j := Eq.trans rfl rfl
@[simp] theorem State.setBud_mctx_ (k : Nat) (x : Budget) (j : Nat) : (s.setBud k x).mctx j = s.mctx j := Eq.trans rfl rfl
@[simp] theorem State.setBud_ring_ (k : Nat) (x : Budget) (j : Nat) : (s.setBud k x).ring j = s.ring j := Eq.trans rfl rfl
@[simp] theorem State.setBud_una_ (k : Nat) (x : Budget) (j : Nat) : (s.setBud k x).una j = s.una j := Eq.trans rfl rfl
@[simp] theorem State.setBud_cq_ (k : Nat) (x : Budget) (j : Nat) : (s.setBud k x).cq j = s.cq j := Eq.trans rfl rfl
@[simp] theorem State.setBud_tfe_ (k : Nat) (x : Budget) (j : Nat) : (s.setBud k x).tfe j = s.tfe j := Eq.trans rfl rfl
@[simp] theorem State.setBud_rtr_ (k : Nat) (x : Budget) (j : Nat) : (s.setBud k x).rtr j = s.rtr j := Eq.trans rfl rfl
@[simp] theorem State.setBud_ms_ (k : Nat) (x : Budget) (j : Nat) : (s.setBud k x).ms j = s.ms j := Eq.trans rfl rfl
@[simp] theorem State.setBud_port_ (k : Nat) (x : Budget) (j : Nat) : (s.setBud k x).port j = s.port j := Eq.trans rfl rfl
@[simp] theorem State.setBud_lamp_ (k : Nat) (x : Budget) (j : Nat) : (s.setBud k x).lamp j = s.lamp j := Eq.trans rfl rfl
@[simp] theorem State.setBud_gr_ (k : Nat) (x : Budget) (j : Nat) : (s.setBud k x).gr j = s.gr j := Eq.trans rfl rfl
@[simp] theorem State.setBud_reg (k : Nat) (x : Budget) (a : Nat) : (s.setBud k x).reg a = s.reg a := Eq.trans rfl rfl
@[simp] theorem State.setBud_fld (k : Nat) (x : Budget) (f : Fld) : (s.setBud k x).fld f = s.fld f := Eq.trans rfl rfl
@[simp] theorem State.setBud_sub (k : Nat) (x : Budget) (a w i : Nat) : (s.setBud k x).sub a w i = s.sub a w i := Eq.trans rfl rfl
@[simp] theorem State.setBud_rdByte (k : Nat) (x : Budget) (j : Nat) : (s.setBud k x).rdByte j = s.rdByte j := Eq.trans rfl rfl
@[simp] theorem State.setBud_bud_same (k : Nat) (x : Budget) : (s.setBud k x).bud k = x := by
  simp [State.setBud, State.bud]
theorem State.setBud_bud_ne (k : Nat) (x : Budget) {j : Nat} (h : j ≠ k) : (s.setBud k x).bud j = s.bud j := by
  simp [State.setBud, State.bud, SMap.get_put_ne _ _ _ _ h]

/-! ### setCtx -/

@[simp] theorem State.setCtx_pending (k : Nat) (x : Ctx) : (s.setCtx k x).pending = s.pending := Eq.trans rfl rfl
@[simp] theorem State.setCtx_now (k : Nat) (x : Ctx) : (s.setCtx k x).now = s.now := Eq.trans rfl rfl
@[simp] theorem State.setCtx_free (k : Nat) (x : Ctx) : (s.setCtx k x).free = s.free := Eq.trans rfl rfl
@[simp] theorem State.setCtx_out (k : Nat) (x : Ctx) : (s.setCtx k x).out = s.out := Eq.trans rfl rfl
@[simp] theorem State.setCtx_mode (k : Nat) (x : Ctx) : (s.setCtx k x).mode = s.mode := Eq.trans rfl rfl
@[simp] theorem State.setCtx_drip (k : Nat) (x : Ctx) : (s.setCtx k x).drip = s.drip := Eq.trans rfl rfl
@[simp] theorem State.setCtx_csr (k : Nat) (x : Ctx) : (s.setCtx k x).csr = s.csr := Eq.trans rfl rfl
@[simp] theorem State.setCtx_mem (k : Nat) (x : Ctx) : (s.setCtx k x).mem = s.mem := Eq.trans rfl rfl
@[simp] theorem State.setCtx_poison (k : Nat) (x : Ctx) : (s.setCtx k x).poison = s.poison := Eq.trans rfl rfl
@[simp] theorem State.setCtx_gpoison (k : Nat) (x : Ctx) : (s.setCtx k x).gpoison = s.gpoison := Eq.trans rfl rfl
@[simp] theorem State.setCtx_ueLog (k : Nat) (x : Ctx) : (s.setCtx k x).ueLog = s.ueLog := Eq.trans rfl rfl
@[simp] theorem State.setCtx_zeroed (k : Nat) (x : Ctx) : (s.setCtx k x).zeroed = s.zeroed := Eq.trans rfl rfl
@[simp] theorem State.setCtx_force (k : Nat) (x : Ctx) : (s.setCtx k x).force = s.force := Eq.trans rfl rfl
@[simp] theorem State.setCtx_cores (k : Nat) (x : Ctx) : (s.setCtx k x).cores = s.cores := Eq.trans rfl rfl
@[simp] theorem State.setCtx_tasks (k : Nat) (x : Ctx) : (s.setCtx k x).tasks = s.tasks := Eq.trans rfl rfl
@[simp] theorem State.setCtx_rts (k : Nat) (x : Ctx) : (s.setCtx k x).rts = s.rts := Eq.trans rfl rfl
@[simp] theorem State.setCtx_dirs (k : Nat) (x : Ctx) : (s.setCtx k x).dirs = s.dirs := Eq.trans rfl rfl
@[simp] theorem State.setCtx_gms (k : Nat) (x : Ctx) : (s.setCtx k x).gms = s.gms := Eq.trans rfl rfl
@[simp] theorem State.setCtx_mxes (k : Nat) (x : Ctx) : (s.setCtx k x).mxes = s.mxes := Eq.trans rfl rfl
@[simp] theorem State.setCtx_curs (k : Nat) (x : Ctx) : (s.setCtx k x).curs = s.curs := Eq.trans rfl rfl
@[simp] theorem State.setCtx_mctxs (k : Nat) (x : Ctx) : (s.setCtx k x).mctxs = s.mctxs := Eq.trans rfl rfl
@[simp] theorem State.setCtx_net (k : Nat) (x : Ctx) : (s.setCtx k x).net = s.net := Eq.trans rfl rfl
@[simp] theorem State.setCtx_answers (k : Nat) (x : Ctx) : (s.setCtx k x).answers = s.answers := Eq.trans rfl rfl
@[simp] theorem State.setCtx_crets (k : Nat) (x : Ctx) : (s.setCtx k x).crets = s.crets := Eq.trans rfl rfl
@[simp] theorem State.setCtx_rings (k : Nat) (x : Ctx) : (s.setCtx k x).rings = s.rings := Eq.trans rfl rfl
@[simp] theorem State.setCtx_unans (k : Nat) (x : Ctx) : (s.setCtx k x).unans = s.unans := Eq.trans rfl rfl
@[simp] theorem State.setCtx_cqs (k : Nat) (x : Ctx) : (s.setCtx k x).cqs = s.cqs := Eq.trans rfl rfl
@[simp] theorem State.setCtx_turns (k : Nat) (x : Ctx) : (s.setCtx k x).turns = s.turns := Eq.trans rfl rfl
@[simp] theorem State.setCtx_tfes (k : Nat) (x : Ctx) : (s.setCtx k x).tfes = s.tfes := Eq.trans rfl rfl
@[simp] theorem State.setCtx_pkts (k : Nat) (x : Ctx) : (s.setCtx k x).pkts = s.pkts := Eq.trans rfl rfl
@[simp] theorem State.setCtx_rtrs (k : Nat) (x : Ctx) : (s.setCtx k x).rtrs = s.rtrs := Eq.trans rfl rfl
@[simp] theorem State.setCtx_sv (k : Nat) (x : Ctx) : (s.setCtx k x).sv = s.sv := Eq.trans rfl rfl
@[simp] theorem State.setCtx_mss (k : Nat) (x : Ctx) : (s.setCtx k x).mss = s.mss := Eq.trans rfl rfl
@[simp] theorem State.setCtx_ports (k : Nat) (x : Ctx) : (s.setCtx k x).ports = s.ports := Eq.trans rfl rfl
@[simp] theorem State.setCtx_lamps (k : Nat) (x : Ctx) : (s.setCtx k x).lamps = s.lamps := Eq.trans rfl rfl
@[simp] theorem State.setCtx_ptp (k : Nat) (x : Ctx) : (s.setCtx k x).ptp = s.ptp := Eq.trans rfl rfl
@[simp] theorem State.setCtx_mrs (k : Nat) (x : Ctx) : (s.setCtx k x).mrs = s.mrs := Eq.trans rfl rfl
@[simp] theorem State.setCtx_host (k : Nat) (x : Ctx) : (s.setCtx k x).host = s.host := Eq.trans rfl rfl
@[simp] theorem State.setCtx_sec (k : Nat) (x : Ctx) : (s.setCtx k x).sec = s.sec := Eq.trans rfl rfl
@[simp] theorem State.setCtx_boot (k : Nat) (x : Ctx) : (s.setCtx k x).boot = s.boot := Eq.trans rfl rfl
@[simp] theorem State.setCtx_tst (k : Nat) (x : Ctx) : (s.setCtx k x).tst = s.tst := Eq.trans rfl rfl
@[simp] theorem State.setCtx_fr (k : Nat) (x : Ctx) : (s.setCtx k x).fr = s.fr := Eq.trans rfl rfl
@[simp] theorem State.setCtx_pwr (k : Nat) (x : Ctx) : (s.setCtx k x).pwr = s.pwr := Eq.trans rfl rfl
@[simp] theorem State.setCtx_greset (k : Nat) (x : Ctx) : (s.setCtx k x).greset = s.greset := Eq.trans rfl rfl
@[simp] theorem State.setCtx_bud_ (k : Nat) (x : Ctx) (j : Nat) : (s.setCtx k x).bud j = s.bud j := Eq.trans rfl rfl
@[simp] theorem State.setCtx_core_ (k : Nat) (x : Ctx) (j : Nat) : (s.setCtx k x).core j = s.core j := Eq.trans rfl rfl
@[simp] theorem State.setCtx_task_ (k : Nat) (x : Ctx) (j : Nat) : (s.setCtx k x).task j = s.task j := Eq.trans rfl rfl
@[simp] theorem State.setCtx_rt_ (k : Nat) (x : Ctx) (j : Nat) : (s.setCtx k x).rt j = s.rt j := Eq.trans rfl rfl
@[simp] theorem State.setCtx_dir_ (k : Nat) (x : Ctx) (j : Nat) : (s.setCtx k x).dir j = s.dir j := Eq.trans rfl rfl
@[simp] theorem State.setCtx_gm_ (k : Nat) (x : Ctx) (j : Nat) : (s.setCtx k x).gm j = s.gm j := Eq.trans rfl rfl
@[simp] theorem State.setCtx_mxe_ (k : Nat) (x : Ctx) (j : Nat) : (s.setCtx k x).mxe j = s.mxe j := Eq.trans rfl rfl
@[simp] theorem State.setCtx_cur_ (k : Nat) (x : Ctx) (j : Nat) : (s.setCtx k x).cur j = s.cur j := Eq.trans rfl rfl
@[simp] theorem State.setCtx_mctx_ (k : Nat) (x : Ctx) (j : Nat) : (s.setCtx k x).mctx j = s.mctx j := Eq.trans rfl rfl
@[simp] theorem State.setCtx_ring_ (k : Nat) (x : Ctx) (j : Nat) : (s.setCtx k x).ring j = s.ring j := Eq.trans rfl rfl
@[simp] theorem State.setCtx_una_ (k : Nat) (x : Ctx) (j : Nat) : (s.setCtx k x).una j = s.una j := Eq.trans rfl rfl
@[simp] theorem State.setCtx_cq_ (k : Nat) (x : Ctx) (j : Nat) : (s.setCtx k x).cq j = s.cq j := Eq.trans rfl rfl
@[simp] theorem State.setCtx_tfe_ (k : Nat) (x : Ctx) (j : Nat) : (s.setCtx k x).tfe j = s.tfe j := Eq.trans rfl rfl
@[simp] theorem State.setCtx_rtr_ (k : Nat) (x : Ctx) (j : Nat) : (s.setCtx k x).rtr j = s.rtr j := Eq.trans rfl rfl
@[simp] theorem State.setCtx_ms_ (k : Nat) (x : Ctx) (j : Nat) : (s.setCtx k x).ms j = s.ms j := Eq.trans rfl rfl
@[simp] theorem State.setCtx_port_ (k : Nat) (x : Ctx) (j : Nat) : (s.setCtx k x).port j = s.port j := Eq.trans rfl rfl
@[simp] theorem State.setCtx_lamp_ (k : Nat) (x : Ctx) (j : Nat) : (s.setCtx k x).lamp j = s.lamp j := Eq.trans rfl rfl
@[simp] theorem State.setCtx_gr_ (k : Nat) (x : Ctx) (j : Nat) : (s.setCtx k x).gr j = s.gr j := Eq.trans rfl rfl
@[simp] theorem State.setCtx_reg (k : Nat) (x : Ctx) (a : Nat) : (s.setCtx k x).reg a = s.reg a := Eq.trans rfl rfl
@[simp] theorem State.setCtx_fld (k : Nat) (x : Ctx) (f : Fld) : (s.setCtx k x).fld f = s.fld f := Eq.trans rfl rfl
@[simp] theorem State.setCtx_sub (k : Nat) (x : Ctx) (a w i : Nat) : (s.setCtx k x).sub a w i = s.sub a w i := Eq.trans rfl rfl
@[simp] theorem State.setCtx_rdByte (k : Nat) (x : Ctx) (j : Nat) : (s.setCtx k x).rdByte j = s.rdByte j := Eq.trans rfl rfl
@[simp] theorem State.setCtx_ctx_same (k : Nat) (x : Ctx) : (s.setCtx k x).ctx k = x := by
  simp [State.setCtx, State.ctx]
theorem State.setCtx_ctx_ne (k : Nat) (x : Ctx) {j : Nat} (h : j ≠ k) : (s.setCtx k x).ctx j = s.ctx j := by
  simp [State.setCtx, State.ctx, SMap.get_put_ne _ _ _ _ h]

/-! ### setCore -/

@[simp] theorem State.setCore_pending (k : Nat) (x : CoreSt) : (s.setCore k x).pending = s.pending := Eq.trans rfl rfl
@[simp] theorem State.setCore_now (k : Nat) (x : CoreSt) : (s.setCore k x).now = s.now := Eq.trans rfl rfl
@[simp] theorem State.setCore_free (k : Nat) (x : CoreSt) : (s.setCore k x).free = s.free := Eq.trans rfl rfl
@[simp] theorem State.setCore_out (k : Nat) (x : CoreSt) : (s.setCore k x).out = s.out := Eq.trans rfl rfl
@[simp] theorem State.setCore_mode (k : Nat) (x : CoreSt) : (s.setCore k x).mode = s.mode := Eq.trans rfl rfl
@[simp] theorem State.setCore_drip (k : Nat) (x : CoreSt) : (s.setCore k x).drip = s.drip := Eq.trans rfl rfl
@[simp] theorem State.setCore_csr (k : Nat) (x : CoreSt) : (s.setCore k x).csr = s.csr := Eq.trans rfl rfl
@[simp] theorem State.setCore_mem (k : Nat) (x : CoreSt) : (s.setCore k x).mem = s.mem := Eq.trans rfl rfl
@[simp] theorem State.setCore_poison (k : Nat) (x : CoreSt) : (s.setCore k x).poison = s.poison := Eq.trans rfl rfl
@[simp] theorem State.setCore_gpoison (k : Nat) (x : CoreSt) : (s.setCore k x).gpoison = s.gpoison := Eq.trans rfl rfl
@[simp] theorem State.setCore_ueLog (k : Nat) (x : CoreSt) : (s.setCore k x).ueLog = s.ueLog := Eq.trans rfl rfl
@[simp] theorem State.setCore_zeroed (k : Nat) (x : CoreSt) : (s.setCore k x).zeroed = s.zeroed := Eq.trans rfl rfl
@[simp] theorem State.setCore_force (k : Nat) (x : CoreSt) : (s.setCore k x).force = s.force := Eq.trans rfl rfl
@[simp] theorem State.setCore_ctxs (k : Nat) (x : CoreSt) : (s.setCore k x).ctxs = s.ctxs := Eq.trans rfl rfl
@[simp] theorem State.setCore_tasks (k : Nat) (x : CoreSt) : (s.setCore k x).tasks = s.tasks := Eq.trans rfl rfl
@[simp] theorem State.setCore_rts (k : Nat) (x : CoreSt) : (s.setCore k x).rts = s.rts := Eq.trans rfl rfl
@[simp] theorem State.setCore_dirs (k : Nat) (x : CoreSt) : (s.setCore k x).dirs = s.dirs := Eq.trans rfl rfl
@[simp] theorem State.setCore_gms (k : Nat) (x : CoreSt) : (s.setCore k x).gms = s.gms := Eq.trans rfl rfl
@[simp] theorem State.setCore_mxes (k : Nat) (x : CoreSt) : (s.setCore k x).mxes = s.mxes := Eq.trans rfl rfl
@[simp] theorem State.setCore_curs (k : Nat) (x : CoreSt) : (s.setCore k x).curs = s.curs := Eq.trans rfl rfl
@[simp] theorem State.setCore_mctxs (k : Nat) (x : CoreSt) : (s.setCore k x).mctxs = s.mctxs := Eq.trans rfl rfl
@[simp] theorem State.setCore_net (k : Nat) (x : CoreSt) : (s.setCore k x).net = s.net := Eq.trans rfl rfl
@[simp] theorem State.setCore_answers (k : Nat) (x : CoreSt) : (s.setCore k x).answers = s.answers := Eq.trans rfl rfl
@[simp] theorem State.setCore_crets (k : Nat) (x : CoreSt) : (s.setCore k x).crets = s.crets := Eq.trans rfl rfl
@[simp] theorem State.setCore_rings (k : Nat) (x : CoreSt) : (s.setCore k x).rings = s.rings := Eq.trans rfl rfl
@[simp] theorem State.setCore_unans (k : Nat) (x : CoreSt) : (s.setCore k x).unans = s.unans := Eq.trans rfl rfl
@[simp] theorem State.setCore_cqs (k : Nat) (x : CoreSt) : (s.setCore k x).cqs = s.cqs := Eq.trans rfl rfl
@[simp] theorem State.setCore_turns (k : Nat) (x : CoreSt) : (s.setCore k x).turns = s.turns := Eq.trans rfl rfl
@[simp] theorem State.setCore_tfes (k : Nat) (x : CoreSt) : (s.setCore k x).tfes = s.tfes := Eq.trans rfl rfl
@[simp] theorem State.setCore_pkts (k : Nat) (x : CoreSt) : (s.setCore k x).pkts = s.pkts := Eq.trans rfl rfl
@[simp] theorem State.setCore_rtrs (k : Nat) (x : CoreSt) : (s.setCore k x).rtrs = s.rtrs := Eq.trans rfl rfl
@[simp] theorem State.setCore_sv (k : Nat) (x : CoreSt) : (s.setCore k x).sv = s.sv := Eq.trans rfl rfl
@[simp] theorem State.setCore_mss (k : Nat) (x : CoreSt) : (s.setCore k x).mss = s.mss := Eq.trans rfl rfl
@[simp] theorem State.setCore_ports (k : Nat) (x : CoreSt) : (s.setCore k x).ports = s.ports := Eq.trans rfl rfl
@[simp] theorem State.setCore_lamps (k : Nat) (x : CoreSt) : (s.setCore k x).lamps = s.lamps := Eq.trans rfl rfl
@[simp] theorem State.setCore_ptp (k : Nat) (x : CoreSt) : (s.setCore k x).ptp = s.ptp := Eq.trans rfl rfl
@[simp] theorem State.setCore_mrs (k : Nat) (x : CoreSt) : (s.setCore k x).mrs = s.mrs := Eq.trans rfl rfl
@[simp] theorem State.setCore_host (k : Nat) (x : CoreSt) : (s.setCore k x).host = s.host := Eq.trans rfl rfl
@[simp] theorem State.setCore_sec (k : Nat) (x : CoreSt) : (s.setCore k x).sec = s.sec := Eq.trans rfl rfl
@[simp] theorem State.setCore_boot (k : Nat) (x : CoreSt) : (s.setCore k x).boot = s.boot := Eq.trans rfl rfl
@[simp] theorem State.setCore_tst (k : Nat) (x : CoreSt) : (s.setCore k x).tst = s.tst := Eq.trans rfl rfl
@[simp] theorem State.setCore_fr (k : Nat) (x : CoreSt) : (s.setCore k x).fr = s.fr := Eq.trans rfl rfl
@[simp] theorem State.setCore_pwr (k : Nat) (x : CoreSt) : (s.setCore k x).pwr = s.pwr := Eq.trans rfl rfl
@[simp] theorem State.setCore_greset (k : Nat) (x : CoreSt) : (s.setCore k x).greset = s.greset := Eq.trans rfl rfl
@[simp] theorem State.setCore_bud_ (k : Nat) (x : CoreSt) (j : Nat) : (s.setCore k x).bud j = s.bud j := Eq.trans rfl rfl
@[simp] theorem State.setCore_ctx_ (k : Nat) (x : CoreSt) (j : Nat) : (s.setCore k x).ctx j = s.ctx j := Eq.trans rfl rfl
@[simp] theorem State.setCore_task_ (k : Nat) (x : CoreSt) (j : Nat) : (s.setCore k x).task j = s.task j := Eq.trans rfl rfl
@[simp] theorem State.setCore_rt_ (k : Nat) (x : CoreSt) (j : Nat) : (s.setCore k x).rt j = s.rt j := Eq.trans rfl rfl
@[simp] theorem State.setCore_dir_ (k : Nat) (x : CoreSt) (j : Nat) : (s.setCore k x).dir j = s.dir j := Eq.trans rfl rfl
@[simp] theorem State.setCore_gm_ (k : Nat) (x : CoreSt) (j : Nat) : (s.setCore k x).gm j = s.gm j := Eq.trans rfl rfl
@[simp] theorem State.setCore_mxe_ (k : Nat) (x : CoreSt) (j : Nat) : (s.setCore k x).mxe j = s.mxe j := Eq.trans rfl rfl
@[simp] theorem State.setCore_cur_ (k : Nat) (x : CoreSt) (j : Nat) : (s.setCore k x).cur j = s.cur j := Eq.trans rfl rfl
@[simp] theorem State.setCore_mctx_ (k : Nat) (x : CoreSt) (j : Nat) : (s.setCore k x).mctx j = s.mctx j := Eq.trans rfl rfl
@[simp] theorem State.setCore_ring_ (k : Nat) (x : CoreSt) (j : Nat) : (s.setCore k x).ring j = s.ring j := Eq.trans rfl rfl
@[simp] theorem State.setCore_una_ (k : Nat) (x : CoreSt) (j : Nat) : (s.setCore k x).una j = s.una j := Eq.trans rfl rfl
@[simp] theorem State.setCore_cq_ (k : Nat) (x : CoreSt) (j : Nat) : (s.setCore k x).cq j = s.cq j := Eq.trans rfl rfl
@[simp] theorem State.setCore_tfe_ (k : Nat) (x : CoreSt) (j : Nat) : (s.setCore k x).tfe j = s.tfe j := Eq.trans rfl rfl
@[simp] theorem State.setCore_rtr_ (k : Nat) (x : CoreSt) (j : Nat) : (s.setCore k x).rtr j = s.rtr j := Eq.trans rfl rfl
@[simp] theorem State.setCore_ms_ (k : Nat) (x : CoreSt) (j : Nat) : (s.setCore k x).ms j = s.ms j := Eq.trans rfl rfl
@[simp] theorem State.setCore_port_ (k : Nat) (x : CoreSt) (j : Nat) : (s.setCore k x).port j = s.port j := Eq.trans rfl rfl
@[simp] theorem State.setCore_lamp_ (k : Nat) (x : CoreSt) (j : Nat) : (s.setCore k x).lamp j = s.lamp j := Eq.trans rfl rfl
@[simp] theorem State.setCore_gr_ (k : Nat) (x : CoreSt) (j : Nat) : (s.setCore k x).gr j = s.gr j := Eq.trans rfl rfl
@[simp] theorem State.setCore_reg (k : Nat) (x : CoreSt) (a : Nat) : (s.setCore k x).reg a = s.reg a := Eq.trans rfl rfl
@[simp] theorem State.setCore_fld (k : Nat) (x : CoreSt) (f : Fld) : (s.setCore k x).fld f = s.fld f := Eq.trans rfl rfl
@[simp] theorem State.setCore_sub (k : Nat) (x : CoreSt) (a w i : Nat) : (s.setCore k x).sub a w i = s.sub a w i := Eq.trans rfl rfl
@[simp] theorem State.setCore_rdByte (k : Nat) (x : CoreSt) (j : Nat) : (s.setCore k x).rdByte j = s.rdByte j := Eq.trans rfl rfl
@[simp] theorem State.setCore_core_same (k : Nat) (x : CoreSt) : (s.setCore k x).core k = x := by
  simp [State.setCore, State.core]
theorem State.setCore_core_ne (k : Nat) (x : CoreSt) {j : Nat} (h : j ≠ k) : (s.setCore k x).core j = s.core j := by
  simp [State.setCore, State.core, SMap.get_put_ne _ _ _ _ h]

/-! ### setTask -/

@[simp] theorem State.setTask_pending (k : Nat) (x : TaskSt) : (s.setTask k x).pending = s.pending := Eq.trans rfl rfl
@[simp] theorem State.setTask_now (k : Nat) (x : TaskSt) : (s.setTask k x).now = s.now := Eq.trans rfl rfl
@[simp] theorem State.setTask_free (k : Nat) (x : TaskSt) : (s.setTask k x).free = s.free := Eq.trans rfl rfl
@[simp] theorem State.setTask_out (k : Nat) (x : TaskSt) : (s.setTask k x).out = s.out := Eq.trans rfl rfl
@[simp] theorem State.setTask_mode (k : Nat) (x : TaskSt) : (s.setTask k x).mode = s.mode := Eq.trans rfl rfl
@[simp] theorem State.setTask_drip (k : Nat) (x : TaskSt) : (s.setTask k x).drip = s.drip := Eq.trans rfl rfl
@[simp] theorem State.setTask_csr (k : Nat) (x : TaskSt) : (s.setTask k x).csr = s.csr := Eq.trans rfl rfl
@[simp] theorem State.setTask_mem (k : Nat) (x : TaskSt) : (s.setTask k x).mem = s.mem := Eq.trans rfl rfl
@[simp] theorem State.setTask_poison (k : Nat) (x : TaskSt) : (s.setTask k x).poison = s.poison := Eq.trans rfl rfl
@[simp] theorem State.setTask_gpoison (k : Nat) (x : TaskSt) : (s.setTask k x).gpoison = s.gpoison := Eq.trans rfl rfl
@[simp] theorem State.setTask_ueLog (k : Nat) (x : TaskSt) : (s.setTask k x).ueLog = s.ueLog := Eq.trans rfl rfl
@[simp] theorem State.setTask_zeroed (k : Nat) (x : TaskSt) : (s.setTask k x).zeroed = s.zeroed := Eq.trans rfl rfl
@[simp] theorem State.setTask_force (k : Nat) (x : TaskSt) : (s.setTask k x).force = s.force := Eq.trans rfl rfl
@[simp] theorem State.setTask_ctxs (k : Nat) (x : TaskSt) : (s.setTask k x).ctxs = s.ctxs := Eq.trans rfl rfl
@[simp] theorem State.setTask_cores (k : Nat) (x : TaskSt) : (s.setTask k x).cores = s.cores := Eq.trans rfl rfl
@[simp] theorem State.setTask_rts (k : Nat) (x : TaskSt) : (s.setTask k x).rts = s.rts := Eq.trans rfl rfl
@[simp] theorem State.setTask_dirs (k : Nat) (x : TaskSt) : (s.setTask k x).dirs = s.dirs := Eq.trans rfl rfl
@[simp] theorem State.setTask_gms (k : Nat) (x : TaskSt) : (s.setTask k x).gms = s.gms := Eq.trans rfl rfl
@[simp] theorem State.setTask_mxes (k : Nat) (x : TaskSt) : (s.setTask k x).mxes = s.mxes := Eq.trans rfl rfl
@[simp] theorem State.setTask_curs (k : Nat) (x : TaskSt) : (s.setTask k x).curs = s.curs := Eq.trans rfl rfl
@[simp] theorem State.setTask_mctxs (k : Nat) (x : TaskSt) : (s.setTask k x).mctxs = s.mctxs := Eq.trans rfl rfl
@[simp] theorem State.setTask_net (k : Nat) (x : TaskSt) : (s.setTask k x).net = s.net := Eq.trans rfl rfl
@[simp] theorem State.setTask_answers (k : Nat) (x : TaskSt) : (s.setTask k x).answers = s.answers := Eq.trans rfl rfl
@[simp] theorem State.setTask_crets (k : Nat) (x : TaskSt) : (s.setTask k x).crets = s.crets := Eq.trans rfl rfl
@[simp] theorem State.setTask_rings (k : Nat) (x : TaskSt) : (s.setTask k x).rings = s.rings := Eq.trans rfl rfl
@[simp] theorem State.setTask_unans (k : Nat) (x : TaskSt) : (s.setTask k x).unans = s.unans := Eq.trans rfl rfl
@[simp] theorem State.setTask_cqs (k : Nat) (x : TaskSt) : (s.setTask k x).cqs = s.cqs := Eq.trans rfl rfl
@[simp] theorem State.setTask_turns (k : Nat) (x : TaskSt) : (s.setTask k x).turns = s.turns := Eq.trans rfl rfl
@[simp] theorem State.setTask_tfes (k : Nat) (x : TaskSt) : (s.setTask k x).tfes = s.tfes := Eq.trans rfl rfl
@[simp] theorem State.setTask_pkts (k : Nat) (x : TaskSt) : (s.setTask k x).pkts = s.pkts := Eq.trans rfl rfl
@[simp] theorem State.setTask_rtrs (k : Nat) (x : TaskSt) : (s.setTask k x).rtrs = s.rtrs := Eq.trans rfl rfl
@[simp] theorem State.setTask_sv (k : Nat) (x : TaskSt) : (s.setTask k x).sv = s.sv := Eq.trans rfl rfl
@[simp] theorem State.setTask_mss (k : Nat) (x : TaskSt) : (s.setTask k x).mss = s.mss := Eq.trans rfl rfl
@[simp] theorem State.setTask_ports (k : Nat) (x : TaskSt) : (s.setTask k x).ports = s.ports := Eq.trans rfl rfl
@[simp] theorem State.setTask_lamps (k : Nat) (x : TaskSt) : (s.setTask k x).lamps = s.lamps := Eq.trans rfl rfl
@[simp] theorem State.setTask_ptp (k : Nat) (x : TaskSt) : (s.setTask k x).ptp = s.ptp := Eq.trans rfl rfl
@[simp] theorem State.setTask_mrs (k : Nat) (x : TaskSt) : (s.setTask k x).mrs = s.mrs := Eq.trans rfl rfl
@[simp] theorem State.setTask_host (k : Nat) (x : TaskSt) : (s.setTask k x).host = s.host := Eq.trans rfl rfl
@[simp] theorem State.setTask_sec (k : Nat) (x : TaskSt) : (s.setTask k x).sec = s.sec := Eq.trans rfl rfl
@[simp] theorem State.setTask_boot (k : Nat) (x : TaskSt) : (s.setTask k x).boot = s.boot := Eq.trans rfl rfl
@[simp] theorem State.setTask_tst (k : Nat) (x : TaskSt) : (s.setTask k x).tst = s.tst := Eq.trans rfl rfl
@[simp] theorem State.setTask_fr (k : Nat) (x : TaskSt) : (s.setTask k x).fr = s.fr := Eq.trans rfl rfl
@[simp] theorem State.setTask_pwr (k : Nat) (x : TaskSt) : (s.setTask k x).pwr = s.pwr := Eq.trans rfl rfl
@[simp] theorem State.setTask_greset (k : Nat) (x : TaskSt) : (s.setTask k x).greset = s.greset := Eq.trans rfl rfl
@[simp] theorem State.setTask_bud_ (k : Nat) (x : TaskSt) (j : Nat) : (s.setTask k x).bud j = s.bud j := Eq.trans rfl rfl
@[simp] theorem State.setTask_ctx_ (k : Nat) (x : TaskSt) (j : Nat) : (s.setTask k x).ctx j = s.ctx j := Eq.trans rfl rfl
@[simp] theorem State.setTask_core_ (k : Nat) (x : TaskSt) (j : Nat) : (s.setTask k x).core j = s.core j := Eq.trans rfl rfl
@[simp] theorem State.setTask_rt_ (k : Nat) (x : TaskSt) (j : Nat) : (s.setTask k x).rt j = s.rt j := Eq.trans rfl rfl
@[simp] theorem State.setTask_dir_ (k : Nat) (x : TaskSt) (j : Nat) : (s.setTask k x).dir j = s.dir j := Eq.trans rfl rfl
@[simp] theorem State.setTask_gm_ (k : Nat) (x : TaskSt) (j : Nat) : (s.setTask k x).gm j = s.gm j := Eq.trans rfl rfl
@[simp] theorem State.setTask_mxe_ (k : Nat) (x : TaskSt) (j : Nat) : (s.setTask k x).mxe j = s.mxe j := Eq.trans rfl rfl
@[simp] theorem State.setTask_cur_ (k : Nat) (x : TaskSt) (j : Nat) : (s.setTask k x).cur j = s.cur j := Eq.trans rfl rfl
@[simp] theorem State.setTask_mctx_ (k : Nat) (x : TaskSt) (j : Nat) : (s.setTask k x).mctx j = s.mctx j := Eq.trans rfl rfl
@[simp] theorem State.setTask_ring_ (k : Nat) (x : TaskSt) (j : Nat) : (s.setTask k x).ring j = s.ring j := Eq.trans rfl rfl
@[simp] theorem State.setTask_una_ (k : Nat) (x : TaskSt) (j : Nat) : (s.setTask k x).una j = s.una j := Eq.trans rfl rfl
@[simp] theorem State.setTask_cq_ (k : Nat) (x : TaskSt) (j : Nat) : (s.setTask k x).cq j = s.cq j := Eq.trans rfl rfl
@[simp] theorem State.setTask_tfe_ (k : Nat) (x : TaskSt) (j : Nat) : (s.setTask k x).tfe j = s.tfe j := Eq.trans rfl rfl
@[simp] theorem State.setTask_rtr_ (k : Nat) (x : TaskSt) (j : Nat) : (s.setTask k x).rtr j = s.rtr j := Eq.trans rfl rfl
@[simp] theorem State.setTask_ms_ (k : Nat) (x : TaskSt) (j : Nat) : (s.setTask k x).ms j = s.ms j := Eq.trans rfl rfl
@[simp] theorem State.setTask_port_ (k : Nat) (x : TaskSt) (j : Nat) : (s.setTask k x).port j = s.port j := Eq.trans rfl rfl
@[simp] theorem State.setTask_lamp_ (k : Nat) (x : TaskSt) (j : Nat) : (s.setTask k x).lamp j = s.lamp j := Eq.trans rfl rfl
@[simp] theorem State.setTask_gr_ (k : Nat) (x : TaskSt) (j : Nat) : (s.setTask k x).gr j = s.gr j := Eq.trans rfl rfl
@[simp] theorem State.setTask_reg (k : Nat) (x : TaskSt) (a : Nat) : (s.setTask k x).reg a = s.reg a := Eq.trans rfl rfl
@[simp] theorem State.setTask_fld (k : Nat) (x : TaskSt) (f : Fld) : (s.setTask k x).fld f = s.fld f := Eq.trans rfl rfl
@[simp] theorem State.setTask_sub (k : Nat) (x : TaskSt) (a w i : Nat) : (s.setTask k x).sub a w i = s.sub a w i := Eq.trans rfl rfl
@[simp] theorem State.setTask_rdByte (k : Nat) (x : TaskSt) (j : Nat) : (s.setTask k x).rdByte j = s.rdByte j := Eq.trans rfl rfl
@[simp] theorem State.setTask_task_same (k : Nat) (x : TaskSt) : (s.setTask k x).task k = x := by
  simp [State.setTask, State.task]
theorem State.setTask_task_ne (k : Nat) (x : TaskSt) {j : Nat} (h : j ≠ k) : (s.setTask k x).task j = s.task j := by
  simp [State.setTask, State.task, SMap.get_put_ne _ _ _ _ h]

/-! ### setRt -/

@[simp] theorem State.setRt_pending (k : Nat) (x : RtSt) : (s.setRt k x).pending = s.pending := Eq.trans rfl rfl
@[simp] theorem State.setRt_now (k : Nat) (x : RtSt) : (s.setRt k x).now = s.now := Eq.trans rfl rfl
@[simp] theorem State.setRt_free (k : Nat) (x : RtSt) : (s.setRt k x).free = s.free := Eq.trans rfl rfl
@[simp] theorem State.setRt_out (k : Nat) (x : RtSt) : (s.setRt k x).out = s.out := Eq.trans rfl rfl
@[simp] theorem State.setRt_mode (k : Nat) (x : RtSt) : (s.setRt k x).mode = s.mode := Eq.trans rfl rfl
@[simp] theorem State.setRt_drip (k : Nat) (x : RtSt) : (s.setRt k x).drip = s.drip := Eq.trans rfl rfl
@[simp] theorem State.setRt_csr (k : Nat) (x : RtSt) : (s.setRt k x).csr = s.csr := Eq.trans rfl rfl
@[simp] theorem State.setRt_mem (k : Nat) (x : RtSt) : (s.setRt k x).mem = s.mem := Eq.trans rfl rfl
@[simp] theorem State.setRt_poison (k : Nat) (x : RtSt) : (s.setRt k x).poison = s.poison := Eq.trans rfl rfl
@[simp] theorem State.setRt_gpoison (k : Nat) (x : RtSt) : (s.setRt k x).gpoison = s.gpoison := Eq.trans rfl rfl
@[simp] theorem State.setRt_ueLog (k : Nat) (x : RtSt) : (s.setRt k x).ueLog = s.ueLog := Eq.trans rfl rfl
@[simp] theorem State.setRt_zeroed (k : Nat) (x : RtSt) : (s.setRt k x).zeroed = s.zeroed := Eq.trans rfl rfl
@[simp] theorem State.setRt_force (k : Nat) (x : RtSt) : (s.setRt k x).force = s.force := Eq.trans rfl rfl
@[simp] theorem State.setRt_ctxs (k : Nat) (x : RtSt) : (s.setRt k x).ctxs = s.ctxs := Eq.trans rfl rfl
@[simp] theorem State.setRt_cores (k : Nat) (x : RtSt) : (s.setRt k x).cores = s.cores := Eq.trans rfl rfl
@[simp] theorem State.setRt_tasks (k : Nat) (x : RtSt) : (s.setRt k x).tasks = s.tasks := Eq.trans rfl rfl
@[simp] theorem State.setRt_dirs (k : Nat) (x : RtSt) : (s.setRt k x).dirs = s.dirs := Eq.trans rfl rfl
@[simp] theorem State.setRt_gms (k : Nat) (x : RtSt) : (s.setRt k x).gms = s.gms := Eq.trans rfl rfl
@[simp] theorem State.setRt_mxes (k : Nat) (x : RtSt) : (s.setRt k x).mxes = s.mxes := Eq.trans rfl rfl
@[simp] theorem State.setRt_curs (k : Nat) (x : RtSt) : (s.setRt k x).curs = s.curs := Eq.trans rfl rfl
@[simp] theorem State.setRt_mctxs (k : Nat) (x : RtSt) : (s.setRt k x).mctxs = s.mctxs := Eq.trans rfl rfl
@[simp] theorem State.setRt_net (k : Nat) (x : RtSt) : (s.setRt k x).net = s.net := Eq.trans rfl rfl
@[simp] theorem State.setRt_answers (k : Nat) (x : RtSt) : (s.setRt k x).answers = s.answers := Eq.trans rfl rfl
@[simp] theorem State.setRt_crets (k : Nat) (x : RtSt) : (s.setRt k x).crets = s.crets := Eq.trans rfl rfl
@[simp] theorem State.setRt_rings (k : Nat) (x : RtSt) : (s.setRt k x).rings = s.rings := Eq.trans rfl rfl
@[simp] theorem State.setRt_unans (k : Nat) (x : RtSt) : (s.setRt k x).unans = s.unans := Eq.trans rfl rfl
@[simp] theorem State.setRt_cqs (k : Nat) (x : RtSt) : (s.setRt k x).cqs = s.cqs := Eq.trans rfl rfl
@[simp] theorem State.setRt_turns (k : Nat) (x : RtSt) : (s.setRt k x).turns = s.turns := Eq.trans rfl rfl
@[simp] theorem State.setRt_tfes (k : Nat) (x : RtSt) : (s.setRt k x).tfes = s.tfes := Eq.trans rfl rfl
@[simp] theorem State.setRt_pkts (k : Nat) (x : RtSt) : (s.setRt k x).pkts = s.pkts := Eq.trans rfl rfl
@[simp] theorem State.setRt_rtrs (k : Nat) (x : RtSt) : (s.setRt k x).rtrs = s.rtrs := Eq.trans rfl rfl
@[simp] theorem State.setRt_sv (k : Nat) (x : RtSt) : (s.setRt k x).sv = s.sv := Eq.trans rfl rfl
@[simp] theorem State.setRt_mss (k : Nat) (x : RtSt) : (s.setRt k x).mss = s.mss := Eq.trans rfl rfl
@[simp] theorem State.setRt_ports (k : Nat) (x : RtSt) : (s.setRt k x).ports = s.ports := Eq.trans rfl rfl
@[simp] theorem State.setRt_lamps (k : Nat) (x : RtSt) : (s.setRt k x).lamps = s.lamps := Eq.trans rfl rfl
@[simp] theorem State.setRt_ptp (k : Nat) (x : RtSt) : (s.setRt k x).ptp = s.ptp := Eq.trans rfl rfl
@[simp] theorem State.setRt_mrs (k : Nat) (x : RtSt) : (s.setRt k x).mrs = s.mrs := Eq.trans rfl rfl
@[simp] theorem State.setRt_host (k : Nat) (x : RtSt) : (s.setRt k x).host = s.host := Eq.trans rfl rfl
@[simp] theorem State.setRt_sec (k : Nat) (x : RtSt) : (s.setRt k x).sec = s.sec := Eq.trans rfl rfl
@[simp] theorem State.setRt_boot (k : Nat) (x : RtSt) : (s.setRt k x).boot = s.boot := Eq.trans rfl rfl
@[simp] theorem State.setRt_tst (k : Nat) (x : RtSt) : (s.setRt k x).tst = s.tst := Eq.trans rfl rfl
@[simp] theorem State.setRt_fr (k : Nat) (x : RtSt) : (s.setRt k x).fr = s.fr := Eq.trans rfl rfl
@[simp] theorem State.setRt_pwr (k : Nat) (x : RtSt) : (s.setRt k x).pwr = s.pwr := Eq.trans rfl rfl
@[simp] theorem State.setRt_greset (k : Nat) (x : RtSt) : (s.setRt k x).greset = s.greset := Eq.trans rfl rfl
@[simp] theorem State.setRt_bud_ (k : Nat) (x : RtSt) (j : Nat) : (s.setRt k x).bud j = s.bud j := Eq.trans rfl rfl
@[simp] theorem State.setRt_ctx_ (k : Nat) (x : RtSt) (j : Nat) : (s.setRt k x).ctx j = s.ctx j := Eq.trans rfl rfl
@[simp] theorem State.setRt_core_ (k : Nat) (x : RtSt) (j : Nat) : (s.setRt k x).core j = s.core j := Eq.trans rfl rfl
@[simp] theorem State.setRt_task_ (k : Nat) (x : RtSt) (j : Nat) : (s.setRt k x).task j = s.task j := Eq.trans rfl rfl
@[simp] theorem State.setRt_dir_ (k : Nat) (x : RtSt) (j : Nat) : (s.setRt k x).dir j = s.dir j := Eq.trans rfl rfl
@[simp] theorem State.setRt_gm_ (k : Nat) (x : RtSt) (j : Nat) : (s.setRt k x).gm j = s.gm j := Eq.trans rfl rfl
@[simp] theorem State.setRt_mxe_ (k : Nat) (x : RtSt) (j : Nat) : (s.setRt k x).mxe j = s.mxe j := Eq.trans rfl rfl
@[simp] theorem State.setRt_cur_ (k : Nat) (x : RtSt) (j : Nat) : (s.setRt k x).cur j = s.cur j := Eq.trans rfl rfl
@[simp] theorem State.setRt_mctx_ (k : Nat) (x : RtSt) (j : Nat) : (s.setRt k x).mctx j = s.mctx j := Eq.trans rfl rfl
@[simp] theorem State.setRt_ring_ (k : Nat) (x : RtSt) (j : Nat) : (s.setRt k x).ring j = s.ring j := Eq.trans rfl rfl
@[simp] theorem State.setRt_una_ (k : Nat) (x : RtSt) (j : Nat) : (s.setRt k x).una j = s.una j := Eq.trans rfl rfl
@[simp] theorem State.setRt_cq_ (k : Nat) (x : RtSt) (j : Nat) : (s.setRt k x).cq j = s.cq j := Eq.trans rfl rfl
@[simp] theorem State.setRt_tfe_ (k : Nat) (x : RtSt) (j : Nat) : (s.setRt k x).tfe j = s.tfe j := Eq.trans rfl rfl
@[simp] theorem State.setRt_rtr_ (k : Nat) (x : RtSt) (j : Nat) : (s.setRt k x).rtr j = s.rtr j := Eq.trans rfl rfl
@[simp] theorem State.setRt_ms_ (k : Nat) (x : RtSt) (j : Nat) : (s.setRt k x).ms j = s.ms j := Eq.trans rfl rfl
@[simp] theorem State.setRt_port_ (k : Nat) (x : RtSt) (j : Nat) : (s.setRt k x).port j = s.port j := Eq.trans rfl rfl
@[simp] theorem State.setRt_lamp_ (k : Nat) (x : RtSt) (j : Nat) : (s.setRt k x).lamp j = s.lamp j := Eq.trans rfl rfl
@[simp] theorem State.setRt_gr_ (k : Nat) (x : RtSt) (j : Nat) : (s.setRt k x).gr j = s.gr j := Eq.trans rfl rfl
@[simp] theorem State.setRt_reg (k : Nat) (x : RtSt) (a : Nat) : (s.setRt k x).reg a = s.reg a := Eq.trans rfl rfl
@[simp] theorem State.setRt_fld (k : Nat) (x : RtSt) (f : Fld) : (s.setRt k x).fld f = s.fld f := Eq.trans rfl rfl
@[simp] theorem State.setRt_sub (k : Nat) (x : RtSt) (a w i : Nat) : (s.setRt k x).sub a w i = s.sub a w i := Eq.trans rfl rfl
@[simp] theorem State.setRt_rdByte (k : Nat) (x : RtSt) (j : Nat) : (s.setRt k x).rdByte j = s.rdByte j := Eq.trans rfl rfl
@[simp] theorem State.setRt_rt_same (k : Nat) (x : RtSt) : (s.setRt k x).rt k = x := by
  simp [State.setRt, State.rt]
theorem State.setRt_rt_ne (k : Nat) (x : RtSt) {j : Nat} (h : j ≠ k) : (s.setRt k x).rt j = s.rt j := by
  simp [State.setRt, State.rt, SMap.get_put_ne _ _ _ _ h]

/-! ### setDir -/

@[simp] theorem State.setDir_pending (k : Nat) (x : DirSt) : (s.setDir k x).pending = s.pending := Eq.trans rfl rfl
@[simp] theorem State.setDir_now (k : Nat) (x : DirSt) : (s.setDir k x).now = s.now := Eq.trans rfl rfl
@[simp] theorem State.setDir_free (k : Nat) (x : DirSt) : (s.setDir k x).free = s.free := Eq.trans rfl rfl
@[simp] theorem State.setDir_out (k : Nat) (x : DirSt) : (s.setDir k x).out = s.out := Eq.trans rfl rfl
@[simp] theorem State.setDir_mode (k : Nat) (x : DirSt) : (s.setDir k x).mode = s.mode := Eq.trans rfl rfl
@[simp] theorem State.setDir_drip (k : Nat) (x : DirSt) : (s.setDir k x).drip = s.drip := Eq.trans rfl rfl
@[simp] theorem State.setDir_csr (k : Nat) (x : DirSt) : (s.setDir k x).csr = s.csr := Eq.trans rfl rfl
@[simp] theorem State.setDir_mem (k : Nat) (x : DirSt) : (s.setDir k x).mem = s.mem := Eq.trans rfl rfl
@[simp] theorem State.setDir_poison (k : Nat) (x : DirSt) : (s.setDir k x).poison = s.poison := Eq.trans rfl rfl
@[simp] theorem State.setDir_gpoison (k : Nat) (x : DirSt) : (s.setDir k x).gpoison = s.gpoison := Eq.trans rfl rfl
@[simp] theorem State.setDir_ueLog (k : Nat) (x : DirSt) : (s.setDir k x).ueLog = s.ueLog := Eq.trans rfl rfl
@[simp] theorem State.setDir_zeroed (k : Nat) (x : DirSt) : (s.setDir k x).zeroed = s.zeroed := Eq.trans rfl rfl
@[simp] theorem State.setDir_force (k : Nat) (x : DirSt) : (s.setDir k x).force = s.force := Eq.trans rfl rfl
@[simp] theorem State.setDir_ctxs (k : Nat) (x : DirSt) : (s.setDir k x).ctxs = s.ctxs := Eq.trans rfl rfl
@[simp] theorem State.setDir_cores (k : Nat) (x : DirSt) : (s.setDir k x).cores = s.cores := Eq.trans rfl rfl
@[simp] theorem State.setDir_tasks (k : Nat) (x : DirSt) : (s.setDir k x).tasks = s.tasks := Eq.trans rfl rfl
@[simp] theorem State.setDir_rts (k : Nat) (x : DirSt) : (s.setDir k x).rts = s.rts := Eq.trans rfl rfl
@[simp] theorem State.setDir_gms (k : Nat) (x : DirSt) : (s.setDir k x).gms = s.gms := Eq.trans rfl rfl
@[simp] theorem State.setDir_mxes (k : Nat) (x : DirSt) : (s.setDir k x).mxes = s.mxes := Eq.trans rfl rfl
@[simp] theorem State.setDir_curs (k : Nat) (x : DirSt) : (s.setDir k x).curs = s.curs := Eq.trans rfl rfl
@[simp] theorem State.setDir_mctxs (k : Nat) (x : DirSt) : (s.setDir k x).mctxs = s.mctxs := Eq.trans rfl rfl
@[simp] theorem State.setDir_net (k : Nat) (x : DirSt) : (s.setDir k x).net = s.net := Eq.trans rfl rfl
@[simp] theorem State.setDir_answers (k : Nat) (x : DirSt) : (s.setDir k x).answers = s.answers := Eq.trans rfl rfl
@[simp] theorem State.setDir_crets (k : Nat) (x : DirSt) : (s.setDir k x).crets = s.crets := Eq.trans rfl rfl
@[simp] theorem State.setDir_rings (k : Nat) (x : DirSt) : (s.setDir k x).rings = s.rings := Eq.trans rfl rfl
@[simp] theorem State.setDir_unans (k : Nat) (x : DirSt) : (s.setDir k x).unans = s.unans := Eq.trans rfl rfl
@[simp] theorem State.setDir_cqs (k : Nat) (x : DirSt) : (s.setDir k x).cqs = s.cqs := Eq.trans rfl rfl
@[simp] theorem State.setDir_turns (k : Nat) (x : DirSt) : (s.setDir k x).turns = s.turns := Eq.trans rfl rfl
@[simp] theorem State.setDir_tfes (k : Nat) (x : DirSt) : (s.setDir k x).tfes = s.tfes := Eq.trans rfl rfl
@[simp] theorem State.setDir_pkts (k : Nat) (x : DirSt) : (s.setDir k x).pkts = s.pkts := Eq.trans rfl rfl
@[simp] theorem State.setDir_rtrs (k : Nat) (x : DirSt) : (s.setDir k x).rtrs = s.rtrs := Eq.trans rfl rfl
@[simp] theorem State.setDir_sv (k : Nat) (x : DirSt) : (s.setDir k x).sv = s.sv := Eq.trans rfl rfl
@[simp] theorem State.setDir_mss (k : Nat) (x : DirSt) : (s.setDir k x).mss = s.mss := Eq.trans rfl rfl
@[simp] theorem State.setDir_ports (k : Nat) (x : DirSt) : (s.setDir k x).ports = s.ports := Eq.trans rfl rfl
@[simp] theorem State.setDir_lamps (k : Nat) (x : DirSt) : (s.setDir k x).lamps = s.lamps := Eq.trans rfl rfl
@[simp] theorem State.setDir_ptp (k : Nat) (x : DirSt) : (s.setDir k x).ptp = s.ptp := Eq.trans rfl rfl
@[simp] theorem State.setDir_mrs (k : Nat) (x : DirSt) : (s.setDir k x).mrs = s.mrs := Eq.trans rfl rfl
@[simp] theorem State.setDir_host (k : Nat) (x : DirSt) : (s.setDir k x).host = s.host := Eq.trans rfl rfl
@[simp] theorem State.setDir_sec (k : Nat) (x : DirSt) : (s.setDir k x).sec = s.sec := Eq.trans rfl rfl
@[simp] theorem State.setDir_boot (k : Nat) (x : DirSt) : (s.setDir k x).boot = s.boot := Eq.trans rfl rfl
@[simp] theorem State.setDir_tst (k : Nat) (x : DirSt) : (s.setDir k x).tst = s.tst := Eq.trans rfl rfl
@[simp] theorem State.setDir_fr (k : Nat) (x : DirSt) : (s.setDir k x).fr = s.fr := Eq.trans rfl rfl
@[simp] theorem State.setDir_pwr (k : Nat) (x : DirSt) : (s.setDir k x).pwr = s.pwr := Eq.trans rfl rfl
@[simp] theorem State.setDir_greset (k : Nat) (x : DirSt) : (s.setDir k x).greset = s.greset := Eq.trans rfl rfl
@[simp] theorem State.setDir_bud_ (k : Nat) (x : DirSt) (j : Nat) : (s.setDir k x).bud j = s.bud j := Eq.trans rfl rfl
@[simp] theorem State.setDir_ctx_ (k : Nat) (x : DirSt) (j : Nat) : (s.setDir k x).ctx j = s.ctx j := Eq.trans rfl rfl
@[simp] theorem State.setDir_core_ (k : Nat) (x : DirSt) (j : Nat) : (s.setDir k x).core j = s.core j := Eq.trans rfl rfl
@[simp] theorem State.setDir_task_ (k : Nat) (x : DirSt) (j : Nat) : (s.setDir k x).task j = s.task j := Eq.trans rfl rfl
@[simp] theorem State.setDir_rt_ (k : Nat) (x : DirSt) (j : Nat) : (s.setDir k x).rt j = s.rt j := Eq.trans rfl rfl
@[simp] theorem State.setDir_gm_ (k : Nat) (x : DirSt) (j : Nat) : (s.setDir k x).gm j = s.gm j := Eq.trans rfl rfl
@[simp] theorem State.setDir_mxe_ (k : Nat) (x : DirSt) (j : Nat) : (s.setDir k x).mxe j = s.mxe j := Eq.trans rfl rfl
@[simp] theorem State.setDir_cur_ (k : Nat) (x : DirSt) (j : Nat) : (s.setDir k x).cur j = s.cur j := Eq.trans rfl rfl
@[simp] theorem State.setDir_mctx_ (k : Nat) (x : DirSt) (j : Nat) : (s.setDir k x).mctx j = s.mctx j := Eq.trans rfl rfl
@[simp] theorem State.setDir_ring_ (k : Nat) (x : DirSt) (j : Nat) : (s.setDir k x).ring j = s.ring j := Eq.trans rfl rfl
@[simp] theorem State.setDir_una_ (k : Nat) (x : DirSt) (j : Nat) : (s.setDir k x).una j = s.una j := Eq.trans rfl rfl
@[simp] theorem State.setDir_cq_ (k : Nat) (x : DirSt) (j : Nat) : (s.setDir k x).cq j = s.cq j := Eq.trans rfl rfl
@[simp] theorem State.setDir_tfe_ (k : Nat) (x : DirSt) (j : Nat) : (s.setDir k x).tfe j = s.tfe j := Eq.trans rfl rfl
@[simp] theorem State.setDir_rtr_ (k : Nat) (x : DirSt) (j : Nat) : (s.setDir k x).rtr j = s.rtr j := Eq.trans rfl rfl
@[simp] theorem State.setDir_ms_ (k : Nat) (x : DirSt) (j : Nat) : (s.setDir k x).ms j = s.ms j := Eq.trans rfl rfl
@[simp] theorem State.setDir_port_ (k : Nat) (x : DirSt) (j : Nat) : (s.setDir k x).port j = s.port j := Eq.trans rfl rfl
@[simp] theorem State.setDir_lamp_ (k : Nat) (x : DirSt) (j : Nat) : (s.setDir k x).lamp j = s.lamp j := Eq.trans rfl rfl
@[simp] theorem State.setDir_gr_ (k : Nat) (x : DirSt) (j : Nat) : (s.setDir k x).gr j = s.gr j := Eq.trans rfl rfl
@[simp] theorem State.setDir_reg (k : Nat) (x : DirSt) (a : Nat) : (s.setDir k x).reg a = s.reg a := Eq.trans rfl rfl
@[simp] theorem State.setDir_fld (k : Nat) (x : DirSt) (f : Fld) : (s.setDir k x).fld f = s.fld f := Eq.trans rfl rfl
@[simp] theorem State.setDir_sub (k : Nat) (x : DirSt) (a w i : Nat) : (s.setDir k x).sub a w i = s.sub a w i := Eq.trans rfl rfl
@[simp] theorem State.setDir_rdByte (k : Nat) (x : DirSt) (j : Nat) : (s.setDir k x).rdByte j = s.rdByte j := Eq.trans rfl rfl
@[simp] theorem State.setDir_dir_same (k : Nat) (x : DirSt) : (s.setDir k x).dir k = x := by
  simp [State.setDir, State.dir]
theorem State.setDir_dir_ne (k : Nat) (x : DirSt) {j : Nat} (h : j ≠ k) : (s.setDir k x).dir j = s.dir j := by
  simp [State.setDir, State.dir, SMap.get_put_ne _ _ _ _ h]

/-! ### setGm -/

@[simp] theorem State.setGm_pending (k : Nat) (x : GmSt) : (s.setGm k x).pending = s.pending := Eq.trans rfl rfl
@[simp] theorem State.setGm_now (k : Nat) (x : GmSt) : (s.setGm k x).now = s.now := Eq.trans rfl rfl
@[simp] theorem State.setGm_free (k : Nat) (x : GmSt) : (s.setGm k x).free = s.free := Eq.trans rfl rfl
@[simp] theorem State.setGm_out (k : Nat) (x : GmSt) : (s.setGm k x).out = s.out := Eq.trans rfl rfl
@[simp] theorem State.setGm_mode (k : Nat) (x : GmSt) : (s.setGm k x).mode = s.mode := Eq.trans rfl rfl
@[simp] theorem State.setGm_drip (k : Nat) (x : GmSt) : (s.setGm k x).drip = s.drip := Eq.trans rfl rfl
@[simp] theorem State.setGm_csr (k : Nat) (x : GmSt) : (s.setGm k x).csr = s.csr := Eq.trans rfl rfl
@[simp] theorem State.setGm_mem (k : Nat) (x : GmSt) : (s.setGm k x).mem = s.mem := Eq.trans rfl rfl
@[simp] theorem State.setGm_poison (k : Nat) (x : GmSt) : (s.setGm k x).poison = s.poison := Eq.trans rfl rfl
@[simp] theorem State.setGm_gpoison (k : Nat) (x : GmSt) : (s.setGm k x).gpoison = s.gpoison := Eq.trans rfl rfl
@[simp] theorem State.setGm_ueLog (k : Nat) (x : GmSt) : (s.setGm k x).ueLog = s.ueLog := Eq.trans rfl rfl
@[simp] theorem State.setGm_zeroed (k : Nat) (x : GmSt) : (s.setGm k x).zeroed = s.zeroed := Eq.trans rfl rfl
@[simp] theorem State.setGm_force (k : Nat) (x : GmSt) : (s.setGm k x).force = s.force := Eq.trans rfl rfl
@[simp] theorem State.setGm_ctxs (k : Nat) (x : GmSt) : (s.setGm k x).ctxs = s.ctxs := Eq.trans rfl rfl
@[simp] theorem State.setGm_cores (k : Nat) (x : GmSt) : (s.setGm k x).cores = s.cores := Eq.trans rfl rfl
@[simp] theorem State.setGm_tasks (k : Nat) (x : GmSt) : (s.setGm k x).tasks = s.tasks := Eq.trans rfl rfl
@[simp] theorem State.setGm_rts (k : Nat) (x : GmSt) : (s.setGm k x).rts = s.rts := Eq.trans rfl rfl
@[simp] theorem State.setGm_dirs (k : Nat) (x : GmSt) : (s.setGm k x).dirs = s.dirs := Eq.trans rfl rfl
@[simp] theorem State.setGm_mxes (k : Nat) (x : GmSt) : (s.setGm k x).mxes = s.mxes := Eq.trans rfl rfl
@[simp] theorem State.setGm_curs (k : Nat) (x : GmSt) : (s.setGm k x).curs = s.curs := Eq.trans rfl rfl
@[simp] theorem State.setGm_mctxs (k : Nat) (x : GmSt) : (s.setGm k x).mctxs = s.mctxs := Eq.trans rfl rfl
@[simp] theorem State.setGm_net (k : Nat) (x : GmSt) : (s.setGm k x).net = s.net := Eq.trans rfl rfl
@[simp] theorem State.setGm_answers (k : Nat) (x : GmSt) : (s.setGm k x).answers = s.answers := Eq.trans rfl rfl
@[simp] theorem State.setGm_crets (k : Nat) (x : GmSt) : (s.setGm k x).crets = s.crets := Eq.trans rfl rfl
@[simp] theorem State.setGm_rings (k : Nat) (x : GmSt) : (s.setGm k x).rings = s.rings := Eq.trans rfl rfl
@[simp] theorem State.setGm_unans (k : Nat) (x : GmSt) : (s.setGm k x).unans = s.unans := Eq.trans rfl rfl
@[simp] theorem State.setGm_cqs (k : Nat) (x : GmSt) : (s.setGm k x).cqs = s.cqs := Eq.trans rfl rfl
@[simp] theorem State.setGm_turns (k : Nat) (x : GmSt) : (s.setGm k x).turns = s.turns := Eq.trans rfl rfl
@[simp] theorem State.setGm_tfes (k : Nat) (x : GmSt) : (s.setGm k x).tfes = s.tfes := Eq.trans rfl rfl
@[simp] theorem State.setGm_pkts (k : Nat) (x : GmSt) : (s.setGm k x).pkts = s.pkts := Eq.trans rfl rfl
@[simp] theorem State.setGm_rtrs (k : Nat) (x : GmSt) : (s.setGm k x).rtrs = s.rtrs := Eq.trans rfl rfl
@[simp] theorem State.setGm_sv (k : Nat) (x : GmSt) : (s.setGm k x).sv = s.sv := Eq.trans rfl rfl
@[simp] theorem State.setGm_mss (k : Nat) (x : GmSt) : (s.setGm k x).mss = s.mss := Eq.trans rfl rfl
@[simp] theorem State.setGm_ports (k : Nat) (x : GmSt) : (s.setGm k x).ports = s.ports := Eq.trans rfl rfl
@[simp] theorem State.setGm_lamps (k : Nat) (x : GmSt) : (s.setGm k x).lamps = s.lamps := Eq.trans rfl rfl
@[simp] theorem State.setGm_ptp (k : Nat) (x : GmSt) : (s.setGm k x).ptp = s.ptp := Eq.trans rfl rfl
@[simp] theorem State.setGm_mrs (k : Nat) (x : GmSt) : (s.setGm k x).mrs = s.mrs := Eq.trans rfl rfl
@[simp] theorem State.setGm_host (k : Nat) (x : GmSt) : (s.setGm k x).host = s.host := Eq.trans rfl rfl
@[simp] theorem State.setGm_sec (k : Nat) (x : GmSt) : (s.setGm k x).sec = s.sec := Eq.trans rfl rfl
@[simp] theorem State.setGm_boot (k : Nat) (x : GmSt) : (s.setGm k x).boot = s.boot := Eq.trans rfl rfl
@[simp] theorem State.setGm_tst (k : Nat) (x : GmSt) : (s.setGm k x).tst = s.tst := Eq.trans rfl rfl
@[simp] theorem State.setGm_fr (k : Nat) (x : GmSt) : (s.setGm k x).fr = s.fr := Eq.trans rfl rfl
@[simp] theorem State.setGm_pwr (k : Nat) (x : GmSt) : (s.setGm k x).pwr = s.pwr := Eq.trans rfl rfl
@[simp] theorem State.setGm_greset (k : Nat) (x : GmSt) : (s.setGm k x).greset = s.greset := Eq.trans rfl rfl
@[simp] theorem State.setGm_bud_ (k : Nat) (x : GmSt) (j : Nat) : (s.setGm k x).bud j = s.bud j := Eq.trans rfl rfl
@[simp] theorem State.setGm_ctx_ (k : Nat) (x : GmSt) (j : Nat) : (s.setGm k x).ctx j = s.ctx j := Eq.trans rfl rfl
@[simp] theorem State.setGm_core_ (k : Nat) (x : GmSt) (j : Nat) : (s.setGm k x).core j = s.core j := Eq.trans rfl rfl
@[simp] theorem State.setGm_task_ (k : Nat) (x : GmSt) (j : Nat) : (s.setGm k x).task j = s.task j := Eq.trans rfl rfl
@[simp] theorem State.setGm_rt_ (k : Nat) (x : GmSt) (j : Nat) : (s.setGm k x).rt j = s.rt j := Eq.trans rfl rfl
@[simp] theorem State.setGm_dir_ (k : Nat) (x : GmSt) (j : Nat) : (s.setGm k x).dir j = s.dir j := Eq.trans rfl rfl
@[simp] theorem State.setGm_mxe_ (k : Nat) (x : GmSt) (j : Nat) : (s.setGm k x).mxe j = s.mxe j := Eq.trans rfl rfl
@[simp] theorem State.setGm_cur_ (k : Nat) (x : GmSt) (j : Nat) : (s.setGm k x).cur j = s.cur j := Eq.trans rfl rfl
@[simp] theorem State.setGm_mctx_ (k : Nat) (x : GmSt) (j : Nat) : (s.setGm k x).mctx j = s.mctx j := Eq.trans rfl rfl
@[simp] theorem State.setGm_ring_ (k : Nat) (x : GmSt) (j : Nat) : (s.setGm k x).ring j = s.ring j := Eq.trans rfl rfl
@[simp] theorem State.setGm_una_ (k : Nat) (x : GmSt) (j : Nat) : (s.setGm k x).una j = s.una j := Eq.trans rfl rfl
@[simp] theorem State.setGm_cq_ (k : Nat) (x : GmSt) (j : Nat) : (s.setGm k x).cq j = s.cq j := Eq.trans rfl rfl
@[simp] theorem State.setGm_tfe_ (k : Nat) (x : GmSt) (j : Nat) : (s.setGm k x).tfe j = s.tfe j := Eq.trans rfl rfl
@[simp] theorem State.setGm_rtr_ (k : Nat) (x : GmSt) (j : Nat) : (s.setGm k x).rtr j = s.rtr j := Eq.trans rfl rfl
@[simp] theorem State.setGm_ms_ (k : Nat) (x : GmSt) (j : Nat) : (s.setGm k x).ms j = s.ms j := Eq.trans rfl rfl
@[simp] theorem State.setGm_port_ (k : Nat) (x : GmSt) (j : Nat) : (s.setGm k x).port j = s.port j := Eq.trans rfl rfl
@[simp] theorem State.setGm_lamp_ (k : Nat) (x : GmSt) (j : Nat) : (s.setGm k x).lamp j = s.lamp j := Eq.trans rfl rfl
@[simp] theorem State.setGm_gr_ (k : Nat) (x : GmSt) (j : Nat) : (s.setGm k x).gr j = s.gr j := Eq.trans rfl rfl
@[simp] theorem State.setGm_reg (k : Nat) (x : GmSt) (a : Nat) : (s.setGm k x).reg a = s.reg a := Eq.trans rfl rfl
@[simp] theorem State.setGm_fld (k : Nat) (x : GmSt) (f : Fld) : (s.setGm k x).fld f = s.fld f := Eq.trans rfl rfl
@[simp] theorem State.setGm_sub (k : Nat) (x : GmSt) (a w i : Nat) : (s.setGm k x).sub a w i = s.sub a w i := Eq.trans rfl rfl
@[simp] theorem State.setGm_rdByte (k : Nat) (x : GmSt) (j : Nat) : (s.setGm k x).rdByte j = s.rdByte j := Eq.trans rfl rfl
@[simp] theorem State.setGm_gm_same (k : Nat) (x : GmSt) : (s.setGm k x).gm k = x := by
  simp [State.setGm, State.gm]
theorem State.setGm_gm_ne (k : Nat) (x : GmSt) {j : Nat} (h : j ≠ k) : (s.setGm k x).gm j = s.gm j := by
  simp [State.setGm, State.gm, SMap.get_put_ne _ _ _ _ h]

/-! ### setMxe -/

@[simp] theorem State.setMxe_pending (k : Nat) (x : MxeSt) : (s.setMxe k x).pending = s.pending := Eq.trans rfl rfl
@[simp] theorem State.setMxe_now (k : Nat) (x : MxeSt) : (s.setMxe k x).now = s.now := Eq.trans rfl rfl
@[simp] theorem State.setMxe_free (k : Nat) (x : MxeSt) : (s.setMxe k x).free = s.free := Eq.trans rfl rfl
@[simp] theorem State.setMxe_out (k : Nat) (x : MxeSt) : (s.setMxe k x).out = s.out := Eq.trans rfl rfl
@[simp] theorem State.setMxe_mode (k : Nat) (x : MxeSt) : (s.setMxe k x).mode = s.mode := Eq.trans rfl rfl
@[simp] theorem State.setMxe_drip (k : Nat) (x : MxeSt) : (s.setMxe k x).drip = s.drip := Eq.trans rfl rfl
@[simp] theorem State.setMxe_csr (k : Nat) (x : MxeSt) : (s.setMxe k x).csr = s.csr := Eq.trans rfl rfl
@[simp] theorem State.setMxe_mem (k : Nat) (x : MxeSt) : (s.setMxe k x).mem = s.mem := Eq.trans rfl rfl
@[simp] theorem State.setMxe_poison (k : Nat) (x : MxeSt) : (s.setMxe k x).poison = s.poison := Eq.trans rfl rfl
@[simp] theorem State.setMxe_gpoison (k : Nat) (x : MxeSt) : (s.setMxe k x).gpoison = s.gpoison := Eq.trans rfl rfl
@[simp] theorem State.setMxe_ueLog (k : Nat) (x : MxeSt) : (s.setMxe k x).ueLog = s.ueLog := Eq.trans rfl rfl
@[simp] theorem State.setMxe_zeroed (k : Nat) (x : MxeSt) : (s.setMxe k x).zeroed = s.zeroed := Eq.trans rfl rfl
@[simp] theorem State.setMxe_force (k : Nat) (x : MxeSt) : (s.setMxe k x).force = s.force := Eq.trans rfl rfl
@[simp] theorem State.setMxe_ctxs (k : Nat) (x : MxeSt) : (s.setMxe k x).ctxs = s.ctxs := Eq.trans rfl rfl
@[simp] theorem State.setMxe_cores (k : Nat) (x : MxeSt) : (s.setMxe k x).cores = s.cores := Eq.trans rfl rfl
@[simp] theorem State.setMxe_tasks (k : Nat) (x : MxeSt) : (s.setMxe k x).tasks = s.tasks := Eq.trans rfl rfl
@[simp] theorem State.setMxe_rts (k : Nat) (x : MxeSt) : (s.setMxe k x).rts = s.rts := Eq.trans rfl rfl
@[simp] theorem State.setMxe_dirs (k : Nat) (x : MxeSt) : (s.setMxe k x).dirs = s.dirs := Eq.trans rfl rfl
@[simp] theorem State.setMxe_gms (k : Nat) (x : MxeSt) : (s.setMxe k x).gms = s.gms := Eq.trans rfl rfl
@[simp] theorem State.setMxe_curs (k : Nat) (x : MxeSt) : (s.setMxe k x).curs = s.curs := Eq.trans rfl rfl
@[simp] theorem State.setMxe_mctxs (k : Nat) (x : MxeSt) : (s.setMxe k x).mctxs = s.mctxs := Eq.trans rfl rfl
@[simp] theorem State.setMxe_net (k : Nat) (x : MxeSt) : (s.setMxe k x).net = s.net := Eq.trans rfl rfl
@[simp] theorem State.setMxe_answers (k : Nat) (x : MxeSt) : (s.setMxe k x).answers = s.answers := Eq.trans rfl rfl
@[simp] theorem State.setMxe_crets (k : Nat) (x : MxeSt) : (s.setMxe k x).crets = s.crets := Eq.trans rfl rfl
@[simp] theorem State.setMxe_rings (k : Nat) (x : MxeSt) : (s.setMxe k x).rings = s.rings := Eq.trans rfl rfl
@[simp] theorem State.setMxe_unans (k : Nat) (x : MxeSt) : (s.setMxe k x).unans = s.unans := Eq.trans rfl rfl
@[simp] theorem State.setMxe_cqs (k : Nat) (x : MxeSt) : (s.setMxe k x).cqs = s.cqs := Eq.trans rfl rfl
@[simp] theorem State.setMxe_turns (k : Nat) (x : MxeSt) : (s.setMxe k x).turns = s.turns := Eq.trans rfl rfl
@[simp] theorem State.setMxe_tfes (k : Nat) (x : MxeSt) : (s.setMxe k x).tfes = s.tfes := Eq.trans rfl rfl
@[simp] theorem State.setMxe_pkts (k : Nat) (x : MxeSt) : (s.setMxe k x).pkts = s.pkts := Eq.trans rfl rfl
@[simp] theorem State.setMxe_rtrs (k : Nat) (x : MxeSt) : (s.setMxe k x).rtrs = s.rtrs := Eq.trans rfl rfl
@[simp] theorem State.setMxe_sv (k : Nat) (x : MxeSt) : (s.setMxe k x).sv = s.sv := Eq.trans rfl rfl
@[simp] theorem State.setMxe_mss (k : Nat) (x : MxeSt) : (s.setMxe k x).mss = s.mss := Eq.trans rfl rfl
@[simp] theorem State.setMxe_ports (k : Nat) (x : MxeSt) : (s.setMxe k x).ports = s.ports := Eq.trans rfl rfl
@[simp] theorem State.setMxe_lamps (k : Nat) (x : MxeSt) : (s.setMxe k x).lamps = s.lamps := Eq.trans rfl rfl
@[simp] theorem State.setMxe_ptp (k : Nat) (x : MxeSt) : (s.setMxe k x).ptp = s.ptp := Eq.trans rfl rfl
@[simp] theorem State.setMxe_mrs (k : Nat) (x : MxeSt) : (s.setMxe k x).mrs = s.mrs := Eq.trans rfl rfl
@[simp] theorem State.setMxe_host (k : Nat) (x : MxeSt) : (s.setMxe k x).host = s.host := Eq.trans rfl rfl
@[simp] theorem State.setMxe_sec (k : Nat) (x : MxeSt) : (s.setMxe k x).sec = s.sec := Eq.trans rfl rfl
@[simp] theorem State.setMxe_boot (k : Nat) (x : MxeSt) : (s.setMxe k x).boot = s.boot := Eq.trans rfl rfl
@[simp] theorem State.setMxe_tst (k : Nat) (x : MxeSt) : (s.setMxe k x).tst = s.tst := Eq.trans rfl rfl
@[simp] theorem State.setMxe_fr (k : Nat) (x : MxeSt) : (s.setMxe k x).fr = s.fr := Eq.trans rfl rfl
@[simp] theorem State.setMxe_pwr (k : Nat) (x : MxeSt) : (s.setMxe k x).pwr = s.pwr := Eq.trans rfl rfl
@[simp] theorem State.setMxe_greset (k : Nat) (x : MxeSt) : (s.setMxe k x).greset = s.greset := Eq.trans rfl rfl
@[simp] theorem State.setMxe_bud_ (k : Nat) (x : MxeSt) (j : Nat) : (s.setMxe k x).bud j = s.bud j := Eq.trans rfl rfl
@[simp] theorem State.setMxe_ctx_ (k : Nat) (x : MxeSt) (j : Nat) : (s.setMxe k x).ctx j = s.ctx j := Eq.trans rfl rfl
@[simp] theorem State.setMxe_core_ (k : Nat) (x : MxeSt) (j : Nat) : (s.setMxe k x).core j = s.core j := Eq.trans rfl rfl
@[simp] theorem State.setMxe_task_ (k : Nat) (x : MxeSt) (j : Nat) : (s.setMxe k x).task j = s.task j := Eq.trans rfl rfl
@[simp] theorem State.setMxe_rt_ (k : Nat) (x : MxeSt) (j : Nat) : (s.setMxe k x).rt j = s.rt j := Eq.trans rfl rfl
@[simp] theorem State.setMxe_dir_ (k : Nat) (x : MxeSt) (j : Nat) : (s.setMxe k x).dir j = s.dir j := Eq.trans rfl rfl
@[simp] theorem State.setMxe_gm_ (k : Nat) (x : MxeSt) (j : Nat) : (s.setMxe k x).gm j = s.gm j := Eq.trans rfl rfl
@[simp] theorem State.setMxe_cur_ (k : Nat) (x : MxeSt) (j : Nat) : (s.setMxe k x).cur j = s.cur j := Eq.trans rfl rfl
@[simp] theorem State.setMxe_mctx_ (k : Nat) (x : MxeSt) (j : Nat) : (s.setMxe k x).mctx j = s.mctx j := Eq.trans rfl rfl
@[simp] theorem State.setMxe_ring_ (k : Nat) (x : MxeSt) (j : Nat) : (s.setMxe k x).ring j = s.ring j := Eq.trans rfl rfl
@[simp] theorem State.setMxe_una_ (k : Nat) (x : MxeSt) (j : Nat) : (s.setMxe k x).una j = s.una j := Eq.trans rfl rfl
@[simp] theorem State.setMxe_cq_ (k : Nat) (x : MxeSt) (j : Nat) : (s.setMxe k x).cq j = s.cq j := Eq.trans rfl rfl
@[simp] theorem State.setMxe_tfe_ (k : Nat) (x : MxeSt) (j : Nat) : (s.setMxe k x).tfe j = s.tfe j := Eq.trans rfl rfl
@[simp] theorem State.setMxe_rtr_ (k : Nat) (x : MxeSt) (j : Nat) : (s.setMxe k x).rtr j = s.rtr j := Eq.trans rfl rfl
@[simp] theorem State.setMxe_ms_ (k : Nat) (x : MxeSt) (j : Nat) : (s.setMxe k x).ms j = s.ms j := Eq.trans rfl rfl
@[simp] theorem State.setMxe_port_ (k : Nat) (x : MxeSt) (j : Nat) : (s.setMxe k x).port j = s.port j := Eq.trans rfl rfl
@[simp] theorem State.setMxe_lamp_ (k : Nat) (x : MxeSt) (j : Nat) : (s.setMxe k x).lamp j = s.lamp j := Eq.trans rfl rfl
@[simp] theorem State.setMxe_gr_ (k : Nat) (x : MxeSt) (j : Nat) : (s.setMxe k x).gr j = s.gr j := Eq.trans rfl rfl
@[simp] theorem State.setMxe_reg (k : Nat) (x : MxeSt) (a : Nat) : (s.setMxe k x).reg a = s.reg a := Eq.trans rfl rfl
@[simp] theorem State.setMxe_fld (k : Nat) (x : MxeSt) (f : Fld) : (s.setMxe k x).fld f = s.fld f := Eq.trans rfl rfl
@[simp] theorem State.setMxe_sub (k : Nat) (x : MxeSt) (a w i : Nat) : (s.setMxe k x).sub a w i = s.sub a w i := Eq.trans rfl rfl
@[simp] theorem State.setMxe_rdByte (k : Nat) (x : MxeSt) (j : Nat) : (s.setMxe k x).rdByte j = s.rdByte j := Eq.trans rfl rfl
@[simp] theorem State.setMxe_mxe_same (k : Nat) (x : MxeSt) : (s.setMxe k x).mxe k = x := by
  simp [State.setMxe, State.mxe]
theorem State.setMxe_mxe_ne (k : Nat) (x : MxeSt) {j : Nat} (h : j ≠ k) : (s.setMxe k x).mxe j = s.mxe j := by
  simp [State.setMxe, State.mxe, SMap.get_put_ne _ _ _ _ h]

/-! ### setCur -/

@[simp] theorem State.setCur_pending (k : Nat) (x : CurSt) : (s.setCur k x).pending = s.pending := Eq.trans rfl rfl
@[simp] theorem State.setCur_now (k : Nat) (x : CurSt) : (s.setCur k x).now = s.now := Eq.trans rfl rfl
@[simp] theorem State.setCur_free (k : Nat) (x : CurSt) : (s.setCur k x).free = s.free := Eq.trans rfl rfl
@[simp] theorem State.setCur_out (k : Nat) (x : CurSt) : (s.setCur k x).out = s.out := Eq.trans rfl rfl
@[simp] theorem State.setCur_mode (k : Nat) (x : CurSt) : (s.setCur k x).mode = s.mode := Eq.trans rfl rfl
@[simp] theorem State.setCur_drip (k : Nat) (x : CurSt) : (s.setCur k x).drip = s.drip := Eq.trans rfl rfl
@[simp] theorem State.setCur_csr (k : Nat) (x : CurSt) : (s.setCur k x).csr = s.csr := Eq.trans rfl rfl
@[simp] theorem State.setCur_mem (k : Nat) (x : CurSt) : (s.setCur k x).mem = s.mem := Eq.trans rfl rfl
@[simp] theorem State.setCur_poison (k : Nat) (x : CurSt) : (s.setCur k x).poison = s.poison := Eq.trans rfl rfl
@[simp] theorem State.setCur_gpoison (k : Nat) (x : CurSt) : (s.setCur k x).gpoison = s.gpoison := Eq.trans rfl rfl
@[simp] theorem State.setCur_ueLog (k : Nat) (x : CurSt) : (s.setCur k x).ueLog = s.ueLog := Eq.trans rfl rfl
@[simp] theorem State.setCur_zeroed (k : Nat) (x : CurSt) : (s.setCur k x).zeroed = s.zeroed := Eq.trans rfl rfl
@[simp] theorem State.setCur_force (k : Nat) (x : CurSt) : (s.setCur k x).force = s.force := Eq.trans rfl rfl
@[simp] theorem State.setCur_ctxs (k : Nat) (x : CurSt) : (s.setCur k x).ctxs = s.ctxs := Eq.trans rfl rfl
@[simp] theorem State.setCur_cores (k : Nat) (x : CurSt) : (s.setCur k x).cores = s.cores := Eq.trans rfl rfl
@[simp] theorem State.setCur_tasks (k : Nat) (x : CurSt) : (s.setCur k x).tasks = s.tasks := Eq.trans rfl rfl
@[simp] theorem State.setCur_rts (k : Nat) (x : CurSt) : (s.setCur k x).rts = s.rts := Eq.trans rfl rfl
@[simp] theorem State.setCur_dirs (k : Nat) (x : CurSt) : (s.setCur k x).dirs = s.dirs := Eq.trans rfl rfl
@[simp] theorem State.setCur_gms (k : Nat) (x : CurSt) : (s.setCur k x).gms = s.gms := Eq.trans rfl rfl
@[simp] theorem State.setCur_mxes (k : Nat) (x : CurSt) : (s.setCur k x).mxes = s.mxes := Eq.trans rfl rfl
@[simp] theorem State.setCur_mctxs (k : Nat) (x : CurSt) : (s.setCur k x).mctxs = s.mctxs := Eq.trans rfl rfl
@[simp] theorem State.setCur_net (k : Nat) (x : CurSt) : (s.setCur k x).net = s.net := Eq.trans rfl rfl
@[simp] theorem State.setCur_answers (k : Nat) (x : CurSt) : (s.setCur k x).answers = s.answers := Eq.trans rfl rfl
@[simp] theorem State.setCur_crets (k : Nat) (x : CurSt) : (s.setCur k x).crets = s.crets := Eq.trans rfl rfl
@[simp] theorem State.setCur_rings (k : Nat) (x : CurSt) : (s.setCur k x).rings = s.rings := Eq.trans rfl rfl
@[simp] theorem State.setCur_unans (k : Nat) (x : CurSt) : (s.setCur k x).unans = s.unans := Eq.trans rfl rfl
@[simp] theorem State.setCur_cqs (k : Nat) (x : CurSt) : (s.setCur k x).cqs = s.cqs := Eq.trans rfl rfl
@[simp] theorem State.setCur_turns (k : Nat) (x : CurSt) : (s.setCur k x).turns = s.turns := Eq.trans rfl rfl
@[simp] theorem State.setCur_tfes (k : Nat) (x : CurSt) : (s.setCur k x).tfes = s.tfes := Eq.trans rfl rfl
@[simp] theorem State.setCur_pkts (k : Nat) (x : CurSt) : (s.setCur k x).pkts = s.pkts := Eq.trans rfl rfl
@[simp] theorem State.setCur_rtrs (k : Nat) (x : CurSt) : (s.setCur k x).rtrs = s.rtrs := Eq.trans rfl rfl
@[simp] theorem State.setCur_sv (k : Nat) (x : CurSt) : (s.setCur k x).sv = s.sv := Eq.trans rfl rfl
@[simp] theorem State.setCur_mss (k : Nat) (x : CurSt) : (s.setCur k x).mss = s.mss := Eq.trans rfl rfl
@[simp] theorem State.setCur_ports (k : Nat) (x : CurSt) : (s.setCur k x).ports = s.ports := Eq.trans rfl rfl
@[simp] theorem State.setCur_lamps (k : Nat) (x : CurSt) : (s.setCur k x).lamps = s.lamps := Eq.trans rfl rfl
@[simp] theorem State.setCur_ptp (k : Nat) (x : CurSt) : (s.setCur k x).ptp = s.ptp := Eq.trans rfl rfl
@[simp] theorem State.setCur_mrs (k : Nat) (x : CurSt) : (s.setCur k x).mrs = s.mrs := Eq.trans rfl rfl
@[simp] theorem State.setCur_host (k : Nat) (x : CurSt) : (s.setCur k x).host = s.host := Eq.trans rfl rfl
@[simp] theorem State.setCur_sec (k : Nat) (x : CurSt) : (s.setCur k x).sec = s.sec := Eq.trans rfl rfl
@[simp] theorem State.setCur_boot (k : Nat) (x : CurSt) : (s.setCur k x).boot = s.boot := Eq.trans rfl rfl
@[simp] theorem State.setCur_tst (k : Nat) (x : CurSt) : (s.setCur k x).tst = s.tst := Eq.trans rfl rfl
@[simp] theorem State.setCur_fr (k : Nat) (x : CurSt) : (s.setCur k x).fr = s.fr := Eq.trans rfl rfl
@[simp] theorem State.setCur_pwr (k : Nat) (x : CurSt) : (s.setCur k x).pwr = s.pwr := Eq.trans rfl rfl
@[simp] theorem State.setCur_greset (k : Nat) (x : CurSt) : (s.setCur k x).greset = s.greset := Eq.trans rfl rfl
@[simp] theorem State.setCur_bud_ (k : Nat) (x : CurSt) (j : Nat) : (s.setCur k x).bud j = s.bud j := Eq.trans rfl rfl
@[simp] theorem State.setCur_ctx_ (k : Nat) (x : CurSt) (j : Nat) : (s.setCur k x).ctx j = s.ctx j := Eq.trans rfl rfl
@[simp] theorem State.setCur_core_ (k : Nat) (x : CurSt) (j : Nat) : (s.setCur k x).core j = s.core j := Eq.trans rfl rfl
@[simp] theorem State.setCur_task_ (k : Nat) (x : CurSt) (j : Nat) : (s.setCur k x).task j = s.task j := Eq.trans rfl rfl
@[simp] theorem State.setCur_rt_ (k : Nat) (x : CurSt) (j : Nat) : (s.setCur k x).rt j = s.rt j := Eq.trans rfl rfl
@[simp] theorem State.setCur_dir_ (k : Nat) (x : CurSt) (j : Nat) : (s.setCur k x).dir j = s.dir j := Eq.trans rfl rfl
@[simp] theorem State.setCur_gm_ (k : Nat) (x : CurSt) (j : Nat) : (s.setCur k x).gm j = s.gm j := Eq.trans rfl rfl
@[simp] theorem State.setCur_mxe_ (k : Nat) (x : CurSt) (j : Nat) : (s.setCur k x).mxe j = s.mxe j := Eq.trans rfl rfl
@[simp] theorem State.setCur_mctx_ (k : Nat) (x : CurSt) (j : Nat) : (s.setCur k x).mctx j = s.mctx j := Eq.trans rfl rfl
@[simp] theorem State.setCur_ring_ (k : Nat) (x : CurSt) (j : Nat) : (s.setCur k x).ring j = s.ring j := Eq.trans rfl rfl
@[simp] theorem State.setCur_una_ (k : Nat) (x : CurSt) (j : Nat) : (s.setCur k x).una j = s.una j := Eq.trans rfl rfl
@[simp] theorem State.setCur_cq_ (k : Nat) (x : CurSt) (j : Nat) : (s.setCur k x).cq j = s.cq j := Eq.trans rfl rfl
@[simp] theorem State.setCur_tfe_ (k : Nat) (x : CurSt) (j : Nat) : (s.setCur k x).tfe j = s.tfe j := Eq.trans rfl rfl
@[simp] theorem State.setCur_rtr_ (k : Nat) (x : CurSt) (j : Nat) : (s.setCur k x).rtr j = s.rtr j := Eq.trans rfl rfl
@[simp] theorem State.setCur_ms_ (k : Nat) (x : CurSt) (j : Nat) : (s.setCur k x).ms j = s.ms j := Eq.trans rfl rfl
@[simp] theorem State.setCur_port_ (k : Nat) (x : CurSt) (j : Nat) : (s.setCur k x).port j = s.port j := Eq.trans rfl rfl
@[simp] theorem State.setCur_lamp_ (k : Nat) (x : CurSt) (j : Nat) : (s.setCur k x).lamp j = s.lamp j := Eq.trans rfl rfl
@[simp] theorem State.setCur_gr_ (k : Nat) (x : CurSt) (j : Nat) : (s.setCur k x).gr j = s.gr j := Eq.trans rfl rfl
@[simp] theorem State.setCur_reg (k : Nat) (x : CurSt) (a : Nat) : (s.setCur k x).reg a = s.reg a := Eq.trans rfl rfl
@[simp] theorem State.setCur_fld (k : Nat) (x : CurSt) (f : Fld) : (s.setCur k x).fld f = s.fld f := Eq.trans rfl rfl
@[simp] theorem State.setCur_sub (k : Nat) (x : CurSt) (a w i : Nat) : (s.setCur k x).sub a w i = s.sub a w i := Eq.trans rfl rfl
@[simp] theorem State.setCur_rdByte (k : Nat) (x : CurSt) (j : Nat) : (s.setCur k x).rdByte j = s.rdByte j := Eq.trans rfl rfl
@[simp] theorem State.setCur_cur_same (k : Nat) (x : CurSt) : (s.setCur k x).cur k = x := by
  simp [State.setCur, State.cur]
theorem State.setCur_cur_ne (k : Nat) (x : CurSt) {j : Nat} (h : j ≠ k) : (s.setCur k x).cur j = s.cur j := by
  simp [State.setCur, State.cur, SMap.get_put_ne _ _ _ _ h]

/-! ### setMctx -/

@[simp] theorem State.setMctx_pending (k : Nat) (x : Ctx) : (s.setMctx k x).pending = s.pending := Eq.trans rfl rfl
@[simp] theorem State.setMctx_now (k : Nat) (x : Ctx) : (s.setMctx k x).now = s.now := Eq.trans rfl rfl
@[simp] theorem State.setMctx_free (k : Nat) (x : Ctx) : (s.setMctx k x).free = s.free := Eq.trans rfl rfl
@[simp] theorem State.setMctx_out (k : Nat) (x : Ctx) : (s.setMctx k x).out = s.out := Eq.trans rfl rfl
@[simp] theorem State.setMctx_mode (k : Nat) (x : Ctx) : (s.setMctx k x).mode = s.mode := Eq.trans rfl rfl
@[simp] theorem State.setMctx_drip (k : Nat) (x : Ctx) : (s.setMctx k x).drip = s.drip := Eq.trans rfl rfl
@[simp] theorem State.setMctx_csr (k : Nat) (x : Ctx) : (s.setMctx k x).csr = s.csr := Eq.trans rfl rfl
@[simp] theorem State.setMctx_mem (k : Nat) (x : Ctx) : (s.setMctx k x).mem = s.mem := Eq.trans rfl rfl
@[simp] theorem State.setMctx_poison (k : Nat) (x : Ctx) : (s.setMctx k x).poison = s.poison := Eq.trans rfl rfl
@[simp] theorem State.setMctx_gpoison (k : Nat) (x : Ctx) : (s.setMctx k x).gpoison = s.gpoison := Eq.trans rfl rfl
@[simp] theorem State.setMctx_ueLog (k : Nat) (x : Ctx) : (s.setMctx k x).ueLog = s.ueLog := Eq.trans rfl rfl
@[simp] theorem State.setMctx_zeroed (k : Nat) (x : Ctx) : (s.setMctx k x).zeroed = s.zeroed := Eq.trans rfl rfl
@[simp] theorem State.setMctx_force (k : Nat) (x : Ctx) : (s.setMctx k x).force = s.force := Eq.trans rfl rfl
@[simp] theorem State.setMctx_ctxs (k : Nat) (x : Ctx) : (s.setMctx k x).ctxs = s.ctxs := Eq.trans rfl rfl
@[simp] theorem State.setMctx_cores (k : Nat) (x : Ctx) : (s.setMctx k x).cores = s.cores := Eq.trans rfl rfl
@[simp] theorem State.setMctx_tasks (k : Nat) (x : Ctx) : (s.setMctx k x).tasks = s.tasks := Eq.trans rfl rfl
@[simp] theorem State.setMctx_rts (k : Nat) (x : Ctx) : (s.setMctx k x).rts = s.rts := Eq.trans rfl rfl
@[simp] theorem State.setMctx_dirs (k : Nat) (x : Ctx) : (s.setMctx k x).dirs = s.dirs := Eq.trans rfl rfl
@[simp] theorem State.setMctx_gms (k : Nat) (x : Ctx) : (s.setMctx k x).gms = s.gms := Eq.trans rfl rfl
@[simp] theorem State.setMctx_mxes (k : Nat) (x : Ctx) : (s.setMctx k x).mxes = s.mxes := Eq.trans rfl rfl
@[simp] theorem State.setMctx_curs (k : Nat) (x : Ctx) : (s.setMctx k x).curs = s.curs := Eq.trans rfl rfl
@[simp] theorem State.setMctx_net (k : Nat) (x : Ctx) : (s.setMctx k x).net = s.net := Eq.trans rfl rfl
@[simp] theorem State.setMctx_answers (k : Nat) (x : Ctx) : (s.setMctx k x).answers = s.answers := Eq.trans rfl rfl
@[simp] theorem State.setMctx_crets (k : Nat) (x : Ctx) : (s.setMctx k x).crets = s.crets := Eq.trans rfl rfl
@[simp] theorem State.setMctx_rings (k : Nat) (x : Ctx) : (s.setMctx k x).rings = s.rings := Eq.trans rfl rfl
@[simp] theorem State.setMctx_unans (k : Nat) (x : Ctx) : (s.setMctx k x).unans = s.unans := Eq.trans rfl rfl
@[simp] theorem State.setMctx_cqs (k : Nat) (x : Ctx) : (s.setMctx k x).cqs = s.cqs := Eq.trans rfl rfl
@[simp] theorem State.setMctx_turns (k : Nat) (x : Ctx) : (s.setMctx k x).turns = s.turns := Eq.trans rfl rfl
@[simp] theorem State.setMctx_tfes (k : Nat) (x : Ctx) : (s.setMctx k x).tfes = s.tfes := Eq.trans rfl rfl
@[simp] theorem State.setMctx_pkts (k : Nat) (x : Ctx) : (s.setMctx k x).pkts = s.pkts := Eq.trans rfl rfl
@[simp] theorem State.setMctx_rtrs (k : Nat) (x : Ctx) : (s.setMctx k x).rtrs = s.rtrs := Eq.trans rfl rfl
@[simp] theorem State.setMctx_sv (k : Nat) (x : Ctx) : (s.setMctx k x).sv = s.sv := Eq.trans rfl rfl
@[simp] theorem State.setMctx_mss (k : Nat) (x : Ctx) : (s.setMctx k x).mss = s.mss := Eq.trans rfl rfl
@[simp] theorem State.setMctx_ports (k : Nat) (x : Ctx) : (s.setMctx k x).ports = s.ports := Eq.trans rfl rfl
@[simp] theorem State.setMctx_lamps (k : Nat) (x : Ctx) : (s.setMctx k x).lamps = s.lamps := Eq.trans rfl rfl
@[simp] theorem State.setMctx_ptp (k : Nat) (x : Ctx) : (s.setMctx k x).ptp = s.ptp := Eq.trans rfl rfl
@[simp] theorem State.setMctx_mrs (k : Nat) (x : Ctx) : (s.setMctx k x).mrs = s.mrs := Eq.trans rfl rfl
@[simp] theorem State.setMctx_host (k : Nat) (x : Ctx) : (s.setMctx k x).host = s.host := Eq.trans rfl rfl
@[simp] theorem State.setMctx_sec (k : Nat) (x : Ctx) : (s.setMctx k x).sec = s.sec := Eq.trans rfl rfl
@[simp] theorem State.setMctx_boot (k : Nat) (x : Ctx) : (s.setMctx k x).boot = s.boot := Eq.trans rfl rfl
@[simp] theorem State.setMctx_tst (k : Nat) (x : Ctx) : (s.setMctx k x).tst = s.tst := Eq.trans rfl rfl
@[simp] theorem State.setMctx_fr (k : Nat) (x : Ctx) : (s.setMctx k x).fr = s.fr := Eq.trans rfl rfl
@[simp] theorem State.setMctx_pwr (k : Nat) (x : Ctx) : (s.setMctx k x).pwr = s.pwr := Eq.trans rfl rfl
@[simp] theorem State.setMctx_greset (k : Nat) (x : Ctx) : (s.setMctx k x).greset = s.greset := Eq.trans rfl rfl
@[simp] theorem State.setMctx_bud_ (k : Nat) (x : Ctx) (j : Nat) : (s.setMctx k x).bud j = s.bud j := Eq.trans rfl rfl
@[simp] theorem State.setMctx_ctx_ (k : Nat) (x : Ctx) (j : Nat) : (s.setMctx k x).ctx j = s.ctx j := Eq.trans rfl rfl
@[simp] theorem State.setMctx_core_ (k : Nat) (x : Ctx) (j : Nat) : (s.setMctx k x).core j = s.core j := Eq.trans rfl rfl
@[simp] theorem State.setMctx_task_ (k : Nat) (x : Ctx) (j : Nat) : (s.setMctx k x).task j = s.task j := Eq.trans rfl rfl
@[simp] theorem State.setMctx_rt_ (k : Nat) (x : Ctx) (j : Nat) : (s.setMctx k x).rt j = s.rt j := Eq.trans rfl rfl
@[simp] theorem State.setMctx_dir_ (k : Nat) (x : Ctx) (j : Nat) : (s.setMctx k x).dir j = s.dir j := Eq.trans rfl rfl
@[simp] theorem State.setMctx_gm_ (k : Nat) (x : Ctx) (j : Nat) : (s.setMctx k x).gm j = s.gm j := Eq.trans rfl rfl
@[simp] theorem State.setMctx_mxe_ (k : Nat) (x : Ctx) (j : Nat) : (s.setMctx k x).mxe j = s.mxe j := Eq.trans rfl rfl
@[simp] theorem State.setMctx_cur_ (k : Nat) (x : Ctx) (j : Nat) : (s.setMctx k x).cur j = s.cur j := Eq.trans rfl rfl
@[simp] theorem State.setMctx_ring_ (k : Nat) (x : Ctx) (j : Nat) : (s.setMctx k x).ring j = s.ring j := Eq.trans rfl rfl
@[simp] theorem State.setMctx_una_ (k : Nat) (x : Ctx) (j : Nat) : (s.setMctx k x).una j = s.una j := Eq.trans rfl rfl
@[simp] theorem State.setMctx_cq_ (k : Nat) (x : Ctx) (j : Nat) : (s.setMctx k x).cq j = s.cq j := Eq.trans rfl rfl
@[simp] theorem State.setMctx_tfe_ (k : Nat) (x : Ctx) (j : Nat) : (s.setMctx k x).tfe j = s.tfe j := Eq.trans rfl rfl
@[simp] theorem State.setMctx_rtr_ (k : Nat) (x : Ctx) (j : Nat) : (s.setMctx k x).rtr j = s.rtr j := Eq.trans rfl rfl
@[simp] theorem State.setMctx_ms_ (k : Nat) (x : Ctx) (j : Nat) : (s.setMctx k x).ms j = s.ms j := Eq.trans rfl rfl
@[simp] theorem State.setMctx_port_ (k : Nat) (x : Ctx) (j : Nat) : (s.setMctx k x).port j = s.port j := Eq.trans rfl rfl
@[simp] theorem State.setMctx_lamp_ (k : Nat) (x : Ctx) (j : Nat) : (s.setMctx k x).lamp j = s.lamp j := Eq.trans rfl rfl
@[simp] theorem State.setMctx_gr_ (k : Nat) (x : Ctx) (j : Nat) : (s.setMctx k x).gr j = s.gr j := Eq.trans rfl rfl
@[simp] theorem State.setMctx_reg (k : Nat) (x : Ctx) (a : Nat) : (s.setMctx k x).reg a = s.reg a := Eq.trans rfl rfl
@[simp] theorem State.setMctx_fld (k : Nat) (x : Ctx) (f : Fld) : (s.setMctx k x).fld f = s.fld f := Eq.trans rfl rfl
@[simp] theorem State.setMctx_sub (k : Nat) (x : Ctx) (a w i : Nat) : (s.setMctx k x).sub a w i = s.sub a w i := Eq.trans rfl rfl
@[simp] theorem State.setMctx_rdByte (k : Nat) (x : Ctx) (j : Nat) : (s.setMctx k x).rdByte j = s.rdByte j := Eq.trans rfl rfl
@[simp] theorem State.setMctx_mctx_same (k : Nat) (x : Ctx) : (s.setMctx k x).mctx k = x := by
  simp [State.setMctx, State.mctx]
theorem State.setMctx_mctx_ne (k : Nat) (x : Ctx) {j : Nat} (h : j ≠ k) : (s.setMctx k x).mctx j = s.mctx j := by
  simp [State.setMctx, State.mctx, SMap.get_put_ne _ _ _ _ h]

/-! ### setRing -/

@[simp] theorem State.setRing_pending (k : Nat) (x : RingSt) : (s.setRing k x).pending = s.pending := Eq.trans rfl rfl
@[simp] theorem State.setRing_now (k : Nat) (x : RingSt) : (s.setRing k x).now = s.now := Eq.trans rfl rfl
@[simp] theorem State.setRing_free (k : Nat) (x : RingSt) : (s.setRing k x).free = s.free := Eq.trans rfl rfl
@[simp] theorem State.setRing_out (k : Nat) (x : RingSt) : (s.setRing k x).out = s.out := Eq.trans rfl rfl
@[simp] theorem State.setRing_mode (k : Nat) (x : RingSt) : (s.setRing k x).mode = s.mode := Eq.trans rfl rfl
@[simp] theorem State.setRing_drip (k : Nat) (x : RingSt) : (s.setRing k x).drip = s.drip := Eq.trans rfl rfl
@[simp] theorem State.setRing_csr (k : Nat) (x : RingSt) : (s.setRing k x).csr = s.csr := Eq.trans rfl rfl
@[simp] theorem State.setRing_mem (k : Nat) (x : RingSt) : (s.setRing k x).mem = s.mem := Eq.trans rfl rfl
@[simp] theorem State.setRing_poison (k : Nat) (x : RingSt) : (s.setRing k x).poison = s.poison := Eq.trans rfl rfl
@[simp] theorem State.setRing_gpoison (k : Nat) (x : RingSt) : (s.setRing k x).gpoison = s.gpoison := Eq.trans rfl rfl
@[simp] theorem State.setRing_ueLog (k : Nat) (x : RingSt) : (s.setRing k x).ueLog = s.ueLog := Eq.trans rfl rfl
@[simp] theorem State.setRing_zeroed (k : Nat) (x : RingSt) : (s.setRing k x).zeroed = s.zeroed := Eq.trans rfl rfl
@[simp] theorem State.setRing_force (k : Nat) (x : RingSt) : (s.setRing k x).force = s.force := Eq.trans rfl rfl
@[simp] theorem State.setRing_ctxs (k : Nat) (x : RingSt) : (s.setRing k x).ctxs = s.ctxs := Eq.trans rfl rfl
@[simp] theorem State.setRing_cores (k : Nat) (x : RingSt) : (s.setRing k x).cores = s.cores := Eq.trans rfl rfl
@[simp] theorem State.setRing_tasks (k : Nat) (x : RingSt) : (s.setRing k x).tasks = s.tasks := Eq.trans rfl rfl
@[simp] theorem State.setRing_rts (k : Nat) (x : RingSt) : (s.setRing k x).rts = s.rts := Eq.trans rfl rfl
@[simp] theorem State.setRing_dirs (k : Nat) (x : RingSt) : (s.setRing k x).dirs = s.dirs := Eq.trans rfl rfl
@[simp] theorem State.setRing_gms (k : Nat) (x : RingSt) : (s.setRing k x).gms = s.gms := Eq.trans rfl rfl
@[simp] theorem State.setRing_mxes (k : Nat) (x : RingSt) : (s.setRing k x).mxes = s.mxes := Eq.trans rfl rfl
@[simp] theorem State.setRing_curs (k : Nat) (x : RingSt) : (s.setRing k x).curs = s.curs := Eq.trans rfl rfl
@[simp] theorem State.setRing_mctxs (k : Nat) (x : RingSt) : (s.setRing k x).mctxs = s.mctxs := Eq.trans rfl rfl
@[simp] theorem State.setRing_net (k : Nat) (x : RingSt) : (s.setRing k x).net = s.net := Eq.trans rfl rfl
@[simp] theorem State.setRing_answers (k : Nat) (x : RingSt) : (s.setRing k x).answers = s.answers := Eq.trans rfl rfl
@[simp] theorem State.setRing_crets (k : Nat) (x : RingSt) : (s.setRing k x).crets = s.crets := Eq.trans rfl rfl
@[simp] theorem State.setRing_unans (k : Nat) (x : RingSt) : (s.setRing k x).unans = s.unans := Eq.trans rfl rfl
@[simp] theorem State.setRing_cqs (k : Nat) (x : RingSt) : (s.setRing k x).cqs = s.cqs := Eq.trans rfl rfl
@[simp] theorem State.setRing_turns (k : Nat) (x : RingSt) : (s.setRing k x).turns = s.turns := Eq.trans rfl rfl
@[simp] theorem State.setRing_tfes (k : Nat) (x : RingSt) : (s.setRing k x).tfes = s.tfes := Eq.trans rfl rfl
@[simp] theorem State.setRing_pkts (k : Nat) (x : RingSt) : (s.setRing k x).pkts = s.pkts := Eq.trans rfl rfl
@[simp] theorem State.setRing_rtrs (k : Nat) (x : RingSt) : (s.setRing k x).rtrs = s.rtrs := Eq.trans rfl rfl
@[simp] theorem State.setRing_sv (k : Nat) (x : RingSt) : (s.setRing k x).sv = s.sv := Eq.trans rfl rfl
@[simp] theorem State.setRing_mss (k : Nat) (x : RingSt) : (s.setRing k x).mss = s.mss := Eq.trans rfl rfl
@[simp] theorem State.setRing_ports (k : Nat) (x : RingSt) : (s.setRing k x).ports = s.ports := Eq.trans rfl rfl
@[simp] theorem State.setRing_lamps (k : Nat) (x : RingSt) : (s.setRing k x).lamps = s.lamps := Eq.trans rfl rfl
@[simp] theorem State.setRing_ptp (k : Nat) (x : RingSt) : (s.setRing k x).ptp = s.ptp := Eq.trans rfl rfl
@[simp] theorem State.setRing_mrs (k : Nat) (x : RingSt) : (s.setRing k x).mrs = s.mrs := Eq.trans rfl rfl
@[simp] theorem State.setRing_host (k : Nat) (x : RingSt) : (s.setRing k x).host = s.host := Eq.trans rfl rfl
@[simp] theorem State.setRing_sec (k : Nat) (x : RingSt) : (s.setRing k x).sec = s.sec := Eq.trans rfl rfl
@[simp] theorem State.setRing_boot (k : Nat) (x : RingSt) : (s.setRing k x).boot = s.boot := Eq.trans rfl rfl
@[simp] theorem State.setRing_tst (k : Nat) (x : RingSt) : (s.setRing k x).tst = s.tst := Eq.trans rfl rfl
@[simp] theorem State.setRing_fr (k : Nat) (x : RingSt) : (s.setRing k x).fr = s.fr := Eq.trans rfl rfl
@[simp] theorem State.setRing_pwr (k : Nat) (x : RingSt) : (s.setRing k x).pwr = s.pwr := Eq.trans rfl rfl
@[simp] theorem State.setRing_greset (k : Nat) (x : RingSt) : (s.setRing k x).greset = s.greset := Eq.trans rfl rfl
@[simp] theorem State.setRing_bud_ (k : Nat) (x : RingSt) (j : Nat) : (s.setRing k x).bud j = s.bud j := Eq.trans rfl rfl
@[simp] theorem State.setRing_ctx_ (k : Nat) (x : RingSt) (j : Nat) : (s.setRing k x).ctx j = s.ctx j := Eq.trans rfl rfl
@[simp] theorem State.setRing_core_ (k : Nat) (x : RingSt) (j : Nat) : (s.setRing k x).core j = s.core j := Eq.trans rfl rfl
@[simp] theorem State.setRing_task_ (k : Nat) (x : RingSt) (j : Nat) : (s.setRing k x).task j = s.task j := Eq.trans rfl rfl
@[simp] theorem State.setRing_rt_ (k : Nat) (x : RingSt) (j : Nat) : (s.setRing k x).rt j = s.rt j := Eq.trans rfl rfl
@[simp] theorem State.setRing_dir_ (k : Nat) (x : RingSt) (j : Nat) : (s.setRing k x).dir j = s.dir j := Eq.trans rfl rfl
@[simp] theorem State.setRing_gm_ (k : Nat) (x : RingSt) (j : Nat) : (s.setRing k x).gm j = s.gm j := Eq.trans rfl rfl
@[simp] theorem State.setRing_mxe_ (k : Nat) (x : RingSt) (j : Nat) : (s.setRing k x).mxe j = s.mxe j := Eq.trans rfl rfl
@[simp] theorem State.setRing_cur_ (k : Nat) (x : RingSt) (j : Nat) : (s.setRing k x).cur j = s.cur j := Eq.trans rfl rfl
@[simp] theorem State.setRing_mctx_ (k : Nat) (x : RingSt) (j : Nat) : (s.setRing k x).mctx j = s.mctx j := Eq.trans rfl rfl
@[simp] theorem State.setRing_una_ (k : Nat) (x : RingSt) (j : Nat) : (s.setRing k x).una j = s.una j := Eq.trans rfl rfl
@[simp] theorem State.setRing_cq_ (k : Nat) (x : RingSt) (j : Nat) : (s.setRing k x).cq j = s.cq j := Eq.trans rfl rfl
@[simp] theorem State.setRing_tfe_ (k : Nat) (x : RingSt) (j : Nat) : (s.setRing k x).tfe j = s.tfe j := Eq.trans rfl rfl
@[simp] theorem State.setRing_rtr_ (k : Nat) (x : RingSt) (j : Nat) : (s.setRing k x).rtr j = s.rtr j := Eq.trans rfl rfl
@[simp] theorem State.setRing_ms_ (k : Nat) (x : RingSt) (j : Nat) : (s.setRing k x).ms j = s.ms j := Eq.trans rfl rfl
@[simp] theorem State.setRing_port_ (k : Nat) (x : RingSt) (j : Nat) : (s.setRing k x).port j = s.port j := Eq.trans rfl rfl
@[simp] theorem State.setRing_lamp_ (k : Nat) (x : RingSt) (j : Nat) : (s.setRing k x).lamp j = s.lamp j := Eq.trans rfl rfl
@[simp] theorem State.setRing_gr_ (k : Nat) (x : RingSt) (j : Nat) : (s.setRing k x).gr j = s.gr j := Eq.trans rfl rfl
@[simp] theorem State.setRing_reg (k : Nat) (x : RingSt) (a : Nat) : (s.setRing k x).reg a = s.reg a := Eq.trans rfl rfl
@[simp] theorem State.setRing_fld (k : Nat) (x : RingSt) (f : Fld) : (s.setRing k x).fld f = s.fld f := Eq.trans rfl rfl
@[simp] theorem State.setRing_sub (k : Nat) (x : RingSt) (a w i : Nat) : (s.setRing k x).sub a w i = s.sub a w i := Eq.trans rfl rfl
@[simp] theorem State.setRing_rdByte (k : Nat) (x : RingSt) (j : Nat) : (s.setRing k x).rdByte j = s.rdByte j := Eq.trans rfl rfl
@[simp] theorem State.setRing_ring_same (k : Nat) (x : RingSt) : (s.setRing k x).ring k = x := by
  simp [State.setRing, State.ring]
theorem State.setRing_ring_ne (k : Nat) (x : RingSt) {j : Nat} (h : j ≠ k) : (s.setRing k x).ring j = s.ring j := by
  simp [State.setRing, State.ring, SMap.get_put_ne _ _ _ _ h]

/-! ### setUna -/

@[simp] theorem State.setUna_pending (k : Nat) (x : List Unans) : (s.setUna k x).pending = s.pending := Eq.trans rfl rfl
@[simp] theorem State.setUna_now (k : Nat) (x : List Unans) : (s.setUna k x).now = s.now := Eq.trans rfl rfl
@[simp] theorem State.setUna_free (k : Nat) (x : List Unans) : (s.setUna k x).free = s.free := Eq.trans rfl rfl
@[simp] theorem State.setUna_out (k : Nat) (x : List Unans) : (s.setUna k x).out = s.out := Eq.trans rfl rfl
@[simp] theorem State.setUna_mode (k : Nat) (x : List Unans) : (s.setUna k x).mode = s.mode := Eq.trans rfl rfl
@[simp] theorem State.setUna_drip (k : Nat) (x : List Unans) : (s.setUna k x).drip = s.drip := Eq.trans rfl rfl
@[simp] theorem State.setUna_csr (k : Nat) (x : List Unans) : (s.setUna k x).csr = s.csr := Eq.trans rfl rfl
@[simp] theorem State.setUna_mem (k : Nat) (x : List Unans) : (s.setUna k x).mem = s.mem := Eq.trans rfl rfl
@[simp] theorem State.setUna_poison (k : Nat) (x : List Unans) : (s.setUna k x).poison = s.poison := Eq.trans rfl rfl
@[simp] theorem State.setUna_gpoison (k : Nat) (x : List Unans) : (s.setUna k x).gpoison = s.gpoison := Eq.trans rfl rfl
@[simp] theorem State.setUna_ueLog (k : Nat) (x : List Unans) : (s.setUna k x).ueLog = s.ueLog := Eq.trans rfl rfl
@[simp] theorem State.setUna_zeroed (k : Nat) (x : List Unans) : (s.setUna k x).zeroed = s.zeroed := Eq.trans rfl rfl
@[simp] theorem State.setUna_force (k : Nat) (x : List Unans) : (s.setUna k x).force = s.force := Eq.trans rfl rfl
@[simp] theorem State.setUna_ctxs (k : Nat) (x : List Unans) : (s.setUna k x).ctxs = s.ctxs := Eq.trans rfl rfl
@[simp] theorem State.setUna_cores (k : Nat) (x : List Unans) : (s.setUna k x).cores = s.cores := Eq.trans rfl rfl
@[simp] theorem State.setUna_tasks (k : Nat) (x : List Unans) : (s.setUna k x).tasks = s.tasks := Eq.trans rfl rfl
@[simp] theorem State.setUna_rts (k : Nat) (x : List Unans) : (s.setUna k x).rts = s.rts := Eq.trans rfl rfl
@[simp] theorem State.setUna_dirs (k : Nat) (x : List Unans) : (s.setUna k x).dirs = s.dirs := Eq.trans rfl rfl
@[simp] theorem State.setUna_gms (k : Nat) (x : List Unans) : (s.setUna k x).gms = s.gms := Eq.trans rfl rfl
@[simp] theorem State.setUna_mxes (k : Nat) (x : List Unans) : (s.setUna k x).mxes = s.mxes := Eq.trans rfl rfl
@[simp] theorem State.setUna_curs (k : Nat) (x : List Unans) : (s.setUna k x).curs = s.curs := Eq.trans rfl rfl
@[simp] theorem State.setUna_mctxs (k : Nat) (x : List Unans) : (s.setUna k x).mctxs = s.mctxs := Eq.trans rfl rfl
@[simp] theorem State.setUna_net (k : Nat) (x : List Unans) : (s.setUna k x).net = s.net := Eq.trans rfl rfl
@[simp] theorem State.setUna_answers (k : Nat) (x : List Unans) : (s.setUna k x).answers = s.answers := Eq.trans rfl rfl
@[simp] theorem State.setUna_crets (k : Nat) (x : List Unans) : (s.setUna k x).crets = s.crets := Eq.trans rfl rfl
@[simp] theorem State.setUna_rings (k : Nat) (x : List Unans) : (s.setUna k x).rings = s.rings := Eq.trans rfl rfl
@[simp] theorem State.setUna_cqs (k : Nat) (x : List Unans) : (s.setUna k x).cqs = s.cqs := Eq.trans rfl rfl
@[simp] theorem State.setUna_turns (k : Nat) (x : List Unans) : (s.setUna k x).turns = s.turns := Eq.trans rfl rfl
@[simp] theorem State.setUna_tfes (k : Nat) (x : List Unans) : (s.setUna k x).tfes = s.tfes := Eq.trans rfl rfl
@[simp] theorem State.setUna_pkts (k : Nat) (x : List Unans) : (s.setUna k x).pkts = s.pkts := Eq.trans rfl rfl
@[simp] theorem State.setUna_rtrs (k : Nat) (x : List Unans) : (s.setUna k x).rtrs = s.rtrs := Eq.trans rfl rfl
@[simp] theorem State.setUna_sv (k : Nat) (x : List Unans) : (s.setUna k x).sv = s.sv := Eq.trans rfl rfl
@[simp] theorem State.setUna_mss (k : Nat) (x : List Unans) : (s.setUna k x).mss = s.mss := Eq.trans rfl rfl
@[simp] theorem State.setUna_ports (k : Nat) (x : List Unans) : (s.setUna k x).ports = s.ports := Eq.trans rfl rfl
@[simp] theorem State.setUna_lamps (k : Nat) (x : List Unans) : (s.setUna k x).lamps = s.lamps := Eq.trans rfl rfl
@[simp] theorem State.setUna_ptp (k : Nat) (x : List Unans) : (s.setUna k x).ptp = s.ptp := Eq.trans rfl rfl
@[simp] theorem State.setUna_mrs (k : Nat) (x : List Unans) : (s.setUna k x).mrs = s.mrs := Eq.trans rfl rfl
@[simp] theorem State.setUna_host (k : Nat) (x : List Unans) : (s.setUna k x).host = s.host := Eq.trans rfl rfl
@[simp] theorem State.setUna_sec (k : Nat) (x : List Unans) : (s.setUna k x).sec = s.sec := Eq.trans rfl rfl
@[simp] theorem State.setUna_boot (k : Nat) (x : List Unans) : (s.setUna k x).boot = s.boot := Eq.trans rfl rfl
@[simp] theorem State.setUna_tst (k : Nat) (x : List Unans) : (s.setUna k x).tst = s.tst := Eq.trans rfl rfl
@[simp] theorem State.setUna_fr (k : Nat) (x : List Unans) : (s.setUna k x).fr = s.fr := Eq.trans rfl rfl
@[simp] theorem State.setUna_pwr (k : Nat) (x : List Unans) : (s.setUna k x).pwr = s.pwr := Eq.trans rfl rfl
@[simp] theorem State.setUna_greset (k : Nat) (x : List Unans) : (s.setUna k x).greset = s.greset := Eq.trans rfl rfl
@[simp] theorem State.setUna_bud_ (k : Nat) (x : List Unans) (j : Nat) : (s.setUna k x).bud j = s.bud j := Eq.trans rfl rfl
@[simp] theorem State.setUna_ctx_ (k : Nat) (x : List Unans) (j : Nat) : (s.setUna k x).ctx j = s.ctx j := Eq.trans rfl rfl
@[simp] theorem State.setUna_core_ (k : Nat) (x : List Unans) (j : Nat) : (s.setUna k x).core j = s.core j := Eq.trans rfl rfl
@[simp] theorem State.setUna_task_ (k : Nat) (x : List Unans) (j : Nat) : (s.setUna k x).task j = s.task j := Eq.trans rfl rfl
@[simp] theorem State.setUna_rt_ (k : Nat) (x : List Unans) (j : Nat) : (s.setUna k x).rt j = s.rt j := Eq.trans rfl rfl
@[simp] theorem State.setUna_dir_ (k : Nat) (x : List Unans) (j : Nat) : (s.setUna k x).dir j = s.dir j := Eq.trans rfl rfl
@[simp] theorem State.setUna_gm_ (k : Nat) (x : List Unans) (j : Nat) : (s.setUna k x).gm j = s.gm j := Eq.trans rfl rfl
@[simp] theorem State.setUna_mxe_ (k : Nat) (x : List Unans) (j : Nat) : (s.setUna k x).mxe j = s.mxe j := Eq.trans rfl rfl
@[simp] theorem State.setUna_cur_ (k : Nat) (x : List Unans) (j : Nat) : (s.setUna k x).cur j = s.cur j := Eq.trans rfl rfl
@[simp] theorem State.setUna_mctx_ (k : Nat) (x : List Unans) (j : Nat) : (s.setUna k x).mctx j = s.mctx j := Eq.trans rfl rfl
@[simp] theorem State.setUna_ring_ (k : Nat) (x : List Unans) (j : Nat) : (s.setUna k x).ring j = s.ring j := Eq.trans rfl rfl
@[simp] theorem State.setUna_cq_ (k : Nat) (x : List Unans) (j : Nat) : (s.setUna k x).cq j = s.cq j := Eq.trans rfl rfl
@[simp] theorem State.setUna_tfe_ (k : Nat) (x : List Unans) (j : Nat) : (s.setUna k x).tfe j = s.tfe j := Eq.trans rfl rfl
@[simp] theorem State.setUna_rtr_ (k : Nat) (x : List Unans) (j : Nat) : (s.setUna k x).rtr j = s.rtr j := Eq.trans rfl rfl
@[simp] theorem State.setUna_ms_ (k : Nat) (x : List Unans) (j : Nat) : (s.setUna k x).ms j = s.ms j := Eq.trans rfl rfl
@[simp] theorem State.setUna_port_ (k : Nat) (x : List Unans) (j : Nat) : (s.setUna k x).port j = s.port j := Eq.trans rfl rfl
@[simp] theorem State.setUna_lamp_ (k : Nat) (x : List Unans) (j : Nat) : (s.setUna k x).lamp j = s.lamp j := Eq.trans rfl rfl
@[simp] theorem State.setUna_gr_ (k : Nat) (x : List Unans) (j : Nat) : (s.setUna k x).gr j = s.gr j := Eq.trans rfl rfl
@[simp] theorem State.setUna_reg (k : Nat) (x : List Unans) (a : Nat) : (s.setUna k x).reg a = s.reg a := Eq.trans rfl rfl
@[simp] theorem State.setUna_fld (k : Nat) (x : List Unans) (f : Fld) : (s.setUna k x).fld f = s.fld f := Eq.trans rfl rfl
@[simp] theorem State.setUna_sub (k : Nat) (x : List Unans) (a w i : Nat) : (s.setUna k x).sub a w i = s.sub a w i := Eq.trans rfl rfl
@[simp] theorem State.setUna_rdByte (k : Nat) (x : List Unans) (j : Nat) : (s.setUna k x).rdByte j = s.rdByte j := Eq.trans rfl rfl
@[simp] theorem State.setUna_una_same (k : Nat) (x : List Unans) : (s.setUna k x).una k = x := by
  simp [State.setUna, State.una]
theorem State.setUna_una_ne (k : Nat) (x : List Unans) {j : Nat} (h : j ≠ k) : (s.setUna k x).una j = s.una j := by
  simp [State.setUna, State.una, SMap.get_put_ne _ _ _ _ h]

/-! ### setCq -/

@[simp] theorem State.setCq_pending (k : Nat) (x : List CqRec) : (s.setCq k x).pending = s.pending := Eq.trans rfl rfl
@[simp] theorem State.setCq_now (k : Nat) (x : List CqRec) : (s.setCq k x).now = s.now := Eq.trans rfl rfl
@[simp] theorem State.setCq_free (k : Nat) (x : List CqRec) : (s.setCq k x).free = s.free := Eq.trans rfl rfl
@[simp] theorem State.setCq_out (k : Nat) (x : List CqRec) : (s.setCq k x).out = s.out := Eq.trans rfl rfl
@[simp] theorem State.setCq_mode (k : Nat) (x : List CqRec) : (s.setCq k x).mode = s.mode := Eq.trans rfl rfl
@[simp] theorem State.setCq_drip (k : Nat) (x : List CqRec) : (s.setCq k x).drip = s.drip := Eq.trans rfl rfl
@[simp] theorem State.setCq_csr (k : Nat) (x : List CqRec) : (s.setCq k x).csr = s.csr := Eq.trans rfl rfl
@[simp] theorem State.setCq_mem (k : Nat) (x : List CqRec) : (s.setCq k x).mem = s.mem := Eq.trans rfl rfl
@[simp] theorem State.setCq_poison (k : Nat) (x : List CqRec) : (s.setCq k x).poison = s.poison := Eq.trans rfl rfl
@[simp] theorem State.setCq_gpoison (k : Nat) (x : List CqRec) : (s.setCq k x).gpoison = s.gpoison := Eq.trans rfl rfl
@[simp] theorem State.setCq_ueLog (k : Nat) (x : List CqRec) : (s.setCq k x).ueLog = s.ueLog := Eq.trans rfl rfl
@[simp] theorem State.setCq_zeroed (k : Nat) (x : List CqRec) : (s.setCq k x).zeroed = s.zeroed := Eq.trans rfl rfl
@[simp] theorem State.setCq_force (k : Nat) (x : List CqRec) : (s.setCq k x).force = s.force := Eq.trans rfl rfl
@[simp] theorem State.setCq_ctxs (k : Nat) (x : List CqRec) : (s.setCq k x).ctxs = s.ctxs := Eq.trans rfl rfl
@[simp] theorem State.setCq_cores (k : Nat) (x : List CqRec) : (s.setCq k x).cores = s.cores := Eq.trans rfl rfl
@[simp] theorem State.setCq_tasks (k : Nat) (x : List CqRec) : (s.setCq k x).tasks = s.tasks := Eq.trans rfl rfl
@[simp] theorem State.setCq_rts (k : Nat) (x : List CqRec) : (s.setCq k x).rts = s.rts := Eq.trans rfl rfl
@[simp] theorem State.setCq_dirs (k : Nat) (x : List CqRec) : (s.setCq k x).dirs = s.dirs := Eq.trans rfl rfl
@[simp] theorem State.setCq_gms (k : Nat) (x : List CqRec) : (s.setCq k x).gms = s.gms := Eq.trans rfl rfl
@[simp] theorem State.setCq_mxes (k : Nat) (x : List CqRec) : (s.setCq k x).mxes = s.mxes := Eq.trans rfl rfl
@[simp] theorem State.setCq_curs (k : Nat) (x : List CqRec) : (s.setCq k x).curs = s.curs := Eq.trans rfl rfl
@[simp] theorem State.setCq_mctxs (k : Nat) (x : List CqRec) : (s.setCq k x).mctxs = s.mctxs := Eq.trans rfl rfl
@[simp] theorem State.setCq_net (k : Nat) (x : List CqRec) : (s.setCq k x).net = s.net := Eq.trans rfl rfl
@[simp] theorem State.setCq_answers (k : Nat) (x : List CqRec) : (s.setCq k x).answers = s.answers := Eq.trans rfl rfl
@[simp] theorem State.setCq_crets (k : Nat) (x : List CqRec) : (s.setCq k x).crets = s.crets := Eq.trans rfl rfl
@[simp] theorem State.setCq_rings (k : Nat) (x : List CqRec) : (s.setCq k x).rings = s.rings := Eq.trans rfl rfl
@[simp] theorem State.setCq_unans (k : Nat) (x : List CqRec) : (s.setCq k x).unans = s.unans := Eq.trans rfl rfl
@[simp] theorem State.setCq_turns (k : Nat) (x : List CqRec) : (s.setCq k x).turns = s.turns := Eq.trans rfl rfl
@[simp] theorem State.setCq_tfes (k : Nat) (x : List CqRec) : (s.setCq k x).tfes = s.tfes := Eq.trans rfl rfl
@[simp] theorem State.setCq_pkts (k : Nat) (x : List CqRec) : (s.setCq k x).pkts = s.pkts := Eq.trans rfl rfl
@[simp] theorem State.setCq_rtrs (k : Nat) (x : List CqRec) : (s.setCq k x).rtrs = s.rtrs := Eq.trans rfl rfl
@[simp] theorem State.setCq_sv (k : Nat) (x : List CqRec) : (s.setCq k x).sv = s.sv := Eq.trans rfl rfl
@[simp] theorem State.setCq_mss (k : Nat) (x : List CqRec) : (s.setCq k x).mss = s.mss := Eq.trans rfl rfl
@[simp] theorem State.setCq_ports (k : Nat) (x : List CqRec) : (s.setCq k x).ports = s.ports := Eq.trans rfl rfl
@[simp] theorem State.setCq_lamps (k : Nat) (x : List CqRec) : (s.setCq k x).lamps = s.lamps := Eq.trans rfl rfl
@[simp] theorem State.setCq_ptp (k : Nat) (x : List CqRec) : (s.setCq k x).ptp = s.ptp := Eq.trans rfl rfl
@[simp] theorem State.setCq_mrs (k : Nat) (x : List CqRec) : (s.setCq k x).mrs = s.mrs := Eq.trans rfl rfl
@[simp] theorem State.setCq_host (k : Nat) (x : List CqRec) : (s.setCq k x).host = s.host := Eq.trans rfl rfl
@[simp] theorem State.setCq_sec (k : Nat) (x : List CqRec) : (s.setCq k x).sec = s.sec := Eq.trans rfl rfl
@[simp] theorem State.setCq_boot (k : Nat) (x : List CqRec) : (s.setCq k x).boot = s.boot := Eq.trans rfl rfl
@[simp] theorem State.setCq_tst (k : Nat) (x : List CqRec) : (s.setCq k x).tst = s.tst := Eq.trans rfl rfl
@[simp] theorem State.setCq_fr (k : Nat) (x : List CqRec) : (s.setCq k x).fr = s.fr := Eq.trans rfl rfl
@[simp] theorem State.setCq_pwr (k : Nat) (x : List CqRec) : (s.setCq k x).pwr = s.pwr := Eq.trans rfl rfl
@[simp] theorem State.setCq_greset (k : Nat) (x : List CqRec) : (s.setCq k x).greset = s.greset := Eq.trans rfl rfl
@[simp] theorem State.setCq_bud_ (k : Nat) (x : List CqRec) (j : Nat) : (s.setCq k x).bud j = s.bud j := Eq.trans rfl rfl
@[simp] theorem State.setCq_ctx_ (k : Nat) (x : List CqRec) (j : Nat) : (s.setCq k x).ctx j = s.ctx j := Eq.trans rfl rfl
@[simp] theorem State.setCq_core_ (k : Nat) (x : List CqRec) (j : Nat) : (s.setCq k x).core j = s.core j := Eq.trans rfl rfl
@[simp] theorem State.setCq_task_ (k : Nat) (x : List CqRec) (j : Nat) : (s.setCq k x).task j = s.task j := Eq.trans rfl rfl
@[simp] theorem State.setCq_rt_ (k : Nat) (x : List CqRec) (j : Nat) : (s.setCq k x).rt j = s.rt j := Eq.trans rfl rfl
@[simp] theorem State.setCq_dir_ (k : Nat) (x : List CqRec) (j : Nat) : (s.setCq k x).dir j = s.dir j := Eq.trans rfl rfl
@[simp] theorem State.setCq_gm_ (k : Nat) (x : List CqRec) (j : Nat) : (s.setCq k x).gm j = s.gm j := Eq.trans rfl rfl
@[simp] theorem State.setCq_mxe_ (k : Nat) (x : List CqRec) (j : Nat) : (s.setCq k x).mxe j = s.mxe j := Eq.trans rfl rfl
@[simp] theorem State.setCq_cur_ (k : Nat) (x : List CqRec) (j : Nat) : (s.setCq k x).cur j = s.cur j := Eq.trans rfl rfl
@[simp] theorem State.setCq_mctx_ (k : Nat) (x : List CqRec) (j : Nat) : (s.setCq k x).mctx j = s.mctx j := Eq.trans rfl rfl
@[simp] theorem State.setCq_ring_ (k : Nat) (x : List CqRec) (j : Nat) : (s.setCq k x).ring j = s.ring j := Eq.trans rfl rfl
@[simp] theorem State.setCq_una_ (k : Nat) (x : List CqRec) (j : Nat) : (s.setCq k x).una j = s.una j := Eq.trans rfl rfl
@[simp] theorem State.setCq_tfe_ (k : Nat) (x : List CqRec) (j : Nat) : (s.setCq k x).tfe j = s.tfe j := Eq.trans rfl rfl
@[simp] theorem State.setCq_rtr_ (k : Nat) (x : List CqRec) (j : Nat) : (s.setCq k x).rtr j = s.rtr j := Eq.trans rfl rfl
@[simp] theorem State.setCq_ms_ (k : Nat) (x : List CqRec) (j : Nat) : (s.setCq k x).ms j = s.ms j := Eq.trans rfl rfl
@[simp] theorem State.setCq_port_ (k : Nat) (x : List CqRec) (j : Nat) : (s.setCq k x).port j = s.port j := Eq.trans rfl rfl
@[simp] theorem State.setCq_lamp_ (k : Nat) (x : List CqRec) (j : Nat) : (s.setCq k x).lamp j = s.lamp j := Eq.trans rfl rfl
@[simp] theorem State.setCq_gr_ (k : Nat) (x : List CqRec) (j : Nat) : (s.setCq k x).gr j = s.gr j := Eq.trans rfl rfl
@[simp] theorem State.setCq_reg (k : Nat) (x : List CqRec) (a : Nat) : (s.setCq k x).reg a = s.reg a := Eq.trans rfl rfl
@[simp] theorem State.setCq_fld (k : Nat) (x : List CqRec) (f : Fld) : (s.setCq k x).fld f = s.fld f := Eq.trans rfl rfl
@[simp] theorem State.setCq_sub (k : Nat) (x : List CqRec) (a w i : Nat) : (s.setCq k x).sub a w i = s.sub a w i := Eq.trans rfl rfl
@[simp] theorem State.setCq_rdByte (k : Nat) (x : List CqRec) (j : Nat) : (s.setCq k x).rdByte j = s.rdByte j := Eq.trans rfl rfl
@[simp] theorem State.setCq_cq_same (k : Nat) (x : List CqRec) : (s.setCq k x).cq k = x := by
  simp [State.setCq, State.cq]
theorem State.setCq_cq_ne (k : Nat) (x : List CqRec) {j : Nat} (h : j ≠ k) : (s.setCq k x).cq j = s.cq j := by
  simp [State.setCq, State.cq, SMap.get_put_ne _ _ _ _ h]

/-! ### setTfe -/

@[simp] theorem State.setTfe_pending (k : Nat) (x : TfeSt) : (s.setTfe k x).pending = s.pending := Eq.trans rfl rfl
@[simp] theorem State.setTfe_now (k : Nat) (x : TfeSt) : (s.setTfe k x).now = s.now := Eq.trans rfl rfl
@[simp] theorem State.setTfe_free (k : Nat) (x : TfeSt) : (s.setTfe k x).free = s.free := Eq.trans rfl rfl
@[simp] theorem State.setTfe_out (k : Nat) (x : TfeSt) : (s.setTfe k x).out = s.out := Eq.trans rfl rfl
@[simp] theorem State.setTfe_mode (k : Nat) (x : TfeSt) : (s.setTfe k x).mode = s.mode := Eq.trans rfl rfl
@[simp] theorem State.setTfe_drip (k : Nat) (x : TfeSt) : (s.setTfe k x).drip = s.drip := Eq.trans rfl rfl
@[simp] theorem State.setTfe_csr (k : Nat) (x : TfeSt) : (s.setTfe k x).csr = s.csr := Eq.trans rfl rfl
@[simp] theorem State.setTfe_mem (k : Nat) (x : TfeSt) : (s.setTfe k x).mem = s.mem := Eq.trans rfl rfl
@[simp] theorem State.setTfe_poison (k : Nat) (x : TfeSt) : (s.setTfe k x).poison = s.poison := Eq.trans rfl rfl
@[simp] theorem State.setTfe_gpoison (k : Nat) (x : TfeSt) : (s.setTfe k x).gpoison = s.gpoison := Eq.trans rfl rfl
@[simp] theorem State.setTfe_ueLog (k : Nat) (x : TfeSt) : (s.setTfe k x).ueLog = s.ueLog := Eq.trans rfl rfl
@[simp] theorem State.setTfe_zeroed (k : Nat) (x : TfeSt) : (s.setTfe k x).zeroed = s.zeroed := Eq.trans rfl rfl
@[simp] theorem State.setTfe_force (k : Nat) (x : TfeSt) : (s.setTfe k x).force = s.force := Eq.trans rfl rfl
@[simp] theorem State.setTfe_ctxs (k : Nat) (x : TfeSt) : (s.setTfe k x).ctxs = s.ctxs := Eq.trans rfl rfl
@[simp] theorem State.setTfe_cores (k : Nat) (x : TfeSt) : (s.setTfe k x).cores = s.cores := Eq.trans rfl rfl
@[simp] theorem State.setTfe_tasks (k : Nat) (x : TfeSt) : (s.setTfe k x).tasks = s.tasks := Eq.trans rfl rfl
@[simp] theorem State.setTfe_rts (k : Nat) (x : TfeSt) : (s.setTfe k x).rts = s.rts := Eq.trans rfl rfl
@[simp] theorem State.setTfe_dirs (k : Nat) (x : TfeSt) : (s.setTfe k x).dirs = s.dirs := Eq.trans rfl rfl
@[simp] theorem State.setTfe_gms (k : Nat) (x : TfeSt) : (s.setTfe k x).gms = s.gms := Eq.trans rfl rfl
@[simp] theorem State.setTfe_mxes (k : Nat) (x : TfeSt) : (s.setTfe k x).mxes = s.mxes := Eq.trans rfl rfl
@[simp] theorem State.setTfe_curs (k : Nat) (x : TfeSt) : (s.setTfe k x).curs = s.curs := Eq.trans rfl rfl
@[simp] theorem State.setTfe_mctxs (k : Nat) (x : TfeSt) : (s.setTfe k x).mctxs = s.mctxs := Eq.trans rfl rfl
@[simp] theorem State.setTfe_net (k : Nat) (x : TfeSt) : (s.setTfe k x).net = s.net := Eq.trans rfl rfl
@[simp] theorem State.setTfe_answers (k : Nat) (x : TfeSt) : (s.setTfe k x).answers = s.answers := Eq.trans rfl rfl
@[simp] theorem State.setTfe_crets (k : Nat) (x : TfeSt) : (s.setTfe k x).crets = s.crets := Eq.trans rfl rfl
@[simp] theorem State.setTfe_rings (k : Nat) (x : TfeSt) : (s.setTfe k x).rings = s.rings := Eq.trans rfl rfl
@[simp] theorem State.setTfe_unans (k : Nat) (x : TfeSt) : (s.setTfe k x).unans = s.unans := Eq.trans rfl rfl
@[simp] theorem State.setTfe_cqs (k : Nat) (x : TfeSt) : (s.setTfe k x).cqs = s.cqs := Eq.trans rfl rfl
@[simp] theorem State.setTfe_turns (k : Nat) (x : TfeSt) : (s.setTfe k x).turns = s.turns := Eq.trans rfl rfl
@[simp] theorem State.setTfe_pkts (k : Nat) (x : TfeSt) : (s.setTfe k x).pkts = s.pkts := Eq.trans rfl rfl
@[simp] theorem State.setTfe_rtrs (k : Nat) (x : TfeSt) : (s.setTfe k x).rtrs = s.rtrs := Eq.trans rfl rfl
@[simp] theorem State.setTfe_sv (k : Nat) (x : TfeSt) : (s.setTfe k x).sv = s.sv := Eq.trans rfl rfl
@[simp] theorem State.setTfe_mss (k : Nat) (x : TfeSt) : (s.setTfe k x).mss = s.mss := Eq.trans rfl rfl
@[simp] theorem State.setTfe_ports (k : Nat) (x : TfeSt) : (s.setTfe k x).ports = s.ports := Eq.trans rfl rfl
@[simp] theorem State.setTfe_lamps (k : Nat) (x : TfeSt) : (s.setTfe k x).lamps = s.lamps := Eq.trans rfl rfl
@[simp] theorem State.setTfe_ptp (k : Nat) (x : TfeSt) : (s.setTfe k x).ptp = s.ptp := Eq.trans rfl rfl
@[simp] theorem State.setTfe_mrs (k : Nat) (x : TfeSt) : (s.setTfe k x).mrs = s.mrs := Eq.trans rfl rfl
@[simp] theorem State.setTfe_host (k : Nat) (x : TfeSt) : (s.setTfe k x).host = s.host := Eq.trans rfl rfl
@[simp] theorem State.setTfe_sec (k : Nat) (x : TfeSt) : (s.setTfe k x).sec = s.sec := Eq.trans rfl rfl
@[simp] theorem State.setTfe_boot (k : Nat) (x : TfeSt) : (s.setTfe k x).boot = s.boot := Eq.trans rfl rfl
@[simp] theorem State.setTfe_tst (k : Nat) (x : TfeSt) : (s.setTfe k x).tst = s.tst := Eq.trans rfl rfl
@[simp] theorem State.setTfe_fr (k : Nat) (x : TfeSt) : (s.setTfe k x).fr = s.fr := Eq.trans rfl rfl
@[simp] theorem State.setTfe_pwr (k : Nat) (x : TfeSt) : (s.setTfe k x).pwr = s.pwr := Eq.trans rfl rfl
@[simp] theorem State.setTfe_greset (k : Nat) (x : TfeSt) : (s.setTfe k x).greset = s.greset := Eq.trans rfl rfl
@[simp] theorem State.setTfe_bud_ (k : Nat) (x : TfeSt) (j : Nat) : (s.setTfe k x).bud j = s.bud j := Eq.trans rfl rfl
@[simp] theorem State.setTfe_ctx_ (k : Nat) (x : TfeSt) (j : Nat) : (s.setTfe k x).ctx j = s.ctx j := Eq.trans rfl rfl
@[simp] theorem State.setTfe_core_ (k : Nat) (x : TfeSt) (j : Nat) : (s.setTfe k x).core j = s.core j := Eq.trans rfl rfl
@[simp] theorem State.setTfe_task_ (k : Nat) (x : TfeSt) (j : Nat) : (s.setTfe k x).task j = s.task j := Eq.trans rfl rfl
@[simp] theorem State.setTfe_rt_ (k : Nat) (x : TfeSt) (j : Nat) : (s.setTfe k x).rt j = s.rt j := Eq.trans rfl rfl
@[simp] theorem State.setTfe_dir_ (k : Nat) (x : TfeSt) (j : Nat) : (s.setTfe k x).dir j = s.dir j := Eq.trans rfl rfl
@[simp] theorem State.setTfe_gm_ (k : Nat) (x : TfeSt) (j : Nat) : (s.setTfe k x).gm j = s.gm j := Eq.trans rfl rfl
@[simp] theorem State.setTfe_mxe_ (k : Nat) (x : TfeSt) (j : Nat) : (s.setTfe k x).mxe j = s.mxe j := Eq.trans rfl rfl
@[simp] theorem State.setTfe_cur_ (k : Nat) (x : TfeSt) (j : Nat) : (s.setTfe k x).cur j = s.cur j := Eq.trans rfl rfl
@[simp] theorem State.setTfe_mctx_ (k : Nat) (x : TfeSt) (j : Nat) : (s.setTfe k x).mctx j = s.mctx j := Eq.trans rfl rfl
@[simp] theorem State.setTfe_ring_ (k : Nat) (x : TfeSt) (j : Nat) : (s.setTfe k x).ring j = s.ring j := Eq.trans rfl rfl
@[simp] theorem State.setTfe_una_ (k : Nat) (x : TfeSt) (j : Nat) : (s.setTfe k x).una j = s.una j := Eq.trans rfl rfl
@[simp] theorem State.setTfe_cq_ (k : Nat) (x : TfeSt) (j : Nat) : (s.setTfe k x).cq j = s.cq j := Eq.trans rfl rfl
@[simp] theorem State.setTfe_rtr_ (k : Nat) (x : TfeSt) (j : Nat) : (s.setTfe k x).rtr j = s.rtr j := Eq.trans rfl rfl
@[simp] theorem State.setTfe_ms_ (k : Nat) (x : TfeSt) (j : Nat) : (s.setTfe k x).ms j = s.ms j := Eq.trans rfl rfl
@[simp] theorem State.setTfe_port_ (k : Nat) (x : TfeSt) (j : Nat) : (s.setTfe k x).port j = s.port j := Eq.trans rfl rfl
@[simp] theorem State.setTfe_lamp_ (k : Nat) (x : TfeSt) (j : Nat) : (s.setTfe k x).lamp j = s.lamp j := Eq.trans rfl rfl
@[simp] theorem State.setTfe_gr_ (k : Nat) (x : TfeSt) (j : Nat) : (s.setTfe k x).gr j = s.gr j := Eq.trans rfl rfl
@[simp] theorem State.setTfe_reg (k : Nat) (x : TfeSt) (a : Nat) : (s.setTfe k x).reg a = s.reg a := Eq.trans rfl rfl
@[simp] theorem State.setTfe_fld (k : Nat) (x : TfeSt) (f : Fld) : (s.setTfe k x).fld f = s.fld f := Eq.trans rfl rfl
@[simp] theorem State.setTfe_sub (k : Nat) (x : TfeSt) (a w i : Nat) : (s.setTfe k x).sub a w i = s.sub a w i := Eq.trans rfl rfl
@[simp] theorem State.setTfe_rdByte (k : Nat) (x : TfeSt) (j : Nat) : (s.setTfe k x).rdByte j = s.rdByte j := Eq.trans rfl rfl
@[simp] theorem State.setTfe_tfe_same (k : Nat) (x : TfeSt) : (s.setTfe k x).tfe k = x := by
  simp [State.setTfe, State.tfe]
theorem State.setTfe_tfe_ne (k : Nat) (x : TfeSt) {j : Nat} (h : j ≠ k) : (s.setTfe k x).tfe j = s.tfe j := by
  simp [State.setTfe, State.tfe, SMap.get_put_ne _ _ _ _ h]

/-! ### setRtr -/

@[simp] theorem State.setRtr_pending (k : Nat) (x : RtrSt) : (s.setRtr k x).pending = s.pending := Eq.trans rfl rfl
@[simp] theorem State.setRtr_now (k : Nat) (x : RtrSt) : (s.setRtr k x).now = s.now := Eq.trans rfl rfl
@[simp] theorem State.setRtr_free (k : Nat) (x : RtrSt) : (s.setRtr k x).free = s.free := Eq.trans rfl rfl
@[simp] theorem State.setRtr_out (k : Nat) (x : RtrSt) : (s.setRtr k x).out = s.out := Eq.trans rfl rfl
@[simp] theorem State.setRtr_mode (k : Nat) (x : RtrSt) : (s.setRtr k x).mode = s.mode := Eq.trans rfl rfl
@[simp] theorem State.setRtr_drip (k : Nat) (x : RtrSt) : (s.setRtr k x).drip = s.drip := Eq.trans rfl rfl
@[simp] theorem State.setRtr_csr (k : Nat) (x : RtrSt) : (s.setRtr k x).csr = s.csr := Eq.trans rfl rfl
@[simp] theorem State.setRtr_mem (k : Nat) (x : RtrSt) : (s.setRtr k x).mem = s.mem := Eq.trans rfl rfl
@[simp] theorem State.setRtr_poison (k : Nat) (x : RtrSt) : (s.setRtr k x).poison = s.poison := Eq.trans rfl rfl
@[simp] theorem State.setRtr_gpoison (k : Nat) (x : RtrSt) : (s.setRtr k x).gpoison = s.gpoison := Eq.trans rfl rfl
@[simp] theorem State.setRtr_ueLog (k : Nat) (x : RtrSt) : (s.setRtr k x).ueLog = s.ueLog := Eq.trans rfl rfl
@[simp] theorem State.setRtr_zeroed (k : Nat) (x : RtrSt) : (s.setRtr k x).zeroed = s.zeroed := Eq.trans rfl rfl
@[simp] theorem State.setRtr_force (k : Nat) (x : RtrSt) : (s.setRtr k x).force = s.force := Eq.trans rfl rfl
@[simp] theorem State.setRtr_ctxs (k : Nat) (x : RtrSt) : (s.setRtr k x).ctxs = s.ctxs := Eq.trans rfl rfl
@[simp] theorem State.setRtr_cores (k : Nat) (x : RtrSt) : (s.setRtr k x).cores = s.cores := Eq.trans rfl rfl
@[simp] theorem State.setRtr_tasks (k : Nat) (x : RtrSt) : (s.setRtr k x).tasks = s.tasks := Eq.trans rfl rfl
@[simp] theorem State.setRtr_rts (k : Nat) (x : RtrSt) : (s.setRtr k x).rts = s.rts := Eq.trans rfl rfl
@[simp] theorem State.setRtr_dirs (k : Nat) (x : RtrSt) : (s.setRtr k x).dirs = s.dirs := Eq.trans rfl rfl
@[simp] theorem State.setRtr_gms (k : Nat) (x : RtrSt) : (s.setRtr k x).gms = s.gms := Eq.trans rfl rfl
@[simp] theorem State.setRtr_mxes (k : Nat) (x : RtrSt) : (s.setRtr k x).mxes = s.mxes := Eq.trans rfl rfl
@[simp] theorem State.setRtr_curs (k : Nat) (x : RtrSt) : (s.setRtr k x).curs = s.curs := Eq.trans rfl rfl
@[simp] theorem State.setRtr_mctxs (k : Nat) (x : RtrSt) : (s.setRtr k x).mctxs = s.mctxs := Eq.trans rfl rfl
@[simp] theorem State.setRtr_net (k : Nat) (x : RtrSt) : (s.setRtr k x).net = s.net := Eq.trans rfl rfl
@[simp] theorem State.setRtr_answers (k : Nat) (x : RtrSt) : (s.setRtr k x).answers = s.answers := Eq.trans rfl rfl
@[simp] theorem State.setRtr_crets (k : Nat) (x : RtrSt) : (s.setRtr k x).crets = s.crets := Eq.trans rfl rfl
@[simp] theorem State.setRtr_rings (k : Nat) (x : RtrSt) : (s.setRtr k x).rings = s.rings := Eq.trans rfl rfl
@[simp] theorem State.setRtr_unans (k : Nat) (x : RtrSt) : (s.setRtr k x).unans = s.unans := Eq.trans rfl rfl
@[simp] theorem State.setRtr_cqs (k : Nat) (x : RtrSt) : (s.setRtr k x).cqs = s.cqs := Eq.trans rfl rfl
@[simp] theorem State.setRtr_turns (k : Nat) (x : RtrSt) : (s.setRtr k x).turns = s.turns := Eq.trans rfl rfl
@[simp] theorem State.setRtr_tfes (k : Nat) (x : RtrSt) : (s.setRtr k x).tfes = s.tfes := Eq.trans rfl rfl
@[simp] theorem State.setRtr_pkts (k : Nat) (x : RtrSt) : (s.setRtr k x).pkts = s.pkts := Eq.trans rfl rfl
@[simp] theorem State.setRtr_sv (k : Nat) (x : RtrSt) : (s.setRtr k x).sv = s.sv := Eq.trans rfl rfl
@[simp] theorem State.setRtr_mss (k : Nat) (x : RtrSt) : (s.setRtr k x).mss = s.mss := Eq.trans rfl rfl
@[simp] theorem State.setRtr_ports (k : Nat) (x : RtrSt) : (s.setRtr k x).ports = s.ports := Eq.trans rfl rfl
@[simp] theorem State.setRtr_lamps (k : Nat) (x : RtrSt) : (s.setRtr k x).lamps = s.lamps := Eq.trans rfl rfl
@[simp] theorem State.setRtr_ptp (k : Nat) (x : RtrSt) : (s.setRtr k x).ptp = s.ptp := Eq.trans rfl rfl
@[simp] theorem State.setRtr_mrs (k : Nat) (x : RtrSt) : (s.setRtr k x).mrs = s.mrs := Eq.trans rfl rfl
@[simp] theorem State.setRtr_host (k : Nat) (x : RtrSt) : (s.setRtr k x).host = s.host := Eq.trans rfl rfl
@[simp] theorem State.setRtr_sec (k : Nat) (x : RtrSt) : (s.setRtr k x).sec = s.sec := Eq.trans rfl rfl
@[simp] theorem State.setRtr_boot (k : Nat) (x : RtrSt) : (s.setRtr k x).boot = s.boot := Eq.trans rfl rfl
@[simp] theorem State.setRtr_tst (k : Nat) (x : RtrSt) : (s.setRtr k x).tst = s.tst := Eq.trans rfl rfl
@[simp] theorem State.setRtr_fr (k : Nat) (x : RtrSt) : (s.setRtr k x).fr = s.fr := Eq.trans rfl rfl
@[simp] theorem State.setRtr_pwr (k : Nat) (x : RtrSt) : (s.setRtr k x).pwr = s.pwr := Eq.trans rfl rfl
@[simp] theorem State.setRtr_greset (k : Nat) (x : RtrSt) : (s.setRtr k x).greset = s.greset := Eq.trans rfl rfl
@[simp] theorem State.setRtr_bud_ (k : Nat) (x : RtrSt) (j : Nat) : (s.setRtr k x).bud j = s.bud j := Eq.trans rfl rfl
@[simp] theorem State.setRtr_ctx_ (k : Nat) (x : RtrSt) (j : Nat) : (s.setRtr k x).ctx j = s.ctx j := Eq.trans rfl rfl
@[simp] theorem State.setRtr_core_ (k : Nat) (x : RtrSt) (j : Nat) : (s.setRtr k x).core j = s.core j := Eq.trans rfl rfl
@[simp] theorem State.setRtr_task_ (k : Nat) (x : RtrSt) (j : Nat) : (s.setRtr k x).task j = s.task j := Eq.trans rfl rfl
@[simp] theorem State.setRtr_rt_ (k : Nat) (x : RtrSt) (j : Nat) : (s.setRtr k x).rt j = s.rt j := Eq.trans rfl rfl
@[simp] theorem State.setRtr_dir_ (k : Nat) (x : RtrSt) (j : Nat) : (s.setRtr k x).dir j = s.dir j := Eq.trans rfl rfl
@[simp] theorem State.setRtr_gm_ (k : Nat) (x : RtrSt) (j : Nat) : (s.setRtr k x).gm j = s.gm j := Eq.trans rfl rfl
@[simp] theorem State.setRtr_mxe_ (k : Nat) (x : RtrSt) (j : Nat) : (s.setRtr k x).mxe j = s.mxe j := Eq.trans rfl rfl
@[simp] theorem State.setRtr_cur_ (k : Nat) (x : RtrSt) (j : Nat) : (s.setRtr k x).cur j = s.cur j := Eq.trans rfl rfl
@[simp] theorem State.setRtr_mctx_ (k : Nat) (x : RtrSt) (j : Nat) : (s.setRtr k x).mctx j = s.mctx j := Eq.trans rfl rfl
@[simp] theorem State.setRtr_ring_ (k : Nat) (x : RtrSt) (j : Nat) : (s.setRtr k x).ring j = s.ring j := Eq.trans rfl rfl
@[simp] theorem State.setRtr_una_ (k : Nat) (x : RtrSt) (j : Nat) : (s.setRtr k x).una j = s.una j := Eq.trans rfl rfl
@[simp] theorem State.setRtr_cq_ (k : Nat) (x : RtrSt) (j : Nat) : (s.setRtr k x).cq j = s.cq j := Eq.trans rfl rfl
@[simp] theorem State.setRtr_tfe_ (k : Nat) (x : RtrSt) (j : Nat) : (s.setRtr k x).tfe j = s.tfe j := Eq.trans rfl rfl
@[simp] theorem State.setRtr_ms_ (k : Nat) (x : RtrSt) (j : Nat) : (s.setRtr k x).ms j = s.ms j := Eq.trans rfl rfl
@[simp] theorem State.setRtr_port_ (k : Nat) (x : RtrSt) (j : Nat) : (s.setRtr k x).port j = s.port j := Eq.trans rfl rfl
@[simp] theorem State.setRtr_lamp_ (k : Nat) (x : RtrSt) (j : Nat) : (s.setRtr k x).lamp j = s.lamp j := Eq.trans rfl rfl
@[simp] theorem State.setRtr_gr_ (k : Nat) (x : RtrSt) (j : Nat) : (s.setRtr k x).gr j = s.gr j := Eq.trans rfl rfl
@[simp] theorem State.setRtr_reg (k : Nat) (x : RtrSt) (a : Nat) : (s.setRtr k x).reg a = s.reg a := Eq.trans rfl rfl
@[simp] theorem State.setRtr_fld (k : Nat) (x : RtrSt) (f : Fld) : (s.setRtr k x).fld f = s.fld f := Eq.trans rfl rfl
@[simp] theorem State.setRtr_sub (k : Nat) (x : RtrSt) (a w i : Nat) : (s.setRtr k x).sub a w i = s.sub a w i := Eq.trans rfl rfl
@[simp] theorem State.setRtr_rdByte (k : Nat) (x : RtrSt) (j : Nat) : (s.setRtr k x).rdByte j = s.rdByte j := Eq.trans rfl rfl
@[simp] theorem State.setRtr_rtr_same (k : Nat) (x : RtrSt) : (s.setRtr k x).rtr k = x := by
  simp [State.setRtr, State.rtr]
theorem State.setRtr_rtr_ne (k : Nat) (x : RtrSt) {j : Nat} (h : j ≠ k) : (s.setRtr k x).rtr j = s.rtr j := by
  simp [State.setRtr, State.rtr, SMap.get_put_ne _ _ _ _ h]

/-! ### setMs -/

@[simp] theorem State.setMs_pending (k : Nat) (x : MsSt) : (s.setMs k x).pending = s.pending := Eq.trans rfl rfl
@[simp] theorem State.setMs_now (k : Nat) (x : MsSt) : (s.setMs k x).now = s.now := Eq.trans rfl rfl
@[simp] theorem State.setMs_free (k : Nat) (x : MsSt) : (s.setMs k x).free = s.free := Eq.trans rfl rfl
@[simp] theorem State.setMs_out (k : Nat) (x : MsSt) : (s.setMs k x).out = s.out := Eq.trans rfl rfl
@[simp] theorem State.setMs_mode (k : Nat) (x : MsSt) : (s.setMs k x).mode = s.mode := Eq.trans rfl rfl
@[simp] theorem State.setMs_drip (k : Nat) (x : MsSt) : (s.setMs k x).drip = s.drip := Eq.trans rfl rfl
@[simp] theorem State.setMs_csr (k : Nat) (x : MsSt) : (s.setMs k x).csr = s.csr := Eq.trans rfl rfl
@[simp] theorem State.setMs_mem (k : Nat) (x : MsSt) : (s.setMs k x).mem = s.mem := Eq.trans rfl rfl
@[simp] theorem State.setMs_poison (k : Nat) (x : MsSt) : (s.setMs k x).poison = s.poison := Eq.trans rfl rfl
@[simp] theorem State.setMs_gpoison (k : Nat) (x : MsSt) : (s.setMs k x).gpoison = s.gpoison := Eq.trans rfl rfl
@[simp] theorem State.setMs_ueLog (k : Nat) (x : MsSt) : (s.setMs k x).ueLog = s.ueLog := Eq.trans rfl rfl
@[simp] theorem State.setMs_zeroed (k : Nat) (x : MsSt) : (s.setMs k x).zeroed = s.zeroed := Eq.trans rfl rfl
@[simp] theorem State.setMs_force (k : Nat) (x : MsSt) : (s.setMs k x).force = s.force := Eq.trans rfl rfl
@[simp] theorem State.setMs_ctxs (k : Nat) (x : MsSt) : (s.setMs k x).ctxs = s.ctxs := Eq.trans rfl rfl
@[simp] theorem State.setMs_cores (k : Nat) (x : MsSt) : (s.setMs k x).cores = s.cores := Eq.trans rfl rfl
@[simp] theorem State.setMs_tasks (k : Nat) (x : MsSt) : (s.setMs k x).tasks = s.tasks := Eq.trans rfl rfl
@[simp] theorem State.setMs_rts (k : Nat) (x : MsSt) : (s.setMs k x).rts = s.rts := Eq.trans rfl rfl
@[simp] theorem State.setMs_dirs (k : Nat) (x : MsSt) : (s.setMs k x).dirs = s.dirs := Eq.trans rfl rfl
@[simp] theorem State.setMs_gms (k : Nat) (x : MsSt) : (s.setMs k x).gms = s.gms := Eq.trans rfl rfl
@[simp] theorem State.setMs_mxes (k : Nat) (x : MsSt) : (s.setMs k x).mxes = s.mxes := Eq.trans rfl rfl
@[simp] theorem State.setMs_curs (k : Nat) (x : MsSt) : (s.setMs k x).curs = s.curs := Eq.trans rfl rfl
@[simp] theorem State.setMs_mctxs (k : Nat) (x : MsSt) : (s.setMs k x).mctxs = s.mctxs := Eq.trans rfl rfl
@[simp] theorem State.setMs_net (k : Nat) (x : MsSt) : (s.setMs k x).net = s.net := Eq.trans rfl rfl
@[simp] theorem State.setMs_answers (k : Nat) (x : MsSt) : (s.setMs k x).answers = s.answers := Eq.trans rfl rfl
@[simp] theorem State.setMs_crets (k : Nat) (x : MsSt) : (s.setMs k x).crets = s.crets := Eq.trans rfl rfl
@[simp] theorem State.setMs_rings (k : Nat) (x : MsSt) : (s.setMs k x).rings = s.rings := Eq.trans rfl rfl
@[simp] theorem State.setMs_unans (k : Nat) (x : MsSt) : (s.setMs k x).unans = s.unans := Eq.trans rfl rfl
@[simp] theorem State.setMs_cqs (k : Nat) (x : MsSt) : (s.setMs k x).cqs = s.cqs := Eq.trans rfl rfl
@[simp] theorem State.setMs_turns (k : Nat) (x : MsSt) : (s.setMs k x).turns = s.turns := Eq.trans rfl rfl
@[simp] theorem State.setMs_tfes (k : Nat) (x : MsSt) : (s.setMs k x).tfes = s.tfes := Eq.trans rfl rfl
@[simp] theorem State.setMs_pkts (k : Nat) (x : MsSt) : (s.setMs k x).pkts = s.pkts := Eq.trans rfl rfl
@[simp] theorem State.setMs_rtrs (k : Nat) (x : MsSt) : (s.setMs k x).rtrs = s.rtrs := Eq.trans rfl rfl
@[simp] theorem State.setMs_sv (k : Nat) (x : MsSt) : (s.setMs k x).sv = s.sv := Eq.trans rfl rfl
@[simp] theorem State.setMs_ports (k : Nat) (x : MsSt) : (s.setMs k x).ports = s.ports := Eq.trans rfl rfl
@[simp] theorem State.setMs_lamps (k : Nat) (x : MsSt) : (s.setMs k x).lamps = s.lamps := Eq.trans rfl rfl
@[simp] theorem State.setMs_ptp (k : Nat) (x : MsSt) : (s.setMs k x).ptp = s.ptp := Eq.trans rfl rfl
@[simp] theorem State.setMs_mrs (k : Nat) (x : MsSt) : (s.setMs k x).mrs = s.mrs := Eq.trans rfl rfl
@[simp] theorem State.setMs_host (k : Nat) (x : MsSt) : (s.setMs k x).host = s.host := Eq.trans rfl rfl
@[simp] theorem State.setMs_sec (k : Nat) (x : MsSt) : (s.setMs k x).sec = s.sec := Eq.trans rfl rfl
@[simp] theorem State.setMs_boot (k : Nat) (x : MsSt) : (s.setMs k x).boot = s.boot := Eq.trans rfl rfl
@[simp] theorem State.setMs_tst (k : Nat) (x : MsSt) : (s.setMs k x).tst = s.tst := Eq.trans rfl rfl
@[simp] theorem State.setMs_fr (k : Nat) (x : MsSt) : (s.setMs k x).fr = s.fr := Eq.trans rfl rfl
@[simp] theorem State.setMs_pwr (k : Nat) (x : MsSt) : (s.setMs k x).pwr = s.pwr := Eq.trans rfl rfl
@[simp] theorem State.setMs_greset (k : Nat) (x : MsSt) : (s.setMs k x).greset = s.greset := Eq.trans rfl rfl
@[simp] theorem State.setMs_bud_ (k : Nat) (x : MsSt) (j : Nat) : (s.setMs k x).bud j = s.bud j := Eq.trans rfl rfl
@[simp] theorem State.setMs_ctx_ (k : Nat) (x : MsSt) (j : Nat) : (s.setMs k x).ctx j = s.ctx j := Eq.trans rfl rfl
@[simp] theorem State.setMs_core_ (k : Nat) (x : MsSt) (j : Nat) : (s.setMs k x).core j = s.core j := Eq.trans rfl rfl
@[simp] theorem State.setMs_task_ (k : Nat) (x : MsSt) (j : Nat) : (s.setMs k x).task j = s.task j := Eq.trans rfl rfl
@[simp] theorem State.setMs_rt_ (k : Nat) (x : MsSt) (j : Nat) : (s.setMs k x).rt j = s.rt j := Eq.trans rfl rfl
@[simp] theorem State.setMs_dir_ (k : Nat) (x : MsSt) (j : Nat) : (s.setMs k x).dir j = s.dir j := Eq.trans rfl rfl
@[simp] theorem State.setMs_gm_ (k : Nat) (x : MsSt) (j : Nat) : (s.setMs k x).gm j = s.gm j := Eq.trans rfl rfl
@[simp] theorem State.setMs_mxe_ (k : Nat) (x : MsSt) (j : Nat) : (s.setMs k x).mxe j = s.mxe j := Eq.trans rfl rfl
@[simp] theorem State.setMs_cur_ (k : Nat) (x : MsSt) (j : Nat) : (s.setMs k x).cur j = s.cur j := Eq.trans rfl rfl
@[simp] theorem State.setMs_mctx_ (k : Nat) (x : MsSt) (j : Nat) : (s.setMs k x).mctx j = s.mctx j := Eq.trans rfl rfl
@[simp] theorem State.setMs_ring_ (k : Nat) (x : MsSt) (j : Nat) : (s.setMs k x).ring j = s.ring j := Eq.trans rfl rfl
@[simp] theorem State.setMs_una_ (k : Nat) (x : MsSt) (j : Nat) : (s.setMs k x).una j = s.una j := Eq.trans rfl rfl
@[simp] theorem State.setMs_cq_ (k : Nat) (x : MsSt) (j : Nat) : (s.setMs k x).cq j = s.cq j := Eq.trans rfl rfl
@[simp] theorem State.setMs_tfe_ (k : Nat) (x : MsSt) (j : Nat) : (s.setMs k x).tfe j = s.tfe j := Eq.trans rfl rfl
@[simp] theorem State.setMs_rtr_ (k : Nat) (x : MsSt) (j : Nat) : (s.setMs k x).rtr j = s.rtr j := Eq.trans rfl rfl
@[simp] theorem State.setMs_port_ (k : Nat) (x : MsSt) (j : Nat) : (s.setMs k x).port j = s.port j := Eq.trans rfl rfl
@[simp] theorem State.setMs_lamp_ (k : Nat) (x : MsSt) (j : Nat) : (s.setMs k x).lamp j = s.lamp j := Eq.trans rfl rfl
@[simp] theorem State.setMs_gr_ (k : Nat) (x : MsSt) (j : Nat) : (s.setMs k x).gr j = s.gr j := Eq.trans rfl rfl
@[simp] theorem State.setMs_reg (k : Nat) (x : MsSt) (a : Nat) : (s.setMs k x).reg a = s.reg a := Eq.trans rfl rfl
@[simp] theorem State.setMs_fld (k : Nat) (x : MsSt) (f : Fld) : (s.setMs k x).fld f = s.fld f := Eq.trans rfl rfl
@[simp] theorem State.setMs_sub (k : Nat) (x : MsSt) (a w i : Nat) : (s.setMs k x).sub a w i = s.sub a w i := Eq.trans rfl rfl
@[simp] theorem State.setMs_rdByte (k : Nat) (x : MsSt) (j : Nat) : (s.setMs k x).rdByte j = s.rdByte j := Eq.trans rfl rfl
@[simp] theorem State.setMs_ms_same (k : Nat) (x : MsSt) : (s.setMs k x).ms k = x := by
  simp [State.setMs, State.ms]
theorem State.setMs_ms_ne (k : Nat) (x : MsSt) {j : Nat} (h : j ≠ k) : (s.setMs k x).ms j = s.ms j := by
  simp [State.setMs, State.ms, SMap.get_put_ne _ _ _ _ h]

/-! ### setPort -/

@[simp] theorem State.setPort_pending (k : Nat) (x : PortSt) : (s.setPort k x).pending = s.pending := Eq.trans rfl rfl
@[simp] theorem State.setPort_now (k : Nat) (x : PortSt) : (s.setPort k x).now = s.now := Eq.trans rfl rfl
@[simp] theorem State.setPort_free (k : Nat) (x : PortSt) : (s.setPort k x).free = s.free := Eq.trans rfl rfl
@[simp] theorem State.setPort_out (k : Nat) (x : PortSt) : (s.setPort k x).out = s.out := Eq.trans rfl rfl
@[simp] theorem State.setPort_mode (k : Nat) (x : PortSt) : (s.setPort k x).mode = s.mode := Eq.trans rfl rfl
@[simp] theorem State.setPort_drip (k : Nat) (x : PortSt) : (s.setPort k x).drip = s.drip := Eq.trans rfl rfl
@[simp] theorem State.setPort_csr (k : Nat) (x : PortSt) : (s.setPort k x).csr = s.csr := Eq.trans rfl rfl
@[simp] theorem State.setPort_mem (k : Nat) (x : PortSt) : (s.setPort k x).mem = s.mem := Eq.trans rfl rfl
@[simp] theorem State.setPort_poison (k : Nat) (x : PortSt) : (s.setPort k x).poison = s.poison := Eq.trans rfl rfl
@[simp] theorem State.setPort_gpoison (k : Nat) (x : PortSt) : (s.setPort k x).gpoison = s.gpoison := Eq.trans rfl rfl
@[simp] theorem State.setPort_ueLog (k : Nat) (x : PortSt) : (s.setPort k x).ueLog = s.ueLog := Eq.trans rfl rfl
@[simp] theorem State.setPort_zeroed (k : Nat) (x : PortSt) : (s.setPort k x).zeroed = s.zeroed := Eq.trans rfl rfl
@[simp] theorem State.setPort_force (k : Nat) (x : PortSt) : (s.setPort k x).force = s.force := Eq.trans rfl rfl
@[simp] theorem State.setPort_ctxs (k : Nat) (x : PortSt) : (s.setPort k x).ctxs = s.ctxs := Eq.trans rfl rfl
@[simp] theorem State.setPort_cores (k : Nat) (x : PortSt) : (s.setPort k x).cores = s.cores := Eq.trans rfl rfl
@[simp] theorem State.setPort_tasks (k : Nat) (x : PortSt) : (s.setPort k x).tasks = s.tasks := Eq.trans rfl rfl
@[simp] theorem State.setPort_rts (k : Nat) (x : PortSt) : (s.setPort k x).rts = s.rts := Eq.trans rfl rfl
@[simp] theorem State.setPort_dirs (k : Nat) (x : PortSt) : (s.setPort k x).dirs = s.dirs := Eq.trans rfl rfl
@[simp] theorem State.setPort_gms (k : Nat) (x : PortSt) : (s.setPort k x).gms = s.gms := Eq.trans rfl rfl
@[simp] theorem State.setPort_mxes (k : Nat) (x : PortSt) : (s.setPort k x).mxes = s.mxes := Eq.trans rfl rfl
@[simp] theorem State.setPort_curs (k : Nat) (x : PortSt) : (s.setPort k x).curs = s.curs := Eq.trans rfl rfl
@[simp] theorem State.setPort_mctxs (k : Nat) (x : PortSt) : (s.setPort k x).mctxs = s.mctxs := Eq.trans rfl rfl
@[simp] theorem State.setPort_net (k : Nat) (x : PortSt) : (s.setPort k x).net = s.net := Eq.trans rfl rfl
@[simp] theorem State.setPort_answers (k : Nat) (x : PortSt) : (s.setPort k x).answers = s.answers := Eq.trans rfl rfl
@[simp] theorem State.setPort_crets (k : Nat) (x : PortSt) : (s.setPort k x).crets = s.crets := Eq.trans rfl rfl
@[simp] theorem State.setPort_rings (k : Nat) (x : PortSt) : (s.setPort k x).rings = s.rings := Eq.trans rfl rfl
@[simp] theorem State.setPort_unans (k : Nat) (x : PortSt) : (s.setPort k x).unans = s.unans := Eq.trans rfl rfl
@[simp] theorem State.setPort_cqs (k : Nat) (x : PortSt) : (s.setPort k x).cqs = s.cqs := Eq.trans rfl rfl
@[simp] theorem State.setPort_turns (k : Nat) (x : PortSt) : (s.setPort k x).turns = s.turns := Eq.trans rfl rfl
@[simp] theorem State.setPort_tfes (k : Nat) (x : PortSt) : (s.setPort k x).tfes = s.tfes := Eq.trans rfl rfl
@[simp] theorem State.setPort_pkts (k : Nat) (x : PortSt) : (s.setPort k x).pkts = s.pkts := Eq.trans rfl rfl
@[simp] theorem State.setPort_rtrs (k : Nat) (x : PortSt) : (s.setPort k x).rtrs = s.rtrs := Eq.trans rfl rfl
@[simp] theorem State.setPort_sv (k : Nat) (x : PortSt) : (s.setPort k x).sv = s.sv := Eq.trans rfl rfl
@[simp] theorem State.setPort_mss (k : Nat) (x : PortSt) : (s.setPort k x).mss = s.mss := Eq.trans rfl rfl
@[simp] theorem State.setPort_lamps (k : Nat) (x : PortSt) : (s.setPort k x).lamps = s.lamps := Eq.trans rfl rfl
@[simp] theorem State.setPort_ptp (k : Nat) (x : PortSt) : (s.setPort k x).ptp = s.ptp := Eq.trans rfl rfl
@[simp] theorem State.setPort_mrs (k : Nat) (x : PortSt) : (s.setPort k x).mrs = s.mrs := Eq.trans rfl rfl
@[simp] theorem State.setPort_host (k : Nat) (x : PortSt) : (s.setPort k x).host = s.host := Eq.trans rfl rfl
@[simp] theorem State.setPort_sec (k : Nat) (x : PortSt) : (s.setPort k x).sec = s.sec := Eq.trans rfl rfl
@[simp] theorem State.setPort_boot (k : Nat) (x : PortSt) : (s.setPort k x).boot = s.boot := Eq.trans rfl rfl
@[simp] theorem State.setPort_tst (k : Nat) (x : PortSt) : (s.setPort k x).tst = s.tst := Eq.trans rfl rfl
@[simp] theorem State.setPort_fr (k : Nat) (x : PortSt) : (s.setPort k x).fr = s.fr := Eq.trans rfl rfl
@[simp] theorem State.setPort_pwr (k : Nat) (x : PortSt) : (s.setPort k x).pwr = s.pwr := Eq.trans rfl rfl
@[simp] theorem State.setPort_greset (k : Nat) (x : PortSt) : (s.setPort k x).greset = s.greset := Eq.trans rfl rfl
@[simp] theorem State.setPort_bud_ (k : Nat) (x : PortSt) (j : Nat) : (s.setPort k x).bud j = s.bud j := Eq.trans rfl rfl
@[simp] theorem State.setPort_ctx_ (k : Nat) (x : PortSt) (j : Nat) : (s.setPort k x).ctx j = s.ctx j := Eq.trans rfl rfl
@[simp] theorem State.setPort_core_ (k : Nat) (x : PortSt) (j : Nat) : (s.setPort k x).core j = s.core j := Eq.trans rfl rfl
@[simp] theorem State.setPort_task_ (k : Nat) (x : PortSt) (j : Nat) : (s.setPort k x).task j = s.task j := Eq.trans rfl rfl
@[simp] theorem State.setPort_rt_ (k : Nat) (x : PortSt) (j : Nat) : (s.setPort k x).rt j = s.rt j := Eq.trans rfl rfl
@[simp] theorem State.setPort_dir_ (k : Nat) (x : PortSt) (j : Nat) : (s.setPort k x).dir j = s.dir j := Eq.trans rfl rfl
@[simp] theorem State.setPort_gm_ (k : Nat) (x : PortSt) (j : Nat) : (s.setPort k x).gm j = s.gm j := Eq.trans rfl rfl
@[simp] theorem State.setPort_mxe_ (k : Nat) (x : PortSt) (j : Nat) : (s.setPort k x).mxe j = s.mxe j := Eq.trans rfl rfl
@[simp] theorem State.setPort_cur_ (k : Nat) (x : PortSt) (j : Nat) : (s.setPort k x).cur j = s.cur j := Eq.trans rfl rfl
@[simp] theorem State.setPort_mctx_ (k : Nat) (x : PortSt) (j : Nat) : (s.setPort k x).mctx j = s.mctx j := Eq.trans rfl rfl
@[simp] theorem State.setPort_ring_ (k : Nat) (x : PortSt) (j : Nat) : (s.setPort k x).ring j = s.ring j := Eq.trans rfl rfl
@[simp] theorem State.setPort_una_ (k : Nat) (x : PortSt) (j : Nat) : (s.setPort k x).una j = s.una j := Eq.trans rfl rfl
@[simp] theorem State.setPort_cq_ (k : Nat) (x : PortSt) (j : Nat) : (s.setPort k x).cq j = s.cq j := Eq.trans rfl rfl
@[simp] theorem State.setPort_tfe_ (k : Nat) (x : PortSt) (j : Nat) : (s.setPort k x).tfe j = s.tfe j := Eq.trans rfl rfl
@[simp] theorem State.setPort_rtr_ (k : Nat) (x : PortSt) (j : Nat) : (s.setPort k x).rtr j = s.rtr j := Eq.trans rfl rfl
@[simp] theorem State.setPort_ms_ (k : Nat) (x : PortSt) (j : Nat) : (s.setPort k x).ms j = s.ms j := Eq.trans rfl rfl
@[simp] theorem State.setPort_lamp_ (k : Nat) (x : PortSt) (j : Nat) : (s.setPort k x).lamp j = s.lamp j := Eq.trans rfl rfl
@[simp] theorem State.setPort_gr_ (k : Nat) (x : PortSt) (j : Nat) : (s.setPort k x).gr j = s.gr j := Eq.trans rfl rfl
@[simp] theorem State.setPort_reg (k : Nat) (x : PortSt) (a : Nat) : (s.setPort k x).reg a = s.reg a := Eq.trans rfl rfl
@[simp] theorem State.setPort_fld (k : Nat) (x : PortSt) (f : Fld) : (s.setPort k x).fld f = s.fld f := Eq.trans rfl rfl
@[simp] theorem State.setPort_sub (k : Nat) (x : PortSt) (a w i : Nat) : (s.setPort k x).sub a w i = s.sub a w i := Eq.trans rfl rfl
@[simp] theorem State.setPort_rdByte (k : Nat) (x : PortSt) (j : Nat) : (s.setPort k x).rdByte j = s.rdByte j := Eq.trans rfl rfl
@[simp] theorem State.setPort_port_same (k : Nat) (x : PortSt) : (s.setPort k x).port k = x := by
  simp [State.setPort, State.port]
theorem State.setPort_port_ne (k : Nat) (x : PortSt) {j : Nat} (h : j ≠ k) : (s.setPort k x).port j = s.port j := by
  simp [State.setPort, State.port, SMap.get_put_ne _ _ _ _ h]

/-! ### setGr -/

@[simp] theorem State.setGr_pending (k : Nat) (x : GReset) : (s.setGr k x).pending = s.pending := Eq.trans rfl rfl
@[simp] theorem State.setGr_now (k : Nat) (x : GReset) : (s.setGr k x).now = s.now := Eq.trans rfl rfl
@[simp] theorem State.setGr_free (k : Nat) (x : GReset) : (s.setGr k x).free = s.free := Eq.trans rfl rfl
@[simp] theorem State.setGr_out (k : Nat) (x : GReset) : (s.setGr k x).out = s.out := Eq.trans rfl rfl
@[simp] theorem State.setGr_mode (k : Nat) (x : GReset) : (s.setGr k x).mode = s.mode := Eq.trans rfl rfl
@[simp] theorem State.setGr_drip (k : Nat) (x : GReset) : (s.setGr k x).drip = s.drip := Eq.trans rfl rfl
@[simp] theorem State.setGr_csr (k : Nat) (x : GReset) : (s.setGr k x).csr = s.csr := Eq.trans rfl rfl
@[simp] theorem State.setGr_mem (k : Nat) (x : GReset) : (s.setGr k x).mem = s.mem := Eq.trans rfl rfl
@[simp] theorem State.setGr_poison (k : Nat) (x : GReset) : (s.setGr k x).poison = s.poison := Eq.trans rfl rfl
@[simp] theorem State.setGr_gpoison (k : Nat) (x : GReset) : (s.setGr k x).gpoison = s.gpoison := Eq.trans rfl rfl
@[simp] theorem State.setGr_ueLog (k : Nat) (x : GReset) : (s.setGr k x).ueLog = s.ueLog := Eq.trans rfl rfl
@[simp] theorem State.setGr_zeroed (k : Nat) (x : GReset) : (s.setGr k x).zeroed = s.zeroed := Eq.trans rfl rfl
@[simp] theorem State.setGr_force (k : Nat) (x : GReset) : (s.setGr k x).force = s.force := Eq.trans rfl rfl
@[simp] theorem State.setGr_ctxs (k : Nat) (x : GReset) : (s.setGr k x).ctxs = s.ctxs := Eq.trans rfl rfl
@[simp] theorem State.setGr_cores (k : Nat) (x : GReset) : (s.setGr k x).cores = s.cores := Eq.trans rfl rfl
@[simp] theorem State.setGr_tasks (k : Nat) (x : GReset) : (s.setGr k x).tasks = s.tasks := Eq.trans rfl rfl
@[simp] theorem State.setGr_rts (k : Nat) (x : GReset) : (s.setGr k x).rts = s.rts := Eq.trans rfl rfl
@[simp] theorem State.setGr_dirs (k : Nat) (x : GReset) : (s.setGr k x).dirs = s.dirs := Eq.trans rfl rfl
@[simp] theorem State.setGr_gms (k : Nat) (x : GReset) : (s.setGr k x).gms = s.gms := Eq.trans rfl rfl
@[simp] theorem State.setGr_mxes (k : Nat) (x : GReset) : (s.setGr k x).mxes = s.mxes := Eq.trans rfl rfl
@[simp] theorem State.setGr_curs (k : Nat) (x : GReset) : (s.setGr k x).curs = s.curs := Eq.trans rfl rfl
@[simp] theorem State.setGr_mctxs (k : Nat) (x : GReset) : (s.setGr k x).mctxs = s.mctxs := Eq.trans rfl rfl
@[simp] theorem State.setGr_net (k : Nat) (x : GReset) : (s.setGr k x).net = s.net := Eq.trans rfl rfl
@[simp] theorem State.setGr_answers (k : Nat) (x : GReset) : (s.setGr k x).answers = s.answers := Eq.trans rfl rfl
@[simp] theorem State.setGr_crets (k : Nat) (x : GReset) : (s.setGr k x).crets = s.crets := Eq.trans rfl rfl
@[simp] theorem State.setGr_rings (k : Nat) (x : GReset) : (s.setGr k x).rings = s.rings := Eq.trans rfl rfl
@[simp] theorem State.setGr_unans (k : Nat) (x : GReset) : (s.setGr k x).unans = s.unans := Eq.trans rfl rfl
@[simp] theorem State.setGr_cqs (k : Nat) (x : GReset) : (s.setGr k x).cqs = s.cqs := Eq.trans rfl rfl
@[simp] theorem State.setGr_turns (k : Nat) (x : GReset) : (s.setGr k x).turns = s.turns := Eq.trans rfl rfl
@[simp] theorem State.setGr_tfes (k : Nat) (x : GReset) : (s.setGr k x).tfes = s.tfes := Eq.trans rfl rfl
@[simp] theorem State.setGr_pkts (k : Nat) (x : GReset) : (s.setGr k x).pkts = s.pkts := Eq.trans rfl rfl
@[simp] theorem State.setGr_rtrs (k : Nat) (x : GReset) : (s.setGr k x).rtrs = s.rtrs := Eq.trans rfl rfl
@[simp] theorem State.setGr_sv (k : Nat) (x : GReset) : (s.setGr k x).sv = s.sv := Eq.trans rfl rfl
@[simp] theorem State.setGr_mss (k : Nat) (x : GReset) : (s.setGr k x).mss = s.mss := Eq.trans rfl rfl
@[simp] theorem State.setGr_ports (k : Nat) (x : GReset) : (s.setGr k x).ports = s.ports := Eq.trans rfl rfl
@[simp] theorem State.setGr_lamps (k : Nat) (x : GReset) : (s.setGr k x).lamps = s.lamps := Eq.trans rfl rfl
@[simp] theorem State.setGr_ptp (k : Nat) (x : GReset) : (s.setGr k x).ptp = s.ptp := Eq.trans rfl rfl
@[simp] theorem State.setGr_mrs (k : Nat) (x : GReset) : (s.setGr k x).mrs = s.mrs := Eq.trans rfl rfl
@[simp] theorem State.setGr_host (k : Nat) (x : GReset) : (s.setGr k x).host = s.host := Eq.trans rfl rfl
@[simp] theorem State.setGr_sec (k : Nat) (x : GReset) : (s.setGr k x).sec = s.sec := Eq.trans rfl rfl
@[simp] theorem State.setGr_boot (k : Nat) (x : GReset) : (s.setGr k x).boot = s.boot := Eq.trans rfl rfl
@[simp] theorem State.setGr_tst (k : Nat) (x : GReset) : (s.setGr k x).tst = s.tst := Eq.trans rfl rfl
@[simp] theorem State.setGr_fr (k : Nat) (x : GReset) : (s.setGr k x).fr = s.fr := Eq.trans rfl rfl
@[simp] theorem State.setGr_pwr (k : Nat) (x : GReset) : (s.setGr k x).pwr = s.pwr := Eq.trans rfl rfl
@[simp] theorem State.setGr_bud_ (k : Nat) (x : GReset) (j : Nat) : (s.setGr k x).bud j = s.bud j := Eq.trans rfl rfl
@[simp] theorem State.setGr_ctx_ (k : Nat) (x : GReset) (j : Nat) : (s.setGr k x).ctx j = s.ctx j := Eq.trans rfl rfl
@[simp] theorem State.setGr_core_ (k : Nat) (x : GReset) (j : Nat) : (s.setGr k x).core j = s.core j := Eq.trans rfl rfl
@[simp] theorem State.setGr_task_ (k : Nat) (x : GReset) (j : Nat) : (s.setGr k x).task j = s.task j := Eq.trans rfl rfl
@[simp] theorem State.setGr_rt_ (k : Nat) (x : GReset) (j : Nat) : (s.setGr k x).rt j = s.rt j := Eq.trans rfl rfl
@[simp] theorem State.setGr_dir_ (k : Nat) (x : GReset) (j : Nat) : (s.setGr k x).dir j = s.dir j := Eq.trans rfl rfl
@[simp] theorem State.setGr_gm_ (k : Nat) (x : GReset) (j : Nat) : (s.setGr k x).gm j = s.gm j := Eq.trans rfl rfl
@[simp] theorem State.setGr_mxe_ (k : Nat) (x : GReset) (j : Nat) : (s.setGr k x).mxe j = s.mxe j := Eq.trans rfl rfl
@[simp] theorem State.setGr_cur_ (k : Nat) (x : GReset) (j : Nat) : (s.setGr k x).cur j = s.cur j := Eq.trans rfl rfl
@[simp] theorem State.setGr_mctx_ (k : Nat) (x : GReset) (j : Nat) : (s.setGr k x).mctx j = s.mctx j := Eq.trans rfl rfl
@[simp] theorem State.setGr_ring_ (k : Nat) (x : GReset) (j : Nat) : (s.setGr k x).ring j = s.ring j := Eq.trans rfl rfl
@[simp] theorem State.setGr_una_ (k : Nat) (x : GReset) (j : Nat) : (s.setGr k x).una j = s.una j := Eq.trans rfl rfl
@[simp] theorem State.setGr_cq_ (k : Nat) (x : GReset) (j : Nat) : (s.setGr k x).cq j = s.cq j := Eq.trans rfl rfl
@[simp] theorem State.setGr_tfe_ (k : Nat) (x : GReset) (j : Nat) : (s.setGr k x).tfe j = s.tfe j := Eq.trans rfl rfl
@[simp] theorem State.setGr_rtr_ (k : Nat) (x : GReset) (j : Nat) : (s.setGr k x).rtr j = s.rtr j := Eq.trans rfl rfl
@[simp] theorem State.setGr_ms_ (k : Nat) (x : GReset) (j : Nat) : (s.setGr k x).ms j = s.ms j := Eq.trans rfl rfl
@[simp] theorem State.setGr_port_ (k : Nat) (x : GReset) (j : Nat) : (s.setGr k x).port j = s.port j := Eq.trans rfl rfl
@[simp] theorem State.setGr_lamp_ (k : Nat) (x : GReset) (j : Nat) : (s.setGr k x).lamp j = s.lamp j := Eq.trans rfl rfl
@[simp] theorem State.setGr_reg (k : Nat) (x : GReset) (a : Nat) : (s.setGr k x).reg a = s.reg a := Eq.trans rfl rfl
@[simp] theorem State.setGr_fld (k : Nat) (x : GReset) (f : Fld) : (s.setGr k x).fld f = s.fld f := Eq.trans rfl rfl
@[simp] theorem State.setGr_sub (k : Nat) (x : GReset) (a w i : Nat) : (s.setGr k x).sub a w i = s.sub a w i := Eq.trans rfl rfl
@[simp] theorem State.setGr_rdByte (k : Nat) (x : GReset) (j : Nat) : (s.setGr k x).rdByte j = s.rdByte j := Eq.trans rfl rfl
@[simp] theorem State.setGr_gr_same (k : Nat) (x : GReset) : (s.setGr k x).gr k = x := by
  simp [State.setGr, State.gr]
theorem State.setGr_gr_ne (k : Nat) (x : GReset) {j : Nat} (h : j ≠ k) : (s.setGr k x).gr j = s.gr j := by
  simp [State.setGr, State.gr, SMap.get_put_ne _ _ _ _ h]

/-! ### setLamp -/

@[simp] theorem State.setLamp_pending (k : Nat) (x : LampSt) : (s.setLamp k x).pending = s.pending := Eq.trans rfl rfl
@[simp] theorem State.setLamp_now (k : Nat) (x : LampSt) : (s.setLamp k x).now = s.now := Eq.trans rfl rfl
@[simp] theorem State.setLamp_free (k : Nat) (x : LampSt) : (s.setLamp k x).free = s.free := Eq.trans rfl rfl
@[simp] theorem State.setLamp_out (k : Nat) (x : LampSt) : (s.setLamp k x).out = s.out := Eq.trans rfl rfl
@[simp] theorem State.setLamp_mode (k : Nat) (x : LampSt) : (s.setLamp k x).mode = s.mode := Eq.trans rfl rfl
@[simp] theorem State.setLamp_drip (k : Nat) (x : LampSt) : (s.setLamp k x).drip = s.drip := Eq.trans rfl rfl
@[simp] theorem State.setLamp_csr (k : Nat) (x : LampSt) : (s.setLamp k x).csr = s.csr := Eq.trans rfl rfl
@[simp] theorem State.setLamp_mem (k : Nat) (x : LampSt) : (s.setLamp k x).mem = s.mem := Eq.trans rfl rfl
@[simp] theorem State.setLamp_poison (k : Nat) (x : LampSt) : (s.setLamp k x).poison = s.poison := Eq.trans rfl rfl
@[simp] theorem State.setLamp_gpoison (k : Nat) (x : LampSt) : (s.setLamp k x).gpoison = s.gpoison := Eq.trans rfl rfl
@[simp] theorem State.setLamp_ueLog (k : Nat) (x : LampSt) : (s.setLamp k x).ueLog = s.ueLog := Eq.trans rfl rfl
@[simp] theorem State.setLamp_zeroed (k : Nat) (x : LampSt) : (s.setLamp k x).zeroed = s.zeroed := Eq.trans rfl rfl
@[simp] theorem State.setLamp_force (k : Nat) (x : LampSt) : (s.setLamp k x).force = s.force := Eq.trans rfl rfl
@[simp] theorem State.setLamp_ctxs (k : Nat) (x : LampSt) : (s.setLamp k x).ctxs = s.ctxs := Eq.trans rfl rfl
@[simp] theorem State.setLamp_cores (k : Nat) (x : LampSt) : (s.setLamp k x).cores = s.cores := Eq.trans rfl rfl
@[simp] theorem State.setLamp_tasks (k : Nat) (x : LampSt) : (s.setLamp k x).tasks = s.tasks := Eq.trans rfl rfl
@[simp] theorem State.setLamp_rts (k : Nat) (x : LampSt) : (s.setLamp k x).rts = s.rts := Eq.trans rfl rfl
@[simp] theorem State.setLamp_dirs (k : Nat) (x : LampSt) : (s.setLamp k x).dirs = s.dirs := Eq.trans rfl rfl
@[simp] theorem State.setLamp_gms (k : Nat) (x : LampSt) : (s.setLamp k x).gms = s.gms := Eq.trans rfl rfl
@[simp] theorem State.setLamp_mxes (k : Nat) (x : LampSt) : (s.setLamp k x).mxes = s.mxes := Eq.trans rfl rfl
@[simp] theorem State.setLamp_curs (k : Nat) (x : LampSt) : (s.setLamp k x).curs = s.curs := Eq.trans rfl rfl
@[simp] theorem State.setLamp_mctxs (k : Nat) (x : LampSt) : (s.setLamp k x).mctxs = s.mctxs := Eq.trans rfl rfl
@[simp] theorem State.setLamp_net (k : Nat) (x : LampSt) : (s.setLamp k x).net = s.net := Eq.trans rfl rfl
@[simp] theorem State.setLamp_answers (k : Nat) (x : LampSt) : (s.setLamp k x).answers = s.answers := Eq.trans rfl rfl
@[simp] theorem State.setLamp_crets (k : Nat) (x : LampSt) : (s.setLamp k x).crets = s.crets := Eq.trans rfl rfl
@[simp] theorem State.setLamp_rings (k : Nat) (x : LampSt) : (s.setLamp k x).rings = s.rings := Eq.trans rfl rfl
@[simp] theorem State.setLamp_unans (k : Nat) (x : LampSt) : (s.setLamp k x).unans = s.unans := Eq.trans rfl rfl
@[simp] theorem State.setLamp_cqs (k : Nat) (x : LampSt) : (s.setLamp k x).cqs = s.cqs := Eq.trans rfl rfl
@[simp] theorem State.setLamp_turns (k : Nat) (x : LampSt) : (s.setLamp k x).turns = s.turns := Eq.trans rfl rfl
@[simp] theorem State.setLamp_tfes (k : Nat) (x : LampSt) : (s.setLamp k x).tfes = s.tfes := Eq.trans rfl rfl
@[simp] theorem State.setLamp_pkts (k : Nat) (x : LampSt) : (s.setLamp k x).pkts = s.pkts := Eq.trans rfl rfl
@[simp] theorem State.setLamp_rtrs (k : Nat) (x : LampSt) : (s.setLamp k x).rtrs = s.rtrs := Eq.trans rfl rfl
@[simp] theorem State.setLamp_sv (k : Nat) (x : LampSt) : (s.setLamp k x).sv = s.sv := Eq.trans rfl rfl
@[simp] theorem State.setLamp_mss (k : Nat) (x : LampSt) : (s.setLamp k x).mss = s.mss := Eq.trans rfl rfl
@[simp] theorem State.setLamp_ports (k : Nat) (x : LampSt) : (s.setLamp k x).ports = s.ports := Eq.trans rfl rfl
@[simp] theorem State.setLamp_ptp (k : Nat) (x : LampSt) : (s.setLamp k x).ptp = s.ptp := Eq.trans rfl rfl
@[simp] theorem State.setLamp_mrs (k : Nat) (x : LampSt) : (s.setLamp k x).mrs = s.mrs := Eq.trans rfl rfl
@[simp] theorem State.setLamp_host (k : Nat) (x : LampSt) : (s.setLamp k x).host = s.host := Eq.trans rfl rfl
@[simp] theorem State.setLamp_sec (k : Nat) (x : LampSt) : (s.setLamp k x).sec = s.sec := Eq.trans rfl rfl
@[simp] theorem State.setLamp_boot (k : Nat) (x : LampSt) : (s.setLamp k x).boot = s.boot := Eq.trans rfl rfl
@[simp] theorem State.setLamp_tst (k : Nat) (x : LampSt) : (s.setLamp k x).tst = s.tst := Eq.trans rfl rfl
@[simp] theorem State.setLamp_fr (k : Nat) (x : LampSt) : (s.setLamp k x).fr = s.fr := Eq.trans rfl rfl
@[simp] theorem State.setLamp_pwr (k : Nat) (x : LampSt) : (s.setLamp k x).pwr = s.pwr := Eq.trans rfl rfl
@[simp] theorem State.setLamp_greset (k : Nat) (x : LampSt) : (s.setLamp k x).greset = s.greset := Eq.trans rfl rfl
@[simp] theorem State.setLamp_bud_ (k : Nat) (x : LampSt) (j : Nat) : (s.setLamp k x).bud j = s.bud j := Eq.trans rfl rfl
@[simp] theorem State.setLamp_ctx_ (k : Nat) (x : LampSt) (j : Nat) : (s.setLamp k x).ctx j = s.ctx j := Eq.trans rfl rfl
@[simp] theorem State.setLamp_core_ (k : Nat) (x : LampSt) (j : Nat) : (s.setLamp k x).core j = s.core j := Eq.trans rfl rfl
@[simp] theorem State.setLamp_task_ (k : Nat) (x : LampSt) (j : Nat) : (s.setLamp k x).task j = s.task j := Eq.trans rfl rfl
@[simp] theorem State.setLamp_rt_ (k : Nat) (x : LampSt) (j : Nat) : (s.setLamp k x).rt j = s.rt j := Eq.trans rfl rfl
@[simp] theorem State.setLamp_dir_ (k : Nat) (x : LampSt) (j : Nat) : (s.setLamp k x).dir j = s.dir j := Eq.trans rfl rfl
@[simp] theorem State.setLamp_gm_ (k : Nat) (x : LampSt) (j : Nat) : (s.setLamp k x).gm j = s.gm j := Eq.trans rfl rfl
@[simp] theorem State.setLamp_mxe_ (k : Nat) (x : LampSt) (j : Nat) : (s.setLamp k x).mxe j = s.mxe j := Eq.trans rfl rfl
@[simp] theorem State.setLamp_cur_ (k : Nat) (x : LampSt) (j : Nat) : (s.setLamp k x).cur j = s.cur j := Eq.trans rfl rfl
@[simp] theorem State.setLamp_mctx_ (k : Nat) (x : LampSt) (j : Nat) : (s.setLamp k x).mctx j = s.mctx j := Eq.trans rfl rfl
@[simp] theorem State.setLamp_ring_ (k : Nat) (x : LampSt) (j : Nat) : (s.setLamp k x).ring j = s.ring j := Eq.trans rfl rfl
@[simp] theorem State.setLamp_una_ (k : Nat) (x : LampSt) (j : Nat) : (s.setLamp k x).una j = s.una j := Eq.trans rfl rfl
@[simp] theorem State.setLamp_cq_ (k : Nat) (x : LampSt) (j : Nat) : (s.setLamp k x).cq j = s.cq j := Eq.trans rfl rfl
@[simp] theorem State.setLamp_tfe_ (k : Nat) (x : LampSt) (j : Nat) : (s.setLamp k x).tfe j = s.tfe j := Eq.trans rfl rfl
@[simp] theorem State.setLamp_rtr_ (k : Nat) (x : LampSt) (j : Nat) : (s.setLamp k x).rtr j = s.rtr j := Eq.trans rfl rfl
@[simp] theorem State.setLamp_ms_ (k : Nat) (x : LampSt) (j : Nat) : (s.setLamp k x).ms j = s.ms j := Eq.trans rfl rfl
@[simp] theorem State.setLamp_port_ (k : Nat) (x : LampSt) (j : Nat) : (s.setLamp k x).port j = s.port j := Eq.trans rfl rfl
@[simp] theorem State.setLamp_gr_ (k : Nat) (x : LampSt) (j : Nat) : (s.setLamp k x).gr j = s.gr j := Eq.trans rfl rfl
@[simp] theorem State.setLamp_reg (k : Nat) (x : LampSt) (a : Nat) : (s.setLamp k x).reg a = s.reg a := Eq.trans rfl rfl
@[simp] theorem State.setLamp_fld (k : Nat) (x : LampSt) (f : Fld) : (s.setLamp k x).fld f = s.fld f := Eq.trans rfl rfl
@[simp] theorem State.setLamp_sub (k : Nat) (x : LampSt) (a w i : Nat) : (s.setLamp k x).sub a w i = s.sub a w i := Eq.trans rfl rfl
@[simp] theorem State.setLamp_rdByte (k : Nat) (x : LampSt) (j : Nat) : (s.setLamp k x).rdByte j = s.rdByte j := Eq.trans rfl rfl
@[simp] theorem State.setLamp_lamp_same (k : Nat) (x : LampSt) : (s.setLamp k x).lamp k = x := by
  simp [State.setLamp, State.lamp]
theorem State.setLamp_lamp_ne (k : Nat) (x : LampSt) {j : Nat} (h : j ≠ k) : (s.setLamp k x).lamp j = s.lamp j := by
  simp [State.setLamp, State.lamp, SMap.get_put_ne _ _ _ _ h]

/-! ### setReg -/

@[simp] theorem State.setReg_pending (a : Nat) (w : Word) : (s.setReg a w).pending = s.pending := Eq.trans rfl rfl
@[simp] theorem State.setReg_now (a : Nat) (w : Word) : (s.setReg a w).now = s.now := Eq.trans rfl rfl
@[simp] theorem State.setReg_free (a : Nat) (w : Word) : (s.setReg a w).free = s.free := Eq.trans rfl rfl
@[simp] theorem State.setReg_out (a : Nat) (w : Word) : (s.setReg a w).out = s.out := Eq.trans rfl rfl
@[simp] theorem State.setReg_mode (a : Nat) (w : Word) : (s.setReg a w).mode = s.mode := Eq.trans rfl rfl
@[simp] theorem State.setReg_drip (a : Nat) (w : Word) : (s.setReg a w).drip = s.drip := Eq.trans rfl rfl
@[simp] theorem State.setReg_mem (a : Nat) (w : Word) : (s.setReg a w).mem = s.mem := Eq.trans rfl rfl
@[simp] theorem State.setReg_poison (a : Nat) (w : Word) : (s.setReg a w).poison = s.poison := Eq.trans rfl rfl
@[simp] theorem State.setReg_gpoison (a : Nat) (w : Word) : (s.setReg a w).gpoison = s.gpoison := Eq.trans rfl rfl
@[simp] theorem State.setReg_ueLog (a : Nat) (w : Word) : (s.setReg a w).ueLog = s.ueLog := Eq.trans rfl rfl
@[simp] theorem State.setReg_zeroed (a : Nat) (w : Word) : (s.setReg a w).zeroed = s.zeroed := Eq.trans rfl rfl
@[simp] theorem State.setReg_force (a : Nat) (w : Word) : (s.setReg a w).force = s.force := Eq.trans rfl rfl
@[simp] theorem State.setReg_ctxs (a : Nat) (w : Word) : (s.setReg a w).ctxs = s.ctxs := Eq.trans rfl rfl
@[simp] theorem State.setReg_cores (a : Nat) (w : Word) : (s.setReg a w).cores = s.cores := Eq.trans rfl rfl
@[simp] theorem State.setReg_tasks (a : Nat) (w : Word) : (s.setReg a w).tasks = s.tasks := Eq.trans rfl rfl
@[simp] theorem State.setReg_rts (a : Nat) (w : Word) : (s.setReg a w).rts = s.rts := Eq.trans rfl rfl
@[simp] theorem State.setReg_dirs (a : Nat) (w : Word) : (s.setReg a w).dirs = s.dirs := Eq.trans rfl rfl
@[simp] theorem State.setReg_gms (a : Nat) (w : Word) : (s.setReg a w).gms = s.gms := Eq.trans rfl rfl
@[simp] theorem State.setReg_mxes (a : Nat) (w : Word) : (s.setReg a w).mxes = s.mxes := Eq.trans rfl rfl
@[simp] theorem State.setReg_curs (a : Nat) (w : Word) : (s.setReg a w).curs = s.curs := Eq.trans rfl rfl
@[simp] theorem State.setReg_mctxs (a : Nat) (w : Word) : (s.setReg a w).mctxs = s.mctxs := Eq.trans rfl rfl
@[simp] theorem State.setReg_net (a : Nat) (w : Word) : (s.setReg a w).net = s.net := Eq.trans rfl rfl
@[simp] theorem State.setReg_answers (a : Nat) (w : Word) : (s.setReg a w).answers = s.answers := Eq.trans rfl rfl
@[simp] theorem State.setReg_crets (a : Nat) (w : Word) : (s.setReg a w).crets = s.crets := Eq.trans rfl rfl
@[simp] theorem State.setReg_rings (a : Nat) (w : Word) : (s.setReg a w).rings = s.rings := Eq.trans rfl rfl
@[simp] theorem State.setReg_unans (a : Nat) (w : Word) : (s.setReg a w).unans = s.unans := Eq.trans rfl rfl
@[simp] theorem State.setReg_cqs (a : Nat) (w : Word) : (s.setReg a w).cqs = s.cqs := Eq.trans rfl rfl
@[simp] theorem State.setReg_turns (a : Nat) (w : Word) : (s.setReg a w).turns = s.turns := Eq.trans rfl rfl
@[simp] theorem State.setReg_tfes (a : Nat) (w : Word) : (s.setReg a w).tfes = s.tfes := Eq.trans rfl rfl
@[simp] theorem State.setReg_pkts (a : Nat) (w : Word) : (s.setReg a w).pkts = s.pkts := Eq.trans rfl rfl
@[simp] theorem State.setReg_rtrs (a : Nat) (w : Word) : (s.setReg a w).rtrs = s.rtrs := Eq.trans rfl rfl
@[simp] theorem State.setReg_sv (a : Nat) (w : Word) : (s.setReg a w).sv = s.sv := Eq.trans rfl rfl
@[simp] theorem State.setReg_mss (a : Nat) (w : Word) : (s.setReg a w).mss = s.mss := Eq.trans rfl rfl
@[simp] theorem State.setReg_ports (a : Nat) (w : Word) : (s.setReg a w).ports = s.ports := Eq.trans rfl rfl
@[simp] theorem State.setReg_lamps (a : Nat) (w : Word) : (s.setReg a w).lamps = s.lamps := Eq.trans rfl rfl
@[simp] theorem State.setReg_ptp (a : Nat) (w : Word) : (s.setReg a w).ptp = s.ptp := Eq.trans rfl rfl
@[simp] theorem State.setReg_mrs (a : Nat) (w : Word) : (s.setReg a w).mrs = s.mrs := Eq.trans rfl rfl
@[simp] theorem State.setReg_host (a : Nat) (w : Word) : (s.setReg a w).host = s.host := Eq.trans rfl rfl
@[simp] theorem State.setReg_sec (a : Nat) (w : Word) : (s.setReg a w).sec = s.sec := Eq.trans rfl rfl
@[simp] theorem State.setReg_boot (a : Nat) (w : Word) : (s.setReg a w).boot = s.boot := Eq.trans rfl rfl
@[simp] theorem State.setReg_tst (a : Nat) (w : Word) : (s.setReg a w).tst = s.tst := Eq.trans rfl rfl
@[simp] theorem State.setReg_fr (a : Nat) (w : Word) : (s.setReg a w).fr = s.fr := Eq.trans rfl rfl
@[simp] theorem State.setReg_pwr (a : Nat) (w : Word) : (s.setReg a w).pwr = s.pwr := Eq.trans rfl rfl
@[simp] theorem State.setReg_greset (a : Nat) (w : Word) : (s.setReg a w).greset = s.greset := Eq.trans rfl rfl
@[simp] theorem State.setReg_bud_ (a : Nat) (w : Word) (j : Nat) : (s.setReg a w).bud j = s.bud j := Eq.trans rfl rfl
@[simp] theorem State.setReg_ctx_ (a : Nat) (w : Word) (j : Nat) : (s.setReg a w).ctx j = s.ctx j := Eq.trans rfl rfl
@[simp] theorem State.setReg_core_ (a : Nat) (w : Word) (j : Nat) : (s.setReg a w).core j = s.core j := Eq.trans rfl rfl
@[simp] theorem State.setReg_task_ (a : Nat) (w : Word) (j : Nat) : (s.setReg a w).task j = s.task j := Eq.trans rfl rfl
@[simp] theorem State.setReg_rt_ (a : Nat) (w : Word) (j : Nat) : (s.setReg a w).rt j = s.rt j := Eq.trans rfl rfl
@[simp] theorem State.setReg_dir_ (a : Nat) (w : Word) (j : Nat) : (s.setReg a w).dir j = s.dir j := Eq.trans rfl rfl
@[simp] theorem State.setReg_gm_ (a : Nat) (w : Word) (j : Nat) : (s.setReg a w).gm j = s.gm j := Eq.trans rfl rfl
@[simp] theorem State.setReg_mxe_ (a : Nat) (w : Word) (j : Nat) : (s.setReg a w).mxe j = s.mxe j := Eq.trans rfl rfl
@[simp] theorem State.setReg_cur_ (a : Nat) (w : Word) (j : Nat) : (s.setReg a w).cur j = s.cur j := Eq.trans rfl rfl
@[simp] theorem State.setReg_mctx_ (a : Nat) (w : Word) (j : Nat) : (s.setReg a w).mctx j = s.mctx j := Eq.trans rfl rfl
@[simp] theorem State.setReg_ring_ (a : Nat) (w : Word) (j : Nat) : (s.setReg a w).ring j = s.ring j := Eq.trans rfl rfl
@[simp] theorem State.setReg_una_ (a : Nat) (w : Word) (j : Nat) : (s.setReg a w).una j = s.una j := Eq.trans rfl rfl
@[simp] theorem State.setReg_cq_ (a : Nat) (w : Word) (j : Nat) : (s.setReg a w).cq j = s.cq j := Eq.trans rfl rfl
@[simp] theorem State.setReg_tfe_ (a : Nat) (w : Word) (j : Nat) : (s.setReg a w).tfe j = s.tfe j := Eq.trans rfl rfl
@[simp] theorem State.setReg_rtr_ (a : Nat) (w : Word) (j : Nat) : (s.setReg a w).rtr j = s.rtr j := Eq.trans rfl rfl
@[simp] theorem State.setReg_ms_ (a : Nat) (w : Word) (j : Nat) : (s.setReg a w).ms j = s.ms j := Eq.trans rfl rfl
@[simp] theorem State.setReg_port_ (a : Nat) (w : Word) (j : Nat) : (s.setReg a w).port j = s.port j := Eq.trans rfl rfl
@[simp] theorem State.setReg_lamp_ (a : Nat) (w : Word) (j : Nat) : (s.setReg a w).lamp j = s.lamp j := Eq.trans rfl rfl
@[simp] theorem State.setReg_gr_ (a : Nat) (w : Word) (j : Nat) : (s.setReg a w).gr j = s.gr j := Eq.trans rfl rfl
@[simp] theorem State.setReg_rdByte (a : Nat) (w : Word) (j : Nat) : (s.setReg a w).rdByte j = s.rdByte j := Eq.trans rfl rfl

/-! ### setFld -/

@[simp] theorem State.setFld_pending (f : Fld) (n : Nat) : (s.setFld f n).pending = s.pending := Eq.trans rfl rfl
@[simp] theorem State.setFld_now (f : Fld) (n : Nat) : (s.setFld f n).now = s.now := Eq.trans rfl rfl
@[simp] theorem State.setFld_free (f : Fld) (n : Nat) : (s.setFld f n).free = s.free := Eq.trans rfl rfl
@[simp] theorem State.setFld_out (f : Fld) (n : Nat) : (s.setFld f n).out = s.out := Eq.trans rfl rfl
@[simp] theorem State.setFld_mode (f : Fld) (n : Nat) : (s.setFld f n).mode = s.mode := Eq.trans rfl rfl
@[simp] theorem State.setFld_drip (f : Fld) (n : Nat) : (s.setFld f n).drip = s.drip := Eq.trans rfl rfl
@[simp] theorem State.setFld_mem (f : Fld) (n : Nat) : (s.setFld f n).mem = s.mem := Eq.trans rfl rfl
@[simp] theorem State.setFld_poison (f : Fld) (n : Nat) : (s.setFld f n).poison = s.poison := Eq.trans rfl rfl
@[simp] theorem State.setFld_gpoison (f : Fld) (n : Nat) : (s.setFld f n).gpoison = s.gpoison := Eq.trans rfl rfl
@[simp] theorem State.setFld_ueLog (f : Fld) (n : Nat) : (s.setFld f n).ueLog = s.ueLog := Eq.trans rfl rfl
@[simp] theorem State.setFld_zeroed (f : Fld) (n : Nat) : (s.setFld f n).zeroed = s.zeroed := Eq.trans rfl rfl
@[simp] theorem State.setFld_force (f : Fld) (n : Nat) : (s.setFld f n).force = s.force := Eq.trans rfl rfl
@[simp] theorem State.setFld_ctxs (f : Fld) (n : Nat) : (s.setFld f n).ctxs = s.ctxs := Eq.trans rfl rfl
@[simp] theorem State.setFld_cores (f : Fld) (n : Nat) : (s.setFld f n).cores = s.cores := Eq.trans rfl rfl
@[simp] theorem State.setFld_tasks (f : Fld) (n : Nat) : (s.setFld f n).tasks = s.tasks := Eq.trans rfl rfl
@[simp] theorem State.setFld_rts (f : Fld) (n : Nat) : (s.setFld f n).rts = s.rts := Eq.trans rfl rfl
@[simp] theorem State.setFld_dirs (f : Fld) (n : Nat) : (s.setFld f n).dirs = s.dirs := Eq.trans rfl rfl
@[simp] theorem State.setFld_gms (f : Fld) (n : Nat) : (s.setFld f n).gms = s.gms := Eq.trans rfl rfl
@[simp] theorem State.setFld_mxes (f : Fld) (n : Nat) : (s.setFld f n).mxes = s.mxes := Eq.trans rfl rfl
@[simp] theorem State.setFld_curs (f : Fld) (n : Nat) : (s.setFld f n).curs = s.curs := Eq.trans rfl rfl
@[simp] theorem State.setFld_mctxs (f : Fld) (n : Nat) : (s.setFld f n).mctxs = s.mctxs := Eq.trans rfl rfl
@[simp] theorem State.setFld_net (f : Fld) (n : Nat) : (s.setFld f n).net = s.net := Eq.trans rfl rfl
@[simp] theorem State.setFld_answers (f : Fld) (n : Nat) : (s.setFld f n).answers = s.answers := Eq.trans rfl rfl
@[simp] theorem State.setFld_crets (f : Fld) (n : Nat) : (s.setFld f n).crets = s.crets := Eq.trans rfl rfl
@[simp] theorem State.setFld_rings (f : Fld) (n : Nat) : (s.setFld f n).rings = s.rings := Eq.trans rfl rfl
@[simp] theorem State.setFld_unans (f : Fld) (n : Nat) : (s.setFld f n).unans = s.unans := Eq.trans rfl rfl
@[simp] theorem State.setFld_cqs (f : Fld) (n : Nat) : (s.setFld f n).cqs = s.cqs := Eq.trans rfl rfl
@[simp] theorem State.setFld_turns (f : Fld) (n : Nat) : (s.setFld f n).turns = s.turns := Eq.trans rfl rfl
@[simp] theorem State.setFld_tfes (f : Fld) (n : Nat) : (s.setFld f n).tfes = s.tfes := Eq.trans rfl rfl
@[simp] theorem State.setFld_pkts (f : Fld) (n : Nat) : (s.setFld f n).pkts = s.pkts := Eq.trans rfl rfl
@[simp] theorem State.setFld_rtrs (f : Fld) (n : Nat) : (s.setFld f n).rtrs = s.rtrs := Eq.trans rfl rfl
@[simp] theorem State.setFld_sv (f : Fld) (n : Nat) : (s.setFld f n).sv = s.sv := Eq.trans rfl rfl
@[simp] theorem State.setFld_mss (f : Fld) (n : Nat) : (s.setFld f n).mss = s.mss := Eq.trans rfl rfl
@[simp] theorem State.setFld_ports (f : Fld) (n : Nat) : (s.setFld f n).ports = s.ports := Eq.trans rfl rfl
@[simp] theorem State.setFld_lamps (f : Fld) (n : Nat) : (s.setFld f n).lamps = s.lamps := Eq.trans rfl rfl
@[simp] theorem State.setFld_ptp (f : Fld) (n : Nat) : (s.setFld f n).ptp = s.ptp := Eq.trans rfl rfl
@[simp] theorem State.setFld_mrs (f : Fld) (n : Nat) : (s.setFld f n).mrs = s.mrs := Eq.trans rfl rfl
@[simp] theorem State.setFld_host (f : Fld) (n : Nat) : (s.setFld f n).host = s.host := Eq.trans rfl rfl
@[simp] theorem State.setFld_sec (f : Fld) (n : Nat) : (s.setFld f n).sec = s.sec := Eq.trans rfl rfl
@[simp] theorem State.setFld_boot (f : Fld) (n : Nat) : (s.setFld f n).boot = s.boot := Eq.trans rfl rfl
@[simp] theorem State.setFld_tst (f : Fld) (n : Nat) : (s.setFld f n).tst = s.tst := Eq.trans rfl rfl
@[simp] theorem State.setFld_fr (f : Fld) (n : Nat) : (s.setFld f n).fr = s.fr := Eq.trans rfl rfl
@[simp] theorem State.setFld_pwr (f : Fld) (n : Nat) : (s.setFld f n).pwr = s.pwr := Eq.trans rfl rfl
@[simp] theorem State.setFld_greset (f : Fld) (n : Nat) : (s.setFld f n).greset = s.greset := Eq.trans rfl rfl
@[simp] theorem State.setFld_bud_ (f : Fld) (n : Nat) (j : Nat) : (s.setFld f n).bud j = s.bud j := Eq.trans rfl rfl
@[simp] theorem State.setFld_ctx_ (f : Fld) (n : Nat) (j : Nat) : (s.setFld f n).ctx j = s.ctx j := Eq.trans rfl rfl
@[simp] theorem State.setFld_core_ (f : Fld) (n : Nat) (j : Nat) : (s.setFld f n).core j = s.core j := Eq.trans rfl rfl
@[simp] theorem State.setFld_task_ (f : Fld) (n : Nat) (j : Nat) : (s.setFld f n).task j = s.task j := Eq.trans rfl rfl
@[simp] theorem State.setFld_rt_ (f : Fld) (n : Nat) (j : Nat) : (s.setFld f n).rt j = s.rt j := Eq.trans rfl rfl
@[simp] theorem State.setFld_dir_ (f : Fld) (n : Nat) (j : Nat) : (s.setFld f n).dir j = s.dir j := Eq.trans rfl rfl
@[simp] theorem State.setFld_gm_ (f : Fld) (n : Nat) (j : Nat) : (s.setFld f n).gm j = s.gm j := Eq.trans rfl rfl
@[simp] theorem State.setFld_mxe_ (f : Fld) (n : Nat) (j : Nat) : (s.setFld f n).mxe j = s.mxe j := Eq.trans rfl rfl
@[simp] theorem State.setFld_cur_ (f : Fld) (n : Nat) (j : Nat) : (s.setFld f n).cur j = s.cur j := Eq.trans rfl rfl
@[simp] theorem State.setFld_mctx_ (f : Fld) (n : Nat) (j : Nat) : (s.setFld f n).mctx j = s.mctx j := Eq.trans rfl rfl
@[simp] theorem State.setFld_ring_ (f : Fld) (n : Nat) (j : Nat) : (s.setFld f n).ring j = s.ring j := Eq.trans rfl rfl
@[simp] theorem State.setFld_una_ (f : Fld) (n : Nat) (j : Nat) : (s.setFld f n).una j = s.una j := Eq.trans rfl rfl
@[simp] theorem State.setFld_cq_ (f : Fld) (n : Nat) (j : Nat) : (s.setFld f n).cq j = s.cq j := Eq.trans rfl rfl
@[simp] theorem State.setFld_tfe_ (f : Fld) (n : Nat) (j : Nat) : (s.setFld f n).tfe j = s.tfe j := Eq.trans rfl rfl
@[simp] theorem State.setFld_rtr_ (f : Fld) (n : Nat) (j : Nat) : (s.setFld f n).rtr j = s.rtr j := Eq.trans rfl rfl
@[simp] theorem State.setFld_ms_ (f : Fld) (n : Nat) (j : Nat) : (s.setFld f n).ms j = s.ms j := Eq.trans rfl rfl
@[simp] theorem State.setFld_port_ (f : Fld) (n : Nat) (j : Nat) : (s.setFld f n).port j = s.port j := Eq.trans rfl rfl
@[simp] theorem State.setFld_lamp_ (f : Fld) (n : Nat) (j : Nat) : (s.setFld f n).lamp j = s.lamp j := Eq.trans rfl rfl
@[simp] theorem State.setFld_gr_ (f : Fld) (n : Nat) (j : Nat) : (s.setFld f n).gr j = s.gr j := Eq.trans rfl rfl
@[simp] theorem State.setFld_rdByte (f : Fld) (n : Nat) (j : Nat) : (s.setFld f n).rdByte j = s.rdByte j := Eq.trans rfl rfl

/-! ### setSub -/

@[simp] theorem State.setSub_pending (a w k n : Nat) : (s.setSub a w k n).pending = s.pending := Eq.trans rfl rfl
@[simp] theorem State.setSub_now (a w k n : Nat) : (s.setSub a w k n).now = s.now := Eq.trans rfl rfl
@[simp] theorem State.setSub_free (a w k n : Nat) : (s.setSub a w k n).free = s.free := Eq.trans rfl rfl
@[simp] theorem State.setSub_out (a w k n : Nat) : (s.setSub a w k n).out = s.out := Eq.trans rfl rfl
@[simp] theorem State.setSub_mode (a w k n : Nat) : (s.setSub a w k n).mode = s.mode := Eq.trans rfl rfl
@[simp] theorem State.setSub_drip (a w k n : Nat) : (s.setSub a w k n).drip = s.drip := Eq.trans rfl rfl
@[simp] theorem State.setSub_mem (a w k n : Nat) : (s.setSub a w k n).mem = s.mem := Eq.trans rfl rfl
@[simp] theorem State.setSub_poison (a w k n : Nat) : (s.setSub a w k n).poison = s.poison := Eq.trans rfl rfl
@[simp] theorem State.setSub_gpoison (a w k n : Nat) : (s.setSub a w k n).gpoison = s.gpoison := Eq.trans rfl rfl
@[simp] theorem State.setSub_ueLog (a w k n : Nat) : (s.setSub a w k n).ueLog = s.ueLog := Eq.trans rfl rfl
@[simp] theorem State.setSub_zeroed (a w k n : Nat) : (s.setSub a w k n).zeroed = s.zeroed := Eq.trans rfl rfl
@[simp] theorem State.setSub_force (a w k n : Nat) : (s.setSub a w k n).force = s.force := Eq.trans rfl rfl
@[simp] theorem State.setSub_ctxs (a w k n : Nat) : (s.setSub a w k n).ctxs = s.ctxs := Eq.trans rfl rfl
@[simp] theorem State.setSub_cores (a w k n : Nat) : (s.setSub a w k n).cores = s.cores := Eq.trans rfl rfl
@[simp] theorem State.setSub_tasks (a w k n : Nat) : (s.setSub a w k n).tasks = s.tasks := Eq.trans rfl rfl
@[simp] theorem State.setSub_rts (a w k n : Nat) : (s.setSub a w k n).rts = s.rts := Eq.trans rfl rfl
@[simp] theorem State.setSub_dirs (a w k n : Nat) : (s.setSub a w k n).dirs = s.dirs := Eq.trans rfl rfl
@[simp] theorem State.setSub_gms (a w k n : Nat) : (s.setSub a w k n).gms = s.gms := Eq.trans rfl rfl
@[simp] theorem State.setSub_mxes (a w k n : Nat) : (s.setSub a w k n).mxes = s.mxes := Eq.trans rfl rfl
@[simp] theorem State.setSub_curs (a w k n : Nat) : (s.setSub a w k n).curs = s.curs := Eq.trans rfl rfl
@[simp] theorem State.setSub_mctxs (a w k n : Nat) : (s.setSub a w k n).mctxs = s.mctxs := Eq.trans rfl rfl
@[simp] theorem State.setSub_net (a w k n : Nat) : (s.setSub a w k n).net = s.net := Eq.trans rfl rfl
@[simp] theorem State.setSub_answers (a w k n : Nat) : (s.setSub a w k n).answers = s.answers := Eq.trans rfl rfl
@[simp] theorem State.setSub_crets (a w k n : Nat) : (s.setSub a w k n).crets = s.crets := Eq.trans rfl rfl
@[simp] theorem State.setSub_rings (a w k n : Nat) : (s.setSub a w k n).rings = s.rings := Eq.trans rfl rfl
@[simp] theorem State.setSub_unans (a w k n : Nat) : (s.setSub a w k n).unans = s.unans := Eq.trans rfl rfl
@[simp] theorem State.setSub_cqs (a w k n : Nat) : (s.setSub a w k n).cqs = s.cqs := Eq.trans rfl rfl
@[simp] theorem State.setSub_turns (a w k n : Nat) : (s.setSub a w k n).turns = s.turns := Eq.trans rfl rfl
@[simp] theorem State.setSub_tfes (a w k n : Nat) : (s.setSub a w k n).tfes = s.tfes := Eq.trans rfl rfl
@[simp] theorem State.setSub_pkts (a w k n : Nat) : (s.setSub a w k n).pkts = s.pkts := Eq.trans rfl rfl
@[simp] theorem State.setSub_rtrs (a w k n : Nat) : (s.setSub a w k n).rtrs = s.rtrs := Eq.trans rfl rfl
@[simp] theorem State.setSub_sv (a w k n : Nat) : (s.setSub a w k n).sv = s.sv := Eq.trans rfl rfl
@[simp] theorem State.setSub_mss (a w k n : Nat) : (s.setSub a w k n).mss = s.mss := Eq.trans rfl rfl
@[simp] theorem State.setSub_ports (a w k n : Nat) : (s.setSub a w k n).ports = s.ports := Eq.trans rfl rfl
@[simp] theorem State.setSub_lamps (a w k n : Nat) : (s.setSub a w k n).lamps = s.lamps := Eq.trans rfl rfl
@[simp] theorem State.setSub_ptp (a w k n : Nat) : (s.setSub a w k n).ptp = s.ptp := Eq.trans rfl rfl
@[simp] theorem State.setSub_mrs (a w k n : Nat) : (s.setSub a w k n).mrs = s.mrs := Eq.trans rfl rfl
@[simp] theorem State.setSub_host (a w k n : Nat) : (s.setSub a w k n).host = s.host := Eq.trans rfl rfl
@[simp] theorem State.setSub_sec (a w k n : Nat) : (s.setSub a w k n).sec = s.sec := Eq.trans rfl rfl
@[simp] theorem State.setSub_boot (a w k n : Nat) : (s.setSub a w k n).boot = s.boot := Eq.trans rfl rfl
@[simp] theorem State.setSub_tst (a w k n : Nat) : (s.setSub a w k n).tst = s.tst := Eq.trans rfl rfl
@[simp] theorem State.setSub_fr (a w k n : Nat) : (s.setSub a w k n).fr = s.fr := Eq.trans rfl rfl
@[simp] theorem State.setSub_pwr (a w k n : Nat) : (s.setSub a w k n).pwr = s.pwr := Eq.trans rfl rfl
@[simp] theorem State.setSub_greset (a w k n : Nat) : (s.setSub a w k n).greset = s.greset := Eq.trans rfl rfl
@[simp] theorem State.setSub_bud_ (a w k n : Nat) (j : Nat) : (s.setSub a w k n).bud j = s.bud j := Eq.trans rfl rfl
@[simp] theorem State.setSub_ctx_ (a w k n : Nat) (j : Nat) : (s.setSub a w k n).ctx j = s.ctx j := Eq.trans rfl rfl
@[simp] theorem State.setSub_core_ (a w k n : Nat) (j : Nat) : (s.setSub a w k n).core j = s.core j := Eq.trans rfl rfl
@[simp] theorem State.setSub_task_ (a w k n : Nat) (j : Nat) : (s.setSub a w k n).task j = s.task j := Eq.trans rfl rfl
@[simp] theorem State.setSub_rt_ (a w k n : Nat) (j : Nat) : (s.setSub a w k n).rt j = s.rt j := Eq.trans rfl rfl
@[simp] theorem State.setSub_dir_ (a w k n : Nat) (j : Nat) : (s.setSub a w k n).dir j = s.dir j := Eq.trans rfl rfl
@[simp] theorem State.setSub_gm_ (a w k n : Nat) (j : Nat) : (s.setSub a w k n).gm j = s.gm j := Eq.trans rfl rfl
@[simp] theorem State.setSub_mxe_ (a w k n : Nat) (j : Nat) : (s.setSub a w k n).mxe j = s.mxe j := Eq.trans rfl rfl
@[simp] theorem State.setSub_cur_ (a w k n : Nat) (j : Nat) : (s.setSub a w k n).cur j = s.cur j := Eq.trans rfl rfl
@[simp] theorem State.setSub_mctx_ (a w k n : Nat) (j : Nat) : (s.setSub a w k n).mctx j = s.mctx j := Eq.trans rfl rfl
@[simp] theorem State.setSub_ring_ (a w k n : Nat) (j : Nat) : (s.setSub a w k n).ring j = s.ring j := Eq.trans rfl rfl
@[simp] theorem State.setSub_una_ (a w k n : Nat) (j : Nat) : (s.setSub a w k n).una j = s.una j := Eq.trans rfl rfl
@[simp] theorem State.setSub_cq_ (a w k n : Nat) (j : Nat) : (s.setSub a w k n).cq j = s.cq j := Eq.trans rfl rfl
@[simp] theorem State.setSub_tfe_ (a w k n : Nat) (j : Nat) : (s.setSub a w k n).tfe j = s.tfe j := Eq.trans rfl rfl
@[simp] theorem State.setSub_rtr_ (a w k n : Nat) (j : Nat) : (s.setSub a w k n).rtr j = s.rtr j := Eq.trans rfl rfl
@[simp] theorem State.setSub_ms_ (a w k n : Nat) (j : Nat) : (s.setSub a w k n).ms j = s.ms j := Eq.trans rfl rfl
@[simp] theorem State.setSub_port_ (a w k n : Nat) (j : Nat) : (s.setSub a w k n).port j = s.port j := Eq.trans rfl rfl
@[simp] theorem State.setSub_lamp_ (a w k n : Nat) (j : Nat) : (s.setSub a w k n).lamp j = s.lamp j := Eq.trans rfl rfl
@[simp] theorem State.setSub_gr_ (a w k n : Nat) (j : Nat) : (s.setSub a w k n).gr j = s.gr j := Eq.trans rfl rfl
@[simp] theorem State.setSub_rdByte (a w k n : Nat) (j : Nat) : (s.setSub a w k n).rdByte j = s.rdByte j := Eq.trans rfl rfl

/-! ### addFld -/

@[simp] theorem State.addFld_pending (f : Fld) (n : Nat) : (s.addFld f n).pending = s.pending := Eq.trans rfl rfl
@[simp] theorem State.addFld_now (f : Fld) (n : Nat) : (s.addFld f n).now = s.now := Eq.trans rfl rfl
@[simp] theorem State.addFld_free (f : Fld) (n : Nat) : (s.addFld f n).free = s.free := Eq.trans rfl rfl
@[simp] theorem State.addFld_out (f : Fld) (n : Nat) : (s.addFld f n).out = s.out := Eq.trans rfl rfl
@[simp] theorem State.addFld_mode (f : Fld) (n : Nat) : (s.addFld f n).mode = s.mode := Eq.trans rfl rfl
@[simp] theorem State.addFld_drip (f : Fld) (n : Nat) : (s.addFld f n).drip = s.drip := Eq.trans rfl rfl
@[simp] theorem State.addFld_mem (f : Fld) (n : Nat) : (s.addFld f n).mem = s.mem := Eq.trans rfl rfl
@[simp] theorem State.addFld_poison (f : Fld) (n : Nat) : (s.addFld f n).poison = s.poison := Eq.trans rfl rfl
@[simp] theorem State.addFld_gpoison (f : Fld) (n : Nat) : (s.addFld f n).gpoison = s.gpoison := Eq.trans rfl rfl
@[simp] theorem State.addFld_ueLog (f : Fld) (n : Nat) : (s.addFld f n).ueLog = s.ueLog := Eq.trans rfl rfl
@[simp] theorem State.addFld_zeroed (f : Fld) (n : Nat) : (s.addFld f n).zeroed = s.zeroed := Eq.trans rfl rfl
@[simp] theorem State.addFld_force (f : Fld) (n : Nat) : (s.addFld f n).force = s.force := Eq.trans rfl rfl
@[simp] theorem State.addFld_ctxs (f : Fld) (n : Nat) : (s.addFld f n).ctxs = s.ctxs := Eq.trans rfl rfl
@[simp] theorem State.addFld_cores (f : Fld) (n : Nat) : (s.addFld f n).cores = s.cores := Eq.trans rfl rfl
@[simp] theorem State.addFld_tasks (f : Fld) (n : Nat) : (s.addFld f n).tasks = s.tasks := Eq.trans rfl rfl
@[simp] theorem State.addFld_rts (f : Fld) (n : Nat) : (s.addFld f n).rts = s.rts := Eq.trans rfl rfl
@[simp] theorem State.addFld_dirs (f : Fld) (n : Nat) : (s.addFld f n).dirs = s.dirs := Eq.trans rfl rfl
@[simp] theorem State.addFld_gms (f : Fld) (n : Nat) : (s.addFld f n).gms = s.gms := Eq.trans rfl rfl
@[simp] theorem State.addFld_mxes (f : Fld) (n : Nat) : (s.addFld f n).mxes = s.mxes := Eq.trans rfl rfl
@[simp] theorem State.addFld_curs (f : Fld) (n : Nat) : (s.addFld f n).curs = s.curs := Eq.trans rfl rfl
@[simp] theorem State.addFld_mctxs (f : Fld) (n : Nat) : (s.addFld f n).mctxs = s.mctxs := Eq.trans rfl rfl
@[simp] theorem State.addFld_net (f : Fld) (n : Nat) : (s.addFld f n).net = s.net := Eq.trans rfl rfl
@[simp] theorem State.addFld_answers (f : Fld) (n : Nat) : (s.addFld f n).answers = s.answers := Eq.trans rfl rfl
@[simp] theorem State.addFld_crets (f : Fld) (n : Nat) : (s.addFld f n).crets = s.crets := Eq.trans rfl rfl
@[simp] theorem State.addFld_rings (f : Fld) (n : Nat) : (s.addFld f n).rings = s.rings := Eq.trans rfl rfl
@[simp] theorem State.addFld_unans (f : Fld) (n : Nat) : (s.addFld f n).unans = s.unans := Eq.trans rfl rfl
@[simp] theorem State.addFld_cqs (f : Fld) (n : Nat) : (s.addFld f n).cqs = s.cqs := Eq.trans rfl rfl
@[simp] theorem State.addFld_turns (f : Fld) (n : Nat) : (s.addFld f n).turns = s.turns := Eq.trans rfl rfl
@[simp] theorem State.addFld_tfes (f : Fld) (n : Nat) : (s.addFld f n).tfes = s.tfes := Eq.trans rfl rfl
@[simp] theorem State.addFld_pkts (f : Fld) (n : Nat) : (s.addFld f n).pkts = s.pkts := Eq.trans rfl rfl
@[simp] theorem State.addFld_rtrs (f : Fld) (n : Nat) : (s.addFld f n).rtrs = s.rtrs := Eq.trans rfl rfl
@[simp] theorem State.addFld_sv (f : Fld) (n : Nat) : (s.addFld f n).sv = s.sv := Eq.trans rfl rfl
@[simp] theorem State.addFld_mss (f : Fld) (n : Nat) : (s.addFld f n).mss = s.mss := Eq.trans rfl rfl
@[simp] theorem State.addFld_ports (f : Fld) (n : Nat) : (s.addFld f n).ports = s.ports := Eq.trans rfl rfl
@[simp] theorem State.addFld_lamps (f : Fld) (n : Nat) : (s.addFld f n).lamps = s.lamps := Eq.trans rfl rfl
@[simp] theorem State.addFld_ptp (f : Fld) (n : Nat) : (s.addFld f n).ptp = s.ptp := Eq.trans rfl rfl
@[simp] theorem State.addFld_mrs (f : Fld) (n : Nat) : (s.addFld f n).mrs = s.mrs := Eq.trans rfl rfl
@[simp] theorem State.addFld_host (f : Fld) (n : Nat) : (s.addFld f n).host = s.host := Eq.trans rfl rfl
@[simp] theorem State.addFld_sec (f : Fld) (n : Nat) : (s.addFld f n).sec = s.sec := Eq.trans rfl rfl
@[simp] theorem State.addFld_boot (f : Fld) (n : Nat) : (s.addFld f n).boot = s.boot := Eq.trans rfl rfl
@[simp] theorem State.addFld_tst (f : Fld) (n : Nat) : (s.addFld f n).tst = s.tst := Eq.trans rfl rfl
@[simp] theorem State.addFld_fr (f : Fld) (n : Nat) : (s.addFld f n).fr = s.fr := Eq.trans rfl rfl
@[simp] theorem State.addFld_pwr (f : Fld) (n : Nat) : (s.addFld f n).pwr = s.pwr := Eq.trans rfl rfl
@[simp] theorem State.addFld_greset (f : Fld) (n : Nat) : (s.addFld f n).greset = s.greset := Eq.trans rfl rfl
@[simp] theorem State.addFld_bud_ (f : Fld) (n : Nat) (j : Nat) : (s.addFld f n).bud j = s.bud j := Eq.trans rfl rfl
@[simp] theorem State.addFld_ctx_ (f : Fld) (n : Nat) (j : Nat) : (s.addFld f n).ctx j = s.ctx j := Eq.trans rfl rfl
@[simp] theorem State.addFld_core_ (f : Fld) (n : Nat) (j : Nat) : (s.addFld f n).core j = s.core j := Eq.trans rfl rfl
@[simp] theorem State.addFld_task_ (f : Fld) (n : Nat) (j : Nat) : (s.addFld f n).task j = s.task j := Eq.trans rfl rfl
@[simp] theorem State.addFld_rt_ (f : Fld) (n : Nat) (j : Nat) : (s.addFld f n).rt j = s.rt j := Eq.trans rfl rfl
@[simp] theorem State.addFld_dir_ (f : Fld) (n : Nat) (j : Nat) : (s.addFld f n).dir j = s.dir j := Eq.trans rfl rfl
@[simp] theorem State.addFld_gm_ (f : Fld) (n : Nat) (j : Nat) : (s.addFld f n).gm j = s.gm j := Eq.trans rfl rfl
@[simp] theorem State.addFld_mxe_ (f : Fld) (n : Nat) (j : Nat) : (s.addFld f n).mxe j = s.mxe j := Eq.trans rfl rfl
@[simp] theorem State.addFld_cur_ (f : Fld) (n : Nat) (j : Nat) : (s.addFld f n).cur j = s.cur j := Eq.trans rfl rfl
@[simp] theorem State.addFld_mctx_ (f : Fld) (n : Nat) (j : Nat) : (s.addFld f n).mctx j = s.mctx j := Eq.trans rfl rfl
@[simp] theorem State.addFld_ring_ (f : Fld) (n : Nat) (j : Nat) : (s.addFld f n).ring j = s.ring j := Eq.trans rfl rfl
@[simp] theorem State.addFld_una_ (f : Fld) (n : Nat) (j : Nat) : (s.addFld f n).una j = s.una j := Eq.trans rfl rfl
@[simp] theorem State.addFld_cq_ (f : Fld) (n : Nat) (j : Nat) : (s.addFld f n).cq j = s.cq j := Eq.trans rfl rfl
@[simp] theorem State.addFld_tfe_ (f : Fld) (n : Nat) (j : Nat) : (s.addFld f n).tfe j = s.tfe j := Eq.trans rfl rfl
@[simp] theorem State.addFld_rtr_ (f : Fld) (n : Nat) (j : Nat) : (s.addFld f n).rtr j = s.rtr j := Eq.trans rfl rfl
@[simp] theorem State.addFld_ms_ (f : Fld) (n : Nat) (j : Nat) : (s.addFld f n).ms j = s.ms j := Eq.trans rfl rfl
@[simp] theorem State.addFld_port_ (f : Fld) (n : Nat) (j : Nat) : (s.addFld f n).port j = s.port j := Eq.trans rfl rfl
@[simp] theorem State.addFld_lamp_ (f : Fld) (n : Nat) (j : Nat) : (s.addFld f n).lamp j = s.lamp j := Eq.trans rfl rfl
@[simp] theorem State.addFld_gr_ (f : Fld) (n : Nat) (j : Nat) : (s.addFld f n).gr j = s.gr j := Eq.trans rfl rfl
@[simp] theorem State.addFld_rdByte (f : Fld) (n : Nat) (j : Nat) : (s.addFld f n).rdByte j = s.rdByte j := Eq.trans rfl rfl

/-! ### bumpFld -/

@[simp] theorem State.bumpFld_pending (f : Fld) (n : Nat) : (s.bumpFld f n).pending = s.pending := Eq.trans rfl rfl
@[simp] theorem State.bumpFld_now (f : Fld) (n : Nat) : (s.bumpFld f n).now = s.now := Eq.trans rfl rfl
@[simp] theorem State.bumpFld_free (f : Fld) (n : Nat) : (s.bumpFld f n).free = s.free := Eq.trans rfl rfl
@[simp] theorem State.bumpFld_out (f : Fld) (n : Nat) : (s.bumpFld f n).out = s.out := Eq.trans rfl rfl
@[simp] theorem State.bumpFld_mode (f : Fld) (n : Nat) : (s.bumpFld f n).mode = s.mode := Eq.trans rfl rfl
@[simp] theorem State.bumpFld_drip (f : Fld) (n : Nat) : (s.bumpFld f n).drip = s.drip := Eq.trans rfl rfl
@[simp] theorem State.bumpFld_mem (f : Fld) (n : Nat) : (s.bumpFld f n).mem = s.mem := Eq.trans rfl rfl
@[simp] theorem State.bumpFld_poison (f : Fld) (n : Nat) : (s.bumpFld f n).poison = s.poison := Eq.trans rfl rfl
@[simp] theorem State.bumpFld_gpoison (f : Fld) (n : Nat) : (s.bumpFld f n).gpoison = s.gpoison := Eq.trans rfl rfl
@[simp] theorem State.bumpFld_ueLog (f : Fld) (n : Nat) : (s.bumpFld f n).ueLog = s.ueLog := Eq.trans rfl rfl
@[simp] theorem State.bumpFld_zeroed (f : Fld) (n : Nat) : (s.bumpFld f n).zeroed = s.zeroed := Eq.trans rfl rfl
@[simp] theorem State.bumpFld_force (f : Fld) (n : Nat) : (s.bumpFld f n).force = s.force := Eq.trans rfl rfl
@[simp] theorem State.bumpFld_ctxs (f : Fld) (n : Nat) : (s.bumpFld f n).ctxs = s.ctxs := Eq.trans rfl rfl
@[simp] theorem State.bumpFld_cores (f : Fld) (n : Nat) : (s.bumpFld f n).cores = s.cores := Eq.trans rfl rfl
@[simp] theorem State.bumpFld_tasks (f : Fld) (n : Nat) : (s.bumpFld f n).tasks = s.tasks := Eq.trans rfl rfl
@[simp] theorem State.bumpFld_rts (f : Fld) (n : Nat) : (s.bumpFld f n).rts = s.rts := Eq.trans rfl rfl
@[simp] theorem State.bumpFld_dirs (f : Fld) (n : Nat) : (s.bumpFld f n).dirs = s.dirs := Eq.trans rfl rfl
@[simp] theorem State.bumpFld_gms (f : Fld) (n : Nat) : (s.bumpFld f n).gms = s.gms := Eq.trans rfl rfl
@[simp] theorem State.bumpFld_mxes (f : Fld) (n : Nat) : (s.bumpFld f n).mxes = s.mxes := Eq.trans rfl rfl
@[simp] theorem State.bumpFld_curs (f : Fld) (n : Nat) : (s.bumpFld f n).curs = s.curs := Eq.trans rfl rfl
@[simp] theorem State.bumpFld_mctxs (f : Fld) (n : Nat) : (s.bumpFld f n).mctxs = s.mctxs := Eq.trans rfl rfl
@[simp] theorem State.bumpFld_net (f : Fld) (n : Nat) : (s.bumpFld f n).net = s.net := Eq.trans rfl rfl
@[simp] theorem State.bumpFld_answers (f : Fld) (n : Nat) : (s.bumpFld f n).answers = s.answers := Eq.trans rfl rfl
@[simp] theorem State.bumpFld_crets (f : Fld) (n : Nat) : (s.bumpFld f n).crets = s.crets := Eq.trans rfl rfl
@[simp] theorem State.bumpFld_rings (f : Fld) (n : Nat) : (s.bumpFld f n).rings = s.rings := Eq.trans rfl rfl
@[simp] theorem State.bumpFld_unans (f : Fld) (n : Nat) : (s.bumpFld f n).unans = s.unans := Eq.trans rfl rfl
@[simp] theorem State.bumpFld_cqs (f : Fld) (n : Nat) : (s.bumpFld f n).cqs = s.cqs := Eq.trans rfl rfl
@[simp] theorem State.bumpFld_turns (f : Fld) (n : Nat) : (s.bumpFld f n).turns = s.turns := Eq.trans rfl rfl
@[simp] theorem State.bumpFld_tfes (f : Fld) (n : Nat) : (s.bumpFld f n).tfes = s.tfes := Eq.trans rfl rfl
@[simp] theorem State.bumpFld_pkts (f : Fld) (n : Nat) : (s.bumpFld f n).pkts = s.pkts := Eq.trans rfl rfl
@[simp] theorem State.bumpFld_rtrs (f : Fld) (n : Nat) : (s.bumpFld f n).rtrs = s.rtrs := Eq.trans rfl rfl
@[simp] theorem State.bumpFld_sv (f : Fld) (n : Nat) : (s.bumpFld f n).sv = s.sv := Eq.trans rfl rfl
@[simp] theorem State.bumpFld_mss (f : Fld) (n : Nat) : (s.bumpFld f n).mss = s.mss := Eq.trans rfl rfl
@[simp] theorem State.bumpFld_ports (f : Fld) (n : Nat) : (s.bumpFld f n).ports = s.ports := Eq.trans rfl rfl
@[simp] theorem State.bumpFld_lamps (f : Fld) (n : Nat) : (s.bumpFld f n).lamps = s.lamps := Eq.trans rfl rfl
@[simp] theorem State.bumpFld_ptp (f : Fld) (n : Nat) : (s.bumpFld f n).ptp = s.ptp := Eq.trans rfl rfl
@[simp] theorem State.bumpFld_mrs (f : Fld) (n : Nat) : (s.bumpFld f n).mrs = s.mrs := Eq.trans rfl rfl
@[simp] theorem State.bumpFld_host (f : Fld) (n : Nat) : (s.bumpFld f n).host = s.host := Eq.trans rfl rfl
@[simp] theorem State.bumpFld_sec (f : Fld) (n : Nat) : (s.bumpFld f n).sec = s.sec := Eq.trans rfl rfl
@[simp] theorem State.bumpFld_boot (f : Fld) (n : Nat) : (s.bumpFld f n).boot = s.boot := Eq.trans rfl rfl
@[simp] theorem State.bumpFld_tst (f : Fld) (n : Nat) : (s.bumpFld f n).tst = s.tst := Eq.trans rfl rfl
@[simp] theorem State.bumpFld_fr (f : Fld) (n : Nat) : (s.bumpFld f n).fr = s.fr := Eq.trans rfl rfl
@[simp] theorem State.bumpFld_pwr (f : Fld) (n : Nat) : (s.bumpFld f n).pwr = s.pwr := Eq.trans rfl rfl
@[simp] theorem State.bumpFld_greset (f : Fld) (n : Nat) : (s.bumpFld f n).greset = s.greset := Eq.trans rfl rfl
@[simp] theorem State.bumpFld_bud_ (f : Fld) (n : Nat) (j : Nat) : (s.bumpFld f n).bud j = s.bud j := Eq.trans rfl rfl
@[simp] theorem State.bumpFld_ctx_ (f : Fld) (n : Nat) (j : Nat) : (s.bumpFld f n).ctx j = s.ctx j := Eq.trans rfl rfl
@[simp] theorem State.bumpFld_core_ (f : Fld) (n : Nat) (j : Nat) : (s.bumpFld f n).core j = s.core j := Eq.trans rfl rfl
@[simp] theorem State.bumpFld_task_ (f : Fld) (n : Nat) (j : Nat) : (s.bumpFld f n).task j = s.task j := Eq.trans rfl rfl
@[simp] theorem State.bumpFld_rt_ (f : Fld) (n : Nat) (j : Nat) : (s.bumpFld f n).rt j = s.rt j := Eq.trans rfl rfl
@[simp] theorem State.bumpFld_dir_ (f : Fld) (n : Nat) (j : Nat) : (s.bumpFld f n).dir j = s.dir j := Eq.trans rfl rfl
@[simp] theorem State.bumpFld_gm_ (f : Fld) (n : Nat) (j : Nat) : (s.bumpFld f n).gm j = s.gm j := Eq.trans rfl rfl
@[simp] theorem State.bumpFld_mxe_ (f : Fld) (n : Nat) (j : Nat) : (s.bumpFld f n).mxe j = s.mxe j := Eq.trans rfl rfl
@[simp] theorem State.bumpFld_cur_ (f : Fld) (n : Nat) (j : Nat) : (s.bumpFld f n).cur j = s.cur j := Eq.trans rfl rfl
@[simp] theorem State.bumpFld_mctx_ (f : Fld) (n : Nat) (j : Nat) : (s.bumpFld f n).mctx j = s.mctx j := Eq.trans rfl rfl
@[simp] theorem State.bumpFld_ring_ (f : Fld) (n : Nat) (j : Nat) : (s.bumpFld f n).ring j = s.ring j := Eq.trans rfl rfl
@[simp] theorem State.bumpFld_una_ (f : Fld) (n : Nat) (j : Nat) : (s.bumpFld f n).una j = s.una j := Eq.trans rfl rfl
@[simp] theorem State.bumpFld_cq_ (f : Fld) (n : Nat) (j : Nat) : (s.bumpFld f n).cq j = s.cq j := Eq.trans rfl rfl
@[simp] theorem State.bumpFld_tfe_ (f : Fld) (n : Nat) (j : Nat) : (s.bumpFld f n).tfe j = s.tfe j := Eq.trans rfl rfl
@[simp] theorem State.bumpFld_rtr_ (f : Fld) (n : Nat) (j : Nat) : (s.bumpFld f n).rtr j = s.rtr j := Eq.trans rfl rfl
@[simp] theorem State.bumpFld_ms_ (f : Fld) (n : Nat) (j : Nat) : (s.bumpFld f n).ms j = s.ms j := Eq.trans rfl rfl
@[simp] theorem State.bumpFld_port_ (f : Fld) (n : Nat) (j : Nat) : (s.bumpFld f n).port j = s.port j := Eq.trans rfl rfl
@[simp] theorem State.bumpFld_lamp_ (f : Fld) (n : Nat) (j : Nat) : (s.bumpFld f n).lamp j = s.lamp j := Eq.trans rfl rfl
@[simp] theorem State.bumpFld_gr_ (f : Fld) (n : Nat) (j : Nat) : (s.bumpFld f n).gr j = s.gr j := Eq.trans rfl rfl
@[simp] theorem State.bumpFld_rdByte (f : Fld) (n : Nat) (j : Nat) : (s.bumpFld f n).rdByte j = s.rdByte j := Eq.trans rfl rfl

/-! ### clearRange -/

@[simp] theorem State.clearRange_pending (lo hi : Nat) : (s.clearRange lo hi).pending = s.pending := Eq.trans rfl rfl
@[simp] theorem State.clearRange_now (lo hi : Nat) : (s.clearRange lo hi).now = s.now := Eq.trans rfl rfl
@[simp] theorem State.clearRange_free (lo hi : Nat) : (s.clearRange lo hi).free = s.free := Eq.trans rfl rfl
@[simp] theorem State.clearRange_out (lo hi : Nat) : (s.clearRange lo hi).out = s.out := Eq.trans rfl rfl
@[simp] theorem State.clearRange_mode (lo hi : Nat) : (s.clearRange lo hi).mode = s.mode := Eq.trans rfl rfl
@[simp] theorem State.clearRange_drip (lo hi : Nat) : (s.clearRange lo hi).drip = s.drip := Eq.trans rfl rfl
@[simp] theorem State.clearRange_mem (lo hi : Nat) : (s.clearRange lo hi).mem = s.mem := Eq.trans rfl rfl
@[simp] theorem State.clearRange_poison (lo hi : Nat) : (s.clearRange lo hi).poison = s.poison := Eq.trans rfl rfl
@[simp] theorem State.clearRange_gpoison (lo hi : Nat) : (s.clearRange lo hi).gpoison = s.gpoison := Eq.trans rfl rfl
@[simp] theorem State.clearRange_ueLog (lo hi : Nat) : (s.clearRange lo hi).ueLog = s.ueLog := Eq.trans rfl rfl
@[simp] theorem State.clearRange_zeroed (lo hi : Nat) : (s.clearRange lo hi).zeroed = s.zeroed := Eq.trans rfl rfl
@[simp] theorem State.clearRange_force (lo hi : Nat) : (s.clearRange lo hi).force = s.force := Eq.trans rfl rfl
@[simp] theorem State.clearRange_ctxs (lo hi : Nat) : (s.clearRange lo hi).ctxs = s.ctxs := Eq.trans rfl rfl
@[simp] theorem State.clearRange_cores (lo hi : Nat) : (s.clearRange lo hi).cores = s.cores := Eq.trans rfl rfl
@[simp] theorem State.clearRange_tasks (lo hi : Nat) : (s.clearRange lo hi).tasks = s.tasks := Eq.trans rfl rfl
@[simp] theorem State.clearRange_rts (lo hi : Nat) : (s.clearRange lo hi).rts = s.rts := Eq.trans rfl rfl
@[simp] theorem State.clearRange_dirs (lo hi : Nat) : (s.clearRange lo hi).dirs = s.dirs := Eq.trans rfl rfl
@[simp] theorem State.clearRange_gms (lo hi : Nat) : (s.clearRange lo hi).gms = s.gms := Eq.trans rfl rfl
@[simp] theorem State.clearRange_mxes (lo hi : Nat) : (s.clearRange lo hi).mxes = s.mxes := Eq.trans rfl rfl
@[simp] theorem State.clearRange_curs (lo hi : Nat) : (s.clearRange lo hi).curs = s.curs := Eq.trans rfl rfl
@[simp] theorem State.clearRange_mctxs (lo hi : Nat) : (s.clearRange lo hi).mctxs = s.mctxs := Eq.trans rfl rfl
@[simp] theorem State.clearRange_net (lo hi : Nat) : (s.clearRange lo hi).net = s.net := Eq.trans rfl rfl
@[simp] theorem State.clearRange_answers (lo hi : Nat) : (s.clearRange lo hi).answers = s.answers := Eq.trans rfl rfl
@[simp] theorem State.clearRange_crets (lo hi : Nat) : (s.clearRange lo hi).crets = s.crets := Eq.trans rfl rfl
@[simp] theorem State.clearRange_rings (lo hi : Nat) : (s.clearRange lo hi).rings = s.rings := Eq.trans rfl rfl
@[simp] theorem State.clearRange_unans (lo hi : Nat) : (s.clearRange lo hi).unans = s.unans := Eq.trans rfl rfl
@[simp] theorem State.clearRange_cqs (lo hi : Nat) : (s.clearRange lo hi).cqs = s.cqs := Eq.trans rfl rfl
@[simp] theorem State.clearRange_turns (lo hi : Nat) : (s.clearRange lo hi).turns = s.turns := Eq.trans rfl rfl
@[simp] theorem State.clearRange_tfes (lo hi : Nat) : (s.clearRange lo hi).tfes = s.tfes := Eq.trans rfl rfl
@[simp] theorem State.clearRange_pkts (lo hi : Nat) : (s.clearRange lo hi).pkts = s.pkts := Eq.trans rfl rfl
@[simp] theorem State.clearRange_rtrs (lo hi : Nat) : (s.clearRange lo hi).rtrs = s.rtrs := Eq.trans rfl rfl
@[simp] theorem State.clearRange_sv (lo hi : Nat) : (s.clearRange lo hi).sv = s.sv := Eq.trans rfl rfl
@[simp] theorem State.clearRange_mss (lo hi : Nat) : (s.clearRange lo hi).mss = s.mss := Eq.trans rfl rfl
@[simp] theorem State.clearRange_ports (lo hi : Nat) : (s.clearRange lo hi).ports = s.ports := Eq.trans rfl rfl
@[simp] theorem State.clearRange_lamps (lo hi : Nat) : (s.clearRange lo hi).lamps = s.lamps := Eq.trans rfl rfl
@[simp] theorem State.clearRange_ptp (lo hi : Nat) : (s.clearRange lo hi).ptp = s.ptp := Eq.trans rfl rfl
@[simp] theorem State.clearRange_mrs (lo hi : Nat) : (s.clearRange lo hi).mrs = s.mrs := Eq.trans rfl rfl
@[simp] theorem State.clearRange_host (lo hi : Nat) : (s.clearRange lo hi).host = s.host := Eq.trans rfl rfl
@[simp] theorem State.clearRange_sec (lo hi : Nat) : (s.clearRange lo hi).sec = s.sec := Eq.trans rfl rfl
@[simp] theorem State.clearRange_boot (lo hi : Nat) : (s.clearRange lo hi).boot = s.boot := Eq.trans rfl rfl
@[simp] theorem State.clearRange_tst (lo hi : Nat) : (s.clearRange lo hi).tst = s.tst := Eq.trans rfl rfl
@[simp] theorem State.clearRange_fr (lo hi : Nat) : (s.clearRange lo hi).fr = s.fr := Eq.trans rfl rfl
@[simp] theorem State.clearRange_pwr (lo hi : Nat) : (s.clearRange lo hi).pwr = s.pwr := Eq.trans rfl rfl
@[simp] theorem State.clearRange_greset (lo hi : Nat) : (s.clearRange lo hi).greset = s.greset := Eq.trans rfl rfl
@[simp] theorem State.clearRange_bud_ (lo hi : Nat) (j : Nat) : (s.clearRange lo hi).bud j = s.bud j := Eq.trans rfl rfl
@[simp] theorem State.clearRange_ctx_ (lo hi : Nat) (j : Nat) : (s.clearRange lo hi).ctx j = s.ctx j := Eq.trans rfl rfl
@[simp] theorem State.clearRange_core_ (lo hi : Nat) (j : Nat) : (s.clearRange lo hi).core j = s.core j := Eq.trans rfl rfl
@[simp] theorem State.clearRange_task_ (lo hi : Nat) (j : Nat) : (s.clearRange lo hi).task j = s.task j := Eq.trans rfl rfl
@[simp] theorem State.clearRange_rt_ (lo hi : Nat) (j : Nat) : (s.clearRange lo hi).rt j = s.rt j := Eq.trans rfl rfl
@[simp] theorem State.clearRange_dir_ (lo hi : Nat) (j : Nat) : (s.clearRange lo hi).dir j = s.dir j := Eq.trans rfl rfl
@[simp] theorem State.clearRange_gm_ (lo hi : Nat) (j : Nat) : (s.clearRange lo hi).gm j = s.gm j := Eq.trans rfl rfl
@[simp] theorem State.clearRange_mxe_ (lo hi : Nat) (j : Nat) : (s.clearRange lo hi).mxe j = s.mxe j := Eq.trans rfl rfl
@[simp] theorem State.clearRange_cur_ (lo hi : Nat) (j : Nat) : (s.clearRange lo hi).cur j = s.cur j := Eq.trans rfl rfl
@[simp] theorem State.clearRange_mctx_ (lo hi : Nat) (j : Nat) : (s.clearRange lo hi).mctx j = s.mctx j := Eq.trans rfl rfl
@[simp] theorem State.clearRange_ring_ (lo hi : Nat) (j : Nat) : (s.clearRange lo hi).ring j = s.ring j := Eq.trans rfl rfl
@[simp] theorem State.clearRange_una_ (lo hi : Nat) (j : Nat) : (s.clearRange lo hi).una j = s.una j := Eq.trans rfl rfl
@[simp] theorem State.clearRange_cq_ (lo hi : Nat) (j : Nat) : (s.clearRange lo hi).cq j = s.cq j := Eq.trans rfl rfl
@[simp] theorem State.clearRange_tfe_ (lo hi : Nat) (j : Nat) : (s.clearRange lo hi).tfe j = s.tfe j := Eq.trans rfl rfl
@[simp] theorem State.clearRange_rtr_ (lo hi : Nat) (j : Nat) : (s.clearRange lo hi).rtr j = s.rtr j := Eq.trans rfl rfl
@[simp] theorem State.clearRange_ms_ (lo hi : Nat) (j : Nat) : (s.clearRange lo hi).ms j = s.ms j := Eq.trans rfl rfl
@[simp] theorem State.clearRange_port_ (lo hi : Nat) (j : Nat) : (s.clearRange lo hi).port j = s.port j := Eq.trans rfl rfl
@[simp] theorem State.clearRange_lamp_ (lo hi : Nat) (j : Nat) : (s.clearRange lo hi).lamp j = s.lamp j := Eq.trans rfl rfl
@[simp] theorem State.clearRange_gr_ (lo hi : Nat) (j : Nat) : (s.clearRange lo hi).gr j = s.gr j := Eq.trans rfl rfl
@[simp] theorem State.clearRange_rdByte (lo hi : Nat) (j : Nat) : (s.clearRange lo hi).rdByte j = s.rdByte j := Eq.trans rfl rfl

/-! ### wrByte -/

@[simp] theorem State.wrByte_pending (k : Nat) (b : Byte) : (s.wrByte k b).pending = s.pending := Eq.trans rfl rfl
@[simp] theorem State.wrByte_now (k : Nat) (b : Byte) : (s.wrByte k b).now = s.now := Eq.trans rfl rfl
@[simp] theorem State.wrByte_free (k : Nat) (b : Byte) : (s.wrByte k b).free = s.free := Eq.trans rfl rfl
@[simp] theorem State.wrByte_out (k : Nat) (b : Byte) : (s.wrByte k b).out = s.out := Eq.trans rfl rfl
@[simp] theorem State.wrByte_mode (k : Nat) (b : Byte) : (s.wrByte k b).mode = s.mode := Eq.trans rfl rfl
@[simp] theorem State.wrByte_drip (k : Nat) (b : Byte) : (s.wrByte k b).drip = s.drip := Eq.trans rfl rfl
@[simp] theorem State.wrByte_csr (k : Nat) (b : Byte) : (s.wrByte k b).csr = s.csr := Eq.trans rfl rfl
@[simp] theorem State.wrByte_poison (k : Nat) (b : Byte) : (s.wrByte k b).poison = s.poison := Eq.trans rfl rfl
@[simp] theorem State.wrByte_gpoison (k : Nat) (b : Byte) : (s.wrByte k b).gpoison = s.gpoison := Eq.trans rfl rfl
@[simp] theorem State.wrByte_ueLog (k : Nat) (b : Byte) : (s.wrByte k b).ueLog = s.ueLog := Eq.trans rfl rfl
@[simp] theorem State.wrByte_zeroed (k : Nat) (b : Byte) : (s.wrByte k b).zeroed = s.zeroed := Eq.trans rfl rfl
@[simp] theorem State.wrByte_force (k : Nat) (b : Byte) : (s.wrByte k b).force = s.force := Eq.trans rfl rfl
@[simp] theorem State.wrByte_ctxs (k : Nat) (b : Byte) : (s.wrByte k b).ctxs = s.ctxs := Eq.trans rfl rfl
@[simp] theorem State.wrByte_cores (k : Nat) (b : Byte) : (s.wrByte k b).cores = s.cores := Eq.trans rfl rfl
@[simp] theorem State.wrByte_tasks (k : Nat) (b : Byte) : (s.wrByte k b).tasks = s.tasks := Eq.trans rfl rfl
@[simp] theorem State.wrByte_rts (k : Nat) (b : Byte) : (s.wrByte k b).rts = s.rts := Eq.trans rfl rfl
@[simp] theorem State.wrByte_dirs (k : Nat) (b : Byte) : (s.wrByte k b).dirs = s.dirs := Eq.trans rfl rfl
@[simp] theorem State.wrByte_gms (k : Nat) (b : Byte) : (s.wrByte k b).gms = s.gms := Eq.trans rfl rfl
@[simp] theorem State.wrByte_mxes (k : Nat) (b : Byte) : (s.wrByte k b).mxes = s.mxes := Eq.trans rfl rfl
@[simp] theorem State.wrByte_curs (k : Nat) (b : Byte) : (s.wrByte k b).curs = s.curs := Eq.trans rfl rfl
@[simp] theorem State.wrByte_mctxs (k : Nat) (b : Byte) : (s.wrByte k b).mctxs = s.mctxs := Eq.trans rfl rfl
@[simp] theorem State.wrByte_net (k : Nat) (b : Byte) : (s.wrByte k b).net = s.net := Eq.trans rfl rfl
@[simp] theorem State.wrByte_answers (k : Nat) (b : Byte) : (s.wrByte k b).answers = s.answers := Eq.trans rfl rfl
@[simp] theorem State.wrByte_crets (k : Nat) (b : Byte) : (s.wrByte k b).crets = s.crets := Eq.trans rfl rfl
@[simp] theorem State.wrByte_rings (k : Nat) (b : Byte) : (s.wrByte k b).rings = s.rings := Eq.trans rfl rfl
@[simp] theorem State.wrByte_unans (k : Nat) (b : Byte) : (s.wrByte k b).unans = s.unans := Eq.trans rfl rfl
@[simp] theorem State.wrByte_cqs (k : Nat) (b : Byte) : (s.wrByte k b).cqs = s.cqs := Eq.trans rfl rfl
@[simp] theorem State.wrByte_turns (k : Nat) (b : Byte) : (s.wrByte k b).turns = s.turns := Eq.trans rfl rfl
@[simp] theorem State.wrByte_tfes (k : Nat) (b : Byte) : (s.wrByte k b).tfes = s.tfes := Eq.trans rfl rfl
@[simp] theorem State.wrByte_pkts (k : Nat) (b : Byte) : (s.wrByte k b).pkts = s.pkts := Eq.trans rfl rfl
@[simp] theorem State.wrByte_rtrs (k : Nat) (b : Byte) : (s.wrByte k b).rtrs = s.rtrs := Eq.trans rfl rfl
@[simp] theorem State.wrByte_sv (k : Nat) (b : Byte) : (s.wrByte k b).sv = s.sv := Eq.trans rfl rfl
@[simp] theorem State.wrByte_mss (k : Nat) (b : Byte) : (s.wrByte k b).mss = s.mss := Eq.trans rfl rfl
@[simp] theorem State.wrByte_ports (k : Nat) (b : Byte) : (s.wrByte k b).ports = s.ports := Eq.trans rfl rfl
@[simp] theorem State.wrByte_lamps (k : Nat) (b : Byte) : (s.wrByte k b).lamps = s.lamps := Eq.trans rfl rfl
@[simp] theorem State.wrByte_ptp (k : Nat) (b : Byte) : (s.wrByte k b).ptp = s.ptp := Eq.trans rfl rfl
@[simp] theorem State.wrByte_mrs (k : Nat) (b : Byte) : (s.wrByte k b).mrs = s.mrs := Eq.trans rfl rfl
@[simp] theorem State.wrByte_host (k : Nat) (b : Byte) : (s.wrByte k b).host = s.host := Eq.trans rfl rfl
@[simp] theorem State.wrByte_sec (k : Nat) (b : Byte) : (s.wrByte k b).sec = s.sec := Eq.trans rfl rfl
@[simp] theorem State.wrByte_boot (k : Nat) (b : Byte) : (s.wrByte k b).boot = s.boot := Eq.trans rfl rfl
@[simp] theorem State.wrByte_tst (k : Nat) (b : Byte) : (s.wrByte k b).tst = s.tst := Eq.trans rfl rfl
@[simp] theorem State.wrByte_fr (k : Nat) (b : Byte) : (s.wrByte k b).fr = s.fr := Eq.trans rfl rfl
@[simp] theorem State.wrByte_pwr (k : Nat) (b : Byte) : (s.wrByte k b).pwr = s.pwr := Eq.trans rfl rfl
@[simp] theorem State.wrByte_greset (k : Nat) (b : Byte) : (s.wrByte k b).greset = s.greset := Eq.trans rfl rfl
@[simp] theorem State.wrByte_bud_ (k : Nat) (b : Byte) (j : Nat) : (s.wrByte k b).bud j = s.bud j := Eq.trans rfl rfl
@[simp] theorem State.wrByte_ctx_ (k : Nat) (b : Byte) (j : Nat) : (s.wrByte k b).ctx j = s.ctx j := Eq.trans rfl rfl
@[simp] theorem State.wrByte_core_ (k : Nat) (b : Byte) (j : Nat) : (s.wrByte k b).core j = s.core j := Eq.trans rfl rfl
@[simp] theorem State.wrByte_task_ (k : Nat) (b : Byte) (j : Nat) : (s.wrByte k b).task j = s.task j := Eq.trans rfl rfl
@[simp] theorem State.wrByte_rt_ (k : Nat) (b : Byte) (j : Nat) : (s.wrByte k b).rt j = s.rt j := Eq.trans rfl rfl
@[simp] theorem State.wrByte_dir_ (k : Nat) (b : Byte) (j : Nat) : (s.wrByte k b).dir j = s.dir j := Eq.trans rfl rfl
@[simp] theorem State.wrByte_gm_ (k : Nat) (b : Byte) (j : Nat) : (s.wrByte k b).gm j = s.gm j := Eq.trans rfl rfl
@[simp] theorem State.wrByte_mxe_ (k : Nat) (b : Byte) (j : Nat) : (s.wrByte k b).mxe j = s.mxe j := Eq.trans rfl rfl
@[simp] theorem State.wrByte_cur_ (k : Nat) (b : Byte) (j : Nat) : (s.wrByte k b).cur j = s.cur j := Eq.trans rfl rfl
@[simp] theorem State.wrByte_mctx_ (k : Nat) (b : Byte) (j : Nat) : (s.wrByte k b).mctx j = s.mctx j := Eq.trans rfl rfl
@[simp] theorem State.wrByte_ring_ (k : Nat) (b : Byte) (j : Nat) : (s.wrByte k b).ring j = s.ring j := Eq.trans rfl rfl
@[simp] theorem State.wrByte_una_ (k : Nat) (b : Byte) (j : Nat) : (s.wrByte k b).una j = s.una j := Eq.trans rfl rfl
@[simp] theorem State.wrByte_cq_ (k : Nat) (b : Byte) (j : Nat) : (s.wrByte k b).cq j = s.cq j := Eq.trans rfl rfl
@[simp] theorem State.wrByte_tfe_ (k : Nat) (b : Byte) (j : Nat) : (s.wrByte k b).tfe j = s.tfe j := Eq.trans rfl rfl
@[simp] theorem State.wrByte_rtr_ (k : Nat) (b : Byte) (j : Nat) : (s.wrByte k b).rtr j = s.rtr j := Eq.trans rfl rfl
@[simp] theorem State.wrByte_ms_ (k : Nat) (b : Byte) (j : Nat) : (s.wrByte k b).ms j = s.ms j := Eq.trans rfl rfl
@[simp] theorem State.wrByte_port_ (k : Nat) (b : Byte) (j : Nat) : (s.wrByte k b).port j = s.port j := Eq.trans rfl rfl
@[simp] theorem State.wrByte_lamp_ (k : Nat) (b : Byte) (j : Nat) : (s.wrByte k b).lamp j = s.lamp j := Eq.trans rfl rfl
@[simp] theorem State.wrByte_gr_ (k : Nat) (b : Byte) (j : Nat) : (s.wrByte k b).gr j = s.gr j := Eq.trans rfl rfl
@[simp] theorem State.wrByte_reg (k : Nat) (b : Byte) (a : Nat) : (s.wrByte k b).reg a = s.reg a := Eq.trans rfl rfl
@[simp] theorem State.wrByte_fld (k : Nat) (b : Byte) (f : Fld) : (s.wrByte k b).fld f = s.fld f := Eq.trans rfl rfl
@[simp] theorem State.wrByte_sub (k : Nat) (b : Byte) (a w i : Nat) : (s.wrByte k b).sub a w i = s.sub a w i := Eq.trans rfl rfl

/-! ### emit -/

@[simp] theorem State.emit_pending (o : Out) : (s.emit o).pending = s.pending := Eq.trans rfl rfl
@[simp] theorem State.emit_now (o : Out) : (s.emit o).now = s.now := Eq.trans rfl rfl
@[simp] theorem State.emit_free (o : Out) : (s.emit o).free = s.free := Eq.trans rfl rfl
@[simp] theorem State.emit_mode (o : Out) : (s.emit o).mode = s.mode := Eq.trans rfl rfl
@[simp] theorem State.emit_drip (o : Out) : (s.emit o).drip = s.drip := Eq.trans rfl rfl
@[simp] theorem State.emit_csr (o : Out) : (s.emit o).csr = s.csr := Eq.trans rfl rfl
@[simp] theorem State.emit_mem (o : Out) : (s.emit o).mem = s.mem := Eq.trans rfl rfl
@[simp] theorem State.emit_poison (o : Out) : (s.emit o).poison = s.poison := Eq.trans rfl rfl
@[simp] theorem State.emit_gpoison (o : Out) : (s.emit o).gpoison = s.gpoison := Eq.trans rfl rfl
@[simp] theorem State.emit_ueLog (o : Out) : (s.emit o).ueLog = s.ueLog := Eq.trans rfl rfl
@[simp] theorem State.emit_zeroed (o : Out) : (s.emit o).zeroed = s.zeroed := Eq.trans rfl rfl
@[simp] theorem State.emit_force (o : Out) : (s.emit o).force = s.force := Eq.trans rfl rfl
@[simp] theorem State.emit_ctxs (o : Out) : (s.emit o).ctxs = s.ctxs := Eq.trans rfl rfl
@[simp] theorem State.emit_cores (o : Out) : (s.emit o).cores = s.cores := Eq.trans rfl rfl
@[simp] theorem State.emit_tasks (o : Out) : (s.emit o).tasks = s.tasks := Eq.trans rfl rfl
@[simp] theorem State.emit_rts (o : Out) : (s.emit o).rts = s.rts := Eq.trans rfl rfl
@[simp] theorem State.emit_dirs (o : Out) : (s.emit o).dirs = s.dirs := Eq.trans rfl rfl
@[simp] theorem State.emit_gms (o : Out) : (s.emit o).gms = s.gms := Eq.trans rfl rfl
@[simp] theorem State.emit_mxes (o : Out) : (s.emit o).mxes = s.mxes := Eq.trans rfl rfl
@[simp] theorem State.emit_curs (o : Out) : (s.emit o).curs = s.curs := Eq.trans rfl rfl
@[simp] theorem State.emit_mctxs (o : Out) : (s.emit o).mctxs = s.mctxs := Eq.trans rfl rfl
@[simp] theorem State.emit_net (o : Out) : (s.emit o).net = s.net := Eq.trans rfl rfl
@[simp] theorem State.emit_answers (o : Out) : (s.emit o).answers = s.answers := Eq.trans rfl rfl
@[simp] theorem State.emit_crets (o : Out) : (s.emit o).crets = s.crets := Eq.trans rfl rfl
@[simp] theorem State.emit_rings (o : Out) : (s.emit o).rings = s.rings := Eq.trans rfl rfl
@[simp] theorem State.emit_unans (o : Out) : (s.emit o).unans = s.unans := Eq.trans rfl rfl
@[simp] theorem State.emit_cqs (o : Out) : (s.emit o).cqs = s.cqs := Eq.trans rfl rfl
@[simp] theorem State.emit_turns (o : Out) : (s.emit o).turns = s.turns := Eq.trans rfl rfl
@[simp] theorem State.emit_tfes (o : Out) : (s.emit o).tfes = s.tfes := Eq.trans rfl rfl
@[simp] theorem State.emit_pkts (o : Out) : (s.emit o).pkts = s.pkts := Eq.trans rfl rfl
@[simp] theorem State.emit_rtrs (o : Out) : (s.emit o).rtrs = s.rtrs := Eq.trans rfl rfl
@[simp] theorem State.emit_sv (o : Out) : (s.emit o).sv = s.sv := Eq.trans rfl rfl
@[simp] theorem State.emit_mss (o : Out) : (s.emit o).mss = s.mss := Eq.trans rfl rfl
@[simp] theorem State.emit_ports (o : Out) : (s.emit o).ports = s.ports := Eq.trans rfl rfl
@[simp] theorem State.emit_lamps (o : Out) : (s.emit o).lamps = s.lamps := Eq.trans rfl rfl
@[simp] theorem State.emit_ptp (o : Out) : (s.emit o).ptp = s.ptp := Eq.trans rfl rfl
@[simp] theorem State.emit_mrs (o : Out) : (s.emit o).mrs = s.mrs := Eq.trans rfl rfl
@[simp] theorem State.emit_host (o : Out) : (s.emit o).host = s.host := Eq.trans rfl rfl
@[simp] theorem State.emit_sec (o : Out) : (s.emit o).sec = s.sec := Eq.trans rfl rfl
@[simp] theorem State.emit_boot (o : Out) : (s.emit o).boot = s.boot := Eq.trans rfl rfl
@[simp] theorem State.emit_tst (o : Out) : (s.emit o).tst = s.tst := Eq.trans rfl rfl
@[simp] theorem State.emit_fr (o : Out) : (s.emit o).fr = s.fr := Eq.trans rfl rfl
@[simp] theorem State.emit_pwr (o : Out) : (s.emit o).pwr = s.pwr := Eq.trans rfl rfl
@[simp] theorem State.emit_greset (o : Out) : (s.emit o).greset = s.greset := Eq.trans rfl rfl
@[simp] theorem State.emit_bud_ (o : Out) (j : Nat) : (s.emit o).bud j = s.bud j := Eq.trans rfl rfl
@[simp] theorem State.emit_ctx_ (o : Out) (j : Nat) : (s.emit o).ctx j = s.ctx j := Eq.trans rfl rfl
@[simp] theorem State.emit_core_ (o : Out) (j : Nat) : (s.emit o).core j = s.core j := Eq.trans rfl rfl
@[simp] theorem State.emit_task_ (o : Out) (j : Nat) : (s.emit o).task j = s.task j := Eq.trans rfl rfl
@[simp] theorem State.emit_rt_ (o : Out) (j : Nat) : (s.emit o).rt j = s.rt j := Eq.trans rfl rfl
@[simp] theorem State.emit_dir_ (o : Out) (j : Nat) : (s.emit o).dir j = s.dir j := Eq.trans rfl rfl
@[simp] theorem State.emit_gm_ (o : Out) (j : Nat) : (s.emit o).gm j = s.gm j := Eq.trans rfl rfl
@[simp] theorem State.emit_mxe_ (o : Out) (j : Nat) : (s.emit o).mxe j = s.mxe j := Eq.trans rfl rfl
@[simp] theorem State.emit_cur_ (o : Out) (j : Nat) : (s.emit o).cur j = s.cur j := Eq.trans rfl rfl
@[simp] theorem State.emit_mctx_ (o : Out) (j : Nat) : (s.emit o).mctx j = s.mctx j := Eq.trans rfl rfl
@[simp] theorem State.emit_ring_ (o : Out) (j : Nat) : (s.emit o).ring j = s.ring j := Eq.trans rfl rfl
@[simp] theorem State.emit_una_ (o : Out) (j : Nat) : (s.emit o).una j = s.una j := Eq.trans rfl rfl
@[simp] theorem State.emit_cq_ (o : Out) (j : Nat) : (s.emit o).cq j = s.cq j := Eq.trans rfl rfl
@[simp] theorem State.emit_tfe_ (o : Out) (j : Nat) : (s.emit o).tfe j = s.tfe j := Eq.trans rfl rfl
@[simp] theorem State.emit_rtr_ (o : Out) (j : Nat) : (s.emit o).rtr j = s.rtr j := Eq.trans rfl rfl
@[simp] theorem State.emit_ms_ (o : Out) (j : Nat) : (s.emit o).ms j = s.ms j := Eq.trans rfl rfl
@[simp] theorem State.emit_port_ (o : Out) (j : Nat) : (s.emit o).port j = s.port j := Eq.trans rfl rfl
@[simp] theorem State.emit_lamp_ (o : Out) (j : Nat) : (s.emit o).lamp j = s.lamp j := Eq.trans rfl rfl
@[simp] theorem State.emit_gr_ (o : Out) (j : Nat) : (s.emit o).gr j = s.gr j := Eq.trans rfl rfl
@[simp] theorem State.emit_reg (o : Out) (a : Nat) : (s.emit o).reg a = s.reg a := Eq.trans rfl rfl
@[simp] theorem State.emit_fld (o : Out) (f : Fld) : (s.emit o).fld f = s.fld f := Eq.trans rfl rfl
@[simp] theorem State.emit_sub (o : Out) (a w i : Nat) : (s.emit o).sub a w i = s.sub a w i := Eq.trans rfl rfl
@[simp] theorem State.emit_rdByte (o : Out) (j : Nat) : (s.emit o).rdByte j = s.rdByte j := Eq.trans rfl rfl

end Sys2Proof.Machine
end

