-- ==== Sys2Proof/Laws/Reg.lean ====
section
/-! SUPPORT. The register file: a field reads as it was written, every other field and every other register as before. -/

namespace Sys2Proof.Machine

theorem getBits_testBit (v : Word) (lo w i : Nat) :
    (getBits v lo w).testBit i = (decide (i < w) && v.getLsbD (lo + i)) := by
  simp [getBits, Nat.testBit_mod_two_pow, Nat.testBit_shiftRight, BitVec.getLsbD]

theorem putBits_getLsbD (v : Word) (lo w n i : Nat) (hi : i < 64) :
    (putBits v lo w n).getLsbD i = if lo ≤ i ∧ i < lo + w then n.testBit (i - lo) else v.getLsbD i := by
  simp only [putBits, BitVec.getLsbD_or, BitVec.getLsbD_and, BitVec.getLsbD_not, BitVec.getLsbD_ofNat,
    Nat.testBit_shiftLeft, Nat.testBit_mod_two_pow, Nat.testBit_two_pow_sub_one, hi, decide_true, Bool.true_and]
  by_cases h1 : lo ≤ i <;> by_cases h2 : i < lo + w
  · have : i - lo < w := by omega
    simp [h1, h2, this]
  · have : ¬ i - lo < w := by omega
    simp [h1, h2, this]
  · simp [h1]
  · simp [h1]

/-- A field just written reads as the low bits of what was written. -/
theorem getBits_putBits_same (v : Word) {lo w n : Nat} (h : lo + w ≤ 64) : getBits (putBits v lo w n) lo w = n % 2 ^ w := by
  apply Nat.eq_of_testBit_eq
  intro i
  rw [getBits_testBit, Nat.testBit_mod_two_pow]
  by_cases hi : i < w
  · simp [hi, putBits_getLsbD _ _ _ _ _ (show lo + i < 64 by omega)]
  · simp [hi]

/-- A field that shares no bit with the one written reads as before. -/
theorem getBits_putBits_ne (v : Word) {lo w n lo' w' : Nat} (h : lo' + w' ≤ 64) (hd : lo' + w' ≤ lo ∨ lo + w ≤ lo') :
    getBits (putBits v lo w n) lo' w' = getBits v lo' w' := by
  apply Nat.eq_of_testBit_eq
  intro i
  rw [getBits_testBit, getBits_testBit]
  by_cases hi : i < w'
  · have : ¬ (lo ≤ lo' + i ∧ lo' + i < lo + w) := by omega
    simp [hi, putBits_getLsbD _ _ _ _ _ (show lo' + i < 64 by omega), this]
  · simp [hi]

variable (s : State)

@[simp] theorem State.setReg_reg_same (a : Nat) (w : Word) : (s.setReg a w).reg a = w := by
  simp [State.setReg, State.reg]

theorem State.setReg_reg_ne {a b : Nat} (w : Word) (h : b ≠ a) : (s.setReg a w).reg b = s.reg b := by
  simp [State.setReg, State.reg, SMap.get_put_ne _ _ _ _ h]

theorem State.setReg_reg (a b : Nat) (w : Word) : (s.setReg a w).reg b = if b = a then w else s.reg b := by
  by_cases h : b = a
  · subst h; simp
  · simp [State.setReg_reg_ne, h]

theorem State.setFld_reg_ne {f : Fld} {b : Nat} (n : Nat) (h : b ≠ f.addr) : (s.setFld f n).reg b = s.reg b :=
  State.setReg_reg_ne s _ h

theorem State.setFld_fld_same {f : Fld} (n : Nat) (h : f.lo + f.width ≤ 64) : (s.setFld f n).fld f = n % 2 ^ f.width := by
  simp [State.setFld, State.fld, getBits_putBits_same _ h]

/-- A field of another register, or one that shares no bit, reads as before. -/
theorem State.setFld_fld_ne {f g : Fld} (n : Nat) (hg : g.lo + g.width ≤ 64)
    (h : g.addr ≠ f.addr ∨ g.lo + g.width ≤ f.lo ∨ f.lo + f.width ≤ g.lo) : (s.setFld f n).fld g = s.fld g := by
  by_cases ha : g.addr = f.addr
  · have hb : g.lo + g.width ≤ f.lo ∨ f.lo + f.width ≤ g.lo := by simpa [ha] using h
    simp [State.setFld, State.fld, ha, getBits_putBits_ne _ hg hb]
  · simp [State.fld, State.setFld_reg_ne s n ha]

theorem State.setReg_fld_ne {a : Nat} {g : Fld} (w : Word) (h : g.addr ≠ a) : (s.setReg a w).fld g = s.fld g := by
  simp [State.fld, State.setReg_reg_ne s w h]

@[simp] theorem State.setReg_fld_same (g : Fld) (w : Word) : (s.setReg g.addr w).fld g = getBits w g.lo g.width := by
  simp [State.fld]

theorem State.clearRange_reg {lo hi a : Nat} (h : a < lo ∨ hi ≤ a) : (s.clearRange lo hi).reg a = s.reg a := by
  have key : ∀ m : SMap Word, SMap.find? (m.filter (fun p => decide (p.1 < lo) || decide (hi ≤ p.1))) a = SMap.find? m a := by
    intro m
    induction m with
    | nil => rfl
    | cons p m ih =>
      obtain ⟨i, v⟩ := p
      by_cases hp : i < lo ∨ hi ≤ i
      · simp [hp, SMap.find?, ih]
      · have : i ≠ a := by omega
        simp [hp, SMap.find?, ih, this]
  simp [State.clearRange, State.reg, SMap.get, key]

/-- Every register of the range reads its reset value. -/
theorem State.clearRange_reg_in {lo hi a : Nat} (h : lo ≤ a ∧ a < hi) : (s.clearRange lo hi).reg a = resetOf a := by
  have key : ∀ m : SMap Word, SMap.find? (m.filter (fun p => decide (p.1 < lo) || decide (hi ≤ p.1))) a = none := by
    intro m
    induction m with
    | nil => rfl
    | cons p m ih =>
      obtain ⟨i, v⟩ := p
      by_cases hp : i < lo ∨ hi ≤ i
      · have : i ≠ a := by omega
        simp [hp, SMap.find?, ih, this]
      · simp [hp, ih]
  simp [State.clearRange, State.reg, SMap.get, key]

end Sys2Proof.Machine
end

