-- ==== Sys2Proof/Laws/Memory.lean ====
section
/-! SUPPORT. Memory: a read after a write gives what was written, a write leaves every other byte alone, and every operation
on memory keeps its canonical form. -/

namespace Sys2Proof.Machine

variable (s : State)

@[simp] theorem State.wrByte_rdByte_same (k : Nat) (b : Byte) : (s.wrByte k b).rdByte k = b := by
  simp [State.wrByte, State.rdByte]

theorem State.wrByte_rdByte_ne {k j : Nat} (b : Byte) (h : j ≠ k) : (s.wrByte k b).rdByte j = s.rdByte j := by
  simp [State.wrByte, State.rdByte, SMap.get_put_ne _ _ _ _ h]

/-- A write leaves every byte outside it alone. -/
theorem State.wrBytes_rdByte_ne (bs : List Byte) : ∀ (s : State) (k : Nat) {j : Nat}, (j < k ∨ k + bs.length ≤ j) →
    (s.wrBytes k bs).rdByte j = s.rdByte j := by
  induction bs with
  | nil => intro s k j _; rfl
  | cons b bs ih =>
    intro s k j h
    simp only [List.length_cons] at h
    rw [State.wrBytes, ih _ _ (by omega), State.wrByte_rdByte_ne _ _ (by omega)]

theorem State.wrBytes_rdByte_at (bs : List Byte) : ∀ (s : State) (k i : Nat) (h : i < bs.length),
    (s.wrBytes k bs).rdByte (k + i) = bs[i] := by
  induction bs with
  | nil => intro s k i h; simp at h
  | cons b bs ih =>
    intro s k i h
    cases i with
    | zero =>
      rw [State.wrBytes, State.wrBytes_rdByte_ne _ _ _ (by omega)]
      simp
    | succ i =>
      have := ih (s.wrByte k b) (k + 1) i (by simpa using h)
      rw [show k + (i + 1) = k + 1 + i by omega, State.wrBytes, this]
      rfl

@[simp] theorem State.rdBytes_length (n : Nat) : ∀ (s : State) (k : Nat), (s.rdBytes k n).length = n := by
  induction n with
  | zero => intro s k; rfl
  | succ n ih => intro s k; simp [State.rdBytes, ih]

theorem State.rdBytes_getElem (n : Nat) : ∀ (s : State) (k i : Nat) (h : i < (s.rdBytes k n).length),
    (s.rdBytes k n)[i] = s.rdByte (k + i) := by
  induction n with
  | zero => intro s k i h; simp at h
  | succ n ih =>
    intro s k i h
    cases i with
    | zero => simp [State.rdBytes]
    | succ i =>
      simp only [State.rdBytes, List.getElem_cons_succ, ih]
      rw [show k + 1 + i = k + (i + 1) by omega]

/-- Bytes just written read back. -/
theorem State.wrBytes_rdBytes (bs : List Byte) (s : State) (k : Nat) : (s.wrBytes k bs).rdBytes k bs.length = bs := by
  apply List.ext_getElem (by simp)
  intro i h1 h2
  rw [State.rdBytes_getElem, State.wrBytes_rdByte_at bs s k i h2]

theorem State.rdBytes_congr {s t : State} {n k : Nat} (h : ∀ i < n, t.rdByte (k + i) = s.rdByte (k + i)) :
    t.rdBytes k n = s.rdBytes k n := by
  apply List.ext_getElem (by simp)
  intro i h1 h2
  rw [State.rdBytes_getElem, State.rdBytes_getElem, h i (by simpa using h1)]

/-! ### A write of bytes changes memory only -/

theorem State.wrBytes_only (bs : List Byte) : ∀ (s : State) (k : Nat),
    s.wrBytes k bs = s.withMem (s.wrBytes k bs).mem := by
  induction bs with
  | nil => intro s k; exact Eq.trans rfl rfl
  | cons b bs ih =>
    intro s k
    rw [State.wrBytes, ih]
    exact Eq.trans rfl rfl

@[simp] theorem State.wrBytes_reg (s : State) (k : Nat) (bs : List Byte) (a : Nat) : (s.wrBytes k bs).reg a = s.reg a := by
  rw [State.wrBytes_only, State.withMem_reg]

@[simp] theorem State.wrBytes_ctx (s : State) (k : Nat) (bs : List Byte) (j : Nat) : (s.wrBytes k bs).ctx j = s.ctx j := by
  rw [State.wrBytes_only, State.withMem_ctx_]

@[simp] theorem State.wrBytes_mctx (s : State) (k : Nat) (bs : List Byte) (j : Nat) : (s.wrBytes k bs).mctx j = s.mctx j := by
  rw [State.wrBytes_only, State.withMem_mctx_]

/-! ### Canonical form -/

theorem SMap.above_filter {α : Type} (p : Nat × α → Bool) {m : SMap α} {k : Nat} (h : SMap.above k m = true) :
    SMap.above k (m.filter p) = true := by
  induction m with
  | nil => rfl
  | cons q m ih =>
    obtain ⟨i, v⟩ := q
    simp only [SMap.above, Bool.and_eq_true, decide_eq_true_eq] at h
    by_cases hp : p (i, v) = true
    · simp [hp, SMap.above, h.1, ih h.2]
    · simp [hp, ih h.2]

theorem SMap.wf_filter {α : Type} [DecidableEq α] {d : Nat → α} (p : Nat × α → Bool) {m : SMap α}
    (h : SMap.wf d m = true) : SMap.wf d (m.filter p) = true := by
  induction m with
  | nil => rfl
  | cons q m ih =>
    obtain ⟨i, v⟩ := q
    simp only [SMap.wf, Bool.and_eq_true, decide_eq_true_eq] at h
    by_cases hp : p (i, v) = true
    · simp [hp, SMap.wf, h.1.2, ih h.2, SMap.above_filter p h.1.1]
    · simp [hp, ih h.2]

theorem Memory.wf_wrByte {s : State} (h : Memory.wf s.mem = true) (k : Nat) (b : Byte) :
    Memory.wf (s.wrByte k b).mem = true := by
  rw [State.wrByte, State.withMem_mem]
  exact SMap.wf_put (d := fun _ => unlisted) h k b

theorem Memory.wf_wrBytes (bs : List Byte) : ∀ {s : State}, Memory.wf s.mem = true → ∀ k,
    Memory.wf (s.wrBytes k bs).mem = true := by
  induction bs with
  | nil => intro s h k; exact h
  | cons b bs ih => intro s h k; exact ih (Memory.wf_wrByte h k b) (k + 1)

theorem Memory.wf_wrNat {s : State} (h : Memory.wf s.mem = true) (k n v : Nat) : Memory.wf (s.wrNat k n v).mem = true :=
  Memory.wf_wrBytes _ h k

theorem Memory.wf_zeroRange {s : State} (h : Memory.wf s.mem = true) (lo hi : Nat) :
    Memory.wf (s.zeroRange lo hi).mem = true := by
  rw [State.zeroRange, State.withMem_mem]
  exact SMap.wf_filter _ h

theorem Memory.wf_zeroSlice {s : State} (h : Memory.wf s.mem = true) (site k : Nat) :
    Memory.wf (s.zeroSlice site k).mem = true := by
  simp only [State.zeroSlice, State.withMem_mem, State.withGpoison_mem]
  exact SMap.wf_filter _ h

/-- Memory after reset is in canonical form. -/
theorem Memory.wf_reset : Memory.wf State.reset.mem = true := by decide

end Sys2Proof.Machine
end

