-- ==== Sys2Proof/Laws/Records.lean ====
section
/-! SUPPORT. What the raising of a record leaves alone, once for all commands; how `Keeps` composes; and where a write of a
register that lands arrives. -/

namespace Sys2Proof.Machine

variable {s t u : State}

/-! ## Records -/

/-- Everything that a record touches: the record registers, host memory, the store, the search of a replay, the output. -/
structure RecOnly (s t : State) : Prop where
  rest : t = { s with csr := t.csr, mem := t.mem, host := t.host, fr := { s.fr with echo := t.fr.echo }, out := t.out }
  regs : ∀ a, a ∉ recordRegs → t.reg a = s.reg a
  bytes : ∀ a, a < hostKey 0 → t.rdByte a = s.rdByte a

theorem RecOnly.refl (s : State) : RecOnly s s := ⟨Eq.trans rfl rfl, fun _ _ => Eq.trans rfl rfl, fun _ _ => Eq.trans rfl rfl⟩

theorem RecOnly.trans (h1 : RecOnly s t) (h2 : RecOnly t u) : RecOnly s u := by
  refine ⟨?_, fun a ha => (h2.regs a ha).trans (h1.regs a ha), fun a ha => (h2.bytes a ha).trans (h1.bytes a ha)⟩
  have e1 := h1.rest
  have e2 := h2.rest
  rw [e2, e1]

theorem RecOnly.withHost (s : State) (x : HostSt) : RecOnly s (s.withHost x) :=
  ⟨Eq.trans rfl rfl, fun _ _ => Eq.trans rfl rfl, fun _ _ => Eq.trans rfl rfl⟩

theorem RecOnly.emit (s : State) (o : Out) : RecOnly s (s.emit o) :=
  ⟨Eq.trans rfl rfl, fun _ _ => Eq.trans rfl rfl, fun _ _ => Eq.trans rfl rfl⟩

theorem RecOnly.setReg (s : State) {a : Nat} (w : Word) (h : a ∈ recordRegs) : RecOnly s (s.setReg a w) :=
  ⟨Eq.trans rfl rfl, fun _ hb => State.setReg_reg_ne s w (fun e => hb (e ▸ h)), fun _ _ => Eq.trans rfl rfl⟩

theorem RecOnly.setFld (s : State) {f : Fld} (n : Nat) (h : f.addr ∈ recordRegs) : RecOnly s (s.setFld f n) :=
  RecOnly.setReg s _ h
theorem RecOnly.addFld (s : State) {f : Fld} (n : Nat) (h : f.addr ∈ recordRegs) : RecOnly s (s.addFld f n) :=
  RecOnly.setReg s _ h
theorem RecOnly.bumpFld (s : State) {f : Fld} (n : Nat) (h : f.addr ∈ recordRegs) : RecOnly s (s.bumpFld f n) :=
  RecOnly.setReg s _ h

theorem RecOnly.wrHost (s : State) (p : Nat) (bs : List Byte) : RecOnly s (s.wrBytes (hostKey p) bs) := by
  refine ⟨?_, fun a _ => by simp, fun a ha => ?_⟩
  · have := State.wrBytes_only bs s (hostKey p)
    rw [this]
    exact Eq.trans rfl rfl
  · refine State.wrBytes_rdByte_ne bs s _ (Or.inl (Nat.lt_of_lt_of_le ha ?_))
    simp only [hostKey]; omega

theorem RecOnly.fireVector (s : State) (vec coal : Nat) : RecOnly s (s.fireVector vec coal) := by
  unfold State.fireVector
  split
  · split
    · exact RecOnly.emit s _
    · exact RecOnly.withHost s _
  · split
    · exact RecOnly.withHost s _
    · exact RecOnly.refl s

theorem RecOnly.hostErr (s : State) (r : ErrRec) : RecOnly s (s.hostErr r) := by
  unfold State.hostErr
  split
  · dsimp only
    split
    · exact RecOnly.addFld s _ (by decide)
    · exact ((RecOnly.wrHost s _ _).trans (RecOnly.bumpFld _ _ (by decide))).trans (RecOnly.fireVector _ _ _)
  · exact RecOnly.refl s

theorem RecOnly.keepRec (s : State) (r : ErrRec) : RecOnly s (s.keepRec r) := by
  have h : ∀ (b : Bool) (f : State → HostSt) (n : Nat), RecOnly s
      (((fun v : State => v.withHost (f v)) (if b = true then s.addFld R.MGMT_CNT_LOST 1 else s)).setFld R.MGMT_STATUS_HELD n) := by
    intro b f n
    refine RecOnly.trans ?_ (RecOnly.setFld _ _ (by decide))
    cases b
    · exact RecOnly.withHost s _
    · exact (RecOnly.addFld s (f := R.MGMT_CNT_LOST) 1 (by decide)).trans (RecOnly.withHost _ _)
  exact h (decide (s.host.store.length ≥ 4096)) (fun v => { v.host with
    store := (if decide (s.host.store.length ≥ 4096) then dropOldest s.host.store else s.host.store) ++ [r]
    held := (s.host.held.filter (fun q => (if decide (s.host.store.length ≥ 4096) then dropOldest s.host.store
      else s.host.store).any (fun x => x.seq == q))) ++ [r.seq] }) _

theorem RecOnly.recEvent (s : State) (r : ErrRec) : RecOnly s (s.recEvent r) := by
  unfold State.recEvent
  split
  · exact RecOnly.refl s
  · dsimp only
    split
    · exact ((RecOnly.withHost s _).trans (RecOnly.emit _ _)).trans (RecOnly.emit _ _)
    · exact (RecOnly.withHost s _).trans (RecOnly.emit _ _)

theorem RecOnly.queueRec (s : State) (r : ErrRec) : RecOnly s (s.queueRec r) := by
  unfold State.queueRec
  exact (((RecOnly.bumpFld s (f := R.MGMT_STATUS_SEQ) 1 (by decide)).trans (RecOnly.keepRec _ _)).trans
    (RecOnly.hostErr _ _)).trans (RecOnly.recEvent _ _)

theorem RecOnly.endFold (s : State) (w : Fold) : RecOnly s (s.endFold w) := by
  unfold State.endFold
  dsimp only
  split
  · exact (RecOnly.withHost s _).trans (RecOnly.queueRec _ _)
  · exact RecOnly.withHost s _

theorem RecOnly.echoSees (s : State) (r : ErrRec) : RecOnly s (s.echoSees r) := by
  unfold State.echoSees
  split
  · split
    · exact ⟨Eq.trans rfl rfl, fun _ _ => Eq.trans rfl rfl, fun _ _ => Eq.trans rfl rfl⟩
    · exact RecOnly.refl s
  · exact RecOnly.refl s

/-- Everything that raising a record can do. -/
theorem RecOnly.raise (s : State) (r : ErrRec) : RecOnly s (s.raise r) := by
  unfold State.raise
  dsimp only
  refine (RecOnly.echoSees s r).trans ?_
  generalize s.echoSees r = e
  split
  · exact RecOnly.withHost e _
  · split
    · exact (RecOnly.queueRec e r).trans (RecOnly.withHost _ _)
    · split
      · exact RecOnly.withHost e _
      · exact ((RecOnly.endFold e _).trans (RecOnly.queueRec _ r)).trans (RecOnly.withHost _ _)

theorem RecOnly.refuse (s : State) (src : Src) (code addr value : Nat) : RecOnly s (s.refuse src code addr value) := by
  unfold State.refuse
  exact RecOnly.raise _ _

/-- What a record leaves of the fields that statements speak of. -/
theorem RecOnly.drip (h : RecOnly s t) : t.drip = s.drip := by rw [h.rest]
theorem RecOnly.ctxs (h : RecOnly s t) : t.ctxs = s.ctxs := by rw [h.rest]
theorem RecOnly.pending (h : RecOnly s t) : t.pending = s.pending := by rw [h.rest]
theorem RecOnly.mode (h : RecOnly s t) : t.mode = s.mode := by rw [h.rest]
theorem RecOnly.now (h : RecOnly s t) : t.now = s.now := by rw [h.rest]
theorem RecOnly.fld (h : RecOnly s t) {f : Fld} (hf : f.addr ∉ recordRegs) : t.fld f = s.fld f := by
  rw [State.fld, State.fld, h.regs f.addr hf]

/-! ## What a command leaves alone -/

theorem Keeps.refl (s : State) (l : List Nat) : Keeps s s l :=
  ⟨fun _ _ _ => Eq.trans rfl rfl, fun _ _ => Eq.trans rfl rfl, Eq.trans rfl rfl, Eq.trans rfl rfl⟩

theorem Keeps.trans {l m : List Nat} (h1 : Keeps s t l) (h2 : Keeps t u m) : Keeps s u (l ++ m) :=
  ⟨fun a ha hr => (h2.regs a (fun h => ha (List.mem_append_right _ h)) hr).trans
      (h1.regs a (fun h => ha (List.mem_append_left _ h)) hr),
    fun a ha => (h2.bytes a ha).trans (h1.bytes a ha), h2.ctxs.trans h1.ctxs, h2.queue.trans h1.queue⟩

theorem Keeps.mono {l m : List Nat} (h : Keeps s t l) (hm : ∀ a, a ∈ l → a ∈ m) : Keeps s t m :=
  ⟨fun a ha hr => h.regs a (fun h => ha (hm a h)) hr, h.bytes, h.ctxs, h.queue⟩

theorem Keeps.setReg (s : State) (a : Nat) (w : Word) : Keeps s (s.setReg a w) [a] :=
  ⟨fun _ hb _ => State.setReg_reg_ne s w (fun e => hb (e ▸ List.mem_singleton.2 rfl)), fun _ _ => Eq.trans rfl rfl,
    Eq.trans rfl rfl, Eq.trans rfl rfl⟩

theorem Keeps.setFld (s : State) (f : Fld) (n : Nat) : Keeps s (s.setFld f n) [f.addr] := Keeps.setReg s _ _
theorem Keeps.addFld (s : State) (f : Fld) (n : Nat) : Keeps s (s.addFld f n) [f.addr] := Keeps.setReg s _ _
theorem Keeps.bumpFld (s : State) (f : Fld) (n : Nat) : Keeps s (s.bumpFld f n) [f.addr] := Keeps.setReg s _ _

/-- A record keeps everything. -/
theorem RecOnly.keeps (h : RecOnly s t) (l : List Nat) : Keeps s t l :=
  ⟨fun a _ hr => h.regs a hr, h.bytes, h.ctxs, h.pending⟩

theorem Keeps.raise (s : State) (r : ErrRec) (l : List Nat) : Keeps s (s.raise r) l := (RecOnly.raise s r).keeps l

end Sys2Proof.Machine
end

