-- ==== Sys2Proof/Laws/Canon.lean ====
section
/-! SUPPORT. What keeps the register file and memory in canonical form: one lemma for each primitive update, and the rule
for a loop; a record keeps it too. -/

namespace Sys2Proof.Machine

variable {s t : State}

/-- Only the register file and memory matter. -/
theorem Canonical.congr (h : Canonical s) (hc : t.csr = s.csr) (hm : t.mem = s.mem) : Canonical t := by
  unfold Canonical at *
  rw [hc, hm]
  exact h

theorem Canonical.withCsr_filter (h : Canonical s) (p : Nat × Word → Bool) : Canonical (s.withCsr (s.csr.filter p)) := by
  refine ⟨?_, ?_⟩
  · rw [State.withCsr_csr]; exact SMap.wf_filter p h.1
  · rw [State.withCsr_mem]; exact h.2

theorem Canonical.withMem (h : Canonical s) {m : List Host.Cell} (hm : Memory.wf m = true) : Canonical (s.withMem m) := by
  refine ⟨?_, ?_⟩
  · rw [State.withMem_csr]; exact h.1
  · rw [State.withMem_mem]; exact hm

theorem Canonical.setReg (h : Canonical s) (a : Nat) (w : Word) : Canonical (s.setReg a w) := by
  refine ⟨?_, ?_⟩
  · rw [State.setReg, State.withCsr_csr]; exact SMap.wf_put (d := resetOf) h.1 a w
  · rw [State.setReg, State.withCsr_mem]; exact h.2

theorem Canonical.setFld (h : Canonical s) (f : Fld) (n : Nat) : Canonical (s.setFld f n) := h.setReg _ _
theorem Canonical.addFld (h : Canonical s) (f : Fld) (n : Nat) : Canonical (s.addFld f n) := h.setReg _ _
theorem Canonical.bumpFld (h : Canonical s) (f : Fld) (n : Nat) : Canonical (s.bumpFld f n) := h.setReg _ _

theorem Canonical.clearRange (h : Canonical s) (lo hi : Nat) : Canonical (s.clearRange lo hi) := h.withCsr_filter _

theorem Canonical.clearRegs : ∀ (l : List Nat) {s : State}, Canonical s → Canonical (s.clearRegs l)
  | [], _, h => h
  | _ :: l, _, h => Canonical.clearRegs l (h.setReg _ _)

theorem Canonical.wrByte (h : Canonical s) (k : Nat) (b : Byte) : Canonical (s.wrByte k b) := by
  refine ⟨?_, Memory.wf_wrByte h.2 k b⟩
  rw [State.wrByte, State.withMem_csr]; exact h.1

theorem Canonical.wrBytes : ∀ (bs : List Byte) {s : State}, Canonical s → ∀ k, Canonical (s.wrBytes k bs)
  | [], _, h, _ => h
  | b :: bs, _, h, k => Canonical.wrBytes bs (h.wrByte k b) (k + 1)

theorem Canonical.wrNat (h : Canonical s) (k n v : Nat) : Canonical (s.wrNat k n v) := Canonical.wrBytes _ h k

theorem Canonical.zeroRange (h : Canonical s) (lo hi : Nat) : Canonical (s.zeroRange lo hi) :=
  h.withMem (SMap.wf_filter _ h.2)

/-! ## Updates of other fields -/

theorem Canonical.withPending (h : Canonical s) (x : List Instr) : Canonical (s.withPending x) :=
  h.congr (State.withPending_csr s _) (State.withPending_mem s _)
theorem Canonical.withNow (h : Canonical s) (x : Nat) : Canonical (s.withNow x) :=
  h.congr (State.withNow_csr s _) (State.withNow_mem s _)
theorem Canonical.withFree (h : Canonical s) (x : Nat) : Canonical (s.withFree x) :=
  h.congr (State.withFree_csr s _) (State.withFree_mem s _)
theorem Canonical.withOut (h : Canonical s) (x : List Out) : Canonical (s.withOut x) :=
  h.congr (State.withOut_csr s _) (State.withOut_mem s _)
theorem Canonical.withMode (h : Canonical s) (x : ModState) : Canonical (s.withMode x) :=
  h.congr (State.withMode_csr s _) (State.withMode_mem s _)
theorem Canonical.withDrip (h : Canonical s) (x : DripSt) : Canonical (s.withDrip x) :=
  h.congr (State.withDrip_csr s _) (State.withDrip_mem s _)
theorem Canonical.withPoison (h : Canonical s) (x : SMap Nat) : Canonical (s.withPoison x) :=
  h.congr (State.withPoison_csr s _) (State.withPoison_mem s _)
theorem Canonical.withGpoison (h : Canonical s) (x : SMap Nat) : Canonical (s.withGpoison x) :=
  h.congr (State.withGpoison_csr s _) (State.withGpoison_mem s _)
theorem Canonical.withUeLog (h : Canonical s) (x : List Nat) : Canonical (s.withUeLog x) :=
  h.congr (State.withUeLog_csr s _) (State.withUeLog_mem s _)
theorem Canonical.withZeroed (h : Canonical s) (x : List Nat) : Canonical (s.withZeroed x) :=
  h.congr (State.withZeroed_csr s _) (State.withZeroed_mem s _)
theorem Canonical.withForce (h : Canonical s) (x : SMap Budget) : Canonical (s.withForce x) :=
  h.congr (State.withForce_csr s _) (State.withForce_mem s _)
theorem Canonical.withCtxs (h : Canonical s) (x : SMap Ctx) : Canonical (s.withCtxs x) :=
  h.congr (State.withCtxs_csr s _) (State.withCtxs_mem s _)
theorem Canonical.withCores (h : Canonical s) (x : SMap CoreSt) : Canonical (s.withCores x) :=
  h.congr (State.withCores_csr s _) (State.withCores_mem s _)
theorem Canonical.withTasks (h : Canonical s) (x : SMap TaskSt) : Canonical (s.withTasks x) :=
  h.congr (State.withTasks_csr s _) (State.withTasks_mem s _)
theorem Canonical.withRts (h : Canonical s) (x : SMap RtSt) : Canonical (s.withRts x) :=
  h.congr (State.withRts_csr s _) (State.withRts_mem s _)
theorem Canonical.withDirs (h : Canonical s) (x : SMap DirSt) : Canonical (s.withDirs x) :=
  h.congr (State.withDirs_csr s _) (State.withDirs_mem s _)
theorem Canonical.withGms (h : Canonical s) (x : SMap GmSt) : Canonical (s.withGms x) :=
  h.congr (State.withGms_csr s _) (State.withGms_mem s _)
theorem Canonical.withMxes (h : Canonical s) (x : SMap MxeSt) : Canonical (s.withMxes x) :=
  h.congr (State.withMxes_csr s _) (State.withMxes_mem s _)
theorem Canonical.withCurs (h : Canonical s) (x : SMap CurSt) : Canonical (s.withCurs x) :=
  h.congr (State.withCurs_csr s _) (State.withCurs_mem s _)
theorem Canonical.withMctxs (h : Canonical s) (x : SMap Ctx) : Canonical (s.withMctxs x) :=
  h.congr (State.withMctxs_csr s _) (State.withMctxs_mem s _)
theorem Canonical.withNet (h : Canonical s) (x : List Rec) : Canonical (s.withNet x) :=
  h.congr (State.withNet_csr s _) (State.withNet_mem s _)
theorem Canonical.withAnswers (h : Canonical s) (x : List Ans) : Canonical (s.withAnswers x) :=
  h.congr (State.withAnswers_csr s _) (State.withAnswers_mem s _)
theorem Canonical.withCrets (h : Canonical s) (x : List Cret) : Canonical (s.withCrets x) :=
  h.congr (State.withCrets_csr s _) (State.withCrets_mem s _)
theorem Canonical.withRings (h : Canonical s) (x : SMap RingSt) : Canonical (s.withRings x) :=
  h.congr (State.withRings_csr s _) (State.withRings_mem s _)
theorem Canonical.withUnans (h : Canonical s) (x : SMap (List Unans)) : Canonical (s.withUnans x) :=
  h.congr (State.withUnans_csr s _) (State.withUnans_mem s _)
theorem Canonical.withCqs (h : Canonical s) (x : SMap (List CqRec)) : Canonical (s.withCqs x) :=
  h.congr (State.withCqs_csr s _) (State.withCqs_mem s _)
theorem Canonical.withTfes (h : Canonical s) (x : SMap TfeSt) : Canonical (s.withTfes x) :=
  h.congr (State.withTfes_csr s _) (State.withTfes_mem s _)
theorem Canonical.withPkts (h : Canonical s) (x : List Pkt) : Canonical (s.withPkts x) :=
  h.congr (State.withPkts_csr s _) (State.withPkts_mem s _)
theorem Canonical.withTurns (h : Canonical s) (x : SMap Nat) : Canonical (s.withTurns x) :=
  h.congr rfl rfl
theorem Canonical.withRtrs (h : Canonical s) (x : SMap RtrSt) : Canonical (s.withRtrs x) :=
  h.congr (State.withRtrs_csr s _) (State.withRtrs_mem s _)
theorem Canonical.withSv (h : Canonical s) (x : SvSt) : Canonical (s.withSv x) :=
  h.congr (State.withSv_csr s _) (State.withSv_mem s _)
theorem Canonical.withMss (h : Canonical s) (x : SMap MsSt) : Canonical (s.withMss x) :=
  h.congr (State.withMss_csr s _) (State.withMss_mem s _)
theorem Canonical.withPorts (h : Canonical s) (x : SMap PortSt) : Canonical (s.withPorts x) :=
  h.congr (State.withPorts_csr s _) (State.withPorts_mem s _)
theorem Canonical.withLamps (h : Canonical s) (x : SMap LampSt) : Canonical (s.withLamps x) :=
  h.congr (State.withLamps_csr s _) (State.withLamps_mem s _)
theorem Canonical.withPtp (h : Canonical s) (x : PtpSt) : Canonical (s.withPtp x) :=
  h.congr (State.withPtp_csr s _) (State.withPtp_mem s _)
theorem Canonical.withMrs (h : Canonical s) (x : SMap MrSt) : Canonical (s.withMrs x) :=
  h.congr (State.withMrs_csr s _) (State.withMrs_mem s _)
theorem Canonical.withHost (h : Canonical s) (x : HostSt) : Canonical (s.withHost x) :=
  h.congr (State.withHost_csr s _) (State.withHost_mem s _)
theorem Canonical.withSec (h : Canonical s) (x : SecSt) : Canonical (s.withSec x) :=
  h.congr (State.withSec_csr s _) (State.withSec_mem s _)
theorem Canonical.withBoot (h : Canonical s) (x : BootSt) : Canonical (s.withBoot x) :=
  h.congr (State.withBoot_csr s _) (State.withBoot_mem s _)
theorem Canonical.withTst (h : Canonical s) (x : TstSt) : Canonical (s.withTst x) :=
  h.congr (State.withTst_csr s _) (State.withTst_mem s _)
theorem Canonical.withFr (h : Canonical s) (x : FrSt) : Canonical (s.withFr x) :=
  h.congr (State.withFr_csr s _) (State.withFr_mem s _)
theorem Canonical.withPwr (h : Canonical s) (x : PwrSt) : Canonical (s.withPwr x) :=
  h.congr (State.withPwr_csr s _) (State.withPwr_mem s _)
theorem Canonical.withGreset (h : Canonical s) (x : SMap GReset) : Canonical (s.withGreset x) :=
  h.congr (State.withGreset_csr s _) (State.withGreset_mem s _)
theorem Canonical.setBud (h : Canonical s) (k : Nat) (x : Budget) : Canonical (s.setBud k x) :=
  h.congr (State.setBud_csr s _ _) (State.setBud_mem s _ _)
theorem Canonical.setCtx (h : Canonical s) (k : Nat) (x : Ctx) : Canonical (s.setCtx k x) :=
  h.congr (State.setCtx_csr s _ _) (State.setCtx_mem s _ _)
theorem Canonical.setCore (h : Canonical s) (k : Nat) (x : CoreSt) : Canonical (s.setCore k x) :=
  h.congr (State.setCore_csr s _ _) (State.setCore_mem s _ _)
theorem Canonical.setTask (h : Canonical s) (k : Nat) (x : TaskSt) : Canonical (s.setTask k x) :=
  h.congr (State.setTask_csr s _ _) (State.setTask_mem s _ _)
theorem Canonical.setRt (h : Canonical s) (k : Nat) (x : RtSt) : Canonical (s.setRt k x) :=
  h.congr (State.setRt_csr s _ _) (State.setRt_mem s _ _)
theorem Canonical.setDir (h : Canonical s) (k : Nat) (x : DirSt) : Canonical (s.setDir k x) :=
  h.congr (State.setDir_csr s _ _) (State.setDir_mem s _ _)
theorem Canonical.setGm (h : Canonical s) (k : Nat) (x : GmSt) : Canonical (s.setGm k x) :=
  h.congr (State.setGm_csr s _ _) (State.setGm_mem s _ _)
theorem Canonical.setMxe (h : Canonical s) (k : Nat) (x : MxeSt) : Canonical (s.setMxe k x) :=
  h.congr (State.setMxe_csr s _ _) (State.setMxe_mem s _ _)
theorem Canonical.setCur (h : Canonical s) (k : Nat) (x : CurSt) : Canonical (s.setCur k x) :=
  h.congr (State.setCur_csr s _ _) (State.setCur_mem s _ _)
theorem Canonical.setMctx (h : Canonical s) (k : Nat) (x : Ctx) : Canonical (s.setMctx k x) :=
  h.congr (State.setMctx_csr s _ _) (State.setMctx_mem s _ _)
theorem Canonical.setRing (h : Canonical s) (k : Nat) (x : RingSt) : Canonical (s.setRing k x) :=
  h.congr (State.setRing_csr s _ _) (State.setRing_mem s _ _)
theorem Canonical.setUna (h : Canonical s) (k : Nat) (x : List Unans) : Canonical (s.setUna k x) :=
  h.congr (State.setUna_csr s _ _) (State.setUna_mem s _ _)
theorem Canonical.setCq (h : Canonical s) (k : Nat) (x : List CqRec) : Canonical (s.setCq k x) :=
  h.congr (State.setCq_csr s _ _) (State.setCq_mem s _ _)
theorem Canonical.setTfe (h : Canonical s) (k : Nat) (x : TfeSt) : Canonical (s.setTfe k x) :=
  h.congr (State.setTfe_csr s _ _) (State.setTfe_mem s _ _)
theorem Canonical.setRtr (h : Canonical s) (k : Nat) (x : RtrSt) : Canonical (s.setRtr k x) :=
  h.congr (State.setRtr_csr s _ _) (State.setRtr_mem s _ _)
theorem Canonical.setMs (h : Canonical s) (k : Nat) (x : MsSt) : Canonical (s.setMs k x) :=
  h.congr (State.setMs_csr s _ _) (State.setMs_mem s _ _)
theorem Canonical.setPort (h : Canonical s) (k : Nat) (x : PortSt) : Canonical (s.setPort k x) :=
  h.congr (State.setPort_csr s _ _) (State.setPort_mem s _ _)
theorem Canonical.setGr (h : Canonical s) (k : Nat) (x : GReset) : Canonical (s.setGr k x) :=
  h.congr (State.setGr_csr s _ _) (State.setGr_mem s _ _)
theorem Canonical.setLamp (h : Canonical s) (k : Nat) (x : LampSt) : Canonical (s.setLamp k x) :=
  h.congr (State.setLamp_csr s _ _) (State.setLamp_mem s _ _)
theorem Canonical.emit (h : Canonical s) (o : Out) : Canonical (s.emit o) :=
  h.congr (State.emit_csr s _) (State.emit_mem s _)

/-- A loop whose body keeps the form keeps it. -/
theorem Canonical.foldl {α : Type} {f : State → α → State} (hf : ∀ u x, Canonical u → Canonical (f u x)) :
    ∀ (l : List α) {s : State}, Canonical s → Canonical (l.foldl f s)
  | [], _, h => h
  | x :: l, _, h => Canonical.foldl hf l (hf _ x h)

theorem Canonical.fireVector (h : Canonical s) (vec coal : Nat) : Canonical (s.fireVector vec coal) := by
  unfold State.fireVector
  split
  · split
    · exact h.emit _
    · exact h.withHost _
  · split
    · exact h.withHost _
    · exact h

theorem Canonical.hostErr (h : Canonical s) (r : ErrRec) : Canonical (s.hostErr r) := by
  unfold State.hostErr
  split
  · dsimp only
    split
    · exact h.addFld _ _
    · exact ((Canonical.wrBytes r.bytes h _).bumpFld _ _).fireVector _ _
  · exact h

theorem Canonical.keepRec (h : Canonical s) (r : ErrRec) : Canonical (s.keepRec r) := by
  have key : ∀ (b : Bool) (f : State → HostSt) (n : Nat), Canonical
      (((fun v : State => v.withHost (f v)) (if b = true then s.addFld R.MGMT_CNT_LOST 1 else s)).setFld R.MGMT_STATUS_HELD n) := by
    intro b f n
    refine Canonical.setFld ?_ _ _
    cases b
    · exact h.withHost _
    · exact (h.addFld R.MGMT_CNT_LOST 1).withHost _
  exact key (decide (s.host.store.length ≥ 4096)) (fun v => { v.host with
    store := (if decide (s.host.store.length ≥ 4096) then dropOldest s.host.store else s.host.store) ++ [r]
    held := (s.host.held.filter (fun q => (if decide (s.host.store.length ≥ 4096) then dropOldest s.host.store
      else s.host.store).any (fun x => x.seq == q))) ++ [r.seq] }) _

theorem Canonical.recEvent (h : Canonical s) (r : ErrRec) : Canonical (s.recEvent r) := by
  unfold State.recEvent
  split
  · exact h
  · dsimp only
    split
    · exact ((h.withHost _).emit _).emit _
    · exact (h.withHost _).emit _

theorem Canonical.queueRec (h : Canonical s) (r : ErrRec) : Canonical (s.queueRec r) := by
  unfold State.queueRec
  exact (((h.bumpFld _ _).keepRec _).hostErr _).recEvent _

theorem Canonical.endFold (h : Canonical s) (w : Fold) : Canonical (s.endFold w) := by
  unfold State.endFold
  dsimp only
  split
  · exact (h.withHost _).queueRec _
  · exact h.withHost _

theorem Canonical.raise (h : Canonical s) (r : ErrRec) : Canonical (s.raise r) := by
  unfold State.raise
  dsimp only
  have he : Canonical (s.echoSees r) := by
    unfold State.echoSees
    split
    · split
      · exact h.withFr _
      · exact h
    · exact h
  revert he
  generalize s.echoSees r = e
  intro he
  split
  · exact he.withHost _
  · split
    · exact (he.queueRec r).withHost _
    · split
      · exact he.withHost _
      · exact ((he.endFold _).queueRec r).withHost _

theorem Canonical.refuse (h : Canonical s) (src : Src) (code addr value : Nat) : Canonical (s.refuse src code addr value) := by
  unfold State.refuse
  exact h.raise _

end Sys2Proof.Machine
end

