-- ==== Sys2Proof/Laws/Issue.lean ====
section
/-! SUPPORT. The issue of one instruction: where it goes once the checks, the fetch and the charge are passed, and what a
charge leaves. -/

namespace Sys2Proof.Machine

/-- Four counts of a master are all that a charge adds to. -/
def State.addCharge (s : State) (m : Nat) (c : Charge) : State :=
  (((s.addFld (mUsedCycles m) c.cycles).addFld (mUsedStack m) c.stack).addFld (mUsedPassage m) c.passage).addFld
    (mUsedClassA m) c.classA

/-- A charge that is borne adds to the master's counts and does nothing else. -/
theorem State.charge_ok {s t : State} {m : Nat} {c : Charge} (h : s.charge m c = .ok t) : t = s.addCharge m c := by
  unfold State.charge at h
  simp only at h
  split at h
  · simpa [State.addCharge] using h.symm
  · split at h
    · simp at h
    · split at h
      · simp at h
      · simpa [State.addCharge] using h.symm

theorem State.addFld_reg_ne (s : State) {f : Fld} {b : Nat} (n : Nat) (h : b ≠ f.addr) : (s.addFld f n).reg b = s.reg b :=
  State.setFld_reg_ne s _ h

theorem State.bumpFld_reg_ne (s : State) {f : Fld} {b : Nat} (n : Nat) (h : b ≠ f.addr) :
    (s.bumpFld f n).reg b = s.reg b := State.setFld_reg_ne s _ h

theorem State.addCharge_reg (s : State) {m : Nat} (c : Charge) {a : Nat} (h1 : a ≠ (mUsedCycles m).addr)
    (h2 : a ≠ (mUsedPassage m).addr) : (s.addCharge m c).reg a = s.reg a := by
  unfold State.addCharge
  rw [State.addFld_reg_ne _ _ (f := mUsedClassA m) h2, State.addFld_reg_ne _ _ h2,
    State.addFld_reg_ne _ _ (f := mUsedStack m) h1, State.addFld_reg_ne _ _ h1]

@[simp] theorem State.addCharge_ctx (s : State) (m : Nat) (c : Charge) (k : Nat) : (s.addCharge m c).ctx k = s.ctx k := by
  simp [State.addCharge]
@[simp] theorem State.addCharge_mctx (s : State) (m : Nat) (c : Charge) (k : Nat) : (s.addCharge m c).mctx k = s.mctx k := by
  simp [State.addCharge]

@[simp] theorem State.stampIssue_ctx (s : State) (k j : Nat) : (s.stampIssue k).ctx j = s.ctx j := Eq.trans rfl rfl
@[simp] theorem State.stampIssue_mctx (s : State) (k j : Nat) : (s.stampIssue k).mctx j = s.mctx j := Eq.trans rfl rfl
@[simp] theorem State.stampIssue_reg (s : State) (k a : Nat) : (s.stampIssue k).reg a = s.reg a := Eq.trans rfl rfl
@[simp] theorem State.stampIssue_core (s : State) (k j : Nat) : (s.stampIssue k).core j = s.core j := Eq.trans rfl rfl
@[simp] theorem State.addCharge_core (s : State) (m : Nat) (c : Charge) (k : Nat) : (s.addCharge m c).core k = s.core k :=
  Eq.trans rfl rfl
@[simp] theorem State.stampIssue_mem (s : State) (k : Nat) : (s.stampIssue k).mem = s.mem := Eq.trans rfl rfl

/-- A charge without its cycles is borne where the whole is. -/
theorem State.charge_second {s t : State} {m : Nat} {c : Charge} (h : s.charge m c = .ok t) :
    s.charge m c.second = .ok (s.addCharge m c.second) := by
  have hx : ∀ n, exceeds 0 n = fun _ => false := fun n => by funext l; simp [exceeds]
  have key : ∀ lim, s.overruns m (s.bud m) c lim = 0 → s.overruns m (s.bud m) c.second lim = 0 := by
    intro lim hl
    unfold State.overruns at hl ⊢
    simp only at hl ⊢
    obtain ⟨⟨h1, h2⟩, h3⟩ := (by simpa only [Nat.add_eq_zero_iff] using hl : (_ ∧ _) ∧ _)
    simp only [Charge.second, hx, Bool.and_false, h2, h3]
    rfl
  unfold State.charge at h ⊢
  simp only at h ⊢
  split at h
  · rename_i hv; rw [if_pos hv]; rfl
  · rename_i hv
    rw [if_neg hv]
    split at h
    · simp at h
    · rename_i h1
      split at h
      · simp at h
      · rename_i h2
        simp only [ne_eq, Decidable.not_not] at h1 h2
        have h3 := key _ (Nat.eq_zero_of_add_eq_zero_right h1)
        have h4 := Nat.eq_zero_of_add_eq_zero_left h1
        have h5 := key _ h2
        rw [if_neg (fun hne => hne (Nat.add_eq_zero_iff.mpr ⟨h3, h4⟩)), if_neg (fun hne => hne h5)]
        rfl

/-- What an instruction of a gallery context is charged: the second of a group costs no cycle. -/
def State.charged (s : State) (site core c : Nat) (u : Use) (ch : Charge) : Charge :=
  if s.joins site core (ctxKey site core c) u then ch.second else ch

theorem State.charge_charged {s : State} {site core c : Nat} {ch : Charge} (u : Use) (h : Bears s (.gal site core c) ch) :
    s.charge (s.masterOf site core c) (s.charged site core c u ch) =
      .ok (s.addCharge (s.masterOf site core c) (s.charged site core c u ch)) := by
  obtain ⟨t, ht⟩ := h
  unfold State.charged
  split
  · exact State.charge_second ht
  · rw [ht, State.charge_ok ht]

/-- The state in which the effect of an instruction starts: charged, its context past it, the issue counted and kept as its
core's last group. -/
def State.issued (s : State) (h : Hart) (u : Use) (ch : Charge) (n : Nat) : State :=
  match h with
  | .gal site core c =>
    let k := ctxKey site core c
    let joined := s.joins site core k u
    let t := (s.addCharge (s.masterOf site core c) (s.charged site core c u ch)).setCtx k ((s.ctx k).past h n)
    ((t.setGroup site core (if joined then none else some ⟨k, (s.ctx k).pc + n, s.now, u⟩)).stampIssue k).countIssue site core
      joined
  | _ => s.setHctx h ((s.mHart h).past h n)

theorem CanIssue.fetch {s : State} {site core c : Nat} (hr : CanIssue s (.gal site core c)) :
    ∃ w, s.fetch site core (ctxKey site core c) (s.ctx (ctxKey site core c)) = .hit w ∧ wordIll false w = false := by
  obtain ⟨h1, h2, h3, bs, h4, h5⟩ := hr
  refine ⟨_, ?_, h5⟩
  simp only [State.fetch, h3, h4, Bool.not_true, Bool.false_eq_true, if_false]

theorem State.addCharge_now (s : State) (m : Nat) (c : Charge) : (s.addCharge m c).now = s.now := Eq.trans rfl rfl

theorem State.issued_gal (s : State) (site core c : Nat) (u : Use) (ch : Charge) (n : Nat) :
    s.issued (.gal site core c) u ch n =
      ((((s.addCharge (s.masterOf site core c) (s.charged site core c u ch)).setCtx (ctxKey site core c)
        ((s.ctx (ctxKey site core c)).past (.gal site core c) n)).setGroup site core
          (if s.joins site core (ctxKey site core c) u then none
            else some ⟨ctxKey site core c, (s.ctx (ctxKey site core c)).pc + n, s.now, u⟩)).stampIssue
              (ctxKey site core c)).countIssue site core (s.joins site core (ctxKey site core c) u) := Eq.trans rfl rfl

/-- A context of a gallery that may issue and can pay runs the effect of its instruction. -/
theorem State.leriq_go {s : State} {site core c : Nat} {u : Use} {wide ill : Bool} {body : State → Ctx → Issue} {ch : Charge}
    {eff : State → State} (hr : CanIssue s (.gal site core c))
    (hill : (ill || (wide && (s.ctx (ctxKey site core c)).pc % 8 != 0)) = false)
    (hb : body s (s.ctx (ctxKey site core c)) = .go ch eff) (hc : Bears s (.gal site core c) ch) :
    s.leriq site core c u wide ill body = eff (s.issued (.gal site core c) u ch (if wide then 8 else 4)) := by
  obtain ⟨w, hf, hw⟩ := hr.fetch
  obtain ⟨h1, h2, -⟩ := hr
  have ht := State.charge_charged u hc
  simp only [State.masterOf, State.charged] at ht
  have hill' : (wordIll false w || ill || (wide && (s.ctx (ctxKey site core c)).pc % 8 != 0)) = false := by
    rw [Bool.or_assoc, hill, hw]; rfl
  unfold State.leriq
  simp only
  rw [if_neg (by simp [h1]), if_neg (by simp [h2]), hf]
  simp only [hill', hb, ht, Bool.false_eq_true, if_false]
  rw [State.issued_gal]
  simp only [State.charged, State.masterOf, Ctx.past, State.setCtx_now, State.addCharge_now]

theorem State.mWake_ready {s : State} {h : Hart} (hr : (s.mHart h).st = .ready) : s.mWake h = s := by
  simp [State.mWake, hr]

/-- A Leriq-M context that may issue runs the effect of its instruction. -/
theorem State.leriqM_go {s : State} {h : Hart} {body : State → Ctx → Issue} {ch : Charge} {eff : State → State}
    (h1 : s.mRuns h = true) (h2 : (s.mHart h).st = .ready) (h3 : mFetchOk h (s.mHart h) = true)
    (h4 : wordIll true (s.rdNat (mKey h (s.mHart h).pc) 4) = false) (hb : body s (s.mHart h) = .go ch eff) :
    s.leriqM h false body = eff (s.setHctx h { s.mHart h with st := .ready, pc := (s.mHart h).pc + 4 }) := by
  have hn : ¬ ((s.mHart h).st ≠ .ready ∧ (s.mHart h).st ≠ .stalled .issue) := by simp [h2]
  simp only [State.leriqM, h1, State.mWake_ready h2, if_neg hn, h3, h4, hb, Bool.or_self, Bool.not_true, Bool.false_eq_true, if_false]

/-- Any context that may issue and can pay runs the effect of an instruction of class A, I, M or B. -/
theorem State.run_go {s : State} {h : Hart} {u : Use} {body : State → Ctx → Issue} {ch : Charge} {eff : State → State}
    (hr : CanIssue s h) (hb : body s (s.hctx h) = .go ch eff) (hc : Bears s h ch) :
    s.run h u false body = eff (s.issued h u ch 4) := by
  cases h with
  | gal site core c => exact State.leriq_go hr (by simp) hb hc
  | mgmt c => exact State.leriqM_go hr.1 hr.2.1 hr.2.2.1 hr.2.2.2 hb
  | lantern c => exact State.leriqM_go hr.1 hr.2.1 hr.2.2.1 hr.2.2.2 hb

/-! ### What the issue leaves -/

theorem mHart_setHctx {s : State} {h : Hart} {x : Ctx} (hm : isM h = true) (hx : x.st ≠ .free) : (s.setHctx h x).mHart h = x := by
  cases h with
  | gal => simp [isM] at hm
  | mgmt c => simp [State.setHctx, State.mHart, orStart, hx]
  | lantern c => simp [State.setHctx, State.mHart, orStart, hx]

theorem State.hctx_setHctx {s : State} {h : Hart} {x : Ctx} (hx : x.st ≠ .free) : (s.setHctx h x).hctx h = x := by
  cases h with
  | gal => simp [State.hctx, State.setHctx]
  | mgmt c => exact mHart_setHctx rfl hx
  | lantern c => exact mHart_setHctx rfl hx

theorem State.hctx_setHctx_ne {s : State} {g h : Hart} {x : Ctx} (hk : hartKey g ≠ hartKey h) :
    (s.setHctx h x).hctx g = s.hctx g := by
  cases g <;> cases h <;> simp only [hartKey, ne_eq, Prod.mk.injEq, true_and, mIdx] at hk <;>
    first
    | rfl
    | exact State.setCtx_ctx_ne s _ _ hk
    | (simp only [State.hctx, State.setHctx, State.mHart, mIdx]; rw [State.setMctx_mctx_ne s _ _ hk])

theorem Ctx.past_st (x : Ctx) (h : Hart) (n : Nat) : (x.past h n).st = .ready := by cases h <;> rfl

@[simp] theorem State.setGroup_ctx (s : State) (i j : Nat) (g : Option Group) (k : Nat) :
    (s.setGroup i j g).ctx k = s.ctx k := Eq.trans rfl rfl
@[simp] theorem State.setGroup_mctx (s : State) (i j : Nat) (g : Option Group) (k : Nat) :
    (s.setGroup i j g).mctx k = s.mctx k := Eq.trans rfl rfl
@[simp] theorem State.setGroup_reg (s : State) (i j : Nat) (g : Option Group) (a : Nat) :
    (s.setGroup i j g).reg a = s.reg a := Eq.trans rfl rfl
@[simp] theorem State.setGroup_mem (s : State) (i j : Nat) (g : Option Group) : (s.setGroup i j g).mem = s.mem := Eq.trans rfl rfl

theorem State.setGroup_core (s : State) (i j : Nat) (g : Option Group) (k : Nat) :
    { (s.setGroup i j g).core k with group := (s.core k).group } = s.core k := by
  by_cases hk : k = coreKey i j
  · subst hk; simp [State.setGroup]
  · rw [State.setGroup, State.setCore_core_ne _ _ _ hk]

theorem State.countIssue_reg (s : State) {site core a : Nat} (b : Bool) (h1 : a ≠ (R.CORE_ISSUE_CNT_COUNT site core).addr)
    (h2 : a ≠ (R.CORE_DUAL_CNT_COUNT site core).addr) : (s.countIssue site core b).reg a = s.reg a := by
  cases b
  · exact State.setFld_reg_ne s _ h1
  · exact State.setFld_reg_ne s _ h2

@[simp] theorem State.countIssue_ctx (s : State) (i j : Nat) (b : Bool) (k : Nat) : (s.countIssue i j b).ctx k = s.ctx k := by
  cases b <;> exact Eq.trans rfl rfl
@[simp] theorem State.countIssue_mctx (s : State) (i j : Nat) (b : Bool) (k : Nat) : (s.countIssue i j b).mctx k = s.mctx k := by
  cases b <;> exact Eq.trans rfl rfl
@[simp] theorem State.countIssue_core (s : State) (i j : Nat) (b : Bool) (k : Nat) : (s.countIssue i j b).core k = s.core k := by
  cases b <;> exact Eq.trans rfl rfl
@[simp] theorem State.countIssue_mem (s : State) (i j : Nat) (b : Bool) : (s.countIssue i j b).mem = s.mem := by
  cases b <;> exact Eq.trans rfl rfl

theorem State.issued_m (s : State) {h : Hart} (hm : isM h = true) (u : Use) (ch : Charge) (n : Nat) :
    s.issued h u ch n = s.setHctx h ((s.hctx h).past h n) := by
  cases h with
  | gal => simp [isM] at hm
  | mgmt c => exact Eq.trans rfl rfl
  | lantern c => exact Eq.trans rfl rfl

theorem State.hctx_gal (s : State) (site core c : Nat) : s.hctx (.gal site core c) = s.ctx (ctxKey site core c) := Eq.trans rfl rfl

theorem State.issued_hctx (s : State) (h : Hart) (u : Use) (ch : Charge) (n : Nat) :
    (s.issued h u ch n).hctx h = (s.hctx h).past h n := by
  by_cases hm : isM h = true
  · rw [State.issued_m s hm]
    exact State.hctx_setHctx (by rw [Ctx.past_st]; decide)
  · cases h with
    | gal site core c =>
      rw [State.issued_gal, State.hctx_gal, State.countIssue_ctx, State.stampIssue_ctx, State.setGroup_ctx,
        State.setCtx_ctx_same, State.hctx_gal]
    | mgmt c => exact absurd rfl hm
    | lantern c => exact absurd rfl hm

theorem State.issued_hctx_ne (s : State) {g h : Hart} (u : Use) (ch : Charge) (n : Nat) (hk : hartKey g ≠ hartKey h) :
    (s.issued h u ch n).hctx g = s.hctx g := by
  by_cases hm : isM h = true
  · rw [State.issued_m s hm]
    exact State.hctx_setHctx_ne hk
  · cases h with
    | gal site core c =>
      rw [State.issued_gal]
      cases g with
      | gal a b d =>
        have : ctxKey a b d ≠ ctxKey site core c := by simpa [hartKey] using hk
        rw [State.hctx_gal, State.countIssue_ctx, State.stampIssue_ctx, State.setGroup_ctx, State.setCtx_ctx_ne _ _ _ this,
          State.addCharge_ctx, State.hctx_gal]
      | mgmt d => simp only [State.hctx, State.mHart, State.countIssue_mctx, State.stampIssue_mctx,
          State.setGroup_mctx, State.setCtx_mctx_,
          State.addCharge_mctx]
      | lantern d => simp only [State.hctx, State.mHart, State.countIssue_mctx, State.stampIssue_mctx,
          State.setGroup_mctx, State.setCtx_mctx_,
          State.addCharge_mctx]
    | mgmt c => exact absurd rfl hm
    | lantern c => exact absurd rfl hm

theorem State.setHctx_reg (s : State) (h : Hart) (x : Ctx) (a : Nat) : (s.setHctx h x).reg a = s.reg a := by
  cases h <;> exact Eq.trans rfl rfl

theorem State.setHctx_core (s : State) (h : Hart) (x : Ctx) (k : Nat) : (s.setHctx h x).core k = s.core k := by
  cases h <;> exact Eq.trans rfl rfl

theorem State.setHctx_mem (s : State) (h : Hart) (x : Ctx) : (s.setHctx h x).mem = s.mem := by
  cases h <;> exact Eq.trans rfl rfl

theorem State.issued_reg (s : State) {h : Hart} (u : Use) (ch : Charge) (n : Nat) {a : Nat} (ha : a ∉ issueRegs s h) :
    (s.issued h u ch n).reg a = s.reg a := by
  by_cases hm : isM h = true
  · rw [State.issued_m s hm, State.setHctx_reg]
  · cases h with
    | gal site core c =>
      simp only [issueRegs, List.mem_cons, List.not_mem_nil, or_false, not_or] at ha
      obtain ⟨h1, h2, h3, h4⟩ := ha
      rw [State.issued_gal, State.countIssue_reg _ _ h3 h4, State.stampIssue_reg, State.setGroup_reg, State.setCtx_reg,
        State.addCharge_reg s _ h1 h2]
    | mgmt c => exact absurd rfl hm
    | lantern c => exact absurd rfl hm

/-- A state that differs from another in the fields that an issue touches. -/
def IssueOnly (s t : State) : Prop :=
  t = { s with
    ctxs := t.ctxs, mctxs := t.mctxs, csr := t.csr, cores := t.cores, fr := { s.fr with issued := t.fr.issued } }

theorem IssueOnly.trans {s t u : State} (h1 : IssueOnly s t) (h2 : IssueOnly t u) : IssueOnly s u := by
  unfold IssueOnly at *
  rw [h2, h1]

theorem IssueOnly.setReg (s : State) (a : Nat) (w : Word) : IssueOnly s (s.setReg a w) := Eq.trans rfl rfl
theorem IssueOnly.setFld (s : State) (f : Fld) (n : Nat) : IssueOnly s (s.setFld f n) := IssueOnly.setReg s _ _
theorem IssueOnly.addFld (s : State) (f : Fld) (n : Nat) : IssueOnly s (s.addFld f n) := IssueOnly.setReg s _ _
theorem IssueOnly.bumpFld (s : State) (f : Fld) (n : Nat) : IssueOnly s (s.bumpFld f n) := IssueOnly.setReg s _ _
theorem IssueOnly.setCtx (s : State) (k : Nat) (x : Ctx) : IssueOnly s (s.setCtx k x) := Eq.trans rfl rfl
theorem IssueOnly.setMctx (s : State) (k : Nat) (x : Ctx) : IssueOnly s (s.setMctx k x) := Eq.trans rfl rfl
theorem IssueOnly.setGroup (s : State) (i j : Nat) (g : Option Group) : IssueOnly s (s.setGroup i j g) := Eq.trans rfl rfl
theorem IssueOnly.countIssue (s : State) (i j : Nat) (b : Bool) : IssueOnly s (s.countIssue i j b) := by
  cases b <;> exact IssueOnly.bumpFld _ _ _
theorem IssueOnly.stampIssue (s : State) (k : Nat) : IssueOnly s (s.stampIssue k) := Eq.trans rfl rfl

theorem IssueOnly.setHctx (s : State) (h : Hart) (x : Ctx) : IssueOnly s (s.setHctx h x) := by
  cases h
  · exact IssueOnly.setCtx s _ _
  · exact IssueOnly.setMctx s _ _
  · exact IssueOnly.setMctx s _ _

theorem IssueOnly.addCharge (s : State) (m : Nat) (c : Charge) : IssueOnly s (s.addCharge m c) := by
  unfold State.addCharge
  exact (((IssueOnly.addFld _ _ _).trans (IssueOnly.addFld _ _ _)).trans (IssueOnly.addFld _ _ _)).trans (IssueOnly.addFld _ _ _)

theorem IssueOnly.issued (s : State) (h : Hart) (u : Use) (ch : Charge) (n : Nat) : IssueOnly s (s.issued h u ch n) := by
  by_cases hm : isM h = true
  · rw [State.issued_m s hm]; exact IssueOnly.setHctx _ _ _
  · cases h with
    | gal site core c =>
      rw [State.issued_gal]
      exact ((((IssueOnly.addCharge _ _ _).trans (IssueOnly.setCtx _ _ _)).trans (IssueOnly.setGroup _ _ _ _)).trans
        (IssueOnly.stampIssue _ _)).trans (IssueOnly.countIssue _ _ _ _)
    | mgmt c => exact absurd rfl hm
    | lantern c => exact absurd rfl hm

/-- An issue leaves what a core keeps but its last group. -/
theorem State.issued_core (s : State) (h : Hart) (u : Use) (ch : Charge) (n k : Nat) :
    { (s.issued h u ch n).core k with group := (s.core k).group } = s.core k := by
  by_cases hm : isM h = true
  · rw [State.issued_m s hm, State.setHctx_core]
  · cases h with
    | gal site core c =>
      rw [State.issued_gal, State.countIssue_core, State.stampIssue_core]
      have e := State.setGroup_core ((s.addCharge (s.masterOf site core c) (s.charged site core c u ch)).setCtx
        (ctxKey site core c) ((s.ctx (ctxKey site core c)).past (.gal site core c) n)) site core
      simp only [State.setCtx_core_, State.addCharge_core] at e
      exact e _ k
    | mgmt c => exact absurd rfl hm
    | lantern c => exact absurd rfl hm

/-- An instruction that only changes its own context. -/
theorem State.run_ctx {s : State} {h : Hart} {u : Use} {body : State → Ctx → Issue} {f : Ctx → Ctx} (hr : CanIssue s h)
    (hb : body s (s.hctx h) = Issue.ctx h f) (hc : Bears s h Charge.issue)
    (hf : (f ((s.hctx h).past h 4)).st ≠ .free) :
    OwnContext s (s.run h u false body) h (f ((s.hctx h).past h 4)) := by
  rw [State.run_go hr hb hc]
  have hx := State.issued_hctx s h u Charge.issue 4
  refine ⟨?_, ?_, ?_, ?_, ?_⟩
  · rw [State.modHctx, hx]; exact State.hctx_setHctx hf
  · intro g hg
    rw [State.modHctx, State.hctx_setHctx_ne hg, State.issued_hctx_ne _ _ _ _ hg]
  · intro a ha
    rw [State.modHctx, State.setHctx_reg, State.issued_reg s u Charge.issue 4 ha]
  · intro k
    have : ∀ (t : State) (y : Ctx), (t.setHctx h y).core k = t.core k := fun t y => by cases h <;> rfl
    rw [State.modHctx, this]; exact State.issued_core s h u Charge.issue 4 k
  · exact (IssueOnly.issued _ _ _ _ _).trans (IssueOnly.setHctx _ _ _)

@[simp] theorem Ctx.ws_st (c : Ctx) (i : Nat) (w : Word) : (c.ws i w).st = c.st := by unfold Ctx.ws; split <;> rfl
@[simp] theorem Ctx.wv_st (c : Ctx) (i : Nat) (w : Vec) : (c.wv i w).st = c.st := rfl
@[simp] theorem Ctx.wp_st (c : Ctx) (i : Nat) (w : BitVec 16) : (c.wp i w).st = c.st := rfl
@[simp] theorem Ctx.addFlags_st (c : Ctx) (n : Nat) : (c.addFlags n).st = c.st := rfl
@[simp] theorem Ctx.past_st' (x : Ctx) (h : Hart) (n : Nat) : (x.past h n).st = .ready := Ctx.past_st x h n
@[simp] theorem Ctx.past_rs (x : Ctx) (h : Hart) (n i : Nat) : (x.past h n).rs i = x.rs i := by cases h <;> rfl
@[simp] theorem Ctx.past_rv (x : Ctx) (h : Hart) (n i : Nat) : (x.past h n).rv i = x.rv i := by cases h <;> rfl
@[simp] theorem Ctx.past_rp (x : Ctx) (h : Hart) (n i : Nat) : (x.past h n).rp i = x.rp i := by cases h <;> rfl

end Sys2Proof.Machine
end

