-- ==== Sys2Proof/Laws/RegWrite.lean ====
section
/-! SUPPORT. Where a write of a register arrives: a write of 8 bytes that lands is the effect of its block's rules on the
value that its RW and W1C bits take, or, where the block discards it, the record of a refusal. -/

namespace Sys2Proof.Machine

theorem regAt_block {a : Nat} {f : Found} (h : regAt a = some f) :
    blockAt a = some (f.blk, f.base) ∧ rowAt (rowsOf f.blk) (a - f.base) = some f.row := by
  unfold regAt at h
  split at h
  · cases h
  · rename_i b base hb
    split at h
    · cases h
    · rename_i r hr
      split at h
      · cases h
      · cases h; exact ⟨hb, hr⟩

/-- No register of BRG stands in its raw window. -/
theorem rowAt_plain : ∀ (l : List RegRow) {o n : Nat} {r : RegRow}, (∀ x, x ∈ l → x.dims = [] ∧ x.off < n) →
    rowAt l o = some r → o < n
  | [], _, _, _, _, h => by cases h
  | x :: xs, o, n, r, hl, h => by
    unfold rowAt at h
    split at h
    · rename_i hc
      have hx := hl x (List.mem_cons_self ..)
      rw [hx.1] at hc
      simp [hitDims] at hc
      omega
    · exact rowAt_plain xs (fun y hy => hl y (List.mem_cons_of_mem _ hy)) h

theorem brg_row_low {o : Nat} {r : RegRow} (h : rowAt (rowsOf .BRG) o = some r) : o < 0x10000 :=
  rowAt_plain _ (by decide) h

theorem putBits_all (v : Word) : putBits 0 0 64 v.toNat = v := by
  refine BitVec.eq_of_getLsbD_eq fun i hi => ?_
  rw [putBits_getLsbD _ _ _ _ _ hi]
  simp [hi, BitVec.getLsbD]

variable {s : State} {src : Src} {a : Nat} {f : Found} {v : Word}

/-- The bits that a write of 8 bytes leaves to its block's rules: those that its source may write. -/
def State.covered (s : State) (src : Src) (f : Found) : Word := whole &&& ~~~s.restricted (s.who src) f

/-- A write of 8 bytes that lands: what its block makes of it. -/
theorem State.regWrite_lands (h : Lands s src a f whole v)
    (hc : s.covered src f &&& (BitVec.ofNat 64 (s.rwBits f a) ||| BitVec.ofNat 64 f.row.w1c ||| BitVec.ofNat 64 f.row.wo) ≠ 0) :
    s.regWrite src a 8 v.toNat =
      (s.wrBlock f.blk ⟨src, f.row.reg, a, f.base, (f.place a).1, (f.place a).2, siteAt f.base, s.reg a,
        written s a f (s.covered src f) v, v &&& BitVec.ofNat 64 f.row.wo &&& s.covered src f, s.covered src f⟩).getD
          (s.refuse src 16 a v.toNat) := by
  obtain ⟨hb, hr⟩ := regAt_block h.found
  have hv : v.toNat % 2 ^ (8 * 8) = v.toNat := Nat.mod_eq_of_lt v.isLt
  have ha : a - a % 8 = a := by rw [h.aligned]; rfl
  have hat : s.regWriteAt src a a 8 v.toNat = s.regPut src f a whole v a v.toNat := by
    unfold State.regWriteAt
    have h1 : sizeOk a 8 = true := by simp [sizeOk, h.aligned]
    rw [h1, h.found]
    simp only [Bool.not_true, Bool.false_eq_true, if_false, h.answers, h.aligned, Nat.mul_zero]
    rw [putBits_all v]
    have : putBits 0 0 (8 * 8) (2 ^ (8 * 8) - 1) = whole := by decide
    rw [this]
  have hput : s.regWrite src a 8 v.toNat = s.regPut src f a whole v a v.toNat := by
    unfold State.regWrite
    rw [hv, ha, hb]
    have hl : ¬ (src = .host ∧ (!s.pcieUp) = true) := fun x => by simp [h.link x.1] at x
    rw [if_neg hl]
    have ho : ∀ p q : Prop, ¬ (p ∧ s.boot.hung ≠ [] ∧ q) := fun p q x => x.2.1 h.free
    rw [if_neg (ho _ _)]
    cases hk : f.blk with
    | SEC => rw [hk] at hr; cases hr
    | BRG =>
      rw [hk] at hr
      have := brg_row_low hr
      simp only [hat]
      rw [if_neg (by omega)]
    | _ => exact hat
  rw [hput]
  have hm : ∀ c : Word, (((s.reg a &&& ~~~(BitVec.ofNat 64 (s.rwBits f a) &&& c)) ||| (v &&& BitVec.ofNat 64 (s.rwBits f a) &&& c)) &&&
      ~~~(v &&& BitVec.ofNat 64 f.row.w1c &&& c)) = written s a f c v := by
    intro c
    simp only [written, BitVec.and_assoc]
  unfold State.regPut
  simp only [hm, h.may, h.own]
  simp only [Bool.not_true, Bool.false_eq_true, if_false, ne_eq, not_true_eq_false]
  unfold State.covered at hc ⊢
  rw [if_neg (fun x => hc (of_decide_eq_true (Bool.and_eq_true_iff.mp x).1))]
  split <;> rename_i e <;> rw [e] <;> rfl

end Sys2Proof.Machine
end

