-- ==== Sys2Proof/Safety.lean ====
section
/-! DEFINITION. What counts as a safe run: no step of it stops. -/

namespace Sys2Proof.Machine

/-- The state after one step, where the step answers one. -/
def next? (s : State) : Option State :=
  match step s with
  | .next t => some t
  | _ => none

/-- A state from which `k` steps all answer a next state. -/
def runsFor : Nat → State → Prop
  | 0, _ => True
  | k + 1, s => ∃ t, step s = .next t ∧ runsFor k t

end Sys2Proof.Machine
end

