-- ==== Sys2Proof/WellFormed.lean ====
section
/-! DEFINITION. Which commands are well formed: every operand lies in the range that the manual's numbering of units,
registers and fields gives it. -/

namespace Sys2Proof

/-- A source of a register access names a gallery context that can exist. -/
def Src.wf : Src → Bool
  | .gallery site core ctx => decide (site < 448) && decide (core < 32) && decide (ctx < 128)
  | _ => true

/-- A hardware context that can exist: 32 logical cores of 128 contexts per site; 16 contexts of a Leriq-M core (Table
9.11). -/
def Hart.wf : Hart → Bool
  | .gal site core ctx => decide (site < 448) && decide (core < 32) && decide (ctx < 128)
  | .mgmt ctx => decide (ctx < 16)
  | .lantern ctx => decide (ctx < 16)

/-- A reset domain that can exist. -/
def ResetDom.wf : ResetDom → Bool
  | .core site c => decide (site < 448) && decide (c < 32)
  | .gallery site => decide (site < 448)
  | .chamber c => decide (c < 16)
  | .compute => true

/-- The fields of a class V word fit Table 9.1. -/
def VOp.wf (x : VOp) : Bool :=
  decide (x.vd < 8) && decide (x.a < 16) && decide (x.b < 16) && decide (x.ge < 2) && decide (x.gp < 4) &&
  decide (x.fmt < 8) && decide (x.ctl < 64)

/-- The fields of a class X instruction fit Table 9.1. -/
def XOp.wf (x : XOp) : Bool :=
  decide (x.d < 16) && decide (x.a < 16) && decide (x.b < 16) && decide (x.cls < 4) && decide (x.per < 512) &&
  decide (x.w1 < 4294967296)

/-- A witness checksum names a row of at most 65,536 or a column of 128, and holds FP32 codes. -/
def WitSum.wf (x : WitSum) : Bool :=
  decide (x.index < 65536) && decide (x.sum < 4294967296) && decide (x.wit < 4294967296) && decide (x.mag < 4294967296)

/-- A ring's plan names an entry and holds a word. -/
def RingPlan.wf : RingPlan → Bool
  | .cq t w => decide (t < 48) && decide (w < 18446744073709551616)
  | .ring r w => decide (r < 1024) && decide (w < 18446744073709551616)

/-- A deviation names a row of at most 65,536 and a column of 128, and holds an FP32 code. -/
def CellDev.wf (x : CellDev) : Bool := decide (x.row < 65536) && decide (x.col < 128) && decide (x.code < 4294967296)

/-- A tile starts on one of two engines. -/
def ArrayStart.wf (x : ArrayStart) : Bool := decide (x.j < 2) && x.dev.all CellDev.wf

/-- A runtime serves one of 384 logical galleries. -/
def InstallPlan.wf (x : InstallPlan) : Bool := decide (x.lg < 384) && x.binds.all RingPlan.wf

/-- A gallery has 32 slices. -/
def DrainCut.wf (x : DrainCut) : Bool := decide (x.slice < 32)

/-- There are 16 chambers. -/
def ChamberStep.wf (x : ChamberStep) : Bool := decide (x.c < 16)

/-- A control message is 128 bytes long (Table 16.5). -/
def CtrlMsg.wf (m : CtrlMsg) : Bool := m.raw.length == 128

/-- A frame is at most 9,216 bytes long (Table 15.5). -/
def Frame.wf (f : Frame) : Bool := decide (f.raw.length ≤ 9216)

/-- A RoCEv2 message names one of 128 queue pairs, a 24-bit PSN and a 32-bit key. -/
def Roce.wf (m : Roce) : Bool :=
  decide (m.qp < 128) && decide (m.psn < 16777216) && decide (m.rkey < 4294967296) && decide (m.va < 18446744073709551616)

/-- Lantern has 16 channels of 16 bits. -/
def Inputs.wf (i : Inputs) : Bool := i.raw.length == 16 && i.raw.all (fun x => decide (x < 65536)) && decide (i.tj < 256)

/-- The operands of a command lie in their ranges. -/
def Instr.wf : Instr → Bool
  | .registerWrite src addr size value => src.wf && decide (addr < 281474976710656) && decide (size < 9) && decide (value < 18446744073709551616)
  | .dripOpen => true
  | .sealStart => true
  | .dripEnableWrite src _ => src.wf
  | .dripSrcWrite src _ => src.wf
  | .resync src _ => src.wf
  | .dripApplyAtWrite src _ => src.wf
  | .ptpOffsetMeasured _ => true
  | .sourceLost => true
  | .holdoverSyncTimeout => true
  | .ppsInEdge _ => true
  | .mstrFreeze src mb i _ => src.wf && decide (mb < 281474976710656) && decide (i < 64)
  | .mstrThaw src mb i _ => src.wf && decide (mb < 281474976710656) && decide (i < 64)
  | .icacheFillReturn site core line _ => decide (site < 448) && decide (core < 32) && decide (line < 524288)
  | .narrowLoadReturn h => h.wf
  | .moduleStoreAck h => h.wf
  | .icinv src site core _ => src.wf && decide (site < 448) && decide (core < 32)
  | .icinvComplete site core => decide (site < 448) && decide (core < 32)
  | .coreReset src site core _ => src.wf && decide (site < 448) && decide (core < 32)
  | .coreResetComplete site core => decide (site < 448) && decide (core < 32)
  | .galleryReset src site _ => src.wf && decide (site < 448)
  | .galleryResetDrainEnd site => decide (site < 448)
  | .resetHoldExpiry dom => dom.wf
  | .messageDispatch site ring => decide (site < 448) && decide (ring < 1072)
  | .gmGroupIlvWrite src site _ => src.wf && decide (site < 448)
  | .sliceOffRequest src site _ => src.wf && decide (site < 448)
  | .sliceOnRequest src site _ => src.wf && decide (site < 448)
  | .sliceDrainComplete site slice => decide (site < 448) && decide (slice < 32)
  | .sliceDrainTimeout site slice => decide (site < 448) && slice.wf
  | .sliceWakeComplete site slice => decide (site < 448) && decide (slice < 32)
  | .cacheInvalidate src site _ => src.wf && decide (site < 448)
  | .cacheInvalidateComplete site => decide (site < 448)
  | .sbMoveSuspend src site _ => src.wf && decide (site < 448)
  | .sbMoveRebase src site _ => src.wf && decide (site < 448)
  | .claimRetire site e _ => decide (site < 448) && decide (e < 64)
  | .scrubGo src site _ => src.wf && decide (site < 448)
  | .scrubComplete site _ => decide (site < 448)
  | .tileStart site j => decide (site < 448) && j.wf
  | .tileOutputComplete site j chk => decide (site < 448) && decide (j < 2) && chk.all WitSum.wf
  | .tileError site j status => decide (site < 448) && decide (j < 2) && decide (status < 16)
  | .mxeReleaseAsComputed src site j _ => src.wf && decide (site < 448) && decide (j < 2)
  | .mxeReleaseRewrite src site j _ => src.wf && decide (site < 448) && decide (j < 2)
  | .mxeReleaseError src site j _ => src.wf && decide (site < 448) && decide (j < 2)
  | .holdExpiry site j => decide (site < 448) && decide (j < 2)
  | .patrolTile site j => decide (site < 448) && decide (j < 2)
  | .curtainItemStart site => decide (site < 448)
  | .curtainItemEnd site => decide (site < 448)
  | .skewHalt site => decide (site < 448)
  | .curtainLoadWaitExpiry site => decide (site < 448)
  | .curtainLoadComplete site => decide (site < 448)
  | .curtainPatrol site => decide (site < 448)
  | .strawMov site x y e _ => decide (site < 448) && decide (x < 8) && decide (y < 8) && decide (e < 32)
  | .strawAdd site x y e _ => decide (site < 448) && decide (x < 8) && decide (y < 8) && decide (e < 32)
  | .strawSub site x y e _ => decide (site < 448) && decide (x < 8) && decide (y < 8) && decide (e < 32)
  | .strawMul site x y e _ => decide (site < 448) && decide (x < 8) && decide (y < 8) && decide (e < 32)
  | .strawFma site x y e _ => decide (site < 448) && decide (x < 8) && decide (y < 8) && decide (e < 32)
  | .strawMax site x y e _ => decide (site < 448) && decide (x < 8) && decide (y < 8) && decide (e < 32)
  | .strawMin site x y e _ => decide (site < 448) && decide (x < 8) && decide (y < 8) && decide (e < 32)
  | .strawSel site x y e _ => decide (site < 448) && decide (x < 8) && decide (y < 8) && decide (e < 32)
  | .strawCmplt site x y e _ => decide (site < 448) && decide (x < 8) && decide (y < 8) && decide (e < 32)
  | .strawCmple site x y e _ => decide (site < 448) && decide (x < 8) && decide (y < 8) && decide (e < 32)
  | .strawCmpeq site x y e _ => decide (site < 448) && decide (x < 8) && decide (y < 8) && decide (e < 32)
  | .strawSwz site x y e _ => decide (site < 448) && decide (x < 8) && decide (y < 8) && decide (e < 32)
  | .strawHmax site x y e _ => decide (site < 448) && decide (x < 8) && decide (y < 8) && decide (e < 32)
  | .strawHsum site x y e _ => decide (site < 448) && decide (x < 8) && decide (y < 8) && decide (e < 32)
  | .strawAbs site x y e _ => decide (site < 448) && decide (x < 8) && decide (y < 8) && decide (e < 32)
  | .strawNeg site x y e _ => decide (site < 448) && decide (x < 8) && decide (y < 8) && decide (e < 32)
  | .strawExp2 site x y e _ => decide (site < 448) && decide (x < 8) && decide (y < 8) && decide (e < 32)
  | .strawLog2 site x y e _ => decide (site < 448) && decide (x < 8) && decide (y < 8) && decide (e < 32)
  | .strawRcp site x y e _ => decide (site < 448) && decide (x < 8) && decide (y < 8) && decide (e < 32)
  | .strawRsq site x y e _ => decide (site < 448) && decide (x < 8) && decide (y < 8) && decide (e < 32)
  | .opAdd h d a b => h.wf && decide (d < 16) && decide (a < 16) && decide (b < 16)
  | .opSub h d a b => h.wf && decide (d < 16) && decide (a < 16) && decide (b < 16)
  | .opAnd h d a b => h.wf && decide (d < 16) && decide (a < 16) && decide (b < 16)
  | .opOr h d a b => h.wf && decide (d < 16) && decide (a < 16) && decide (b < 16)
  | .opXor h d a b => h.wf && decide (d < 16) && decide (a < 16) && decide (b < 16)
  | .opSll h d a b => h.wf && decide (d < 16) && decide (a < 16) && decide (b < 16)
  | .opSrl h d a b => h.wf && decide (d < 16) && decide (a < 16) && decide (b < 16)
  | .opSra h d a b => h.wf && decide (d < 16) && decide (a < 16) && decide (b < 16)
  | .opSlt h d a b => h.wf && decide (d < 16) && decide (a < 16) && decide (b < 16)
  | .opSltu h d a b => h.wf && decide (d < 16) && decide (a < 16) && decide (b < 16)
  | .opMul h d a b => h.wf && decide (d < 16) && decide (a < 16) && decide (b < 16)
  | .opMulh h d a b => h.wf && decide (d < 16) && decide (a < 16) && decide (b < 16)
  | .opMulhu h d a b => h.wf && decide (d < 16) && decide (a < 16) && decide (b < 16)
  | .opMin h d a b => h.wf && decide (d < 16) && decide (a < 16) && decide (b < 16)
  | .opMax h d a b => h.wf && decide (d < 16) && decide (a < 16) && decide (b < 16)
  | .opMinu h d a b => h.wf && decide (d < 16) && decide (a < 16) && decide (b < 16)
  | .opMaxu h d a b => h.wf && decide (d < 16) && decide (a < 16) && decide (b < 16)
  | .opClz h d a => h.wf && decide (d < 16) && decide (a < 16)
  | .opPopc h d a => h.wf && decide (d < 16) && decide (a < 16)
  | .opRdsr h d b => h.wf && decide (d < 16) && decide (b < 16)
  | .opWrsr h d a => h.wf && decide (d < 16) && decide (a < 16)
  | .opMovps h d b => h.wf && decide (d < 16) && decide (b < 16)
  | .opMovsp h d a => h.wf && decide (d < 16) && decide (a < 16)
  | .opWfe h d a => h.wf && decide (d < 16) && decide (a < 16)
  | .opBcall h d a b => h.wf && decide (d < 16) && decide (a < 16) && decide (b < 16)
  | .opAddi h d a imm => h.wf && decide (d < 16) && decide (a < 16) && decide (imm < 32768)
  | .opAndi h d a imm => h.wf && decide (d < 16) && decide (a < 16) && decide (imm < 32768)
  | .opOri h d a imm => h.wf && decide (d < 16) && decide (a < 16) && decide (imm < 32768)
  | .opXori h d a imm => h.wf && decide (d < 16) && decide (a < 16) && decide (imm < 32768)
  | .opSlli h d a imm => h.wf && decide (d < 16) && decide (a < 16) && decide (imm < 32768)
  | .opSrli h d a imm => h.wf && decide (d < 16) && decide (a < 16) && decide (imm < 32768)
  | .opSrai h d a imm => h.wf && decide (d < 16) && decide (a < 16) && decide (imm < 32768)
  | .opSlti h d a imm => h.wf && decide (d < 16) && decide (a < 16) && decide (imm < 32768)
  | .opSltiu h d a imm => h.wf && decide (d < 16) && decide (a < 16) && decide (imm < 32768)
  | .opShin h d a imm => h.wf && decide (d < 16) && decide (a < 16) && decide (imm < 32768)
  | .opLd8 h d a disp => h.wf && decide (d < 16) && decide (a < 16) && decide (disp < 32768)
  | .opLd16 h d a disp => h.wf && decide (d < 16) && decide (a < 16) && decide (disp < 32768)
  | .opLd32 h d a disp => h.wf && decide (d < 16) && decide (a < 16) && decide (disp < 32768)
  | .opLd64 h d a disp => h.wf && decide (d < 16) && decide (a < 16) && decide (disp < 32768)
  | .opLdu8 h d a disp => h.wf && decide (d < 16) && decide (a < 16) && decide (disp < 32768)
  | .opLdu16 h d a disp => h.wf && decide (d < 16) && decide (a < 16) && decide (disp < 32768)
  | .opLdu32 h d a disp => h.wf && decide (d < 16) && decide (a < 16) && decide (disp < 32768)
  | .opSt8 h d a disp => h.wf && decide (d < 16) && decide (a < 16) && decide (disp < 32768)
  | .opSt16 h d a disp => h.wf && decide (d < 16) && decide (a < 16) && decide (disp < 32768)
  | .opSt32 h d a disp => h.wf && decide (d < 16) && decide (a < 16) && decide (disp < 32768)
  | .opSt64 h d a disp => h.wf && decide (d < 16) && decide (a < 16) && decide (disp < 32768)
  | .opVld h d a disp => h.wf && decide (d < 16) && decide (a < 16) && decide (disp < 32768)
  | .opVst h d a disp => h.wf && decide (d < 16) && decide (a < 16) && decide (disp < 32768)
  | .opAadd h d a b disp => h.wf && decide (d < 16) && decide (a < 16) && decide (b < 16) && decide (disp < 2048)
  | .opAswap h d a b disp => h.wf && decide (d < 16) && decide (a < 16) && decide (b < 16) && decide (disp < 2048)
  | .opAcas h d a b disp => h.wf && decide (d < 16) && decide (a < 16) && decide (b < 16) && decide (disp < 2048)
  | .opBeq h a b off => h.wf && decide (a < 16) && decide (b < 16) && decide (off < 32768)
  | .opBne h a b off => h.wf && decide (a < 16) && decide (b < 16) && decide (off < 32768)
  | .opBlt h a b off => h.wf && decide (a < 16) && decide (b < 16) && decide (off < 32768)
  | .opBge h a b off => h.wf && decide (a < 16) && decide (b < 16) && decide (off < 32768)
  | .opBltu h a b off => h.wf && decide (a < 16) && decide (b < 16) && decide (off < 32768)
  | .opBgeu h a b off => h.wf && decide (a < 16) && decide (b < 16) && decide (off < 32768)
  | .opJal h d off => h.wf && decide (d < 16) && decide (off < 524288)
  | .opJalr h d a off => h.wf && decide (d < 16) && decide (a < 16) && decide (off < 32768)
  | .opBpany h a off => h.wf && decide (a < 16) && decide (off < 32768)
  | .opBpall h a off => h.wf && decide (a < 16) && decide (off < 32768)
  | .opBpnone h a off => h.wf && decide (a < 16) && decide (off < 32768)
  | .opVadd h x => h.wf && x.wf
  | .opVsub h x => h.wf && x.wf
  | .opVmul h x => h.wf && x.wf
  | .opVfma h x => h.wf && x.wf
  | .opVmax h x => h.wf && x.wf
  | .opVmin h x => h.wf && x.wf
  | .opVabs h x => h.wf && x.wf
  | .opVneg h x => h.wf && x.wf
  | .opVcmplt h x => h.wf && x.wf
  | .opVcmple h x => h.wf && x.wf
  | .opVcmpeq h x => h.wf && x.wf
  | .opVsel h x => h.wf && x.wf
  | .opVcvt h x => h.wf && x.wf
  | .opVrcp h x => h.wf && x.wf
  | .opVrsq h x => h.wf && x.wf
  | .opVexp2 h x => h.wf && x.wf
  | .opVlog2 h x => h.wf && x.wf
  | .opVhsum h x => h.wf && x.wf
  | .opVhmax h x => h.wf && x.wf
  | .opVperm h x => h.wf && x.wf
  | .opVbcast h x => h.wf && x.wf
  | .opVext h x => h.wf && x.wf
  | .opVins h x => h.wf && x.wf
  | .opViadd h x => h.wf && x.wf
  | .opVisub h x => h.wf && x.wf
  | .opVimul h x => h.wf && x.wf
  | .opVand h x => h.wf && x.wf
  | .opVor h x => h.wf && x.wf
  | .opVxor h x => h.wf && x.wf
  | .opVshl h x => h.wf && x.wf
  | .opVsra h x => h.wf && x.wf
  | .opVicmplt h x => h.wf && x.wf
  | .opPand h x => h.wf && x.wf
  | .opPor h x => h.wf && x.wf
  | .opPxor h x => h.wf && x.wf
  | .opPandn h x => h.wf && x.wf
  | .mxIssue h x => h.wf && x.wf
  | .tfIssue h x => h.wf && x.wf
  | .msgSend h x => h.wf && x.wf
  | .msgRet h x => h.wf && x.wf
  | .dripWait h x => h.wf && x.wf
  | .dripBudget h x => h.wf && x.wf
  | .curLoad h x => h.wf && x.wf
  | .curGo h x => h.wf && x.wf
  | .sbClaim h x => h.wf && x.wf
  | .sbRetire h x => h.wf && x.wf
  | .fenceWin h x => h.wf && x.wf
  | .ctxblkWrite src site b _ => src.wf && decide (site < 448) && decide (b < 512)
  | .hqDoorbell src q prod => src.wf && decide (q < 64) && decide (prod < 65536)
  | .hqBind src q _ => src.wf && decide (q < 64)
  | .hqUnbind src q _ => src.wf && decide (q < 64)
  | .commandFetch q => decide (q < 80)
  | .loadProgram lg => decide (lg < 384)
  | .loadProgramInstall lg => lg.wf
  | .endTasks lg => decide (lg < 384)
  | .move lg => decide (lg < 384)
  | .taskCtrlFreeze lg => decide (lg < 384)
  | .taskCtrlThaw lg => decide (lg < 384)
  | .taskCtrlKill lg => decide (lg < 384)
  | .surveyReq lg => decide (lg < 384)
  | .testReq lg => decide (lg < 384)
  | .onDemandTestRun _ lg t _ => decide (lg < 384) && decide (t < 4)
  | .updApply lg => decide (lg < 384)
  | .updCommit lg => decide (lg < 384)
  | .updAbort lg => decide (lg < 384)
  | .refreshStage lg => decide (lg < 384)
  | .stagingComplete lg => decide (lg < 384)
  | .commitCopyComplete lg => decide (lg < 384)
  | .rollForward lg => decide (lg < 384)
  | .ringBind src site r _ => src.wf && decide (site < 448) && decide (r < 1024)
  | .ringUnbind src site r _ => src.wf && decide (site < 448) && decide (r < 1024)
  | .lineBind src site l _ => src.wf && decide (site < 448) && decide (l < 1024)
  | .lineUnbind src site l _ => src.wf && decide (site < 448) && decide (l < 1024)
  | .cqBind src site t _ => src.wf && decide (site < 448) && decide (t < 48)
  | .cqUnbind src site t _ => src.wf && decide (site < 448) && decide (t < 48)
  | .recordArrival _ => true
  | .recordAnswer _ => true
  | .recordTimeout site l seq => decide (site < 448) && decide (l < 1024) && decide (seq < 65536)
  | .creditReturnTimer site r => decide (site < 448) && decide (r < 1024)
  | .creditReturnReceive _ => true
  | .tfeDescriptorStart site => decide (site < 448)
  | .tfeCopy site _ => decide (site < 448)
  | .tfeBcast site _ => decide (site < 448)
  | .tfeGather site _ => decide (site < 448)
  | .tfePut site _ => decide (site < 448)
  | .combineFp32 site => decide (site < 448)
  | .combineAdd site => decide (site < 448)
  | .combineFinish site => decide (site < 448)
  | .tfeDescriptorComplete site _ => decide (site < 448)
  | .bcastTimeout site _ => decide (site < 448)
  | .packetArrival _ _ => true
  | .linkCrcRetry node dir => decide (node < 484) && decide (dir < 4)
  | .noProgressTimeout _ => true
  | .ropeTimeout h _ => h.wf
  | .routerDrainComplete node => decide (node < 484)
  | .routerDrainTimeout node => decide (node < 484)
  | .loadDone src _ => src.wf
  | .surveyLoadComplete => true
  | .flip src _ => src.wf
  | .forceFree src _ => src.wf
  | .inflightCountReport => true
  | .surveyDrainComplete => true
  | .surveyDrainLate => true
  | .stackRequest x _ en data chk => decide (x < 2199023255552) && decide (en < 18446744073709551616) && data.length == 64 && decide (chk < 3)
  | .stackScrubRead k chk => decide (k < 32) && decide (chk < 3)
  | .stackTempRead k temp => decide (k < 32) && decide (temp < 256)
  | .lampInsert k rated => decide (k < 10) && decide (rated < 65536)
  | .lampWarmed k power => decide (k < 10) && decide (power < 65536)
  | .lampWarmTimeout k => decide (k < 10)
  | .lampPowerLow k power => decide (k < 10) && decide (power < 65536)
  | .lampPowerLoss k power _ => decide (k < 10) && decide (power < 65536)
  | .lampRemove k => decide (k < 10)
  | .lampFault k => decide (k < 10)
  | .replace src k _ => src.wf && decide (k < 10)
  | .retrain src p _ => src.wf && decide (p < 32)
  | .linkDown p l => decide (p < 32) && decide (l < 4)
  | .linkUp p l => decide (p < 32) && decide (l < 4)
  | .sftWrite p l q => decide (p < 32) && decide (l < 4) && decide (q < 64)
  | .sftCommand p l q => decide (p < 32) && decide (l < 4) && decide (q < 64)
  | .roceSend p l q => decide (p < 32) && decide (l < 4) && decide (q < 64)
  | .rdmaWrite p l q => decide (p < 32) && decide (l < 4) && decide (q < 64)
  | .rdmaRead p l q => decide (p < 32) && decide (l < 4) && decide (q < 64)
  | .sqPostTimeout site _ => decide (site < 448)
  | .portCompletionDrop p => decide (p < 32)
  | .sftData p l f => decide (p < 32) && decide (l < 4) && f.wf
  | .sftAck p l f => decide (p < 32) && decide (l < 4) && f.wf
  | .sftNack p l f => decide (p < 32) && decide (l < 4) && f.wf
  | .sftComplete p l f => decide (p < 32) && decide (l < 4) && f.wf
  | .sftCmd p l f => decide (p < 32) && decide (l < 4) && f.wf
  | .sftCtrl p l f => decide (p < 32) && decide (l < 4) && f.wf
  | .sftAckTimer p fl => decide (p < 32) && decide (fl < 2048)
  | .sftRtoExpiry p fl psn => decide (p < 32) && decide (fl < 2048) && decide (psn < 4294967296)
  | .roceSendReceive p l m => decide (p < 32) && decide (l < 4) && m.wf
  | .rdmaWriteReceive p l m => decide (p < 32) && decide (l < 4) && m.wf
  | .rdmaReadRequestReceive p l m => decide (p < 32) && decide (l < 4) && m.wf
  | .rdmaReadResponseReceive p l m => decide (p < 32) && decide (l < 4) && m.wf
  | .roceAckReceive p l m => decide (p < 32) && decide (l < 4) && m.wf
  | .roceAckTimeout p qp => decide (p < 32) && decide (qp < 128)
  | .cnpReceive p qp => decide (p < 32) && decide (qp < 128)
  | .roceRateIncrease p qp => decide (p < 32) && decide (qp < 128)
  | .pfcFrame p l prio _ => decide (p < 32) && decide (l < 4) && decide (prio < 8)
  | .controlPathFrame p l _ => decide (p < 32) && decide (l < 4)
  | .ptpMessage p l _ => decide (p < 32) && decide (l < 4)
  | .ptpAnnounceTimeout => true
  | .qbvGateChange p l => decide (p < 32) && decide (l < 4)
  | .bar2Read off len => decide (off < 68719476736) && decide (len < 4097)
  | .bar2Write off _ => decide (off < 68719476736)
  | .surpriseDown => true
  | .perstNAssert => true
  | .perstNDeassert => true
  | .d3hotEntry => true
  | .msixCoalesceExpiry vec => decide (vec < 2048)
  | .msixUnmask vec => decide (vec < 2048)
  | .recordSend => true
  | .foldWindowExpiry _ => true
  | .mgmtLinkUp => true
  | .leaseGrant m => m.wf
  | .fenceOrder m => m.wf
  | .setProfile m => m.wf
  | .standby m => m.wf
  | .restart m => m.wf
  | .bindNetq m => m.wf
  | .resend m => m.wf
  | .collector m => m.wf
  | .redfishGet r => decide (r < 9)
  | .redfishSetProfile prof _ => decide (prof < 4)
  | .eventSubscriptionCreate _ => true
  | .eventSubscriptionDelete _ => true
  | .setEndpointId eid => decide (eid < 256)
  | .getEndpointId => true
  | .getMessageTypeSupport => true
  | .pldmFirmwareUpdate comp _ => decide (comp < 8)
  | .pldmEventAcknowledge => true
  | .getVersion => true
  | .getCapabilities => true
  | .negotiateAlgorithms _ _ => true
  | .getDigests => true
  | .getCertificate off len => decide (off < 65536) && decide (len < 65536)
  | .challenge _ => true
  | .getMeasurements i => decide (i < 256)
  | .fence kind id sub _ => decide (kind < 256) && decide (id < 65536) && decide (sub < 65536)
  | .bypass node _ => decide (node < 65536)
  | .coreMap site _ _ _ _ => decide (site < 65536)
  | .mxeColmap site j _ => decide (site < 65536) && decide (j < 256)
  | .galStep site volt clk => decide (site < 65536) && decide (volt < 256) && decide (clk < 256)
  | .chamberReset c => decide (c < 256)
  | .chamberResetStep c => c.wf
  | .assign site _ => decide (site < 65536)
  | .region n _ => decide (n < 65536)
  | .bistRun site unit idx _ => decide (site < 65536) && decide (unit < 256) && decide (idx < 256)
  | .fuseRepair die entry => decide (die < 256) && decide (entry < 256)
  | .keyLoad addr => decide (addr < 281474976710656)
  | .profileWrite slot addr => decide (slot < 256) && decide (addr < 281474976710656)
  | .bcallSetProfile prof _ => decide (prof < 256)
  | .lcTransition addr => decide (addr < 281474976710656)
  | .insertion i pins => i.wf && decide (pins < 4)
  | .insertionCheckRetry i pins => i.wf && decide (pins < 4)
  | .inputInRange i => i.wf
  | .bringupStepComplete _ => true
  | .bringupStepTimeout => true
  | .hostCmdPowerOn src _ => src.wf
  | .hostCmdTrain src _ => src.wf
  | .hostCmdRelease src _ => src.wf
  | .hostCmdMarkFailed src _ => src.wf
  | .hostCmdComplete _ detail => decide (detail < 65536)
  | .rawAccess src off _ => src.wf && decide (off < 983040)
  | .mcr src _ => src.wf
  | .firmwareBlockReceive site img blk total data crc => decide (site < 448) && decide (img < 65536) && decide (blk < 1024) && decide (total < 1025) && data.length == 4096 && decide (crc < 4294967296)
  | .endMarker => true
  | .bootHashComplete site => decide (site < 448)
  | .patrolRead site slice chk => decide (site < 448) && decide (slice < 32) && decide (chk < 3)
  | .knownAnswerRerun site u _ => decide (site < 448) && decide (u < 3)
  | .linkRetryCheck => true
  | .watchExpiry site => decide (site < 448)
  | .arbRun1Complete site j chk => decide (site < 448) && decide (j < 2) && chk.all WitSum.wf
  | .arbCopyComplete site j spare => decide (site < 448) && decide (j < 2) && decide (spare < 448)
  | .arbRun2Complete site j chk => decide (site < 448) && decide (j < 2) && chk.all WitSum.wf
  | .arbRun3Complete site j => decide (site < 448) && decide (j < 2)
  | .trmMoveGo src _ => src.wf
  | .moveComplete outcome => decide (outcome < 3)
  | .contextWatchdogExpiry site core ctx => decide (site < 448) && decide (core < 32) && decide (ctx < 128)
  | .kick src _ => src.wf
  | .flowstoneWatchdogExpiry => true
  | .bedrockHeartbeat => true
  | .echoGo src _ => src.wf
  | .echoReplayEnd _ => true
  | .healthScoreUpdate => true
  | .leaseExpiry => true
  | .governorTick _ => true
  | .dieThermalThrottle d tj => decide (d < 16) && decide (tj < 256)
  | .dieThermalRecover d tj => decide (d < 16) && decide (tj < 256)
  | .lanternSample i => i.wf
  | .comparatorTrip e => decide (e < 24)
  | .tripClear e => decide (e < 24)
  | .leak src _ => src.wf
  | .wakeNEdge pins => decide (pins < 4)
  | .wakePacket mac pins => decide (mac < 281474976710656) && decide (pins < 4)
  | .ejectRequest => true
  | .eject src _ => src.wf
  | .removalDrainEnd => true
  | .surpriseRemoval => true
  | .killNDeassert i => i.wf
  | .mgmtLinkDown => true
  | .pcieLinkUp speed width => decide (speed < 4) && decide (width < 17)
  | .unclaimedFrame p l => decide (p < 32) && decide (l < 4)
  | .knownAnswerComplete site u _ => decide (site < 448) && decide (u < 3)

end Sys2Proof
end

