-- ==== Sys2Proof/Tests/Slice0.lean ====
section
/-! SUPPORT. Tests: the well-formedness smoke test, small steps with results from the manual or by hand, and for every
statement with premises a concrete state and operands that meet them together. -/

open Sys2Proof Sys2Proof.Machine

set_option Elab.async false

/-! ## Well-formed commands -/

/-- Each of these terms breaks one check, and is refused: part 1. -/
theorem test_wf_refuses_1 : ([
    .registerWrite (.gallery 448 0 0) 0 0 0,
    .registerWrite .bedrock 281474976710656 0 0,
    .registerWrite .bedrock 0 9 0,
    .registerWrite .bedrock 0 0 18446744073709551616,
    .mstrFreeze .bedrock 281474976710656 0 0,
    .mstrFreeze .bedrock 0 64 0,
    .icacheFillReturn 448 0 0 false,
    .icacheFillReturn 0 32 0 false,
    .icacheFillReturn 0 0 524288 false,
    .narrowLoadReturn (.gal 0 32 0),
    .resetHoldExpiry (.chamber 16),
    .messageDispatch 0 1072,
    .sliceDrainComplete 0 32,
    .claimRetire 0 64 false,
    .tileStart 0 ⟨2, []⟩,
    .tileOutputComplete 0 0 [⟨false, 65536, 0, 0, 0⟩],
    .tileError 0 0 16,
    .strawMov 0 8 0 0 true,
    .strawMov 0 0 8 0 true,
    .strawMov 0 0 0 32 true,
    .opAdd (.mgmt 0) 16 0 0,
    .opAdd (.mgmt 0) 0 16 0,
    .opAdd (.mgmt 0) 0 0 16,
    .opAddi (.mgmt 0) 0 0 32768,
    .opLd8 (.mgmt 0) 0 0 32768,
    .opAadd (.mgmt 0) 0 0 0 2048,
    .opBeq (.mgmt 0) 0 0 32768,
    .opJal (.mgmt 0) 0 524288,
    .ctxblkWrite .bedrock 0 512 0,
    .hqDoorbell .bedrock 64 0,
    .hqDoorbell .bedrock 0 65536,
    .commandFetch 80] : List Instr).all (fun i => !i.wf) = true := by decide +kernel

/-- Each of these terms breaks one check, and is refused: part 2. -/
theorem test_wf_refuses_2 : ([
    .loadProgram 384,
    .onDemandTestRun 0 0 4 false,
    .ringBind .bedrock 0 1024 0,
    .lineBind .bedrock 0 1024 0,
    .cqBind .bedrock 0 48 0,
    .recordTimeout 0 0 65536,
    .linkCrcRetry 484 0,
    .linkCrcRetry 0 4,
    .stackRequest 2199023255552 false 0 (List.replicate 64 0) 0,
    .stackRequest 0 false 18446744073709551616 (List.replicate 64 0) 0,
    .stackRequest 0 false 0 [] 0,
    .stackRequest 0 false 0 (List.replicate 64 0) 3,
    .stackScrubRead 32 0,
    .stackTempRead 0 256,
    .lampInsert 10 0,
    .lampInsert 0 65536,
    .lampWarmed 0 65536,
    .retrain .bedrock 32 0,
    .linkDown 0 4,
    .sftData 0 0 ⟨List.replicate 9217 0, false⟩,
    .sftAckTimer 0 2048,
    .sftRtoExpiry 0 0 4294967296,
    .roceAckTimeout 0 128,
    .pfcFrame 0 0 8 false,
    .bar2Read 68719476736 0,
    .bar2Read 0 4097,
    .msixCoalesceExpiry 2048,
    .leaseGrant ⟨[], none⟩,
    .redfishGet 9,
    .redfishSetProfile 4 false,
    .setEndpointId 256,
    .pldmFirmwareUpdate 8 []] : List Instr).all (fun i => !i.wf) = true := by decide +kernel

/-- Each of these terms breaks one check, and is refused: part 3. -/
theorem test_wf_refuses_3 : ([
    .getCertificate 65536 0,
    .getCertificate 0 65536,
    .getMeasurements 256,
    .fence 256 0 0 false,
    .fence 0 65536 0 false,
    .fence 0 0 65536 false,
    .bypass 65536 false,
    .coreMap 65536 0 0 0 0,
    .mxeColmap 0 256 0,
    .galStep 0 256 0,
    .galStep 0 0 256,
    .chamberReset 256,
    .chamberResetStep ⟨16, []⟩,
    .region 65536 0,
    .bistRun 0 256 0 [],
    .bistRun 0 0 256 [],
    .fuseRepair 256 0,
    .fuseRepair 0 256,
    .profileWrite 256 0,
    .bcallSetProfile 256 false,
    .insertion ⟨List.replicate 16 0, 0, false⟩ 4,
    .hostCmdComplete false 65536,
    .rawAccess .bedrock 983040 none,
    .firmwareBlockReceive 0 65536 0 0 (List.replicate 4096 0) 0,
    .firmwareBlockReceive 0 0 1024 0 (List.replicate 4096 0) 0,
    .firmwareBlockReceive 0 0 0 1025 (List.replicate 4096 0) 0,
    .firmwareBlockReceive 0 0 0 0 [] 0,
    .firmwareBlockReceive 0 0 0 0 (List.replicate 4096 0) 4294967296,
    .knownAnswerRerun 0 3 false,
    .arbCopyComplete 0 0 448,
    .moveComplete 3,
    .contextWatchdogExpiry 0 0 128] : List Instr).all (fun i => !i.wf) = true := by decide +kernel

/-- Each of these terms breaks one check, and is refused: part 4. -/
theorem test_wf_refuses_4 : ([
    .dieThermalThrottle 0 256,
    .comparatorTrip 24,
    .wakePacket 281474976710656 0,
    .pcieLinkUp 4 0,
    .pcieLinkUp 0 17,
    .loadProgramInstall ⟨384, []⟩,
    .sliceDrainTimeout 448 ⟨0, [], []⟩,
    .sliceDrainTimeout 0 ⟨32, [], []⟩,
    .dripEnableWrite (.gallery 0 32 0) 0,
    .dripEnableWrite (.gallery 0 0 128) 0,
    .narrowLoadReturn (.gal 448 0 0),
    .narrowLoadReturn (.gal 0 0 128),
    .narrowLoadReturn (.mgmt 16),
    .narrowLoadReturn (.lantern 16),
    .resetHoldExpiry (.core 448 0),
    .resetHoldExpiry (.core 0 32),
    .resetHoldExpiry (.gallery 448),
    .opVadd (.mgmt 0) ⟨8, 0, 0, 0, 0, 0, 0⟩,
    .opVadd (.mgmt 0) ⟨0, 16, 0, 0, 0, 0, 0⟩,
    .opVadd (.mgmt 0) ⟨0, 0, 16, 0, 0, 0, 0⟩,
    .opVadd (.mgmt 0) ⟨0, 0, 0, 2, 0, 0, 0⟩,
    .opVadd (.mgmt 0) ⟨0, 0, 0, 0, 4, 0, 0⟩,
    .opVadd (.mgmt 0) ⟨0, 0, 0, 0, 0, 8, 0⟩,
    .opVadd (.mgmt 0) ⟨0, 0, 0, 0, 0, 0, 64⟩,
    .mxIssue (.mgmt 0) ⟨16, 0, 0, 0, 0, 0⟩,
    .mxIssue (.mgmt 0) ⟨0, 16, 0, 0, 0, 0⟩,
    .mxIssue (.mgmt 0) ⟨0, 0, 16, 0, 0, 0⟩,
    .mxIssue (.mgmt 0) ⟨0, 0, 0, 4, 0, 0⟩,
    .mxIssue (.mgmt 0) ⟨0, 0, 0, 0, 512, 0⟩,
    .mxIssue (.mgmt 0) ⟨0, 0, 0, 0, 0, 4294967296⟩,
    .loadProgramInstall ⟨0, [.cq 48 0]⟩,
    .loadProgramInstall ⟨0, [.cq 0 18446744073709551616]⟩] : List Instr).all (fun i => !i.wf) = true := by decide +kernel

/-- Each of these terms breaks one check, and is refused: part 5. -/
theorem test_wf_refuses_5 : ([
    .loadProgramInstall ⟨0, [.ring 1024 0]⟩,
    .loadProgramInstall ⟨0, [.ring 0 18446744073709551616]⟩,
    .tileStart 0 ⟨0, [⟨65536, 0, 0⟩]⟩,
    .tileStart 0 ⟨0, [⟨0, 128, 0⟩]⟩,
    .tileStart 0 ⟨0, [⟨0, 0, 4294967296⟩]⟩,
    .tileOutputComplete 0 0 [⟨false, 0, 4294967296, 0, 0⟩],
    .tileOutputComplete 0 0 [⟨false, 0, 0, 4294967296, 0⟩],
    .tileOutputComplete 0 0 [⟨false, 0, 0, 0, 4294967296⟩],
    .roceSendReceive 0 0 ⟨128, 0, 0, 0, 0, [], none, false, true, 0⟩,
    .roceSendReceive 0 0 ⟨0, 16777216, 0, 0, 0, [], none, false, true, 0⟩,
    .roceSendReceive 0 0 ⟨0, 0, 18446744073709551616, 0, 0, [], none, false, true, 0⟩,
    .roceSendReceive 0 0 ⟨0, 0, 0, 4294967296, 0, [], none, false, true, 0⟩,
    .inputInRange ⟨List.replicate 15 0, 0, false⟩,
    .inputInRange ⟨List.replicate 16 65536, 0, false⟩,
    .inputInRange ⟨List.replicate 16 0, 256, false⟩] : List Instr).all (fun i => !i.wf) = true := by decide +kernel

/-- The greatest operands of some commands are well formed. -/
theorem test_wf_accepts : ([.opAddi (.gal 447 31 127) 15 15 32767, .opVadd (.gal 0 0 0) ⟨7, 15, 15, 1, 3, 7, 63⟩,
    .strawMov 447 7 7 31 true, .hqDoorbell .host 63 65535, .stackRequest (2 ^ 41 - 1) true (2 ^ 64 - 1) (List.replicate 64 0) 2] :
    List Instr).all (fun i => i.wf) = true := by decide +kernel

/-- The table gives no bits, so no word spells a command. -/
theorem test_no_words : decodeTableWord 32 0 = none ∧ (State.reset.withFetchWord 32 0).pending = [] := by decide

/-! ## States -/

/-- Fields set, in order. -/
def fl (l : List (Fld × Nat)) (s : State) : State := l.foldl (fun s p => s.setFld p.1 p.2) s

/-- Registers set, in order. -/
def rg (l : List (Nat × Nat)) (s : State) : State := l.foldl (fun s p => s.setReg p.1 (BitVec.ofNat 64 p.2)) s

/-- The state that a command leads to. -/
def nx (c : Instr) (s : State) : State :=
  match exec c s with
  | .next t => t
  | _ => s

/-- A module in NORMAL with every die's clock on. -/
def live : State := fl [(R.BRG_STATUS_READY, 1), (R.BRG_STATUS_STEP, 9), (R.BRG_CLK_DIE, 0xFFFF), (R.BRG_CLK_FABRIC, 1),
  (R.BRG_CLK_STACK, 0xFFFFFFFF), (R.BRG_CLK_OE, 255), (R.HIF_STATUS_MODSTATE, 3)] (State.reset.withMode .normal)

/-- The slices of site 2 all ON: two words of states. -/
def onSlices2 (s : State) : State := (List.range 32).foldl (fun s k => s.setSlice 2 k 2) s

/-- Logical gallery 5 on site 2, of chamber 3, in RUN, its slices ON. -/
def gal : State :=
  let s := fl [(R.SV_MAP_VALID 0 5, 1), (R.SV_MAP_COL 0 5, 2), (R.SV_MAP_ROW 0 5, 0), (R.GAL_STATUS_STATE 2, 2),
    (R.GAL_CTRL_ENABLE 2, 1), (R.FR_CHAMBER_STATE 3, 1)] live
  onSlices2 (s.withSec { s.sec with siteCh := [(2, 4)] })

/-- A budget that polices nothing. -/
def freely : Budget := ⟨0xFFFFFFFF, 0xFFFFFFFF, 0xFFFFFFFF, 5, false, false, true, false, false, 0⟩

/-- Task 1 of that gallery on core 4, context 9 at the start of its program: S, with one window R, W, X. -/
def task : State :=
  let s := fl [(R.CTXBLK_VALID 2 65, 1), (R.CTXBLK_TASK 2 65, 1), (R.WIN_BASE_VALID 2 4 0 0, 1), (R.WIN_BASE_R 2 4 0 0, 1),
    (R.WIN_BASE_W 2 4 0 0, 1), (R.WIN_BASE_X 2 4 0 0, 1), (R.WIN_BASE_BASE 2 4 0 0, 8), (R.WIN_LIM_SIZE 2 4 0 0, 64)] gal
  let s := s.setBud (taskM 2 1) freely
  let s := s.setCore (coreKey 2 4) { CoreSt.init with lines := [(8, [])] }
  s.setCtx (ctxKey 2 4 9) { Ctx.init with st := .ready, pc := 4096, priv := 1, rng := 77, flags := 1 }

/-- The context of `task`. -/
def h9 : Hart := .gal 2 4 9

/-- That context with some scalar registers set. -/
def withRegs (l : List (Nat × Nat)) (h : Hart) (s : State) : State :=
  s.setHctx h (l.foldl (fun x p => x.ws p.1 (BitVec.ofNat 64 p.2)) (s.hctx h))

/-- Site 3 is logical gallery 6 of the same chamber. -/
def pair : State :=
  let s := fl [(R.SV_MAP_VALID 0 6, 1), (R.SV_MAP_COL 0 6, 3), (R.SV_MAP_ROW 0 6, 0), (R.GAL_STATUS_STATE 3, 2),
    (R.GAL_CTRL_ENABLE 3, 1)] task
  let s := (List.range 32).foldl (fun s k => s.setSlice 3 k 2) s
  s.withSec { s.sec with siteCh := [(2, 4), (3, 4)] }

/-! ## The premises of the statements, as Booleans -/

/-- `CanIssue`, evaluated. -/
def canIssue (s : State) (h : Hart) : Bool :=
  match h with
  | .gal site core c =>
    let x := s.ctx (ctxKey site core c)
    s.selectable site core (ctxKey site core c) && !x.sbFault && s.fetchOk site core x.win (x.pc / 8 * 8) &&
      (((s.core (coreKey site core)).line (x.pc / 512)).any (fun bs => !wordIll false (leAt bs (x.pc % 512) 4)))
  | _ => s.mRuns h && decide ((s.mHart h).st = .ready) && mFetchOk h (s.mHart h) &&
    !wordIll true (s.rdNat (mKey h (s.mHart h).pc) 4)

theorem canIssue_iff (s : State) (h : Hart) : canIssue s h = true ↔ CanIssue s h := by
  cases h with
  | gal site core c =>
    cases hl : (s.core (coreKey site core)).line ((s.ctx (ctxKey site core c)).pc / 512) <;>
      simp [canIssue, CanIssue, and_assoc, hl]
  | _ => simp [canIssue, CanIssue, and_assoc]

/-- `Bears`, evaluated. -/
def bears (s : State) (h : Hart) (ch : Charge) : Bool :=
  match h with
  | .gal site core c => match s.charge (s.masterOf site core c) ch with
    | .ok _ => true
    | _ => false
  | _ => true

theorem bears_imp {s : State} {h : Hart} {ch : Charge} (hb : bears s h ch = true) : Bears s h ch := by
  cases h with
  | gal site core c =>
    simp only [bears] at hb
    simp only [Bears]
    split at hb
    · exact ⟨_, ‹_›⟩
    · cases hb
  | _ => trivial

/-- `Lands`, evaluated, for the register found at the address. -/
def lands (s : State) (src : Src) (a : Nat) (v : Word) : Bool :=
  match regAt a with
  | none => false
  | some f => a % 8 == 0 && (src != .host || s.pcieUp) && s.boot.hung.isEmpty && !s.gated f &&
      s.mayWrite (s.who src) f a (written s a f whole v) &&
      ((written s a f whole v ^^^ s.reg a) ||| (v &&& BitVec.ofNat 64 f.row.wo)) &&& s.restricted (s.who src) f == 0

theorem lands_imp {s : State} {src : Src} {a : Nat} {v : Word} (h : lands s src a v = true) :
    ∃ f, Lands s src a f whole v := by
  simp only [lands] at h
  split at h
  · cases h
  · rename_i f hf
    simp only [Bool.and_eq_true, beq_iff_eq, Bool.or_eq_true, bne_iff_ne, ne_eq, Bool.not_eq_eq_eq_not, Bool.not_true,
      List.isEmpty_iff] at h
    obtain ⟨⟨⟨⟨⟨h1, h2⟩, h3⟩, h4⟩, h5⟩, h6⟩ := h
    exact ⟨f, hf, h1, fun hs => h2.resolve_left (fun hn => hn hs), h3, h4, h5, h6⟩

/-- A tile past its start. -/
def runOf (t : Tile) (written : Bool) (sums : List WitSum) : RunTile := ⟨t, 0, 5, false, written, 4, t.srcs, 0, 0, sums⟩


/-! ## Engines -/

/-- The engines of the gallery of `task` enabled. -/
def eng : State := fl [(R.MXE_CTRL_ENABLE 2 0, 1), (R.MXE_CTRL_ENABLE 2 1, 1), (R.CUR_CTRL_ENABLE 2, 1), (R.TFE_CTRL_ENABLE 2, 1),
  (R.MU_CTRL_ENABLE 2, 1)] task

/-- A dense FP32-epilogue tile of `m`, `n`, `k` in two codes of 8 bits. -/
def aTile (m n k : Nat) : Tile :=
  { op := 7, task := 1, ctx := ctxKey 2 4 9, coreGen := 0, cls := 0, either := false, fmtA := 2, fmtW := 2, fmtD := 0, os := false,
    rnd := 0, seed := 5, sparse := false, acc := false, pad := false, epi := 0, m := m, n := n, k := k, aR := ⟨0, 128⟩,
    wR := ⟨0x1000, 128⟩, dR := ⟨0x8000, 512⟩, asc := 0, wsc := 0, metaBase := 0, start := 0, dsc := 0, rowMask := 0, colMask := 0,
    arg0 := 0, arg1 := 0 }

/-- A run of program 1 over `rows` rows. -/
def aRun (rows : Nat) : CRun :=
  { op := 9, task := 1, ctx := ctxKey 2 4 9, coreGen := 0, cls := 0, prog := 1, rnd := 0, seed := 3, cols := 0, rows := rows,
    inA := none, inB := none, out := none, arg0 := 0, arg1 := 0, msg := none, scale := 0 }

/-- A combine of two partials of 2 by 3 elements. -/
def aComb (long first final : Bool) : Combine :=
  { op := 11, task := 1, ctx := ctxKey 2 4 9, coreGen := 0, cls := 0, long := long, first := first, final := final, rnd := 0,
    seed := 3, epi := 0, fmtD := 0, anchor := 0, m := 2, n := 3, npart := 2, p := ⟨0x10000, 0x1000⟩, la := 0x20000, d := ⟨0x30000, 512⟩,
    dsc := 0, arg0 := 0, arg1 := 0, msg := none }

/-- A straw instruction. -/
def straw (opc sa sb dst fwd psel ctl : Nat) : Word :=
  putBits (putBits (putBits (putBits (putBits (putBits (putBits 0 58 6 opc) 52 6 sa) 46 6 sb) 40 6 dst) 36 4 fwd) 33 3 psel) 16 8 ctl

/-- Program 1, entries 0 to 1, holds one instruction of straw `k` and a store from straw 56; `r` is in progress. -/
def strawState (k : Nat) (w : Word) (st : Straw) : State :=
  let p := putBits (putBits (putBits (putBits 0 63 1 1) 62 1 1) 32 6 2) 0 6 2
  let c := { CurSt.init with progs := [(1, p)], item := some (newItem (.run (aRun 1)) 1 1) }
  let c := { c with straws := c.straws.put 56 { Straw.init with imem := [(1, putBits (straw 1 0 0 0x1E 0 0 0) 28 5 1)] } Straw.init }
  let y := c.straw k
  eng.setCur 2 { c with straws := c.straws.put k { st with imem := SMap.put y.imem 0 w 0 } Straw.init }

/-- Eight words at a window offset of the gallery of `task`. -/
def words (o : Nat) (l : List Nat) (s : State) : State :=
  (l.zipIdx).foldl (fun s p => s.wrNat (galKey 2 (4096 + o + 8 * p.2)) 8 p.1) s

/-- A range word: window 0, an offset, a stride. -/
def rngW (o stride : Nat) : Nat := 2 ^ 60 + o * 2 ^ 28 + stride

/-- An operand of class X. -/
def xop (d a b cls per w1 : Nat) : XOp := ⟨d, a, b, cls, per, w1⟩

/-! ## Commands -/

/-- A command packet of host queue 0, chamber 3, for logical gallery 5, that asks for a completion. -/
def cmdOf (opc : Nat) (ws : List Nat) : Cmd :=
  ⟨((opc * 2 ^ 56 + 5 * 2 ^ 39 + 2 ^ 35 + 9 * 2 ^ 16) :: 0x77 :: ws ++ List.replicate (6 - ws.length) 0).flatMap (leBytes 8), 0, 3⟩

/-- The gallery of `eng` with its runtime, in a module whose stacks are up, with a host queue that runs. -/
def rt5 : State :=
  let s := (List.range 32).foldl (fun s k => s.setFld (R.MS_STATUS_STATE k) 2) eng
  let s := fl [(R.MSMAP_REGION_VALID 0, 1), (R.MSMAP_REGION_CHAMBER 0, 3), (R.HQ0_VALID 0, 1), (R.HQ3_STATE 0, 1), (R.HQ1_CSIZE_LOG2 0, 4),
    (R.HQ1_CADDR 0, 1), (R.HQ3_CWR 0, 17), (R.DRIP_NUMBER_NUMBER, 100), (R.WIN_LIM_SIZE 2 4 0 0, 4096), (R.DRIP_PERIOD_CUR_US, 100)] s
  (s.setBud (taskM 2 0) freely).setDir 5 ⟨0x10000, false, false⟩

/-- That runtime has taken a command. -/
def asked (c : Cmd) (s : State) : State := s.setRt 5 { s.rt 5 with cmds := [c] }

/-- `RuntimeTakes`, evaluated for gallery 5. -/
def takes (s : State) (f : Cmd → Bool) (c : Cmd) : Bool :=
  s.siteOfLg 5 == some 2 && pickCmd f (s.rt 5).cmds [] == some c && s.rtUp 2 && !(s.dir 5).restart && !s.frozen (taskM 2 0)

theorem takes_imp {s : State} {f : Cmd → Bool} {c : Cmd} (h : takes s f c = true) : RuntimeTakes s 5 2 f c := by
  simp only [takes, Bool.and_eq_true, beq_iff_eq, Bool.not_eq_eq_eq_not, Bool.not_true] at h
  obtain ⟨⟨⟨⟨h1, h2⟩, h3⟩, h4⟩, h5⟩ := h
  exact ⟨h1, h2, h3, h4, h5⟩

/-- Words in stack memory. -/
def stk (a : Nat) (ws : List Nat) (s : State) : State := s.svcWrite a (ws.flatMap (leBytes 8))

/-! ## Ports -/

/-- Port 3 of that module: up, its flow 2047 bound both ways for chamber 3, its queue pair 9. -/
def port3 (dir : Nat) : State :=
  let s := fl [(R.PORT_STATUS_LINK_UP 3, 15), (R.PORT_CTRL_LINK_EN 3, 15), (R.PORT_CTRL_MODE 3, 2), (R.SFT_FLOW0_VALID 3 2047, 1),
    (R.SFT_FLOW0_DIR 3 2047, dir), (R.SFT_FLOW0_CHAMBER 3 2047, 3), (R.SFT_FLOW1_BASE 3 2047, 0x50000),
    (R.SFT_FLOW2_TARGET 3 2047, 16), (R.SFT_FLOW0_PEER_FLOW 3 2047, 7), (R.SFT_FLOW0_CLS 3 2047, 1), (R.SFT_FLOW0_WINDOW 3 2047, 64)] rt5
  s.setBud (rxM 3 0) freely

/-- A work request. -/
def wrOf (opc flow len src : Nat) : Wr :=
  { opc := opc, cls := 1, flow := flow, len := len, src := src, remote := 0x1234, rkey := 5, thread := 0x4000, tag := 6, link := 2,
    chamber := 3 }

/-- A queue pair that has no request outstanding. -/
def qp0 : QpSt :=
  { chamber := 3, link := 2, cls := 1, rxq := 0, peer := 11, mtu := 4096, timeout := 2, retryMax := 3, rnrMax := 3, psn := 2 ^ 24 - 1,
    expect := 2 ^ 24 - 1, reqs := [], tries := 0, rnrTries := 0, failed := false, ringBase := 0x60000, ringSlots := 4, ringWr := 5,
    thread := 0x4000, tag := 0, rate := 2 ^ 19, cnpAt := none, sentAt := 7, rateAt := 8 }

/-- A record of 8 bytes of payload on its way to context 9 of core 4 of `rt5`, from gallery 6 of the same chamber. -/
def recOf (kind ring : Nat) : Rec :=
  { kind := kind, cls := 0, slots := 1, dst := 5 * 4096 + 4 * 128 + 9, src := 6 * 4096 + 3, tag := 0x12, seq := 3, gen := 0,
    status := 0, ring := ring, data := 0, info := 0, payload := [1, 2, 3, 4, 5, 6, 7, 8], site := 3, line := 1023, lgen := 2, ggen := 0,
    slot := 2, dsite := some 2, epoch := 0, core := none, hop := 0 }

/-- Ring 1023 of site 2, of task 1, bound to gallery 6; its task has one handler. -/
def mu5 : State :=
  let s := (fl [(R.CTXBLK_HANDLER 2 65, 1), (R.MU_RING0_VALID 2 1023, 1)] rt5)
  let a := R.MU_RING0 2 1023
  let s := s.setReg a (putBits (putBits (putBits (putBits (putBits (s.reg a) 8 6 1) 15 9 6) 60 3 0) 28 28 0x800) 24 4 3)
  let s := s.wrNat (galKey 2 4096) 8 (0xFFFF * 2 ^ 32 + 0x40 + 0x12 * 2 ^ 48)
  s.setTask (2 * 64 + 1) { s.task (2 * 64 + 1) with hcount := 1, hwin := 0, hofs := 0 }

/-- A packet of the TFE of site 2 to cell 0x9000 of site 11. -/
def pktOf (loc : PktAt) : Pkt :=
  { loc := loc, src := 2, lg := none, dst := 11, cls := 1, epoch := 0, budget := 9, addr := 0x9000, data := [1, 2, 3, 4], poison := false,
    site := 2, op := 5, gen := 0, master := taskM 2 48, group := none, members := [], since := 7, passage := none,
    put := none, onward := none }

/-! ## Control -/

/-- The first 96 bytes of a control message with operation `op` under fleet key 1 and its operands. -/
def ctrlHead (op : Nat) (operands : List Byte) : List Byte :=
  let b := leBytes 2 op ++ [0, 0] ++ leBytes 4 1 ++ leBytes 8 7 ++ leBytes 8 0 ++ leBytes 6 (2 ^ 48 - 1) ++ [0, 0] ++ operands
  b ++ List.replicate (96 - b.length) 0

/-- The key. -/
def fleet : List Byte := List.replicate 32 5

/-- The module with that key loaded, its management link up, and chambers 0 and 3 in the profile in force. -/
def ctrlState : State :=
  let s := fl [(R.MGMT_STATUS_LINK_UP, 1)] live
  let p := List.replicate (0x200) 0 ++ leBytes 8 (2 ^ 63) ++ List.replicate (64 * 3 - 8) 0 ++ leBytes 8 (2 ^ 63)
  s.withSec { s.sec with keys := [(257, fleet)], profile := p, cProfile := p }

/-- A message of that module. -/
def ctrl (op : Nat) (operands : List Byte) : CtrlMsg :=
  ⟨ctrlHead op operands ++ leBytes 32 (ctrlMac fleet (ctrlHead op operands)), none⟩

/-- `TfeFree`, evaluated. -/
def tfeFree (s : State) (key cls : Nat) : Bool :=
  !s.frozen (tfeM 2) && !s.sealHolds cls && decide ((s.tfe 2).paid.get key .none = .none) && !(s.bud (tfeM 2)).valid

theorem tfeFree_imp {s : State} {key cls : Nat} (h : tfeFree s key cls = true) : TfeFree s 2 key cls := by
  simp only [tfeFree, Bool.and_eq_true, Bool.not_eq_eq_eq_not, Bool.not_true, decide_eq_true_eq] at h
  exact ⟨h.1.1.1, h.1.1.2, h.1.2, h.2⟩

/-- `RuntimeTakes` and `TfeFree`, evaluated for a command of gallery 5. -/
def works (s : State) (f : Cmd → Bool) (c : Cmd) : Bool := takes s f c && tfeFree s (2 * c.queue) c.cls

/-- The state from which gallery 5's runtime and its TFE execute that command. -/
def begun (s : State) (c : Cmd) : State := (s.working 2 c.cls).taken 5 c

/-- The outcomes of a write of received data. -/
def isDone : RxWr → Bool
  | .done _ st => st == 0
  | _ => false
def isWait : RxWr → Bool
  | .wait _ => true
  | _ => false

/-- `Lands` for a register, with the bits that the write covers. -/
def landsOn (s : State) (src : Src) (a : Nat) (cover v : Word) : Bool :=
  match regAt a with
  | none => false
  | some f => a % 8 == 0 && (src != .host || s.pcieUp) && s.boot.hung.isEmpty && !s.gated f &&
      s.mayWrite (s.who src) f a (written s a f cover v) &&
      ((written s a f cover v ^^^ s.reg a) ||| (v &&& BitVec.ofNat 64 f.row.wo)) &&& s.restricted (s.who src) f == 0

/-- What the register would then hold, if the write of all 64 bits lands. -/
def newOf (s : State) (a : Nat) (v : Word) (p : Word → Bool) : Bool :=
  match regAt a with
  | none => false
  | some f => lands s .bedrock a v && p (written s a f whole v)

/-- The claims of an issue have room on site 2. -/
def roomFor (s : State) (ws : List Want) : Bool :=
  s.blockers 2 (ws.filter (fun w => w.n != 0)) == 0 && decide ((ws.filter (fun w => w.n != 0)).length ≤ s.freeEntries 2)

/-! ## Small steps

The expected results are the manual's, or are worked by hand from its rules. -/

/-- The registers of context 9 after an instruction of it. -/
def after (c : Instr) (s : State) : Ctx := (nx c s).hctx h9

/-- Two operands in `s1` and `s2`. -/
def ab (a b : Nat) : State := withRegs [(1, a), (2, b)] h9 task

/-- R186: a sum wraps at 2^64, the context goes on behind the word. -/
theorem test_add_wraps : (after (.opAdd h9 3 1 2) (ab (2 ^ 64 - 1) 2)).rs 3 = 1 ∧
    (after (.opAdd h9 3 1 2) (ab (2 ^ 64 - 1) 2)).pc = 4100 := by decide +kernel

/-- R47: a write to `s0` is discarded. -/
theorem test_s0_reads_zero : (after (.opAdd h9 0 1 2) (ab 5 2)).rs 0 = 0 := by decide +kernel

/-- R186: the shift distance is B modulo 64; an arithmetic shift keeps the sign. -/
theorem test_sra_sign : (after (.opSra h9 3 1 2) (ab (2 ^ 63) 65)).rs 3 = 0xC000000000000000 := by decide +kernel

/-- R186: the high half of -1 times -1 is 0, of 2^64 - 1 times itself 2^64 - 2. -/
theorem test_mulh_signs : (after (.opMulh h9 3 1 2) (ab (2 ^ 64 - 1) (2 ^ 64 - 1))).rs 3 = 0 ∧
    (after (.opMulhu h9 3 1 2) (ab (2 ^ 64 - 1) (2 ^ 64 - 1))).rs 3 = 0xFFFFFFFFFFFFFFFE := by decide +kernel

/-- R188: ADDI sign-extends its 15 bits, ORI does not. -/
theorem test_immediates : (after (.opAddi h9 3 1 0x7FFF) (ab 0 0)).rs 3 = 0xFFFFFFFFFFFFFFFF ∧
    (after (.opOri h9 3 1 0x7FFF) (ab 0 0)).rs 3 = 0x7FFF := by decide +kernel

/-- R190: LD8 sign-extends, LDU8 does not. -/
theorem test_ld8_sign : let s := (ab 0x4000000000001000 0).wrGal 2 0x1000 [0x80]
    (after (.opLd8 h9 3 1 0) s).rs 3 = 0xFFFFFFFFFFFFFF80 ∧ (after (.opLdu8 h9 3 1 0) s).rs 3 = 0x80 := by decide +kernel

/-- R190: ST16 stores two bytes, the least significant first, and no third. -/
theorem test_st16_bytes : (nx (.opSt16 h9 2 1 0) ((ab 0x4000000000001000 0x123456).wrGal 2 0x1000 [1, 2, 3])).rdGal 2 0x1000 3 =
    [0x56, 0x34, 3] := by decide +kernel

/-- R192: AADD gives D the old value and stores the sum. -/
theorem test_aadd_old : let s := (ab 0x4000000000001000 0).wrGal 2 0x1000 [7]
    (after (.opAadd h9 2 1 0 0) (withRegs [(2, 5)] h9 s)).rs 2 = 7 ∧
      leNat ((nx (.opAadd h9 2 1 0 0) (withRegs [(2, 5)] h9 s)).rdGal 2 0x1000 8) = 12 := by decide +kernel

/-- R193: BLT compares signed numbers, BLTU unsigned ones. -/
theorem test_blt_signed : (after (.opBlt h9 1 2 3) (ab (2 ^ 64 - 1) 1)).pc = 4108 ∧
    (after (.opBltu h9 1 2 3) (ab (2 ^ 64 - 1) 1)).pc = 4100 := by decide +kernel

/-- Addition in FP32 (R96): 1 + 2^-24 is a tie and rounds to the even 1, inexact. -/
theorem test_fp32_tie : (addF32 0 0 0x3F800000 0x33800000).1 = 0x3F800000 ∧ (mulF32 0 0 0x40000000 0x40400000).1 = 0x40C00000 := by
  decide +kernel

/-- The check values of the two CRCs over the digits 1 to 9 are those of IEEE 802.3 and of Castagnoli's. -/
theorem test_crc_check : let d : List Byte := (List.range 9).map (fun i => BitVec.ofNat 8 (0x31 + i))
    crc32 d = 0xCBF43926 ∧ crc32c d = 0xE3069283 := by decide +kernel

/-- R6: a write of ones clears W1C bits and leaves RO bits. -/
theorem test_w1c_clears : let s := fl [(R.GM_ERR_STATUS_CE_SEEN 2, 1), (R.GAL_STATUS_STATE 2, 1)] live
    (nx (.registerWrite .bedrock (R.GM_ERR_STATUS 2) 8 (2 ^ 64 - 1)) s).fld (R.GM_ERR_STATUS_CE_SEEN 2) = 0 := by decide +kernel

/-- Table 2.8: FREEZE freezes with cause 6. -/
theorem test_freeze_cause : (nx (.mstrFreeze .bedrock (mstrSite 2) 49 0x10) task).fld (mCause (taskM 2 49)) = 6 := by
  decide +kernel

/-! ## The premises of the statements hold together -/

/-! ### Chapter 9 -/

/-- The premises of `ScalarResults` hold together. A class A and a class I form at the greatest immediate and shift, on a
gallery context and on the two kinds of Leriq-M context. -/
theorem witness_ScalarResults : (
    let ok (s : State) (h : Hart) : Bool := canIssue s h && bears s h Charge.issue
    ok task h9 && ok live (.mgmt 0) && ok live (.lantern 0) && decide (32767 < 2 ^ 15 ∧ 63 < 64) : Bool) = true := by decide +kernel

/-- The premises of `SpecialRegisters` hold together. -/
theorem witness_SpecialRegisters : (
    let s := withRegs [(1, 0xFFFFFFFE)] h9 task
    canIssue s h9 && bears s h9 Charge.issue && ((s.hctx h9).rs 1).toNat % 4 != 3 &&
      decide (2 < 448 ∧ 4 < 32 ∧ 9 < 128 ∧ 3 < 4) : Bool) = true := by decide +kernel

/-- The premises of `ManagementCalls` hold together. WFE; BCALL with the first reserved number, and with the greatest number
that is a call, its queue empty. -/
theorem witness_ManagementCalls : (
    let n (s : State) : Nat := ((s.hctx (.mgmt 3)).rs 1).toNat % 2 ^ 16
    let s (v : Nat) : State := withRegs [(1, v)] (.mgmt 3) live
    let ok (s : State) : Bool := canIssue s (.mgmt 3) && (s.mHart (.mgmt 3)).priv != 2
    isM (.mgmt 3) && ok (s 15) && n (s 15) == 15 && ok (s 14) && n (s 14) == 14 && (s 14).sec.calls.length < 16 : Bool) = true := by decide +kernel

/-- The premises of `NarrowAccess` hold together. -/
theorem witness_NarrowAccess_cells : (
    let s := withRegs [(1, 0x4000000000001000)] h9 task
    let x := s.hctx h9
    canIssue s h9 && bears s h9 Charge.issue && effAddr (x.rs 1) (sextN 15 8) == some 0x4000000000001008 && [1, 2, 4,
      8].all (fun n => s.target h9 x 0x4000000000001008 n false == some (.cells 0x1008) &&
      s.target h9 x 0x4000000000001008 n true == some (.cells 0x1008) && s.blockers 2 [⟨false, 0x1008, n⟩] == 0 &&
      s.blockers 2 [⟨true, 0x1008, n⟩] == 0 && s.gate 2 0x1008 n == .ok && !s.galPoisoned 2 0x1008 n) : Bool) = true := by decide +kernel

/-- The premises of `NarrowAccess` hold together. -/
theorem witness_NarrowAccess_own : (
    let s := withRegs [(1, 0x4000000000080100)] (.mgmt 3) live
    let x := s.hctx (.mgmt 3)
    canIssue s (.mgmt 3) && effAddr (x.rs 1) (sextN 15 8) == some 0x4000000000080108 && [1, 2, 4, 8].all (fun n => [true,
      false].all (fun w => s.target (.mgmt 3) x 0x4000000000080108 n w == some (.own (mgmtKey 0x80108)))) : Bool) = true := by decide +kernel

/-- The premises of `NarrowAccess` hold together. -/
theorem witness_NarrowAccess_module : (
    let s := withRegs [(1, 0x8000300000000100)] h9 task
    let x := s.hctx h9
    canIssue s h9 && effAddr (x.rs 1) (sextN 15 8) == some 0x8000300000000108 &&
      s.target h9 x 0x8000300000000108 8 false == some (.module 0x300000000108) &&
      bears s h9 { Charge.issue with stack := s.loadUnits h9 0x300000000108 } : Bool) = true := by decide +kernel

/-- The premises of `RopeAnswers` hold together. A load waiting and two stores waiting of a gallery context, at an address
of host memory, the link up. -/
theorem witness_RopeAnswers : (
    let s0 := fl [(R.HIF_STATUS_SPEED, 4)] task
    let s1 := s0.withHost { s0.host with busMaster := true }
    let s :=
      s1.setHctx h9 { s1.hctx h9 with st := .stalled (.load 3 4 true 0x300000000108 0), stores := [(0, 0x300000000108, 2, 0x1234), (0, 0x300000000208, 2, 5)] }
    (s.hctx h9).st == .stalled (.load 3 4 true 0x300000000108 0) && [1, 2, 4, 8].contains 4 && 0x300000000108 % 4 == 0 &&
      placeOf 0x300000000108 == .host 0x108 && s.hostOpen && s.hostWrOk && !s.sandboxed 2 &&
      s.fld (R.CORE_STATUS_GEN 2 4) == 0 && (s.hctx h9).st != .free && ropeAddr 0x300000000108 : Bool) = true := by decide +kernel

/-- The premises of `RopeAnswers` hold together. A load and a store of 8 bytes at the first byte of a unit of a stack, of a
register and of a window; in cache mode, a line that is there and one that is not. -/
theorem witness_RopeAnswers_places : (
    let at_ (m : Nat) : State :=
      rt5.setHctx h9 { rt5.hctx h9 with st := .stalled (.load 3 8 false m 0), stores := [(0, m, 8, 7)] }
    let reads (m : Nat) : Bool :=
      let s := at_ m
      (s.hctx h9).st == .stalled (.load 3 8 false m 0) && (s.hctx h9).stores == [(0, m, 8, 7)] && !s.sandboxed 2 &&
        s.boot.hung == []
    let c : State := (rt5.setSlice 2 31 5).setGm 2 { rt5.gm 2 with cache := [(0x40000 / 512, List.replicate 512 3)] }
    let r := R.HLT_MODULE
    reads 0x40000 && placeOf 0x40000 == .stack 0x40000 && !rt5.cacheOn 2 && rt5.stackOpen 0x40000 &&
      !rt5.stackPoisoned 0x40000 && c.cacheOn 2 && (c.cached 2 (0x40000 / 512)).isSome &&
      (c.cached 2 (0x50000 / 512)).isNone && c.stackOpen 0x50000 &&
      (List.range 8).all (fun i => !c.stackPoisoned (0x50000 + 64 * i)) && reads r && placeOf r == .csr r &&
      decide (blockAt r = some (.HLT, r)) && (regAt (r - r % 8)).any (fun f => !rt5.gated f) && reads 0x100050000100 &&
      placeOf 0x100050000100 == .gal 5 0x100 && rt5.siteOfLgIn 0 5 == some 2 && decide (2 ≤ rt5.bank 0) &&
      rt5.gate 2 0x100 8 == .ok && !rt5.galPoisoned 2 0x100 8 : Bool) = true := by decide +kernel

/-- The premises of `WideAccess` hold together. -/
theorem witness_WideAccess_vector : (
    let s := withRegs [(1, 0x4000000000001000)] h9 task
    let x := s.hctx h9
    canIssue s h9 && bears s h9 Charge.issue && s.gate 2 0x1040 64 == .ok && [true,
      false].all (fun w => s.cellsOf 2 4 x 1 (sextN 15 64) 64 w == some 0x1040 && s.blockers 2 [⟨w, 0x1040, 64⟩] == 0) &&
      !s.galPoisoned 2 0x1040 64 : Bool) = true := by decide +kernel

/-- The premises of `WideAccess` hold together. In cells, and in the local memory of a Leriq-M core. -/
theorem witness_WideAccess_atomic : (
    let s := withRegs [(1, 0x4000000000001000)] h9 task
    let x := s.hctx h9
    let m := withRegs [(1, 0x4000000000080100)] (.mgmt 3) live
    let y := m.hctx (.mgmt 3)
    canIssue s h9 && bears s h9 Charge.issue && [true,
      false].all (fun w => s.cellsOf 2 4 x 1 (sextN 11 64) 8 w == some 0x1040) && s.blockers 2 [⟨true, 0x1040, 8⟩] == 0 &&
      s.gate 2 0x1040 8 == .ok && !s.galPoisoned 2 0x1040 8 && canIssue m (.mgmt 3) &&
      effAddr (y.rs 1) (sextN 11 8) == some 0x4000000000080108 &&
      m.target (.mgmt 3) y 0x4000000000080108 8 true == some (.own (mgmtKey 0x80108)) : Bool) = true := by decide +kernel

/-- The premises of `Branches` hold together. Each branch is taken on some operands and not on others; the targets of JAL
and JALR may be fetched, or lie outside the window. -/
theorem witness_Branches : (
    let s := withRegs [(1, 5), (4, 4096)] h9 task
    let x := s.hctx h9
    canIssue s h9 && bears s h9 Charge.issue && s.targetOk h9 x (x.pc + 4 * sextN 15 3) &&
      s.targetOk h9 x (x.pc + 4 * sextN 19 3) && s.targetOk h9 x (x.rs 4 + BitVec.ofInt 64 (sextN 15 8)).toNat && !isM h9 &&
      !s.targetOk h9 x (x.pc + 4 * sextN 15 0x4000) && !s.targetOk h9 x (x.pc + 4 * sextN 19 0x40000) &&
      !s.targetOk h9 x (x.rs 1 + BitVec.ofInt 64 (sextN 15 8)).toNat : Bool) = true := by decide +kernel

/-- The premises of `VectorResults` hold together. A floating form with a second operand, one without, and the greatest
registers and formats. -/
theorem witness_VectorResults : (
    let v : VOp := ⟨7, 7, 7, 1, 1, 2, 0⟩
    let u : VOp := ⟨3, 7, 0, 0, 0, 2, 0⟩
    let w : VOp := ⟨3, 7, 7, 0, 0, 5, 0⟩
    canIssue task h9 && bears task h9 Charge.issue &&
      decide (v.a < 8 ∧ v.b < 8 ∧ v.fmt < 3 ∧ v.ctl = 0 ∧ u.b = 0 ∧ u.a < 8 ∧ u.fmt < 3 ∧ u.vd < 4 ∧ w.vd < 4 ∧ w.a < 8 ∧ w.b < 8 ∧ 3 ≤ w.fmt ∧ w.fmt < 6) : Bool) = true := by decide +kernel

/-- The premises of `VectorMoves` hold together. -/
theorem witness_VectorMoves : (
    let sel : VOp := ⟨7, 7, 7, 1, 1, 2, 3⟩
    let perm : VOp := ⟨7, 7, 7, 1, 1, 5, 0⟩
    let ins : VOp := ⟨7, 1, 0, 1, 1, 0, 15⟩
    let sra : VOp := ⟨7, 7, 0, 1, 1, 5, 31⟩
    let cvt : VOp := ⟨7, 7, 0, 1, 1, 5, 5⟩
    let ext : VOp := ⟨0, 31, 7, 0, 0, 5, 15⟩
    canIssue task h9 && bears task h9 Charge.issue &&
      decide (sel.ctl < 4 ∧ sel.fmt < 3 ∧ perm.fmt < 6 ∧ 3 ≤ perm.fmt ∧ ins.ctl < 16 ∧ ins.fmt = 0 ∧ sra.ctl < 32 ∧ sra.b = 0 ∧ 3 ≤ sra.fmt ∧ cvt.ctl < 6 ∧ cvt.fmt < 6 ∧ cvt.b = 0 ∧ ext.ctl < 16 ∧ ext.vd = 0 ∧ ext.fmt < 6) : Bool) = true := by decide +kernel

/-! ### Chapters 3 and 4 -/

/-- The premises of `GalleryMemory` hold together. -/
theorem witness_GalleryMemory_slices : (
    let s := fl [(R.GAL_STATUS_STATE 2, 1)] live
    let on := onSlices2 s
    let d := s.setSlice 2 31 4
    let w := s.setSlice 2 31 1
    let h := fl [(R.GM_SCRUB_STATE 2, 1)] s
    lands on .bedrock (R.GM_PWR_OFF_REQ 2) 0xF && on.fld (R.GM_SCRUB_STATE 2) == 0 &&
      !on.splitsGroup 2 (getBits 0xF 0 32) && getBits 0xF 3 1 == 1 && on.slice 2 3 == 2 &&
      lands s .bedrock (R.GM_PWR_ON_REQ 2) 0xF && s.slice 2 3 == 0 && !s.splitsGroup 2 (getBits 0xF 0 32) &&
      s.fld (R.GM_SCRUB_STATE 2) == 0 && d.slice 2 31 == 4 && bitN (d.gm 2).heldOn 31 == 0 && w.slice 2 31 == 1 &&
      bitN (w.gm 2).heldOff 31 == 0 && h.fld (R.GM_SCRUB_STATE 2) == 1 && lands h .bedrock (R.GM_PWR_OFF_REQ 2) 0xF &&
      lands h .bedrock (R.GM_PWR_ON_REQ 2) 0xF && !h.splitsGroup 2 (getBits 0xF 0 32) : Bool) = true := by decide +kernel

/-- The premises of `GalleryMemory` hold together. A map whose groups are OFF, and one whose group 0 is ON. -/
theorem witness_GalleryMemory_groups : (
    let s := fl [(R.GAL_STATUS_STATE 2, 1)] live
    let on := onSlices2 s
    lands on .bedrock (R.GM_GROUP_ILV 2) 0x81 && on.slice 2 0 == 2 && bitN (on.fld (R.GM_GROUP_ILV_ILV 2)) 0 == 0 &&
      lands s .bedrock (R.GM_GROUP_ILV 2) 0x81 &&
      (List.range 8).all (fun g => bitN (getBits 0x81 0 8) g == bitN (s.fld (R.GM_GROUP_ILV_ILV 2)) g ||
      (List.range 4).all (fun i => s.slice 2 (4 * g + i) == 0)) && lands s .bedrock (R.GM_CACHE_CTRL 2) 1 &&
      getBits 1 0 1 == 1 : Bool) = true := by decide +kernel

/-- The premises of `GalleryMemory` hold together. A move of claims out of a range, and one into its new place, of the one
claim in entry 63. -/
theorem witness_GalleryMemory_claims : (
    let w : Word := putBits (putBits (putBits (putBits (putBits 0 0 22 800) 32 22 16) 60 1 1) 63 1 1) 54 6 7
    let w1 := putBits w 22 1 1
    let s := rg [(R.GM_SB_ENTRY 2 63, w.toNat)] (fl [(mFrozen (taskM 2 7), 1), (R.GM_SB_MOVE0_FROM 2, 100),
      (R.GM_SB_MOVE0_LEN 2, 2)] gal)
    let s1 := rg [(R.GM_SB_ENTRY 2 63, w1.toNat)] s
    let v : Word := putBits (putBits 0 63 1 1) 56 6 7
    let v1 : Word := putBits (putBits v 62 1 1) 0 19 5
    let ok (s : State) (v w : Word) : Bool := SMap.wf resetOf s.csr && Memory.wf s.mem &&
      lands s .bedrock (R.GM_SB_MOVE1 2) v && getBits v 63 1 == 1 && s.reg (R.GM_SB_ENTRY 2 63) == w &&
      (List.range 63).all (fun e => s.reg (R.GM_SB_ENTRY 2 e) == 0) && getBits w 60 1 == 1 && getBits w 63 1 == 1 &&
      getBits w 54 6 == getBits v 56 6 && s.frozen (taskM 2 (getBits v 56 6)) &&
      decide (8 * s.fld (R.GM_SB_MOVE0_FROM 2) ≤ getBits w 0 22 ∧ getBits w 0 22 + getBits w 32 22 ≤ 8 * s.fld (R.GM_SB_MOVE0_FROM 2) + 8 * s.fld (R.GM_SB_MOVE0_LEN 2) ∧ 0 < s.fld (R.GM_SB_MOVE0_LEN 2))
    ok s v w && getBits v 62 1 == 0 && ok s1 v1 w1 && getBits v1 62 1 == 1 && getBits w1 22 1 == 1 &&
      decide (8 * getBits v1 0 19 + getBits w1 32 22 ≤ cellsEnd / 64) &&
      getBits w1 0 22 == 8 * s1.fld (R.GM_SB_MOVE0_FROM 2) : Bool) = true := by decide +kernel

/-- The premises of `ScrubAndClaims` hold together. -/
theorem witness_ScrubAndClaims : (
    let s := fl [(R.GM_SCRUB_STATE 2, 1)] gal
    let r := fl [(R.GM_SCRUB_STATE 2, 2)] gal
    let c := fl [(R.GM_SB_ENTRY_VALID 2 63, 1), (R.GM_SB_ENTRY_KIND 2 63, 1)] task
    let c := c.setCtx (ctxKey 2 4 9) { c.ctx (ctxKey 2 4 9) with waitsOn := 2 ^ 63, st := .stalled .issue }
    let cr := fl [(R.GM_SB_ENTRY_KIND 2 63, 0)] c
    lands s .bedrock (R.GM_SCRUB 2) 4 && getBits 4 2 1 == 1 && s.fld (R.GM_SCRUB_STATE 2) == 1 &&
      r.fld (R.GM_SCRUB_STATE 2) == 2 && (r.gm 2).held == [] && c.fld (R.GM_SB_ENTRY_VALID 2 63) == 1 &&
      c.fld (R.GM_SB_ENTRY_SW 2 63) == 0 && c.fld (R.GM_SB_ENTRY_KIND 2 63) == 1 && !c.opLive 2 (c.opOf 2 63) &&
      cr.fld (R.GM_SB_ENTRY_KIND 2 63) == 0 && cr.readsDone 2 (cr.opOf 2 63) &&
      bitN (c.ctx (ctxKey 2 4 9)).waitsOn 63 == 1 && (c.ctx (ctxKey 2 4 9)).st == .stalled .issue : Bool) = true := by decide +kernel

/-- The premises of `CoreAndGalleryReset` hold together. A first reset, one within 1 ms of the last, one that is held, one
in progress. -/
theorem witness_CoreAndGalleryReset_core : (
    let s := task
    let at1 (o : Option Nat) (b : Bool) : State :=
      s.setCore (coreKey 2 4) { s.core (coreKey 2 4) with lastReset := o, held := b }
    let p := fl [(R.CORE_STATUS_RESETTING 2 4, 1)] s
    let v : Word := 4
    let ok (s : State) : Bool := lands s .bedrock (R.CORE_CTRL 2 4) v && getBits v 2 1 == 1 && getBits v 3 1 == 0 &&
      getBits v 1 1 == s.fld (R.CORE_CTRL_FENCE 2 4) && s.fld (R.CORE_STATUS_RESETTING 2 4) == 0 && !(s.gr 2).busy
    ok (at1 none false) && ok (at1 (some s.now) false) && s.now < s.now + 1000000 &&
      ((at1 (some s.now) true).core (coreKey 2 4)).held && !((at1 (some s.now) true).gr 2).busy &&
      ((at1 (some s.now) true).core (coreKey 2 4)).lastReset == some s.now && s.tasksOnCore 2 5 == [] &&
      p.fld (R.CORE_STATUS_RESETTING 2 4) == 1 && !(p.gr 2).busy : Bool) = true := by decide +kernel

/-- The premises of `CoreAndGalleryReset` hold together. -/
theorem witness_CoreAndGalleryReset_gallery : (
    let s := task
    let b := s.setGr 2 { s.gr 2 with busy := true }
    let h := s.setGr 2 { s.gr 2 with held := true, lastAt := some 3 }
    lands s .bedrock (R.GAL_CTRL 2) 5 && !s.inChReset 2 && getBits 5 2 1 == 1 &&
      getBits 5 3 1 == s.fld (R.GAL_CTRL_FENCE 2) && !(s.gr 2).busy && (s.gr 2).lastAt == none && (b.gr 2).busy &&
      !b.inChReset 2 && (h.gr 2).held && !(h.gr 2).busy && (h.gr 2).lastAt == some 3 && h.now < 3 + 1000000 &&
      lands h .bedrock (R.GAL_CTRL 2) 5 && !h.inChReset 2 : Bool) = true := by decide +kernel

/-- The premises of `CoreContexts` hold together. -/
theorem witness_CoreContexts_block : (
    let s := fl [(R.CTXBLK_VALID 2 511, 0)] gal
    lands s .bedrock (R.CTXBLK 2 511) 0x802F && (blockCtxs 2 511).all (fun k => (s.ctx k).st == .free) &&
      getBits 0x802F 0 6 == 47 && s.fld (R.CTXBLK_VALID 2 511) == 0 : Bool) = true := by decide +kernel

/-- The premises of `CoreContexts` hold together. -/
theorem witness_CoreContexts_dispatch : (
    let r : RingRec := ⟨3, 1, 0, 77, 5, 0x12, 2⟩
    let s := fl [(R.CTXBLK_HANDLER 2 65, 1), (R.MU_CTRL_ENABLE 2, 1), (R.MU_RING0_VALID 2 1023, 1), (R.MU_RING0_TASK 2 1023,
      1), (R.MU_RING1_SEQ_NEXT 2 1023, r.seq)] task
    let s := s.wrNat (galKey 2 4096) 8 (0xFFFF * 2 ^ 32 + 0x40 + 0x12 * 2 ^ 48)
    let s := s.setTask (2 * 64 + 1) { s.task (2 * 64 + 1) with hcount := 1, hwin := 0, hofs := 0 }
    let s := s.setCtx (ctxKey 2 4 9) { s.ctx (ctxKey 2 4 9) with st := .parkedDispatch }
    let s := s.setRing (2 * 1024 + 1023) { RingSt.init with recs := [{ r with st := 0 }] }
    s.fld (R.MU_CTRL_ENABLE 2) == 1 && s.fld (R.MU_RING0_VALID 2 1023) == 1 && s.fld (R.MU_RING0_TASK 2 1023) == 1 &&
      (s.ring (2 * 1024 + 1023)).recs == [{ r with st := 0 }] && r.seq == s.fld (R.MU_RING1_SEQ_NEXT 2 1023) &&
      s.handlerOf 2 1 r.tag == some (0, 0x40) && s.idleHandler 2 1 == some (ctxKey 2 4 9) && !s.frozen (taskM 2 1) &&
      s.ringTurn 2 == some 1023 : Bool) = true := by decide +kernel

/-- The premises of `CoreContexts` hold together. -/
theorem witness_CoreContexts_watchdog : (
    let s := fl [(R.GAL_WDOG_LIMIT_US 2, 100), (mValid (taskM 2 1), 1)] task
    s.fld (R.GAL_WDOG_LIMIT_US 2) != 0 && !s.frozen (taskM 2 1) && (s.ctx (ctxKey 2 4 9)).st == .ready &&
      s.taskOf (ctxKey 2 4 9) == 1 : Bool) = true := by decide +kernel

/-- The premises of `CoreContexts` hold together. -/
theorem witness_CoreContexts_icache : (
    let s := task.setCore (coreKey 2 4) { task.core (coreKey 2 4) with fills := [70], lines := [] }
    let s := s.setCtx (ctxKey 2 4 9) { s.ctx (ctxKey 2 4 9) with st := .stalled (.icache 70) }
    let b := fl [(R.CORE_STATUS_ICINV_BUSY 2 4, 1)] s
    let l := task.setCore (coreKey 2 4) { task.core (coreKey 2 4) with fills := [], lines := [(70, []), (71, [])] }
    ((l.core (coreKey 2 4)).line 70).isSome && (s.core (coreKey 2 4)).fills.contains 70 &&
      !s.galPoisoned 2 (512 * 70) 512 && (s.ctx (ctxKey 2 4 9)).st == .stalled (.icache 70) &&
      lands s .bedrock (R.CORE_CTRL 2 4) 8 && getBits 8 3 1 == 1 && getBits 8 2 1 == 0 &&
      getBits 8 1 1 == s.fld (R.CORE_CTRL_FENCE 2 4) && b.fld (R.CORE_STATUS_ICINV_BUSY 2 4) == 1 : Bool) = true := by decide +kernel

/-! ### Chapter 2 -/

/-- The premises of `DripRegisters` hold together. ENABLE set the first time, cleared, set again, and RESYNC. -/
theorem witness_DripRegisters_enable : (
    let r := fl [(R.DRIP_CTRL_ENABLE, 1)] { live with drip := { live.drip with epoch := some 5, running := true } }
    let o := fl [(R.DRIP_CTRL_ENABLE, 0)] { r with drip := { r.drip with running := false } }
    let same (s : State) (v : Word) : Bool := lands s .bedrock R.DRIP_CTRL v && getBits v 1 2 == s.fld R.DRIP_CTRL_SRC
    same live 1 && live.fld R.DRIP_CTRL_ENABLE == 0 && !live.drip.running && live.drip.epoch == none && same r 0 &&
      r.fld R.DRIP_CTRL_ENABLE == 1 && same o 1 && o.fld R.DRIP_CTRL_ENABLE == 0 && !o.drip.running &&
      o.drip.epoch == some 5 && same r 0x11 && getBits 0x11 4 1 == 1 : Bool) = true := by decide +kernel

/-- The premises of `DripRegisters` hold together. -/
theorem witness_DripRegisters_source : (
    let s := fl [(R.DRIP_CTRL_SRC, 1), (R.DRIP_CTRL_ENABLE, 1)] live
    lands s .bedrock R.DRIP_CTRL 1 && getBits 1 1 2 == 0 && lands s .bedrock R.DRIP_CTRL 5 && getBits 5 1 2 == 2 &&
      s.fld R.DRIP_CTRL_SRC == 1 && getBits 5 4 1 == 0 && getBits 5 0 1 == s.fld R.DRIP_CTRL_ENABLE : Bool) = true := by decide +kernel

/-- The premises of `DripRegisters` hold together. NEXT_US changed at two above the current drip and at one above it;
NEXT_US equal to CUR_US. -/
theorem witness_DripRegisters_apply : (
    let s := fl [(R.DRIP_PERIOD_NEXT_US, 300), (R.DRIP_PERIOD_CUR_US, 100), (R.DRIP_NUMBER_NUMBER, 7)] live
    let e := fl [(R.DRIP_PERIOD_NEXT_US, 100)] s
    lands s .bedrock R.DRIP_APPLY_AT 9 && lands s .bedrock R.DRIP_APPLY_AT 8 &&
      s.fld R.DRIP_PERIOD_NEXT_US != s.fld R.DRIP_PERIOD_CUR_US && s.fld R.DRIP_NUMBER_NUMBER + 2 == getBits 9 0 48 &&
      lands e .bedrock R.DRIP_APPLY_AT 8 && e.fld R.DRIP_PERIOD_NEXT_US == e.fld R.DRIP_PERIOD_CUR_US &&
      e.drip.committed == none : Bool) = true := by decide +kernel

/-- The premises of `DripRegisters` hold together. NEXT_US at the least period and one below it; step 4 of bring-up; a
module compute reset in NORMAL. -/
theorem witness_DripRegisters_period : (
    let b := fl [(R.BRG_STATUS_STEP, 4)] State.reset
    lands live .bedrock R.DRIP_PERIOD 0x320000 && getBits 0x320000 16 16 == 50 &&
      lands live .bedrock R.DRIP_PERIOD 0x310000 && getBits 0x310000 16 16 == 49 && b.mode == .boot && b.pwr.removal == 0 &&
      b.fld R.BRG_STATUS_STEP == 4 && lands live .bedrock R.BRG_CTRL 1 && getBits 1 0 1 == 1 && live.mode == .normal &&
      live.pwr.removal == 0 && !live.mcrFull && live.mayAct 5 : Bool) = true := by decide +kernel

/-- The premises of `TimeSource` hold together. -/
theorem witness_TimeSource : (
    let s1 := fl [(R.DRIP_CTRL_SRC, 1), (R.PORT_STATUS_LINK_UP 3,
      1)] { live with ptp := { live.ptp with port := 3, master := some 5 } }
    let s2 := fl [(R.DRIP_CTRL_SRC, 2)] live
    let l := { s2 with drip := { s2.drip with lostAt := some 3 } }
    s1.fld R.DRIP_CTRL_SRC == 1 && s1.svcUp && s2.fld R.DRIP_CTRL_SRC == 2 && s2.svcUp && s2.drip.lostAt == none &&
      l.drip.lostAt == some 3 && !l.drip.timedOut && s1.linkUp 3 0 && s1.ptp.port == 3 && s1.ptp.master.isSome : Bool) = true := by decide +kernel

/-- The premises of `DripBoundary` hold together. A drip in Work; one whose normal Close a change lengthens; one that
nothing lengthens; a schedule that has not begun. -/
theorem witness_DripBoundary : (
    let s := fl [(R.DRIP_CTRL_ENABLE,
      1)] { live with drip := { live.drip with epoch := some 0, openAt := 100000, closeAt := 200000, running := true } }
    let c := fl [(R.DRIP_PERIOD_NEXT_US, 300), (R.DRIP_PERIOD_CUR_US, 100), (R.DRIP_STATUS_APPLY_PEND,
      1)] { s with drip := { s.drip with armed := some s.dripNo } }
    let n := { s with drip := { s.drip with running := false } }
    s.drip.running && s.fld R.DRIP_STATUS_PHASE_SEAL == 0 && decide (s.realClose.2 ≤ s.drip.closeAt + s.sealNs) &&
      s.fld R.DRIP_CTRL_ENABLE == 1 && s.svcUp && s.lengthen.isNone && c.drip.running && c.lengthen.isSome && c.svcUp &&
      c.fld R.DRIP_CTRL_ENABLE == 1 && !n.drip.running && n.svcUp && n.fld R.DRIP_CTRL_ENABLE == 1 : Bool) = true := by decide +kernel

/-- The premises of `MasterBoundary` hold together. An active master without CONT; the same with CONT; a master that nothing
keeps active. -/
theorem witness_MasterBoundary : (
    let s (cont : Bool) : State := task.setBud (taskM 2 1) { freely with valid := true, cont := cont }
    let i := task.setBud (taskM 2 48) { freely with valid := true }
    let ok (s : State) (m : Nat) : Bool := (s.bud m).valid && !s.frozen m && !(s.bud m).frozeNow
    ok (s false) (taskM 2 1) && (s false).active (taskM 2 1) && !((s false).bud (taskM 2 1)).cont &&
      !((s false).bud (taskM 2 1)).govHold && !((s false).task (2 * 64 + 1)).contNow &&
      (s false).fld (mRun (taskM 2 1)) < 2 && ok (s true) (taskM 2 1) && ((s true).bud (taskM 2 1)).cont &&
      ok i (taskM 2 48) && !i.active (taskM 2 48) : Bool) = true := by decide +kernel

/-- The premises of `FreezeAndCharge` hold together. FREEZE and THAW; a charge that fits exactly and one that does not. -/
theorem witness_FreezeAndCharge : (
    let s := task.setBud (taskM 2 49) freely
    let z := fl [(mFrozen (taskM 2 49), 1)] s
    let m := taskM 2 1
    let c := fl [(mUsedCycles m, 6), (mUsedStack m,
      63)] (task.setBud m { freely with valid := true, cycles := 10, stack4k := 1, classA := 5 })
    let fits (ch : Charge) : Bool :=
      decide (c.fld (mUsedCycles m) + ch.cycles ≤ 10 ∧ c.fld (mUsedStack m) + ch.stack ≤ 64 ∧ c.fld (mUsedClassA m) + ch.classA ≤ 5)
    lands s .bedrock (R.MSTR_CTRL (mstrSite 2) 49) 0x10 && getBits 0x10 4 1 == 1 && !s.frozen (taskM 2 49) &&
      lands z .bedrock (R.MSTR_CTRL (mstrSite 2) 49) 0x20 && getBits 0x20 4 1 == 0 && getBits 0x20 5 1 == 1 &&
      z.mode != .quiesce && lands (fl [(mFrozen (rxM 3 5), 1)] z) .bedrock (R.MSTR_CTRL (mstrPort 3) 5) 0x20 &&
      z.rxBuf 3 5 == [] && (c.bud m).valid && c.fld R.PWR_STATUS_LEVEL == 0 &&
      fits { Charge.issue with cycles := 4, stack := 1 } && !fits { Charge.issue with cycles := 5 } : Bool) = true := by decide +kernel

/-! ### Registers, queues, rings and lines -/

/-- The premises of `RegisterFile` hold together. An 8-byte and two 4-byte writes of a register of the stack map and of a
master; a size that is not allowed, an address of no register, a block that is off. -/
theorem witness_RegisterFile : (
    let ok (s : State) (src : Src) (a addr size value : Nat) : Bool :=
      let lo := 8 * (addr - a)
      (regAt a).any (fun f => (f.blk == .MS || f.blk == .MSTR && f.row.reg != .MSTR_CTRL) && f.row.reg != .ROPE_CTRL &&
        f.row.reg != .MSMAP_REGION) &&
        landsOn s src a (putBits 0 lo (8 * size) (2 ^ (8 * size) - 1)) (putBits 0 lo (8 * size) (value % 2 ^ (8 * size)))
    let b := mBudget0 (taskM 2 49)
    let off := fl [(R.BRG_CLK_STACK, 0)] task
    ok task .bedrock b b 8 (2 ^ 64 - 1) && ok task .bedrock b b 4 5 && ok task .bedrock b (b + 4) 4 (2 ^ 32 - 1) &&
      ok task .bedrock (R.MS_CTRL 31) (R.MS_CTRL 31) 8 1 && !sizeOk b 2 && blockAt 0x10 == none && regAt 0x10 == none &&
      (regAt (R.MS_CTRL 31)).any off.gated : Bool) = true := by decide +kernel

/-- The premises of `HostQueues` hold together. A queue that is off, one that runs, and its doorbell in both. -/
theorem witness_HostQueues : (
    let v : Word := putBits (putBits 0 63 1 1) 0 8 3
    let r := fl [(R.HQ0_VALID 63, 1), (R.HQ3_STATE 63, 1)] live
    let bell (s : State) : Bool := landsOn s .bedrock (R.HQ2 63) (putBits 0 48 16 0xFFFF) (putBits 0 48 16 0xFFFF)
    lands live .bedrock (R.HQ0 63) v && getBits v 63 1 == 1 && live.fld (R.HQ3_STATE 63) == 0 &&
      lands r .bedrock (R.HQ0 63) 0 && r.fld (R.HQ0_VALID 63) == 1 && bell r && r.fld (R.HQ3_STATE 63) == 1 && bell live : Bool) = true := by decide +kernel

/-- The premises of `MessageEntries` hold together. A ring bound, unbound, and a valid one written in another way. -/
theorem witness_MessageEntries_ring : (
    let a := R.MU_RING0 2 1023
    let v : Word := putBits (putBits (putBits (putBits (putBits (putBits 0 63 1 1) 60 3 0) 28 28 64) 24 4 10) 15 9 5) 8 6 1
    let s := fl [(R.WIN_LIM_SIZE 2 4 0 0, 4096)] task
    let t := s.setReg a v
    let u := putBits v 63 1 0
    newOf s a v (fun new => s.ringBindOk 2 1023 new) && getBits v 63 1 == 1 && t.fld (R.MU_RING0_VALID 2 1023) == 1 &&
      newOf t a u (fun new => new == putBits (t.reg a) 63 1 0) && lands t .bedrock a (putBits v 8 6 7) : Bool) = true := by decide +kernel

/-- The premises of `MessageEntries` hold together. -/
theorem witness_MessageEntries_line : (
    let a := R.MU_LINE0 2 1023
    let v : Word := putBits (putBits (putBits (putBits (putBits 0 63 1 1) 61 2 3) 55 6 1) 34 21 4096) 13 21 8191
    let t := task.setReg a v
    let u := putBits v 63 1 0
    newOf task a v (fun new => task.lineBindOk 2 1023 new) && getBits v 63 1 == 1 && t.fld (R.MU_LINE0_VALID 2 1023) == 1 &&
      newOf t a u (fun new => new == putBits (t.reg a) 63 1 0) && t.una (2 * 1024 + 1023) == [] : Bool) = true := by decide +kernel

/-- The premises of `MessageEntries` hold together. -/
theorem witness_MessageEntries_completion : (
    let a := R.MU_CQ0 2 1
    let v : Word := putBits (putBits (putBits 0 63 1 1) 24 4 10) 28 28 64
    let s := fl [(R.WIN_LIM_SIZE 2 4 0 0, 4096)] task
    let t := s.setReg a v
    let u := putBits v 63 1 0
    newOf s a v (fun new => s.cqBindOk 2 1 new) && getBits v 63 1 == 1 && t.fld (R.MU_CQ0_VALID 2 1) == 1 &&
      newOf t a u (fun new => new == putBits (t.reg a) 63 1 0) : Bool) = true := by decide +kernel

/-! ### Chapters 6 and 7 -/

/-- The premises of `TilesAndCombines` hold together. An empty tile; one with work; a sparse one whose metadata do not
ascend. -/
theorem witness_TilesAndCombines_tile : (
    let e := eng.setMxe 4 { MxeSt.init with queue := [aTile 0 4 4] }
    let a := aTile 2 3 8
    let b := { a with sparse := true }
    let s (t : Tile) : State := eng.setMxe 5 { MxeSt.init with queue := [t] }
    let ok (t : Tile) : Bool := (s t).mxeRuns 2 1 && ((s t).mxe 5).run.length < 2 &&
      pickTile ((s t).mxe 5).queue == some t && !t.empty && (s t).gates 2 ((s t).tileReads 2 1 t) == .ok
    e.mxeRuns 2 0 && pickTile (e.mxe 4).queue == some (aTile 0 4 4) && (aTile 0 4 4).empty && ok a &&
      !(s a).badSparse 2 a && (s a).hasEpi 2 0 && !(a.srcs.any (fun r => (s a).galPoisoned 2 r.1 r.2)) &&
      a.srcs.all (fun r => (s a).marksIn 2 r.1 r.2 == []) && ok b && (s b).badSparse 2 b : Bool) = true := by decide +kernel

/-- The premises of `TilesAndCombines` hold together. The three kinds of combine. -/
theorem witness_TilesAndCombines_combine : (
    let s (c : Combine) : State := eng.setCur 2 { CurSt.init with item := some (newItem (.combine c) c.epi c.m) }
    let ok (c : Combine) : Bool := ((s c).combineNow 2).any (fun i => decide (i.2 = c)) && !(s c).combinePoison 2 c &&
      (s c).gates 2 c.ranges == .ok && c.ranges.all (fun r => (s c).marksIn 2 r.1 r.2 == [])
    let a := aComb true true false
    let z (p m n : Nat) : Bool :=
      decide (a.p.base + p * a.p.stride + 512 * m + 4 * n + 4 ≤ a.la ∨ a.la + 512 + 2560 * a.m ≤ a.p.base + p * a.p.stride + 512 * m + 4 * n)
    ok (aComb false false false) && ok a && decide (a.la + 512 + 2560 * a.m ≤ cellsEnd ∧ a.n ≤ 128) &&
      (List.range a.npart).all (fun p => (List.range a.m).all (fun m => (List.range a.n).all (z p m))) &&
      ok (aComb true false true) : Bool) = true := by decide +kernel

/-- The premises of `TileResults` hold together. -/
theorem witness_TileResults_held : (
    let r := runOf (aTile 2 3 8) false []
    let s := (fl [(R.MXE_WIT_STATUS_HELD 2 1, 1), (R.MXE_WIT_CTRL_HOLD_US 2 1,
      3)] eng).setMxe 5 { MxeSt.init with held := some r }
    let p := fl [(R.MXE_CTRL_PATROL_EN 2 1, 1), (R.TRM_CTRL_PATROL_EN, 1)] eng
    decide ((s.mxe 5).held = some r) && !r.written && [(1, 0), (3, 1), (5,
      2)].all (fun v => lands s .bedrock (R.MXE_ARB 2 1) (BitVec.ofNat 64 v.1) && getBits (BitVec.ofNat 64 v.1) 0 1 == 1 &&
      getBits (BitVec.ofNat 64 v.1) 1 2 == v.2) && p.mxeRuns 2 1 && p.kaOk 2 1 && (p.mxe 5).queue == [] &&
      (p.mxe 5).run == [] && p.fld (R.MXE_CTRL_PATROL_EN 2 1) == 1 : Bool) = true := by decide +kernel

/-- The premises of `TileResults` hold together. Sums that pass and sums that do not, with a hold allowed, with none, and
with another tile held; an error of the array of each status. -/
theorem witness_TileResults_outputs : (
    let good : WitSum := ⟨true, 0, 0x3F800000, 0x3F800000, 0x3F800000⟩
    let bad : WitSum := { good with wit := 0x40800000 }
    let r := runOf (aTile 2 3 8) false [good]
    let w := runOf (aTile 2 3 8) true [good]
    let s (r : RunTile) (h : Nat) (held : Option RunTile) : State := (fl [(R.MXE_WIT_CTRL_HOLD_US 2 1, h),
      (R.MXE_WIT_CTRL_ENABLE 2 1, 1)] eng).setMxe 5 { MxeSt.init with run := [r], held := held }
    let pass (s : State) (r : RunTile) (chk : List WitSum) : Bool :=
      (deviate r.sums chk).all (fun w => witPasses w (s.tolOf 2 1 r.t) r.t.k)
    let ok (s : State) (r : RunTile) : Bool := decide ((s.mxe 5).run = [r]) && s.rowsAccepted 2 1 r &&
      s.fld (R.MXE_WIT_CTRL_ENABLE 2 1) == 1 && pass s r [] && !pass s r [bad]
    let u := fl [(R.CUR_STATUS_GEN 2, 1), (R.MXE_CTRL_FENCE 2 1,
      1)] ((s { r with t := { r.t with sparse := true, epi := 5 } } 3 none).setSlice 2 0 0)
    ok (s r 3 none) r && (s r 3 none).fld (R.MXE_WIT_CTRL_HOLD_US 2 1) != 0 && ((s r 3 none).mxe 5).held.isNone &&
      ok (s w 3 none) w && ((s w 3 none).ctx r.t.ctx).st != .free &&
      (s w 3 none).fld (R.CORE_STATUS_GEN 2 (coreOfKey r.t.ctx)) == r.t.coreGen && ok (s r 0 none) r &&
      (s r 0 none).fld (R.MXE_WIT_CTRL_HOLD_US 2 1) == 0 && ok (s r 3 (some w)) r &&
      ((u.mxe 5).run.getLast?).any (fun r => [2, 3, 4, 5, 6, 7, 8].all (fun n => u.tileCause 2 1 n r)) : Bool) = true := by decide +kernel

/-- The premises of `StrawPrograms` hold together. MOV and CMPLT on straw 27, all lanes on. -/
theorem witness_StrawPrograms_registers : (
    let hyp (w : Word) : Bool :=
      let s := strawState 27 w Straw.init
      (s.cur 2).item.any (fun i => i.prog != 0 && (pEntries ((s.cur 2).progs.get i.prog 0)).contains 0 &&
        s.mayFire 2 i 27 0 && guardOf ((s.cur 2).straw 27) (iPsel w) (i.firings 27 0) == 15 &&
        s.clockReady 2 i (i.clock (pIi ((s.cur 2).progs.get i.prog 0)) 27 0 w) i.stalls == .ok &&
        (iSrcs w).all (fun code => !s.srcParity 2 3 3 code && !s.srcClosed 2 i 3 code)) &&
        ((s.cur 2).straw 27).imem.get 0 0 == w && iLinks w == 0 && iSa w < 16 && iSb w < 16
    let a := straw 1 1 2 15 0 0 0
    let b := straw 9 1 2 0x1F 0 0 3
    strawKey 3 3 == 27 && hyp a && iOpc a == 1 && iDst a == 15 && hyp b && iOpc b == 9 && iDst b == 0x1F : Bool) = true := by decide +kernel

/-- The premises of `StrawPrograms` hold together. A source link with a word, one without, and a link destination with room.
-/
theorem witness_StrawPrograms_links : (
    let tk : Token := ⟨BitVec.ofNat 128 0x3F8000007F800001, 15, 0, true, 0⟩
    let a := straw 1 0x12 0 3 0 0 0
    let b := straw 1 3 0 0x13 0 0 0
    let rdy (s : State) (w : Word) : Bool :=
      (s.cur 2).item.any (fun i => s.clockReady 2 i (i.clock (pIi ((s.cur 2).progs.get i.prog 0)) 27 0 w) i.stalls == .ok &&
      i.due == none)
    let s (w : Word) (q : List Token) : State := strawState 27 w { Straw.init with qS := q }
    let ok (s : State) (w : Word) : Bool := (s.cur 2).item.any (fun i => i.prog != 0 &&
      (pEntries ((s.cur 2).progs.get i.prog 0)).contains 0 && s.mayFire 2 i 27 0) &&
      ((s.cur 2).straw 27).imem.get 0 0 == w && iOpc w == 1 && iPsel w == 0
    ok (s a [tk]) a && tk.parity && rdy (s a [tk]) a && rdy (s b []) b &&
      ((s a []).cur 2).item.any (fun i => i.due == none) && (s a []).fld (R.CUR_SKEW_STALLS_DRIP 2) < 1024 &&
      iSa a == 0x12 && iDst a == 3 && iFwd a == 0 && iLinks a == 0 && (((s a [tk]).cur 2).straw 27).queue 0x12 == [tk] &&
      tk.gen == (s a [tk]).fld (R.CUR_STATUS_GEN 2) && ok (s a []) a && (((s a []).cur 2).straw 27).queue 0x12 == [] &&
      ok (s b []) b && iSa b == 3 && iDst b == 0x13 && iFwd b == 0 && linkExists 3 3 3 &&
      ((((s b []).cur 2).straw (linkTo 3 3 3).1).queue (linkTo 3 3 3).2).length < 8 : Bool) = true := by decide +kernel

/-- The premises of `CurtainWork` hold together. A tile whose rows enter the stream queue, a run, a run that was suspended,
and a combine, each the next item. -/
theorem witness_CurtainWork_start : (
    let r := runOf (aTile 2 3 8) true []
    let r := { r with written := false, poison := true }
    let s1 := eng.setMxe 5 { MxeSt.init with run := [r] }
    let pw := putBits (putBits (putBits (putBits 0 63 1 1) 62 1 1) 32 6 2) 0 6 2
    let c2 := { CurSt.init with waiting := [9], runs := [aRun 1], progs := [(1, pw)] }
    let s2 := eng.setCur 2 c2
    let s4 := eng.setCur 2 { c2 with susp := some (newItem (.run (aRun 1)) 1 1) }
    let c := aComb true true false
    let s3 := eng.setCur 2 { CurSt.init with waiting := [11], combines := [c] }
    let pick (s : State) := ((s.streamIn 2 0).streamIn 2 1).pickItem 2
    let idle (s : State) : Bool := s.fld (R.CUR_CTRL_ENABLE 2) == 1 && (s.cur 2).item.isNone && (s.cur 2).loadAt == none &&
      s.fld (R.CUR_STATUS_STATE 2) != 5 && s.fld (R.GAL_STATUS_STATE 2) == 2
    idle s1 && decide (pick s1 = some (.tile 1 r.t)) && decide (s1.waitingTile 2 7 = some (1, r)) &&
      r.gen == s1.fld (R.CUR_STATUS_GEN 2) && idle s2 && (s2.cur 2).susp.isNone &&
      decide (pick s2 = some (.run (aRun 1))) && getBits ((s2.cur 2).progs.get 1 0) 63 1 == 1 &&
      pRun ((s2.cur 2).progs.get 1 0) && idle s4 && (s4.cur 2).susp.isSome && decide (pick s4 = some (.run (aRun 1))) &&
      idle s3 && decide (pick s3 = some (.combine c)) && s3.gates 2 c.ranges == .ok : Bool) = true := by decide +kernel

/-- The premises of `CurtainWork` hold together. A tile's epilogue, a run and the two kinds of combine, all of their work
done; an idle curtain; an item that waits for a word that does not come. -/
theorem witness_CurtainWork_end : (
    let r := runOf { aTile 2 3 8 with epi := 1 } false []
    let b := strawState 3 0 Straw.init
    let c := b.cur 2
    let f : SMap Nat := [(56 * 32 + 1, 999)]
    let s1 :=
      (b.setMxe 5 { MxeSt.init with run := [r] }).setCur 2 { c with item := some { newItem (.tile 1 r.t) 1 2 with fired := f } }
    let s2 := b.setCur 2 { c with item := some { newItem (.run (aRun 1)) 1 1 with fired := f } }
    let la := aComb true true false
    let s3 := b.setCur 2 { c with item := some { newItem (.combine la) 1 2 with written := la.m } }
    let fc := aComb true false true
    let s4 := b.setCur 2 { c with item := some { newItem (.combine fc) 1 2 with fired := f }, combRows := [[1]] }
    let p := fl [(R.CUR_CTRL_PATROL_EN 2, 1), (R.TRM_CTRL_PATROL_EN, 1)] eng
    let w := straw 1 0x12 0 3 0 0 0
    let k := strawState 27 w Straw.init
    let stuck : Bool := (k.cur 2).item.any (fun i => (k.nextDue 2 i).any (fun cl => i.due != some cl &&
      k.clockReady 2 i cl (i.stalls + 16) == .skew) && i.prog != 0)
    let fin (s : State) : Bool := (s.cur 2).item.any (fun i => i.prog != 0 && s.allFired 2 i)
    fin s1 && fin s2 && !s2.frozen (curM 2) && (aRun 1).msg == none && la.long && !la.final &&
      s3.gates 2 [la.laRange] == .ok && fc.final && fin s4 && p.kaOk 2 2 && (p.cur 2).item.isNone &&
      (p.cur 2).waiting == [] && (p.cur 2).loadAt == none && p.fld (R.CUR_CTRL_PATROL_EN 2) == 1 &&
      p.fld (R.CUR_CTRL_ENABLE 2) == 1 && stuck && !k.loadExpired 2 && k.fld (R.CUR_STATUS_STATE 2) != 5 : Bool) = true := by decide +kernel

/-- The premises of `CurtainWork` hold together. A load that waits with a token left, one whose image lies in a slice that
is off, and one whose image names another target. -/
theorem witness_CurtainWork_load : (
    let tk : Token := ⟨5, 15, 0, true, 0⟩
    let s1 := eng.setCur 2 { CurSt.init with loadAt := some 50, straws := [(3, { Straw.init with qS := [tk] })] }
    let s3 := eng.setCur 2 { CurSt.init with loadAt := some 50, loadOfs := 512 }
    let s2 := s3.setSlice 2 0 0
    (s1.cur 2).item.isNone && (s1.cur 2).tokens != 0 && (s2.cur 2).item.isNone && (s2.cur 2).tokens == 0 &&
      (s2.cur 2).susp.isNone && s2.imageErr 2 == some 7 && s3.imageErr 2 == some 8 : Bool) = true := by decide +kernel

/-! ### Chapter 9: class X -/

/-- The premises of `ExtIssue` hold together. A tile for MXE 0, for MXE 1 and for the shorter queue. -/
theorem witness_ExtIssue_tile : (
    let tw := [2 * 2 ^ 60 + 2 * 2 ^ 56, 2 * 2 ^ 50 + 3 * 2 ^ 42 + 8 * 2 ^ 21, rngW 0x80000 128, rngW 0x10000 128,
      rngW 0x40000 512, 0, 0, 0]
    let s := withRegs [(1, 0x2000)] h9 (words 0x2000 tw (fl [(R.WIN_LIM_SIZE 2 4 0 0, 4096)] eng))
    let r := s.hctx h9
    let bs := (s.descRead 2 4 r (r.rs 1).toNat).toOption
    let t0 := bs.bind (fun bs => (s.tileRead 2 4 r bs).toOption.map (fun t => (bs, t)))
    let t := t0.bind (fun p => (s.tilePlace 2 4 r p.1 p.2).toOption)
    canIssue s h9 && bears s h9 Charge.issue && r.pc % 8 == 0 && r.stores == [] && !s.sealHolds 2 &&
      t.any (fun t => roomFor s (s.tileWants 2 t)) && [0, 1].all (fun j => (s.mxe (4 + j)).queue.length < 4 &&
      s.fld (R.MXE_CTRL_FENCE 2 j) == 0) && [0, 128, 256].all (fun p => p == 128 * (p / 128) && p / 128 < 3) : Bool) = true := by decide +kernel

/-- The premises of `ExtIssue` hold together. -/
theorem witness_ExtIssue_move : (
    let dw := [2 * 2 ^ 24 + 64, 0x3000, 0x5000, 64 * 2 ^ 32 + 64, 0, 7 * 2 ^ 16, 0, 0]
    let s := withRegs [(1, 0x2000)] h9 (words 0x2000 dw (fl [(R.WIN_LIM_SIZE 2 4 0 0, 4096)] eng))
    let r := s.hctx h9
    let bs := (s.descRead 2 4 r (r.rs 1).toNat).toOption
    let p := bs.bind (fun bs => if fldN (word8 bs 0) 63 60 < 3 then (s.placeDesc 2 4 r bs).toOption else none)
    canIssue s h9 && bears s h9 Charge.issue && r.pc % 8 == 0 && r.stores == [] && !s.sealHolds 0 &&
      p.any (fun p => s.msgRoom 2 1 p.1.msg p.1.thread == none && roomFor s p.2) && !s.tfeFull 2 : Bool) = true := by decide +kernel

/-- The premises of `ExtIssue` hold together. A put of 70 bytes to a thread of gallery 6. -/
theorem witness_ExtIssue_put : (
    let dst := 6 * 4096 + 9
    let dw := [3 * 2 ^ 60 + 2 ^ 58 + 2 ^ 24 + 70, 0x3000, dst, 0, 0, 0, 0, 0]
    let s0 := fl [(R.WIN_LIM_SIZE 2 4 0 0, 4096), (R.MU_CTRL_ENABLE 2, 1), (R.TFE_CTRL_ENABLE 2, 1),
      (R.MU_LINE0_VALID 2 1023, 1), (R.MU_LINE1_SIZE_LOG2 2 1023, 3), (R.MU_CQ0_VALID 2 1, 1), (R.MU_CQ0_SIZE_LOG2 2 1,
      4)] (withRegs [(1, 0x2000)] h9 pair)
    let s1 :=
      s0.setReg (R.MU_LINE0 2 1023) (putBits (putBits (putBits (s0.reg (R.MU_LINE0 2 1023)) 55 6 1) 34 21 (6 * 4096)) 13 21 (6 * 4096 + 100))
    let s := words 0x2000 dw s1
    let r := s.hctx h9
    let bs := (s.descRead 2 4 r (r.rs 1).toNat).toOption
    let p := bs.bind (fun bs => if fldN (word8 bs 0) 63 60 = 3 then (s.placeDesc 2 4 r bs).toOption else none)
    canIssue s h9 && bears s h9 Charge.issue && r.pc % 8 == 0 && r.stores == [] && !s.sealHolds 1 &&
      p.any (fun p => !p.1.ended && roomFor s p.2 && s.lineOf 2 1 (fldN p.1.dst 20 0) == some 1023 &&
      decide (fldN p.1.dst 20 12 < 384 ∧ 2 * putSlots p.1.rbytes ≤ 2 ^ s.fld (R.MU_LINE1_SIZE_LOG2 2 1023)) &&
      s.lineRoom 2 1023 (putSlots p.1.rbytes) == some 0) && !s.tfeFull 2 && s.fld (R.MU_CQ0_VALID 2 1) == 1 &&
      s.cqFree 2 1 && s.lineDead 2 1023 == none : Bool) = true := by decide +kernel

/-- The premises of `ExtIssue` hold together. -/
theorem witness_ExtIssue_combine : (
    let cw := [15 * 2 ^ 60 + 2 * 2 ^ 31 + 3 * 2 ^ 23 + 2 * 2 ^ 8, rngW 0x4000 0x1000, 0, rngW 0x8000 512, 0, 0, 0, 0]
    let s := withRegs [(1, 0x2000)] h9 (words 0x2000 cw (fl [(R.WIN_LIM_SIZE 2 4 0 0, 4096)] eng))
    let r := s.hctx h9
    let bs := (s.descRead 2 4 r (r.rs 1).toNat).toOption
    let p := bs.bind (fun bs => if fldN (word8 bs 0) 63 60 = 15 then (s.combRead 2 4 r bs).toOption else none)
    canIssue s h9 && bears s h9 Charge.issue && r.pc % 8 == 0 && r.stores == [] && !s.sealHolds 1 &&
      p.any (fun q => s.msgRoom 2 1 q.msg.isSome (q.msg.getD (0, 0)).1 == none && roomFor s (s.combWants 2 q) &&
      s.combReject 2 q == 0) && !s.tfeFull 2 : Bool) = true := by decide +kernel

/-- The premises of `ExtIssue` hold together. -/
theorem witness_ExtIssue_run : (
    let rw := [2 ^ 60 + 2 ^ 56 + 3, rngW 0x4000 128, 0, rngW 0x8000 512, 0, 0, 0, 0]
    let s := withRegs [(1, 0x2000)] h9 (words 0x2000 rw (fl [(R.WIN_LIM_SIZE 2 4 0 0, 4096)] eng))
    let r := s.hctx h9
    let bs := (s.descRead 2 4 r (r.rs 1).toNat).toOption
    let p := bs.bind (fun bs => (s.runRead 2 4 r bs).toOption)
    canIssue s h9 && bears s h9 Charge.issue && r.pc % 8 == 0 && r.stores == [] && !s.sealHolds 1 &&
      p.any (fun p => p.1.cls == 1 && s.msgRoom 2 1 p.1.msg.isSome (p.1.msg.getD (0, 0)).1 == none && roomFor s p.2) &&
      (s.cur 2).runs.length < 4 && !s.frozen (curM 2) : Bool) = true := by decide +kernel

/-- The premises of `ExtControl` hold together. Also a handler, a task that holds a claim of its own with handle 64 (entry
0, first use), and a task whose entry stays valid at the Open. -/
theorem witness_ExtControl : (
    let s := withRegs [(1, 0x1000), (2, 100), (3, 64)] h9 (fl [(R.WIN_LIM_SIZE 2 4 0 0, 4096)] eng)
    let r := s.hctx h9
    let k := fl [(R.CTXBLK_HANDLER 2 65, 1)] s
    let w := putBits (putBits (putBits 0 63 1 1) 60 1 1) 54 6 1
    let c := (s.setReg (R.GM_SB_ENTRY 2 0) w).setGm 2 { s.gm 2 with claims := [(0, ⟨1, 0⟩)] }
    let A := ((c.hctx h9).rs 3).toNat
    let m := taskM 2 1
    let u := fl [(mValid m, 1)] s
    canIssue s h9 && bears s h9 Charge.issue && r.pc % 8 == 0 && r.stores == [] && r.priv != 0 &&
      (r.rs 1).toNat % 512 == 0 && s.localAddr 2 4 r (r.rs 1).toNat imageLen false == some 0x2000 && canIssue k h9 &&
      bears k h9 Charge.issue && k.isHandler (ctxKey 2 4 9) && s.blockers 2 [⟨true, 0x2000, 100⟩] == 0 &&
      s.localAddr 2 4 r (r.rs 1).toNat 100 true == some 0x2000 && decide (1 ≤ s.freeEntries 2) && s.lowEntry 2 == some 0 &&
      canIssue c h9 && bears c h9 Charge.issue && fldN A 5 0 == 0 && s.taskOf (ctxKey 2 4 9) == 1 && (u.bud m).valid &&
      u.fld (mValid m) == 1 && !u.frozen m && getBits (c.reg (R.GM_SB_ENTRY 2 0)) 63 1 == 1 &&
      getBits (c.reg (R.GM_SB_ENTRY 2 0)) 60 1 == 1 &&
      getBits (c.reg (R.GM_SB_ENTRY 2 0)) 54 6 == c.taskOf (ctxKey 2 4 9) && ((c.gm 2).claims.get 0 ⟨0,
      0⟩).serial == fldN A 13 6 : Bool) = true := by decide +kernel

/-- The premises of `ExtControl` hold together. Entries with handle 64 that are free, of another task, owned by hardware, or
used a second time; and a store that is waiting. -/
theorem witness_ExtControl_retire : (
    let s := withRegs [(1, 0x1000), (2, 100), (3, 64)] h9 (fl [(R.WIN_LIM_SIZE 2 4 0 0, 4096)] eng)
    let w := putBits (putBits (putBits 0 63 1 1) 60 1 1) 54 6 1
    let c := (s.setReg (R.GM_SB_ENTRY 2 0) w).setGm 2 { s.gm 2 with claims := [(0, ⟨1, 0⟩)] }
    let free := c.setReg (R.GM_SB_ENTRY 2 0) 0
    let others := [c.setReg (R.GM_SB_ENTRY 2 0) (putBits w 54 6 2), c.setReg (R.GM_SB_ENTRY 2 0) (putBits w 60 1 0)]
    let again := c.setGm 2 { s.gm 2 with claims := [(0, ⟨2, 0⟩)] }
    let wait := c.setCtx (ctxKey 2 4 9) { c.ctx (ctxKey 2 4 9) with stores := [(0, 0, 0, 0)] }
    let ready (s : State) := canIssue s h9 && bears s h9 Charge.issue && fldN ((s.hctx h9).rs 3).toNat 5 0 == 0
    let same (s : State) := ((s.gm 2).claims.get 0 ⟨0, 0⟩).serial == fldN ((s.hctx h9).rs 3).toNat 13 6
    let valid (s : State) := getBits (s.reg (R.GM_SB_ENTRY 2 0)) 63 1 == 1
    (free :: again :: wait :: others).all (fun s => ready s) && same free && !valid free && others.all (fun s => same s &&
      valid s && (getBits (s.reg (R.GM_SB_ENTRY 2 0)) 60 1 == 0 ||
      getBits (s.reg (R.GM_SB_ENTRY 2 0)) 54 6 != s.taskOf (ctxKey 2 4 9))) && !same again && (wait.hctx h9).stores != [] : Bool) = true := by decide +kernel

/-- The premises of `ExtControl` hold together. A context parked until drip 7, at the Open of drip 7 and at that of drip 6.
-/
theorem witness_ExtControl_wake : (
    let k := ctxKey 2 4 9
    let u := fl [(R.DRIP_NUMBER_NUMBER, 7)] (task.setCtx k { task.ctx k with st := .parkedWait 7 5 })
    let v := fl [(R.DRIP_NUMBER_NUMBER, 6)] u
    (u.ctx k).st == .parkedWait 7 5 && decide (7 ≤ u.dripNo) && !u.frozen (taskM (siteOfKey k) (u.taskOf k)) &&
      (v.ctx k).st == .parkedWait 7 5 && decide (v.dripNo < 7) : Bool) = true := by decide +kernel

/-- The premises of `MessageSend` hold together. The greatest payload, on the last line, of class A. -/
theorem witness_MessageSend : (
    let dst := 6 * 4096 + 9
    let s0 := fl [(R.WIN_LIM_SIZE 2 4 0 0, 4096), (R.MU_CTRL_ENABLE 2, 1), (R.MU_LINE0_VALID 2 1023, 1),
      (R.MU_LINE1_SIZE_LOG2 2 1023, 3), (R.MU_CQ0_VALID 2 1, 1), (R.MU_CQ0_SIZE_LOG2 2 1, 4)] (withRegs [(1,
      dst + 2 ^ 40)] h9 pair)
    let s :=
      s0.setReg (R.MU_LINE0 2 1023) (putBits (putBits (putBits (s0.reg (R.MU_LINE0 2 1023)) 55 6 1) 34 21 (6 * 4096)) 13 21 (6 * 4096 + 100))
    let s := s.setBud (taskM 2 1) { s.bud (taskM 2 1) with classA := 5 }
    let r := s.hctx h9
    let e := fl [(R.MU_LINE0_STATE 2 1023, 1)] s
    canIssue s h9 && bears s h9 { Charge.issue with classA := 1 } && r.pc % 8 == 0 && r.stores == [] &&
      (r.rs 1).toNat % 2 ^ 21 == dst && fldN (8 * 40) 8 3 == 40 && dst / 4096 < 384 && s.lineOf 2 1 dst == some 1023 &&
      s.fld (R.MU_CQ0_VALID 2 1) == 1 && !s.sealHolds 0 && s.fld (R.MU_CTRL_ENABLE 2) == 1 && s.cqFree 2 1 &&
      s.lineDead 2 1023 == none && s.lineRoom 2 1023 1 == some 0 && !s.sandboxed 2 && s.siteOfLg 6 == some 3 &&
      (e.lineDead 2 1023).isSome && canIssue e h9 && bears e h9 { Charge.issue with classA := 1 } &&
      e.lineOf 2 1 dst == some 1023 && e.cqFree 2 1 : Bool) = true := by decide +kernel

/-! ### Chapter 8: commands of a runtime -/

set_option maxRecDepth 8192 in
/-- The premises of `RuntimeLoads` hold together. A load one drip too near, and one at the nearest drip allowed, of one task
in 512 bytes. -/
theorem witness_RuntimeLoads_accept : (
    let c0 := cmdOf 1 [0x20000, 101, 0, 0]
    let s := asked c0 rt5
    let body := [2 ^ 63 + 2 ^ 40 + 2 ^ 20, 0, 0, 0, 5, 6, 2 ^ 63 + 8 * 2 ^ 19] ++ List.replicate 49 0
    let head := [9 + 256 + 2 ^ 16 + 1611734779 * 2 ^ 32, 100 + 512 * 2 ^ 32, 0, 0, 0, 0, 0, 0]
    let c1 := cmdOf 1 [0x20000, 102, 0, 512]
    let s1 := asked c1 (stk 0x20000 (head ++ body) rt5)
    let ux := (begun s1 c1).rtRead 2 0x20000 (leAt c1.raw 40 4)
    let u : State := ux.1
    let x : Got := ux.2
    let ers := (u.freeTasks 5 2).zip ((imageRecs x.data).map (·.2))
    let g := u.giveAll 2 ers (u.loadBlocks 5)
    let b := u.givePlaces 2 (ers.flatMap (fun p => recWins p.1 p.2)) (u.usedCells 5 2) []
    works s (fun c => c.opc == 1) c0 && fldN (c0.word 3) 47 0 < s.fld R.DRIP_NUMBER_NUMBER + 2 &&
      works s1 (fun c => c.opc == 1) c1 && fldN (c1.word 3) 47 0 == s1.fld R.DRIP_NUMBER_NUMBER + 2 && x.status == 0 &&
      leAt x.data 0 1 == 9 && u.imageOk x.data 512 && (imageRecs x.data).all (fun r => recOk 512 (leAt x.data 2 2) r.2 &&
      bitN (recWord r.2 0) 62 == 0) && decide ((imageRecs x.data).length ≤ (u.freeTasks 5 2).length) && g.isSome && b.isSome : Bool) = true := by decide +kernel

/-- The premises of `RuntimeLoads` hold together. A load of task entry 47, in the drip before its START. -/
theorem witness_RuntimeLoads_install : (
    let r : List Byte := ([2 ^ 63 + 2 ^ 40 + 2 ^ 20, 0, 0, 0, 5, 6, 2 ^ 63 + 8 * 2 ^ 19] ++
      List.replicate 9 0).flatMap (leBytes 8)
    let l : Load := ⟨cmdOf 1 [], 101, 0, 0x20000, 100, [47], [(9, 32 * 47)], [(8 * 47, 0x200 * 2 ^ 20 + 8)], [r], [0],
      false⟩
    let s := rt5.setRt 5 { rt5.rt 5 with loads := [l] }
    s.siteOfLg 5 == some 2 && s.rtUp 2 && !s.frozen (taskM 2 0) && decide ((s.rt 5).loads.filter (fun l => !l.inst &&
      l.start == s.dripNo + 1) = [l]) && bitN l.endMask 47 == 0 && l.fit == s.fld R.DRIP_PERIOD_CUR_US : Bool) = true := by decide +kernel

/-- The premises of `RuntimeLoads` hold together. END_TASKS one drip too near and at the nearest drip; MOVE of 100 bytes. -/
theorem witness_RuntimeLoads_end : (
    let c0 := cmdOf 2 [0xFFFF, 101]
    let c1 := cmdOf 2 [0xFFFF, 102]
    let c2 := cmdOf 3 [0x100000000000 + 5 * 0x10000000 + 0x9000, 0x40000, 100]
    let s := asked c2 rt5
    let ws := nearWant false (s.resolve 2 (fldN (c2.word 2) 47 0)) (fldN (c2.word 4) 39 0) ++
      nearWant true (s.resolve 2 (fldN (c2.word 3) 47 0)) (fldN (c2.word 4) 39 0)
    takes (asked c0 rt5) (fun c => c.opc == 2) c0 && fldN (c0.word 3) 47 0 == 101 &&
      takes (asked c1 rt5) (fun c => c.opc == 2) c1 && fldN (c1.word 3) 47 0 == 102 &&
      rt5.fld R.DRIP_NUMBER_NUMBER == 100 && takes s (fun c => c.opc == 3) c2 && !s.tfeFull 2 && s.blockers 2 ws == 0 &&
      decide (ws.length ≤ s.freeEntries 2) : Bool) = true := by decide +kernel

/-- The premises of `RuntimeCommands` hold together. -/
theorem witness_RuntimeCommands_tasks : (
    let c (a : Nat) : Cmd := cmdOf 4 [2, a]
    let b := (fl [(mFrozen (taskM 2 1), 1)] rt5).setBud (taskM 2 1) { freely with valid := true }
    let ok (a : Nat) : Bool := takes (asked (c a) b) (fun c => c.opc == 4 && leAt c.raw 24 1 == a) (c a) &&
      bitN ((c a).word 2) 1 == 1
    ok 0 && ok 1 && ok 2 && (b.bud (taskM 2 1)).valid : Bool) = true := by decide +kernel

/-- The premises of `RuntimeCommands` hold together. SURVEY_REQ for a drip that is too near, and at the nearest drip with a
list that is sound, and one whose second entry is not. -/
theorem witness_RuntimeCommands_survey : (
    let c (d n : Nat) : Cmd := cmdOf 0x20 [0x30000, n + d * 2 ^ 32]
    let pass := [1 + 7 * 2 ^ 8 + 384 * 2 ^ 16 + 5 * 2 ^ 32 + 64 * 2 ^ 48 + 16 * 2 ^ 56, 63, 0, 0, 0, 0, 0, 0]
    let none_ := [3, 0, 0, 0, 0, 0, 0, 0]
    let s (d n : Nat) : State := asked (c d n) (stk 0x30000 (pass ++ none_) rt5)
    let got (d n : Nat) := ((begun (s d n) (c d n)).emit (.relay (c d n).raw)).rtRead 2 (fldN ((c d n).word 2) 47 0) n
    let es (n : Nat) (x : Got) := (List.range (n / 64)).map (fun i => (x.data.drop (64 * i)).take 64)
    let bad (n : Nat) : Nat := firstBad ((es n (got 102 n).2).map ((got 102 n).1.svEntryCheck 3))
    works (s 101 0) (fun c => c.opc == 0x20) (c 101 0) && leAt (c 101 0).raw 28 8 < (got 101 0).1.dripNo + 2 && [64,
      128].all (fun n => works (s 102 n) (fun x => x.opc == 0x20) (c 102 n) &&
      leAt (c 102 n).raw 28 8 == (got 102 n).1.dripNo + 2 && leAt (c 102 n).raw 24 4 == n && (got 102 n).2.status == 0) &&
      bad 64 == 0 && bad 128 == 6 : Bool) = true := by decide +kernel

/-- The premises of `RuntimeCommands` hold together. TEST_REQ with a test that there is not, and with two tests run twice on
one gallery; a run of one of them. -/
theorem witness_RuntimeCommands_test : (
    let c0 := cmdOf 0x30 [3 + 2 * 2 ^ 16, 0x30000, 0x31000]
    let c1 := cmdOf 0x30 [0x10 + 17 * 2 ^ 16, 0x30000, 0x31000]
    let s := asked c0 (stk 0x30000 [2 ^ 5] rt5)
    let s1 := (s.taken 5 c0).emit (.relay c0.raw)
    let lgs := (List.range 384).filter (fun n => bitN (leNat (s1.svcRead 0x30000 48).2.data) n == 1)
    let q : TestSt := ⟨c0, 5, 3, 2, 100, [5], 0x31000, [], []⟩
    let t := { s with tst := { s.tst with reqs := [q] } }
    takes s (fun c => c.opc == 0x30) c0 && leAt c0.raw 16 2 == 3 && leAt c0.raw 18 1 == 2 && lgs == [5] &&
      (s1.svcRead 0x30000 48).2.status == 0 && !(s1.svcRead 0x30000 48).2.poison &&
      decide ((s1.svcRead 0x30000 48).1 = s1) && s.siteOfLg 5 == some 2 && s.chamberOf 2 == some 3 &&
      s.chOwns 3 (fldN (c0.word 3) 47 0) 48 && s.chOwns 3 (fldN (c0.word 4) 47 0) 8 &&
      takes (asked c1 rt5) (fun c => c.opc == 0x30) c1 && leAt c1.raw 16 2 == 16 && t.tst.reqs[0]? == some q &&
      t.siteOfLg 5 == some 2 && bitN q.tests 0 == 1 && q.runs.get 80 0 + 1 < q.rep && t.testIdle 2 0 : Bool) = true := by decide +kernel

/-- The premises of `RuntimeCommands` hold together. Reading 64 bytes of a stack with no budget, with Class A held, and with
a budget of no stack bytes left. -/
theorem witness_RuntimeCommands_work : (
    let f (s : State) : State := (s.rtRead 2 0x30000 64).1
    let rest (s : State) : Charge := (((f (s.working 2 0)).tfe 2).need).sub ((s.tfe 2).paid.get 3 .none)
    let v := rt5.setBud (tfeM 2) { freely with valid := true, stack4k := 0 }
    let z := fl [(mFrozen (tfeM 2), 1)] rt5
    let ok (s : State) : Bool := match (f (s.working 2 0)).charge (tfeM 2) (rest s) with | .ok _ => true | _ => false
    decide (((f (rt5.working 2 0)).tfe 2).need ≠ .none) && z.frozen (tfeM 2) && !rt5.frozen (tfeM 2) &&
      !rt5.sealHolds ((f (rt5.working 2 0)).tfe 2).needCls && decide (rt5.part (tfeM 2) (rest rt5) = rest rt5) && ok rt5 &&
      !v.frozen (tfeM 2) && decide (v.part (tfeM 2) (rest v) ≠ rest v) : Bool) = true := by decide +kernel

/-- The premises of `ParameterUpdate` hold together. An update at a record that is not in the directory, one at a final
record, and a refresh. -/
theorem witness_ParameterUpdate_pass : (
    let c0 := cmdOf 0x10 [0x20000, 0, 0, 0, 0x10040]
    let cb := cmdOf 0x10 [0x20000, 0, 0, 0, 0x12040]
    let cr := cmdOf 0x13 [0x40000, 0x60000, 0x2000, 0, 0x10040]
    let s := asked c0 (stk 0x20000 [15 * 2 ^ 24, 0x40000, 0x50000, 0x60000, 0x70000, 0x80000, 4 + 4 * 2 ^ 32, 0] rt5)
    let s1 := begun s c0
    let r := (s1.crec 2 0x10040).2
    let ux := (s1.crec 2 0x10040).1.rtRead 2 0x20000 64
    let u2 : State := ux.1
    let x : Got := ux.2
    let z := asked cr rt5
    let v := ((begun z cr).crec 2 0x10040).1
    let q := ((begun z cr).crec 2 0x10040).2
    works s (fun c => c.opc == 0x10) c0 && s.poison == [] && s.gpoison == [] && s1.inDir 5 0x10040 && isStackAddr 0x10040 &&
      s1.rangeIn 2 0x10040 64 && r.any (fun r => r.final) && x.status == 0 && u2.udescOk 2 0x20000 x.data &&
      !u2.tableBusy 5 2 0x10040 (udesc x.data).param && (u2.touched 2 (udesc x.data)).2.isSome &&
      works (asked cb rt5) (fun c => c.opc == 0x10) cb && !(begun (asked cb rt5) cb).inDir 5 0x12040 &&
      works z (fun c => c.opc == 0x13) cr && (begun z cr).inDir 5 0x10040 && q.any (fun r => r.final) &&
      v.rangeIn 2 0x40000 0x2000 && v.rangeIn 2 0x60000 0x2000 && !v.tableBusy 5 2 0x10040 0x60000 : Bool) = true := by decide +kernel

/-- The premises of `ParameterUpdate` hold together. A staged record: the end of its staging, its commit at once and at the
nearest drip, its abort, and the end of its copy; a runtime that restarts. -/
theorem witness_ParameterUpdate_end : (
    let r : CRec := ⟨2, 1, 5, 0x40000, 0x60000, 0, 0, 4⟩
    let st : State := rt5.svcWrite 0x10040 r.bytes
    let c0 := cmdOf 0x11 [0x10040, 0, 5]
    let c1 := cmdOf 0x11 [0x10040, 102, 5]
    let ca := cmdOf 0x12 [0x10040, 0, 5]
    let u : Upd := ⟨c0, 0x10040, 1, 0, 0, 3, 4, true, []⟩
    let g := rt5.setRt 5 { rt5.rt 5 with upds := [u] }
    let w := { u with phase := 2, claims := [63] }
    let d := st.setRt 5 { st.rt 5 with upds := [w] }
    let z := rt5.setDir 5 ⟨0x10000, true, true⟩
    let staged (c : Cmd) : Bool := works (asked c st) (fun x => x.opc == c.opc) c &&
      ((begun (asked c st) c).staged 5 2 c (fldN (c.word 4) 47 0)).2 == (0, some r)
    (g.rt 5).upds.find? (fun u => u.phase == 0) == some u &&
      ((g.working 2 c0.cls).dropUpd 5 u |>.crec 2 u.recAt).2.isSome && tfeFree g (updKey u.cmd) c0.cls && staged c0 &&
      staged c1 && st.fld R.DRIP_NUMBER_NUMBER + 2 == fldN (c1.word 3) 47 0 && staged ca &&
      (d.rt 5).upds.find? (fun u => u.phase == 2) == some w && ((d.working 2 c0.cls).crec 2 w.recAt).2 == some r &&
      tfeFree d (updKey w.cmd) c0.cls && d.siteOfLg 5 == some 2 && (z.dir 5).restart && z.rtUp 2 && tfeFree z 1000 1 &&
      z.siteOfLg 5 == some 2 : Bool) = true := by decide +kernel

/-! ### A configuration image that passes its checks (`CurtainWork`) -/

/-- Memory that lists nothing from a key up reads as zeros there. -/
theorem rdBytes_unlisted {s : State} {k : Nat} (h : s.mem.all (fun p => decide (p.1 < k)) = true) (n : Nat) :
    s.rdBytes k n = List.replicate n 0 := by
  have g : ∀ (m : SMap Byte) (j : Nat), m.all (fun p => decide (p.1 < k)) = true → k ≤ j → SMap.find? m j = none := by
    intro m j
    induction m with
    | nil => intros; rfl
    | cons p m ih =>
      intro hm hj
      simp only [List.all_cons, Bool.and_eq_true, decide_eq_true_eq] at hm
      simp only [SMap.find?]
      rw [if_neg (by omega), ih hm.2 hj]
  have r : ∀ n j, k ≤ j → s.rdBytes j n = List.replicate n 0 := by
    intro n
    induction n with
    | zero => intros; rfl
    | succ n ih =>
      intro j hj
      simp only [State.rdBytes, List.replicate_succ, ih (j + 1) (by omega), State.rdByte, SMap.get, g s.mem j h hj]
      rfl
  exact r n k (Nat.le_refl k)

theorem rdBytes_split (s : State) (k m n : Nat) : s.rdBytes k (m + n) = s.rdBytes k m ++ s.rdBytes (k + m) n := by
  induction m generalizing k with
  | zero => simp [State.rdBytes]
  | succ m ih => rw [Nat.add_right_comm, State.rdBytes, ih]; simp [State.rdBytes, Nat.add_assoc, Nat.add_comm 1 m]

/-- A CRC that stands at zero stays there over zeros. -/
theorem crcByte_zeros (n : Nat) : (List.replicate n (0 : Byte)).foldl crcByte 0 = 0 := by
  induction n with
  | zero => rfl
  | succ n ih => simpa [List.replicate_succ, crcByte, crcBit] using ih

/-- A load of an image with no program: the first two words of its table are not VALID and leave the CRC at zero, the rest is
zeros, and its CRC 0xFFFFFFFF. -/
def soundImage : State :=
  let s := eng.setCur 2 { CurSt.init with loadAt := some 50, loadOfs := 512 }
  (((s.wrNat (galKey 2 512) 1 9).wrNat (galKey 2 516) 4 0xFFFFFFFF).wrNat (galKey 2 576) 8 0x103F0000003D).wrNat (galKey 2 584) 8
    0x32B00000038

/-- The premises of `CurtainWork` hold for an image that takes effect. -/
theorem witness_CurtainWork_image : (soundImage.cur 2).item.isNone ∧ (soundImage.cur 2).tokens = 0 ∧
    (soundImage.cur 2).susp.isNone ∧ (soundImage.cur 2).loadAt = some 50 ∧ soundImage.imageErr 2 = none := by
  refine ⟨by decide +kernel, by decide +kernel, by decide +kernel, by decide +kernel, ?_⟩
  have body : crc32 (soundImage.rdGal 2 (512 + 0x40) (imageLen - 0x40)) = 0xFFFFFFFF := by
    have h1 : soundImage.rdBytes (galKey 2 (512 + 0x40)) 16 = leBytes 8 0x103F0000003D ++ leBytes 8 0x32B00000038 := by decide +kernel
    have h2 : soundImage.rdBytes (galKey 2 (512 + 0x40) + 16) (imageLen - 0x50) = List.replicate (imageLen - 0x50) 0 :=
      rdBytes_unlisted (by decide +kernel) _
    have h3 : (leBytes 8 0x103F0000003D ++ leBytes 8 0x32B00000038).foldl crcByte 0xFFFFFFFF = 0 := by decide +kernel
    rw [State.rdGal, show imageLen - 0x40 = 16 + (imageLen - 0x50) from rfl, rdBytes_split, h1, h2, crc32, List.foldl_append, h3,
      crcByte_zeros]
    rfl
  unfold State.imageErr
  rw [show (soundImage.cur 2).loadOfs = 512 by decide +kernel]
  dsimp only
  rw [if_neg (by decide +kernel), if_neg (by decide +kernel), if_neg (by rw [body]; decide +kernel), if_neg (by decide +kernel),
    if_neg (by decide +kernel), if_neg (by decide +kernel), if_neg (by decide +kernel), if_neg (by decide +kernel)]

/-! ### Chapters 12 and 13 -/

/-- The premises of `SurveyBanks` hold together. A FREE bank, a load that is sound and one that is not, a LOADED bank at its
drip, a DRAINING bank. -/
theorem witness_SurveyBanks : (
    let s := live
    let b := s.otherBank
    let l := fl [(R.SV_STATUS_LOADING, 1)] s
    let bad := fl [(R.SV_MAP_VALID 1 0, 1), (R.SV_MAP_COL 1 0, 1), (R.SV_MAP_VALID 1 1, 1), (R.SV_MAP_COL 1 1, 1)] l
    let bank (n : Nat) (s : State) : State := fl [(if b = 0 then R.SV_STATUS_BANK0 else R.SV_STATUS_BANK1, n)] s
    let f := bank 1 (fl [(R.SV_FLIP_AT_DRIP_NO, 5), (R.DRIP_NUMBER_NUMBER, 5)] s)
    let g := fl [(R.SV_STATUS_FLIP_PEND, 1)] f
    let d := bank 3 { s with sv := { s.sv with drainAt := some 9 } }
    lands s .flowstone R.SV_CTRL 2 && getBits 2 1 3 == 1 && s.bank b == 0 && s.fld R.SV_STATUS_LOADING == 0 &&
      l.fld R.SV_STATUS_LOADING == 1 && l.otherBank == b && l.loadErr b == 0 && bad.otherBank == b && bad.loadErr b != 0 &&
      lands f .flowstone R.SV_CTRL 4 && getBits 4 1 3 == 2 && f.otherBank == b && f.bank b == 1 &&
      lands s .flowstone R.SV_CTRL 4 && s.bank b != 1 && g.fld R.SV_STATUS_FLIP_PEND == 1 && g.bank b == 1 &&
      g.otherBank == b && g.fld R.SV_FLIP_AT_DRIP_NO == g.fld R.DRIP_NUMBER_NUMBER && lands d .flowstone R.SV_CTRL 8 &&
      getBits 8 1 3 == 4 && d.otherBank == b && d.bank b == 3 && d.fld R.SV_INFLIGHT_OLD == 0 && d.sv.drainAt == some 9 &&
      !d.sv.lateRec : Bool) = true := by decide +kernel

/-- The premises of `StackRequests` hold together. A unit outside the open regions, one inside, and the last stack's scrub
and temperature. -/
theorem witness_StackRequests : (
    let s := fl [(R.MS_CTRL_SCRUB_EN 31, 1)] rt5
    !s.stackOpen 0x100000000 && s.stackOpen 0x40000 && !s.stackPoisoned 0x40000 && 5 % 2 ^ 64 != 2 ^ 64 - 1 &&
      (2 ^ 64 - 1) % 2 ^ 64 == 2 ^ 64 - 1 && decide (31 < 32) && s.fld (R.MS_CTRL_SCRUB_EN 31) == 1 &&
      s.fld (R.MS_STATUS_STATE 31) == 2 && (s.ms 31).scrubAt + 1 < 2 ^ 30 && s.mode == .normal : Bool) = true := by decide +kernel

/-! ### Chapter 15 -/

/-- The premises of `Lamps` hold together. Cartridge 7 in each of its states, its spare READY and absent. -/
theorem witness_Lamps : (
    let lamp (n : Nat) (sp : Nat) : State :=
      let s := fl [(R.LAMP_STATUS_STATE 7, n), (R.LAMP_STATUS_STATE 9, sp)] live
      { s with lamps := s.lamps.put 7 ⟨100, 3⟩ ⟨0, 0⟩ }
    let feeds (sp : Nat) : State := fl [(R.LAMP_STATUS_FEEDS 7, 7)] (lamp 3 sp)
    let idle (sp : Nat) : Bool := (lampsOf 7).all (fun n => (feeds sp).lampState n != 2)
    (lamp 0 0).lampState 7 == 0 && (lamp 1 0).lampState 7 == 1 && ((lamp 1 0).lamp 7).rated == 100 &&
      decide (9 * 100 ≤ 10 * 110 ∧ 10 * 110 ≤ 11 * 100) && (lamp 1 0).feeder 7 == none && (feeds 2).lampState 7 == 3 &&
      (feeds 2).fld (R.LAMP_STATUS_FEEDS 7) == 7 && spareOf 7 == 9 && (feeds 2).lampState 9 == 2 &&
      decide (10 * 79 < 8 * 100) && lands (feeds 2) .bedrock (R.LAMP_CTRL 7) 2 && getBits 2 1 1 == 1 &&
      (feeds 0).lampState 9 != 2 && decide (2 * 49 < 100) && idle 0 && (lamp 4 0).lampState 7 == 4 &&
      (lamp 2 0).lampState 7 == 2 : Bool) = true := by decide +kernel

/-- The premises of `Links` hold together. -/
theorem witness_Links : (
    let s := fl [(R.PORT_PFC_P4 3, 8), (R.PORT_PFC_P1 3, 8)] (port3 0)
    let t := fl [(R.PORT_STATUS_LINK_UP 3, 7)] s
    let g := s.setPort 3 { s.port 3 with qbv := [(24, putBits (putBits 0 63 1 1) 0 24 15)] }
    let ns := ((g.gateEntries 3 3).flatMap (fun e => [e.2.1, e.2.2])).filter (fun x => decide (g.now - g.drip.openAt < x))
    s.linkUp 3 3 && bitN (s.fld (R.PORT_PFC_P4 3)) 3 == 1 && bitN (s.fld (R.PORT_PFC_P1 3)) 3 == 1 && s.mode == .normal &&
      bitN (t.fld (R.PORT_CTRL_LINK_EN 3)) 3 == 1 && t.fld (R.PORT_STATUS_LIGHT 3) != 2 &&
      3 < linksOf (t.fld (R.PORT_CTRL_MODE 3)) && lands s .bedrock (R.PORT_CTRL 3) 0x45 && getBits 0x45 6 1 == 1 &&
      ns.head?.any (fun n => ns.tail.all (fun m => decide (n ≤ m))) : Bool) = true := by decide +kernel

/-- The premises of `SendQueues` hold together. The six operations of send queue 63 of link 2 of port 3. -/
theorem witness_SendQueues : (
    let s0 := port3 0
    let q (w : Wr) : State := s0.setPort 3 { s0.port 3 with sqs := [(64 * 2 + 63, [w, wrOf 9 1 1 1])], qps := [(9, qp0)] }
    let at_ (s : State) (w : Wr) : Bool := s.mode == .normal && s.sqHead 3 2 63 == some w && s.chOwns w.chamber w.src w.len
    let w0 := wrOf 0 2047 100 0x40000
    let drawn (w : Wr) : State :=
      let x := (q w).flow 3 2047
      (q w).setFlow 3 2047 { x with xfers := x.xfers ++ [⟨x.nextXfer, w, 1, x.psn, 0⟩], psn := (x.psn + 1) % 2 ^ 32, nextXfer := (x.nextXfer + 1) % 2 ^ 48 }
    let sr (s : State) (w : Wr) (n : Nat) : Bool :=
      match s.portRead 3 w.thread w.cls w.src n with | .got s3 r => r.status == 0 && s3.maySend 3 (s.fld (R.SFT_FLOW0_LINK 3 w.flow)) w.cls | _ => false
    let w1 := wrOf 1 2047 64 0x40000
    let sft (w : Wr) : Bool :=
      let x := q w
      at_ x w && x.sftOk 3 w && x.flowDead 3 2047 == none && (x.flow 3 2047).xfers == [] && (x.flow 3 2047).frags == []
    let qp (opc : Nat) : Bool :=
      let w := wrOf opc 9 5000 0x40000
      let x := q w
      at_ x w && x.qpOk 3 w && decide (x.qp 3 9 = some qp0) && !qp0.failed && qp0.reqs == [] && x.maySend 3 qp0.link qp0.cls
    s0.poison == [] && s0.gpoison == [] && sft w0 && sr (drawn w0) w0 100 && 0 < (drawn w0).window 3 2047 && sft w1 &&
      sr (q w1) w1 64 && qp 2 && qp 3 && qp 4 : Bool) = true := by decide +kernel

/-- The premises of `SendQueues` hold together. -/
theorem witness_SendQueues_limits : (
    let d : Desc :=
      { descOfBytes (List.replicate 64 0) with op := 5, dst := 0x200002000000 + 3 * 0x400000 + 0x100000 + 0x1000 * (2 * 64 + 63), rows := 1, rbytes := 64, startAt := 10 }
    let s := rt5.setTfe 2 { TfeSt.init with active := [d] }
    let s := s.setPort 3 { s.port 3 with sqs := [(64 * 2 + 63, List.replicate 256 (wrOf 0 1 1 1))] }
    let h : HeldCpl := ⟨0x4000, 5, 0, 0, 12⟩
    let c := rt5.setPort 3 { rt5.port 3 with held := [h] }
    let u := (c.withNow (max c.now (h.at_ + 200000))).setPort 3 { c.port 3 with held := [] }
    let full := fl [(R.CTXBLK_VALID 2 0, 1), (R.CTXBLK_TASK 2 0, 1), (R.MU_CQ0_VALID 2 1, 1), (R.MU_CQ1_RESV 2 1, 1)] u
    decide (s.descOf 2 5 = some d) && d.kind == 0 && !d.readsOver && postOf d.dst == some (3, 2, 63) && !s.sqRoom 3 2 63 &&
      decide ((c.port 3).held = [h]) && (full.cqPort 3 (5 * 4096) 5 0 0).isNone : Bool) = true := by decide +kernel

/-- The premises of `SftFrames` hold together. DATA at the greatest PSN; the acknowledgement timer; a CMD frame. -/
theorem witness_SftFrames_data : (
    let p := port3 1
    let s := p.setPort 3 { p.port 3 with flows := [(2047, { FlowSt.init with expect := 2 ^ 32 - 1, since := some 5 })] }
    let g := s.withHost { s.host with netqs := [(4, ⟨3, 3, 2047, []⟩)] }
    let h : Sft :=
      { s.flowHdr 3 2047 0 with dflow := 2047, gen := s.fld (R.SFT_FLOW0_PEER_GEN 3 2047), rgen := s.fld (R.SFT_FLOW0_GEN 3 2047), psn := 2 ^ 32 - 1, addr := 64, len := 64, total := 2, cls := 1 }
    let hc : Sft := { h with type := 4 }
    let b : List Byte := (List.range 64).map (fun i => BitVec.ofNat 8 i)
    let ok (h : Sft) : Bool := decide (sftOf (Sft.frame h b) = some (h, b)) && s.flowOk 3 2047 1 && s.gensOk 3 2047 h
    let wr (s : State) : RxWr :=
      (s.rxFrame 3).rxWrite 3 (s.fld (R.SFT_FLOW0_RXQ 3 2047)) (s.fld (R.SFT_FLOW0_CLS 3 2047)) 3 (s.fld (R.SFT_FLOW1_BASE 3 2047) + 64) b
    let z := fl [(mFrozen (rxM 3 0), 1)] s
    s.poison == [] && s.gpoison == [] && s.linkUp 3 2 && s.mode == .normal && ok h && h.type == 0 &&
      s.fld (R.FR_CHAMBER_STATE (s.fld (R.SFT_FLOW0_CHAMBER 3 2047))) != 2 &&
      decide (h.addr + 64 ≤ s.fld (R.SFT_FLOW2_TARGET 3 2047) % 2 ^ 24 * 4096) && h.psn == (s.flow 3 2047).expect &&
      (s.flow 3 2047).got == [] && s.rxBuf 3 (s.fld (R.SFT_FLOW0_RXQ 3 2047)) == [] && isDone (wr s) && isWait (wr z) &&
      (Sft.frame h b).length ≤ rxSize && z.rxBuf 3 (z.fld (R.SFT_FLOW0_RXQ 3 2047)) == [] &&
      s.maySend 3 (s.fld (R.SFT_FLOW0_LINK 3 2047)) (s.fld (R.SFT_FLOW0_CLS 3 2047)) && (s.flow 3 2047).since == some 5 &&
      ok hc && (List.find? (fun q => q.2.port == 3 && q.2.flow == 2047) g.host.netqs).isSome : Bool) = true := by decide +kernel

/-- The premises of `SftFrames` hold together. ACK, NACK and COMPLETE of a transfer of one fragment, the fragment's eighth
attempt, and a CTRL frame. -/
theorem witness_SftFrames_answers : (
    let p := port3 0
    let fr : Frag := { psn := 5, xfer := 4, index := 0, sentAt := 10, attempts := 8, rto := 100, sacked := false }
    let s :=
      p.setPort 3 { p.port 3 with flows := [(2047, { FlowSt.init with psn := 6, frags := [fr], xfers := [⟨4, wrOf 0 2047 64 0x40000, 1, 5, 1⟩] })] }
    let h (ty : Nat) : Sft :=
      { s.flowHdr 3 2047 0 with dflow := 2047, gen := s.fld (R.SFT_FLOW0_PEER_GEN 3 2047), rgen := s.fld (R.SFT_FLOW0_GEN 3 2047), type := ty, xfer := 4, status := 1, apsn := 6 }
    let ok (ty : Nat) : Bool := decide (sftOf (Sft.frame (h ty) []) = some (h ty, [])) && s.flowOk 3 2047 0 &&
      s.gensOk 3 2047 (h ty)
    let hc : Sft := { h 5 with sflow := 9 }
    let b : List Byte := leBytes 2 1 ++ List.replicate 126 0
    s.poison == [] && s.gpoison == [] && s.linkUp 3 2 && s.mode == .normal && ok 1 && psnLt fr.psn 6 &&
      (s.flow 3 2047).xfers.all (fun y => decide (y.total ≤ y.sent)) && ok 2 && ok 3 &&
      (s.flow 3 2047).frags.find? (fun g => g.psn == 5 && !g.sacked) == some fr && 8 ≤ fr.attempts &&
      (sftOf (Sft.frame hc b)).any (fun r => r.1.type == 5 && decide (r.2 = b)) && b.length == 128 && leAt b 0 2 == 1 : Bool) = true := by decide +kernel

/-- The premises of `RoceFrames` hold together. Requests in order, at the greatest PSN; a read response, an ACK, and a pair
that waits. -/
theorem witness_RoceFrames : (
    let s0 := stk 0x40000 [1, 2, 3] (port3 0)
    let s := (s0.setPort 3 { s0.port 3 with qps := [(9, qp0)] }).withMrs [(5, ⟨3, 0x70000, 0x10000, 0x1000⟩)]
    let b : List Byte := (List.range 100).map (fun i => BitVec.ofNat 8 i)
    let m : Roce := ⟨9, 2 ^ 24 - 1, 0x1040, 5, 100, b, none, false, true, 0⟩
    let s1 := s.rxFrame 3
    let ringAt := qp0.ringBase + 4096 * (qp0.ringWr % qp0.ringSlots)
    let q (r : QpReq) : State := s0.setPort 3 { s0.port 3 with qps := [(9, { qp0 with reqs := [r] })] }
    let rr : QpReq := ⟨7, 1, wrOf 4 9 100 0x40000, 1⟩
    let ra : QpReq := ⟨2 ^ 24 - 1, 2, wrOf 2 9 5000 0x40000, 2⟩
    s.poison == [] && s.gpoison == [] && s.linkUp 3 2 && s.mode == .normal && decide (s.qp 3 9 = some qp0) && m.icrcOk &&
      !m.ce && !qp0.failed && m.psn == qp0.expect && m.len ≤ 4096 && qp0.ringSlots != 0 && s.rxBuf 3 qp0.rxq == [] &&
      isDone (s1.rxWrite 3 qp0.rxq qp0.cls qp0.chamber ringAt (b.take 100)) && s.mrAt qp0 5 0x1040 100 == some 0x70040 &&
      isDone (s1.rxWrite 3 qp0.rxq qp0.cls qp0.chamber 0x70040 (b.take 100)) && (s1.readAnswer 3 qp0 m).isSome &&
      ((q rr).qp 3 9).any (fun x => decide (x.reqs = [rr]) &&
      isDone (((q rr).rxFrame 3).rxWrite 3 x.rxq rr.wr.cls x.chamber rr.wr.src b)) && rr.wr.opc == 4 &&
      rr.wr.len == b.length && ra.wr.opc != 4 && psn24 (0 + 1) == psn24 (ra.psn + ra.npkt) &&
      ((q ra).qp 3 9).any (fun x => decide (x.reqs = [ra])) && decide (qp0.rate < fullRate) : Bool) = true := by decide +kernel

/-! ### Chapters 11 and 12 -/

/-- The premises of `MessageRecords` hold together. A record that is good, and one for a ring that is not bound, at their
last switch; one at its first, on another die. -/
theorem witness_MessageRecords_arrival : (
    let g := { recOf 0 1023 with hop := 9 }
    let u := { recOf 0 7 with hop := 9 }
    let f := { recOf 0 1023 with site := 447 }
    let s := mu5.withNet [g, u, f]
    [g, u, f].all (fun r => s.ropeServed r.waits && r.dsite == some 2) && ropeLast g.site 2 g.hop &&
      ropeLast u.site 2 u.hop && !ropeLast f.site 2 f.hop && (s.recCheck 2 g).1 == 0 && (s.recCheck 2 g).2.isSome &&
      g.kind != 1 && (s.recCheck 2 u).1 == 1 && s.rtrState 2 != 3 && !s.fenced 2 && s.fld (R.MU_CTRL_ENABLE 2) == 1 : Bool) = true := by decide +kernel

/-- The premises of `MessageRecords` hold together. An answer and a credit return from the farthest site, at their first and
at their last switch. -/
theorem witness_MessageRecords_answer : (
    let u : Unans :=
      { seq := 3, slots := 2, isPad := false, cpl := false, tag := 0, dst := 0, reserved := false, op := none, at_ := 50, resv := false, cls := 0, thread := 0 }
    let a (hop : Nat) : Ans := ⟨2, 1023, 4, 0, 3, 1, 2, none, 447, 0, hop⟩
    let c (hop : Nat) : Cret := ⟨2, 1023, 4, 0, 6, 8, 447, 0, hop⟩
    let s := fl [(R.MU_LINE1_LGEN 2 1023, 4), (R.MU_LINE0_VALID 2 1023, 1), (R.MU_RING0_VALID 2 9, 1)] rt5
    let s := (s.setUna (2 * 1024 + 1023) [u]).withAnswers [a 0, a 9]
    let s := (s.setRing (2 * 1024 + 9) ⟨[], 0, some 30, 7, 4, 3, 0, 0⟩).withCrets [c 0, c 9]
    [0, 9].all (fun n => s.ropeServed (a n).waits && s.ropeServed (c n).waits) && !ropeLast 447 2 0 && ropeLast 447 2 9 &&
      s.genNow 2 none 0 && s.fld (R.MU_LINE1_LGEN 2 1023) == 4 &&
      decide ((s.una (2 * 1024 + 1023)).find? (fun u => !u.resv && u.seq == 3) = some u) &&
      s.fld (R.MU_LINE0_STATE 2 1023) == 0 && (s.ring (2 * 1024 + 9)).since == some 30 && s.fld (R.MU_RING0_VALID 2 9) == 1 : Bool) = true := by decide +kernel

/-- The premises of `BulkPackets` hold together. A packet for a gallery that is not placed; one that enters, in a passage,
outside one, on a neighbour link; one that turns, one that moves on, one that ends; the last node's last link; a router that
is empty and one that is not. -/
theorem witness_BulkPackets : (
    let s0 := rt5.setBud (taskM 2 48) freely
    let s0 := fl [(R.SV_MAP_VALID 0 6, 1), (R.SV_MAP_COL 0 6, 11), (R.SV_MAP_ROW 0 6, 0), (R.GAL_STATUS_STATE 11, 2)] s0
    let s0 := (List.range 32).foldl (fun s k => s.setSlice 11 k 2) s0
    let s0 := s0.withSec { s0.sec with siteCh := [(2, 4), (11, 4)] }
    let p := pktOf .source
    let d := firstDir 2 11
    let way := fl [(R.SV_PASSAGE0_VALID 0 7, 1), (R.SV_PASSAGE0_ENTRY_COL 0 7, 2), (R.SV_PASSAGE0_EXIT_COL 0 7, 11),
      (R.SV_PASSAGE0_MASTER 0 7, 63)] s0
    let pay (s : State) (q : Pkt) : Bool :=
      match s.charge q.master ⟨0, 0, if (s.pktPassage q q.dst).isSome then flitsOf q.data.length else 0, 0⟩ with | ChargeRes.ok _ => true | _ => false
    let near := { p with dst := 3 }
    let tp (loc : PktAt) : Pkt := { pktOf loc with dst := 67 }
    let t := s0.withPkts [tp (.ring 11 (firstDir 2 67))]
    let mb := s0.nextLit 80 2 d 9
    let mb4 := s0.nextLit 80 10 d 9
    let r := fl [(R.RTR_STATUS_STATE (rtrBase 2), 2)] (s0.withPkts [pktOf (.ring 2 d)])
    let e := fl [(R.RTR_STATUS_STATE (rtrBase 7), 2)] r
    let free (s : State) (n : Nat) : Bool :=
      let q := { p with loc := .ring n d, passage := s.passageOn p n d }
      !s.linkBusy q n d && q.put.isNone && q.onward.isNone
    isGallerySite 2 && p.group == none && s0.rtrState 2 != 2 && s0.rtrState 2 != 3 && s0.siteOfLgIn s0.epoch 99 == none &&
      decide (s0.pktDst p = some 11) && s0.pktPassage p 11 == none && pay s0 p && !neighbours 2 11 && p.cls == 1 &&
      s0.bufUsed 2 d false ≤ 2 && decide (way.pktDst p = some 11) && way.pktPassage p 11 == some 7 &&
      !way.passageBusy p 7 && pay way p && neighbours 2 3 && decide (s0.pktDst near = some 3) &&
      pay s0 { near with master := p.master } && turnsAt (tp (.ring 11 (firstDir 2 67))) 11 (firstDir 2 67) &&
      t.rtrState 11 == 0 && t.bufUsed 11 (colDir 11 67) false ≤ 2 && !turnsAt (pktOf (.ring 2 d)) 2 d &&
      !(pktOf (.ring 2 d)).ends mb.1 d && free s0 2 && free s0 10 && mb.2 != 0 && s0.bufUsed mb.1 d false < 4 &&
      !turnsAt (pktOf (.ring 10 d)) 10 d && mb4.1 == 11 && (pktOf (.ring 10 d)).ends 11 d && mb4.2 != 0 &&
      isGallerySite 11 && !s0.nodeFenced 11 && s0.chamberOf 11 == s0.chamberOf 2 && s0.gate 11 0x9000 4 == .ok &&
      !p.poison && r.rtrState 2 == 2 && e.rtrState 7 == 2 && !e.pkts.any (fun p => p.inNode 7) : Bool) = true := by decide +kernel

/-- The premises of `TfeMoves` hold together. The oldest descriptor of class A is not the first. -/
theorem witness_TfeMoves_start : (
    let d0 : Desc := { descOfBytes (List.replicate 64 0) with op := 5 }
    let d1 : Desc := { d0 with op := 6, cls := 1 }
    let s := (rt5.setBud (taskM 2 48) freely).setTfe 2 { TfeSt.init with queue := [d1, d0] }
    s.fld (R.TFE_CTRL_ENABLE 2) == 1 && s.fld (R.GAL_STATUS_STATE 2) == 2 && !s.frozen (tfeM 2) &&
      decide (((s.tfe 2).queue.find? (fun d => d.cls == 0)).or (s.tfe 2).queue.head? = some d0) : Bool) = true := by decide +kernel

/-- The premises of `TfeMoves` hold together. One row of 512 bytes: a copy, a gather of a page and of none, a broadcast to
members 0, 1 and 5, a put of 70 bytes; descriptors that are over. -/
theorem witness_TfeMoves_rows : (
    let d0 : Desc :=
      { descOfBytes (List.replicate 64 0) with op := 5, rows := 1, rbytes := 512, src := localBase + 0x9000, dst := localBase + 0xA000 }
    let at_ (d : Desc) : State := (rt5.setBud (taskM 2 48) freely).setTfe 2 { TfeSt.init with active := [d] }
    let s := at_ d0
    let d3 : Desc := { d0 with kind := 2, src := localBase + 0xB000, xtra := localBase + 0xC000 }
    let s3 := (at_ d3).wrNat (galKey 2 0xB000) 8 (2 ^ 63 + 0x100000000000 + 5 * 0x10000000 + 0x9000)
    let g3 := s3.pageOf 2 d3 0
    let o3 : Option State := g3.1
    let z3 : Nat := g3.2.2.1
    let pg : Option Nat := g3.2.2.2.1
    let pageOk := o3.any (fun u => decide (u.mem = s3.mem) && u.gate 2 0xA000 512 == .ok &&
      pg.any (fun a => match placeOf a with | .gal lg so => u.siteOfLg lg == some 2 && !u.fenced 2 && u.owns 2 d3.priv a 512 == 0 && u.gate 2 so 512 == .ok && u.marksIn 2 so 512 == [] | _ => false))
    let d4 : Desc := { d3 with padz := true }
    let g4 := (at_ d4).pageOf 2 d4 0
    let o4 : Option State := g4.1
    let z4 : Nat := g4.2.2.1
    let pg4 : Option Nat := g4.2.2.2.1
    let d5 : Desc := { d0 with kind := 1, dst := 0xA000, xtra := 0, members := [0, 1, 5] }
    let d6 : Desc := { d0 with kind := 3, rbytes := 70, dst := 6 * 4096 + 9, put := some (1023, 4, 7, 2) }
    let s6 := fl [(R.SV_MAP_VALID 0 6, 1), (R.SV_MAP_COL 0 6, 3)] (at_ d6)
    let d7 : Desc := { d0 with done := 1, status := 9 }
    decide (s.descOf 2 5 = some d0) && d0.kind == 0 && !d0.ended && d0.done == 0 && !d0.padz &&
      placeOf d0.src == .near 0x9000 && placeOf d0.dst == .near 0xA000 && s.gate 2 0x9000 512 == .ok &&
      s.marksIn 2 0x9000 512 == [] && (d5.members.all (fun m => groupNode 0 0 m != 2)) && s.gate 2 0xA000 512 == .ok &&
      pageOk && z3 == 0 && o4.any (fun u => decide (u.mem = (at_ d4).mem) && u.gate 2 0xA000 512 == .ok) && z4 == 0 &&
      pg4 == none && d5.members.all (fun m => groupNode 0 0 m != 2) && decide d5.members.Nodup && d5.answers == [] &&
      !d6.readsOver && s6.siteOfLg 6 == some 3 && !s6.sandboxed 2 && (at_ d7).descWritten 2 d7 && d7.cmd.isNone && !d7.msg : Bool) = true := by decide +kernel

/-! ### Chapter 16 -/

/-- The premises of `CommandFetch` hold together. The last queue with a packet that is good, one of member 8 and one for a
gallery of the chamber's that is not placed; a network queue. -/
theorem witness_CommandFetch : (
    let raw (opc member lg : Nat) : List Byte := leBytes 8 (opc * 2 ^ 56 + member * 2 ^ 48 + lg * 2 ^ 39 + 2 ^ 35) ++
      leBytes 8 5 ++ leBytes 8 0xFE ++ leBytes 8 200 ++ List.replicate 32 0
    let own := List.replicate (0x200 + 64 * 3) 0 ++ leBytes 8 (2 ^ 63) ++ List.replicate 47 0xFF ++ [0xFF]
    let q (b : List Byte) : State :=
      let s := fl [(R.HQ0_CHAMBER 63, 3), (R.HQ0_HADDR 63, 0x77), (R.HQ0_SIZE_LOG2 63, 3), (R.HQ2_PROD 63, 6),
        (R.HQ3_CONS 63, 5), (R.HQ3_STATE 63, 1), (R.HQ1_CSIZE_LOG2 63, 4), (R.HQ1_CADDR 63, 9), (R.HIF_STATUS_SPEED,
        5)] (rt5.withSec { rt5.sec with profile := own })
      ((s.withHost { s.host with busMaster := true }).wrBytes (hostKey (0x77 * 4096 + 64 * 5)) b).setBud (hqM 63) freely
    let pay (s : State) : Bool := match s.charge (hqM 63) ⟨0, 0, 0, 1⟩ with | ChargeRes.ok _ => true | _ => false
    let ok (b : List Byte) : Bool :=
      let s := q b
      s.fetchOn && s.fld (R.HQ3_STATE 63) == 1 && s.fld (R.HQ2_PROD 63) != s.fld (R.HQ3_CONS 63) &&
        (s.fld (R.HQ3_CWR 63) + 0x10000 - s.fld (R.HQ2_CRD 63)) % 0x10000 + s.fld (R.HQ3_INFLIGHT 63) < 2 ^ s.fld (R.HQ1_CSIZE_LOG2 63) &&
        s.hostOpen && s.fld (R.FR_CHAMBER_STATE (s.fld (R.HQ0_CHAMBER 63))) != 2 &&
        s.rdBytes (hostKey (s.fld (R.HQ0_HADDR 63) * 4096 + 64 * (s.fld (R.HQ3_CONS 63) % 2 ^ s.fld (R.HQ0_SIZE_LOG2 63)))) 64 == b &&
        pay s && !s.sealHolds (⟨b, 63, 3⟩ : Cmd).cls
    let c : Cmd := ⟨raw 2 9 5, 63, 3⟩
    let c1 : Cmd := ⟨raw 2 8 5, 63, 3⟩
    let c2 : Cmd := ⟨raw 2 9 383, 63, 3⟩
    let n := rt5.withHost { rt5.host with netqs := [(4, ⟨3, 3, 9, [c.raw, [1]]⟩)] }
    ok c.raw && c.member == 9 && c.lg == 5 && (q c.raw).siteOfLg 5 == some 2 && (q c.raw).chamberOf 2 == some 3 &&
      (q c.raw).operandsOk c && c.formOk && !c.fence && ok c1.raw && c1.member != 9 && ok c2.raw && c2.lg == 383 &&
      (q c2.raw).siteOfLg 383 == none && prChOf (q c2.raw).sec.profile 383 == some 3 && n.fetchOn && !n.sealHolds c.cls &&
      (n.host.netqs.find? 4).any (fun x => x.packets == [c.raw, [1]] && n.fld (R.FR_CHAMBER_STATE x.chamber) != 2) &&
      n.operandsOk ⟨c.raw, 68, 3⟩ && (⟨c.raw, 68, 3⟩ : Cmd).formOk : Bool) = true := by decide +kernel

/-- The premises of `HostInterface` hold together. -/
theorem witness_HostInterface : (
    let s := fl [(R.HIF_STATUS_SPEED, 5), (R.HIF_BAR2_VALID, 1), (R.HIF_CTRL_BAR2_EN, 1), (R.HIF_BAR2_CHAMBER, 3),
      (R.HIF_BAR2_BASE, 0)] rt5
    let s := s.withHost { s.host with busMaster := true }
    !rt5.bar2On && s.bar2On && s.pcieUp && (List.range 20).all (fun i => s.stackOpen (0x40005 + i) &&
      !s.stackPoisoned (0x40005 + i)) && s.chOwns 3 0x40005 20 && s.stackOpen 0x40000 && s.chOwns 3 0x40000 64 &&
      !s.host.perst && s.svcUp && s.mode == .normal : Bool) = true := by decide +kernel

/-- The premises of `MessagesAndRecords` hold together. -/
theorem witness_MessagesAndRecords : (
    let r : ErrRec :=
      { cls := 1, src := 1, code := 1, seq := 4, state := 0, drip := 0, time := 0, chamber := none, lg := none, site := none, thread := none, master := 0, count := 1, reg := 0, detail := [] }
    let s := fl [(R.MGMT_STATUS_LINK_UP, 1), (R.MGMT_CTRL_ENABLE,
      1)] (live.withHost { live.host with coal := [(7, 51)], held := [6, 4], store := [{ r with seq := 6 }, r], folds := [⟨r, 99, none, 3⟩, ⟨{ r with code := 2 }, 88, some r, 5⟩] })
    s.host.coal.get 7 0 == 50 + 1 && s.svcUp && s.host.held.all (fun m => decide (4 ≤ m)) &&
      decide (s.host.store.find? (fun r => r.seq == 4) = some r) &&
      (s.host.folds[0]?).any (fun w => decide (w.first = none)) &&
      (s.host.folds[1]?).any (fun w => decide (w.first = some r)) : Bool) = true := by decide +kernel

/-! ### Control messages (`ControlMessages`) -/

/-- A message of the helpers is accepted under the fleet key, whatever the MAC's function gives. -/
theorem ctrl_key {s : State} {op : Nat} {operands : List Byte} (hl : (ctrlHead op operands).length = 96)
    (hk : s.fleetKey (leAt (ctrlHead op operands) 4 4) = some fleet)
    (hr : leAt (ctrlHead op operands) 16 8 = s.sec.moduleId ∧
      s.host.counters.get (leAt (ctrlHead op operands) 4 4) 0 ≤ leAt (ctrlHead op operands) 8 8 ∧
      s.dripNo ≤ leAt (ctrlHead op operands) 24 8 % 2 ^ 48) :
    s.ctrlKey (ctrl op operands).raw = some fleet := by
  have at_ : ∀ (b : List Byte) (lo n : Nat), lo + n ≤ (ctrlHead op operands).length →
      leAt (ctrlHead op operands ++ b) lo n = leAt (ctrlHead op operands) lo n := by
    intro b lo n h
    rw [leAt, leAt, List.drop_append_of_le_length (by omega), List.take_append_of_le_length (by simp; omega)]
  have mac : leAt (ctrlHead op operands ++ leBytes 32 (ctrlMac fleet (ctrlHead op operands))) 96 32 =
      ctrlMac fleet (ctrlHead op operands) := by
    have hd : (ctrlHead op operands ++ leBytes 32 (ctrlMac fleet (ctrlHead op operands))).drop 96 =
        leBytes 32 (ctrlMac fleet (ctrlHead op operands)) := by
      rw [← hl, List.drop_left]
    rw [leAt, hd, List.take_of_length_le (by simp), leNat_leBytes, ctrlMac]
    omega
  have same : ∀ b, ctrlMac fleet (ctrlHead op operands ++ b) = ctrlMac fleet (ctrlHead op operands) := by
    intro b
    rw [ctrlMac, ctrlMac, ← hl, List.take_left, List.take_length]
  simp only [State.ctrlKey, ctrl, at_ _ 4 4 (by omega), at_ _ 16 8 (by omega), at_ _ 8 8 (by omega), at_ _ 24 8 (by omega), hk]
  rw [if_pos]
  exact ⟨by simp [hl], hr.1, hr.2.1, hr.2.2, by rw [mac, same]⟩

/-- The operands of a message of each operation: a lease of 5 drips, for ever and none; FENCE_ORDER; profile 3; STANDBY and
RESTART; network queue 15 to port 31, chamber 3, flow 2047; three records from 4 on; a collector. -/
def ctrlOps : List (Nat × List Byte) :=
  [(1, leBytes 4 5), (1, leBytes 4 0xFFFFFFFF), (1, leBytes 4 0), (2, []), (3, [3, 0]), (4, []), (5, []),
    (6, [15, 0, 31, 3] ++ leBytes 2 2047), (7, leBytes 4 4 ++ leBytes 2 3),
    (8, (List.range 16).map (fun i => BitVec.ofNat 8 (i + 1)) ++ [7, 9])]

/-- The premises of `ControlMessages` hold together for a message of each operation: in NORMAL, and for RESTART in REFUGE. -/
theorem witness_ControlMessages : ∀ p, p ∈ ctrlOps → ∀ s, s = ctrlState ∨ s = ctrlState.withMode .refuge →
    s.ctrlUp (ctrl p.1 p.2) = true ∧ s.ctrlKey (ctrl p.1 p.2).raw = some fleet ∧ leAt (ctrl p.1 p.2).raw 0 2 = p.1 ∧
      ctrlClean p.1 (ctrl p.1 p.2).raw = true := by
  have len : ∀ p, p ∈ ctrlOps → (ctrlHead p.1 p.2).length = 96 := by decide
  have head : ∀ p, p ∈ ctrlOps → ∀ s, s = ctrlState ∨ s = ctrlState.withMode .refuge →
      s.ctrlUp (ctrl p.1 p.2) = true ∧ s.fleetKey (leAt (ctrlHead p.1 p.2) 4 4) = some fleet ∧
      leAt (ctrlHead p.1 p.2) 16 8 = s.sec.moduleId ∧
      s.host.counters.get (leAt (ctrlHead p.1 p.2) 4 4) 0 ≤ leAt (ctrlHead p.1 p.2) 8 8 ∧
      s.dripNo ≤ leAt (ctrlHead p.1 p.2) 24 8 % 2 ^ 48 := by
    intro p hp s hs
    rcases hs with rfl | rfl <;> revert p <;> decide +kernel
  have clean : ∀ p, p ∈ ctrlOps → leAt (ctrl p.1 p.2).raw 0 2 = p.1 ∧ ctrlClean p.1 (ctrl p.1 p.2).raw = true := by
    decide +kernel
  intro p hp s hs
  obtain ⟨up, key, rest⟩ := head p hp s hs
  exact ⟨up, ctrl_key (len p hp) key rest, clean p hp⟩

/-- What the operations ask for beside: STANDBY and RESTART may be ordered, chamber 3 exists, and a message cut short is under
no key. -/
theorem witness_ControlMessages_more :
    (ctrlState.mode == .normal && ctrlState.mayAct 3 && ctrlState.mayAct 5 && (ctrlState.withMode .refuge).mayAct 5 &&
      !(ctrlState.withMode .refuge).tripActive && (fl [(R.FR_CHAMBER_STATE 3, 1)] ctrlState).fld (R.FR_CHAMBER_STATE 3) != 0 &&
      ctrlState.ctrlUp ⟨(ctrlHead 8 []).take 95, none⟩ && ctrlState.ctrlKey ((ctrlHead 8 []).take 95) == none : Bool) = true := by
  decide +kernel

/-- The premises of `ManagementServices` hold together. -/
theorem witness_ManagementServices : (
    let s := ctrlState.withHost { ctrlState.host with subs := [(4, 7)], nextSub := 5, events := [3], spdm := 3 }
    s.svcUp && s.fld R.MGMT_STATUS_LINK_UP == 1 && decide (3 < 4 ∧ 0 < 254 ∧ 254 < 255 ∧ 1 ≤ 4 ∧ 1 ≤ 8) &&
      s.host.subs.any (fun x => x.1 == 4) && !s.host.subs.any (fun x => x.1 == 5) && s.host.events == [3] &&
      decide (3 ≤ s.host.spdm) && decide (ctrlState.host.spdm < 1) : Bool) = true := by decide +kernel

/-! ### Chapters 17 and 20: calls and chamber resets -/

/-- The premises of `UnitCalls` hold together. Galleries and routers: FENCE and BYPASS on and off, CORE_MAP, MXE_COLMAP,
GAL_STEP, turned away and taken. -/
theorem witness_UnitCalls_galleries : (
    let s := fl [(R.GAL_STATUS_STATE 2, 2), (R.GAL_STATUS_STATE 3,
      1)] (ctrlState.withSec { ctrlState.sec with siteCh := [(2, 4)] })
    let f := fl [(R.GAL_CTRL_FENCE 2, 1)] s
    let r := s.withSec { s.sec with log := [⟨4, 2, 0, 0, false, 0, 0⟩] }
    let at_ (n : Nat) : State := fl [(R.RTR_STATUS_STATE (rtrBase 479), n)] s
    let ws : List Word := [0x8200000000000081, 0, 0, 0]
    s.svcUp && s.sec.calls.isEmpty && isGallerySite 2 && s.galOn 2 && !(s.gr 2).busy && s.rtrState 2 == 0 && r.retired 2 &&
      !f.retired 2 && f.fld (R.GAL_CTRL_FENCE 2) == 1 && (at_ 1).rtrState 479 == 1 && (at_ 3).rtrState 479 == 3 &&
      s.rtrState 479 == 0 && isGallerySite 3 && s.fld (R.GAL_STATUS_STATE 2) != 1 && s.fld (R.GAL_STATUS_STATE 3) == 1 &&
      s.coreMapOk 3 ws && (mapEntry ws 0).1 && (mapEntry ws 0).2 != 0 && s.logRoom 3 2 && s.colMapOk 3 1 0x8003 &&
      decide (0 ≤ (s.ladderLimits 2).1 ∧ 0 ≤ (s.ladderLimits 2).2) : Bool) = true := by decide +kernel

/-- The premises of `UnitCalls` hold together. Chambers and regions: CHAMBER_RESET, ASSIGN and REGION, turned away and
taken; a call that a context waits for; the steps of a chamber reset. -/
theorem witness_UnitCalls_chambers : (
    let s := fl [(R.GAL_STATUS_STATE 3, 1), (R.FR_CHAMBER_STATE 0, 0), (R.FR_CHAMBER_STATE 3, 1)] ctrlState
    let w : Nat := 2 ^ 63 + 3 * 2 ^ 52
    let q := live.withSec { live.sec with calls := [⟨3, 5, 2, 0x80001⟩] }
    let q := q.setMctx 3 { Ctx.init with st := .stalled (.bcall 5) }
    let step (n : Nat) : State := fl [(R.FR_CHAMBER_STATE 3, 2), (R.FR_CHAMBER_STEP 3, n)] pair
    let unfit := fl [(R.MXE_CTRL_FENCE 3 1, 1)] s
    s.svcUp && s.sec.calls.isEmpty && s.fld (R.FR_CHAMBER_STATE 0) == 0 && s.fld (R.FR_CHAMBER_STATE 3) == 1 &&
      (s.fr.chs.get 3 ChSt.init).startAt == 0 && isGallerySite 3 && prChValid s.sec.profile 3 && !s.retired 3 &&
      s.siteFit 3 && unfit.siteFit 3 == false && unfit.fld (R.GAL_STATUS_STATE 3) == 1 && (fl [(R.GM_SCRUB_STATE 3,
      2)] s).fld (R.GM_SCRUB_STATE 3) == 2 && !prChValid s.sec.profile 15 && s.regionOk 511 w &&
      !s.regionOk 511 (w + 2 ^ 62 + 2 ^ 61) && q.svcUp && decide (q.sec.calls = [⟨3, 5, 2, 0x80001⟩]) && !argOk 0x80001 &&
      (q.mctx 3).st == .stalled (.bcall 5) && (step 2).svcUp && (step 2).fld (R.FR_CHAMBER_STATE 3) == 2 &&
      (step 7).fld (R.FR_CHAMBER_STEP 3) == 7 && (step 8).fld (R.FR_CHAMBER_STEP 3) == 8 : Bool) = true := by decide +kernel

/-- The premises of `SecurityCalls` hold together. BIST_RUN with the life cycle against it, on a unit in service, and
allowed; FUSE_REPAIR with no such entry, one fused, no fuse left, and one to fuse. -/
theorem witness_SecurityCalls_test : (
    let s := fl [(R.GAL_STATUS_STATE 2, 3), (R.GAL_CTRL_FENCE 2, 1), (R.LCP_STATUS_LC_STATE, 1), (R.MS_STATUS_STATE 0,
      2)] live
    let d := fl [(R.LCP_STATUS_LC_STATE, 4)] s
    let u := fl [(R.GAL_CTRL_FENCE 2, 0)] s
    let e (f : Bool) : State := fl [(R.LCP_STATUS_LC_STATE,
      1)] (live.withSec { live.sec with log := [⟨1, 2, 0, 0, f, 0, 0⟩] })
    let die := dieOf 2
    let left (s : State) : Nat := s.sub (R.TRM_FUSE (die / 8)) 7 (die % 8)
    let z := (e false).setSub (R.TRM_FUSE (die / 8)) 7 (die % 8) 0
    s.svcUp && s.sec.calls.isEmpty && d.fld R.LCP_STATUS_LC_STATE == 4 && s.fld R.LCP_STATUS_LC_STATE == 1 &&
      u.fld (R.GAL_CTRL_FENCE 2) == 0 && s.fld (R.GAL_CTRL_FENCE 2) == 1 && s.galOn 2 && s.tst.moveOn == none &&
      s.freeUnits.length > 1 && s.logRoom 2 1 && ((e true).dieLog die)[1]?.isNone &&
      (((e true).dieLog die)[0]?).any (fun x => x.fuse) && (((e false).dieLog die)[0]?).any (fun x => !x.fuse) &&
      left (e false) != 0 && left z == 0 && ((z.dieLog die)[0]?).any (fun x => !x.fuse) : Bool) = true := by decide +kernel

/-- The premises of `SecurityCalls` hold together. The other calls have no premise but their operands' ranges. -/
theorem witness_SecurityCalls_rest : (
    let s := ctrlState
    s.svcUp && s.sec.calls.isEmpty && s.mode == .normal && s.pwr.removal == 0 && decide (3 < 4 ∧ 4 ≤ 4) : Bool) = true := by decide +kernel

/-! ### Chapters 18 and 19 -/

/-- The premises of `BringUp` hold together. -/
theorem witness_BringUp_insertion : (
    let good : Inputs := ⟨[33000, 0, 2500, 0, 2000, 3000, 0, 0], 40, false⟩
    let bad : Inputs := ⟨[33000, 0, 2500, 0, 1000, 3000, 0, 0], 40, false⟩
    let s := State.reset.withMode .off
    let p := s.withPwr { s.pwr with present := true }
    let u := State.reset.withMode .standby
    let u := u.withPwr { u.pwr with waitInsert := true }
    s.mode == .off && inputInRange good && inputFirstBad good == 0 && !good.kill && inputInRange bad &&
      inputFirstBad bad != 0 && p.pwr.present && p.mode == .off && u.mode == .standby && u.pwr.waitInsert : Bool) = true := by decide +kernel

/-- The premises of `BringUp` hold together. BOOT at each step, with a unit held and with none; MCR in NORMAL and in BOOT.
-/
theorem witness_BringUp_steps : (
    let at_ (n : Nat) : State := fl [(R.BRG_STATUS_STEP, n)] State.reset
    let h := fl [(R.BRG_HOLD_STACK, 1)] (at_ 6)
    (List.range 9).all (fun n => (at_ n).mode == .boot && (at_ n).fld R.BRG_STATUS_STEP == n && (at_ n).pwr.removal == 0) &&
      (at_ 6).reg R.BRG_HOLD == 0 && h.reg R.BRG_HOLD != 0 && (at_ 6).fld R.BRG_STATUS_READY == 0 &&
      (at_ 6).fld R.BRG_STATUS_DIAG == 0 && lands live .bedrock R.BRG_CTRL 1 && getBits 1 0 1 == 1 &&
      live.mode == .normal && !live.mcrFull && live.mayAct 5 && lands (live.withMode .boot) .bedrock R.BRG_CTRL 1 : Bool) = true := by decide +kernel

/-- The premises of `HostBringUp` hold together. A lamp, an engine and a stack, held and not held, and a number that no unit
has; a raw access to an engine whose clock runs and to one whose clock does not. -/
theorem witness_HostBringUp_commands : (
    let s := fl [(R.BRG_STATUS_DIAG, 1), (R.BRG_HOLD_STACK, 0xFFFFFFFF), (R.BRG_HOLD_OE, 255), (R.BRG_HOLD_LAMP, 1023),
      (R.HIF_STATUS_SPEED, 5)] live
    let s := s.withHost { s.host with busMaster := true }
    let n := fl [(R.BRG_HOLD_STACK, 0), (R.BRG_HOLD_OE, 0), (R.BRG_HOLD_LAMP, 0)] s
    let v (u i a : Nat) : Word := putBits (putBits (putBits 0 14 2 u) 9 5 i) 0 3 a
    let ok (s : State) (u i a h : Nat) : Bool := lands s .host R.BRG_HOST_CMD (v u i a) && getBits (v u i a) 14 2 == u &&
      getBits (v u i a) 9 5 == i && getBits (v u i a) 0 3 == a && bitN (s.fld (holdFld u)) i == h
    let c := s.withBoot { s.boot with hostCmd := some (2, 9, 3) }
    let r := fl [(R.BRG_RAW_SEL_UNIT, 1), (R.BRG_RAW_SEL_INDEX, 7)] s
    s.fld R.BRG_STATUS_DIAG == 1 && s.fld R.BRG_HOST_RESULT_RESULT != 1 && ok s 2 9 0 1 && ok s 1 7 0 1 && ok s 0 31 1 1 &&
      s.unitClock 0 31 && ok n 2 9 3 0 && lands s .host R.BRG_HOST_CMD (v 1 8 1) && unitTotal 1 == 8 &&
      c.boot.hostCmd == some (2, 9, 3) && r.svcUp && rawSource .bedrock && r.rawOpen .bedrock && r.boot.hung.isEmpty &&
      r.unitClock 1 7 && !(fl [(R.BRG_CLK_OE, 0)] r).unitClock 1 7 : Bool) = true := by decide +kernel

/-- The premises of `HostBringUp` hold together. A block for a gallery that is OFF; an end marker with a block missing in
each round; an image that is whole. -/
theorem witness_HostBringUp_firmware : (
    let s := fl [(R.GAL_STATUS_STATE 3, 1)] live
    let u : BootUnit := ⟨77, 2, [1], 3⟩
    let e := fl [(R.GAL_BOOT_STATE 3, 1), (R.GAL_BOOT_MISSING 3, 1), (R.GAL_BOOT_ATTEMPT 3,
      2)] (s.withBoot { s.boot with units := [(3, u)] })
    let h := fl [(R.GAL_BOOT_MISSING 3, 0)] e
    isGallerySite 3 && s.fld (R.GAL_STATUS_STATE 3) == 1 && s.fld (R.GAL_BOOT_STATE 3) != 3 &&
      (e.boot.units.find? 3).isSome && e.fld (R.GAL_BOOT_STATE 3) == 1 && e.fld (R.GAL_BOOT_MISSING 3) != 0 &&
      decide (e.boot.units.map (·.1)).Nodup && e.fld (R.GAL_BOOT_ATTEMPT 3) < 3 && h.fld (R.GAL_BOOT_MISSING 3) == 0 &&
      h.fld (R.GAL_BOOT_STATE 3) == 1 : Bool) = true := by decide +kernel

/-- The premises of `PatrolAndOffences` hold together. The last slice's last line; a known answer that fails, at once and
after two drips; link retries; a watch that is over. -/
theorem witness_PatrolAndOffences : (
    let s := fl [(R.TRM_CTRL_PATROL_EN, 1), (R.TRM_CTRL_CE_LIMIT, 0), (R.TR_LADDER_TOP 2,
      1)] (task.withTst { task.tst with patrolLine := [(95, 10239)] })
    let p := fl [(R.MXE_CTRL_ENABLE 2 1, 1), (R.MXE_CTRL_PATROL_EN 2 1, 1)] s
    let p := p.setMxe 5 { p.mxe 5 with patrol := true }
    let k := s.withTst { s.tst with kaFail := [(9, s.dripNo)] }
    let o := fl [(R.DRIP_NUMBER_NUMBER, 7)] (s.withTst { s.tst with kaFail := [(10, 5)] })
    let w := fl [(R.TR_LADDER_SUSPECT 2, 1), (R.TR_LADDER_RUNG 2, 2)] live
    let x := fl [(retryFld (rtrBase 5) 2, 9)] s
    s.patrolOk 2 && s.marksIn 2 (s.lineOff 2 31 10239) 512 == [] && s.slice 2 31 == 2 &&
      s.tst.corr.get 95 0 == s.fld R.TRM_CTRL_CE_LIMIT && s.chamberOf 2 == some 3 && !s.t6 3 &&
      (s.withFr { s.fr with contain := 8 }).t6 3 && s.fld (R.FR_CHAMBER_STATE 3) == 1 &&
      (s.fr.chs.get 3 ChSt.init).startAt == 0 && p.patrols 2 1 && k.tst.kaFail.find? 9 == some k.dripNo && k.unitIdle 2 1 &&
      k.patrolOk 2 && o.tst.kaFail.find? 10 == some 5 && 5 + 1 < o.dripNo && o.unitIdle 2 2 && o.patrolOk 2 &&
      x.mode == .normal && x.fld R.TRM_CTRL_PATROL_EN == 1 && x.retryNodes.contains 5 &&
      w.fld (R.TR_LADDER_SUSPECT 2) == 1 && w.fld (R.TR_LADDER_WATCH_LEFT 2) == 0 : Bool) = true := by decide +kernel

/-- The premises of `ArbitrationAndMoves` hold together. Each stage; checksums that pass and fail, that agree with the first
run and differ from it; operands of just over 32 MiB; a spare that is idle. -/
theorem witness_ArbitrationAndMoves_runs : (
    let t := { aTile 2 3 8 with rowMask := 255, colMask := 7 }
    let big := { t with acc := true, aR := ⟨0, 0x1000000⟩ }
    let a (tl : Tile) (s0 s1 : List WitSum) : ArbSt := ⟨tl, s0, s1, 0, 9, 0⟩
    let st (w : Bool) (n : Nat) (x : ArbSt) : State :=
      let b := fl [(R.TR_ARB_STAGE 2, n), (R.TR_ARB_MXE 2, 1), (R.GAL_STATUS_STATE 9, 1), (R.MXE_WIT_STATUS_HELD 2 1, 1),
        (R.MXE_WIT_CTRL_HOLD_US 2 1, 9), (R.CUR_STATUS_GEN 2, 0)] eng
      (b.setMxe 5 { MxeSt.init with held := some (runOf x.tile w []) }).withTst { b.tst with arbs := [(5, x)] }
    let ok (s : State) (n : Nat) (x : ArbSt) : Bool := s.tst.arbs.find? 5 == some x && s.fld (R.TR_ARB_MXE 2) == 1 &&
      x.exceed == 0 && s.arbHeld 2 1 x && s.fld (R.TR_ARB_STAGE 2) == n
    let size (tl : Tile) : Nat := ((tl.srcs).map (·.2)).foldl (· + ·) 0
    let bad : List WitSum := [⟨false, 1, 0x3F800000, 0x40800000, 0x3F800000⟩]
    let p := a t [] []
    let s3 := st false 3 p
    let r := s3.runSums 9 p []
    let f := s3.runSums 9 p bad
    let w := deviate r [⟨false, 1, 0x33800000, 0, 0x3F800000⟩]
    let held (w : Bool) (n : Nat) : Bool := ((st w 4 p).mxe 5).held.any (fun r => (r.gen == n) && r.written == w)
    ok (st false 1 p) 1 p && ok (st false 1 (a big [] [])) 1 (a big [] []) && ok (st false 2 p) 2 p &&
      ok (st true 3 (a t r w)) 3 (a t r w) && ok (st false 4 p) 4 p && size t ≤ 0x2000000 && 0x2000000 < size big &&
      (st false 2 p).spareIdle 9 && s3.fld (R.TR_ARB_DIRTY 2) == 0 && (fl [(R.TR_ARB_DIRTY 2,
      1)] s3).fld (R.TR_ARB_DIRTY 2) == 1 && s3.badSums 2 1 p f != [] && s3.badSums 2 1 p r == [] &&
      s3.badSums 2 1 p w == [] && sumsOf r == sumsOf r && sumsOf r != sumsOf w && witsOf r == witsOf w &&
      witsOf f != witsOf r && sumsOf f != sumsOf r && held true 0 && held false 0 &&
      (st false 4 p).fld (R.CUR_STATUS_GEN 2) == 0 && (fl [(R.CUR_STATUS_GEN 2,
      1)] (st false 4 p)).fld (R.CUR_STATUS_GEN 2) == 1 : Bool) = true := by decide +kernel

/-- The premises of `ArbitrationAndMoves` hold together. -/
theorem witness_ArbitrationAndMoves_moves : (
    let s := fl [(R.GAL_STATUS_STATE 2, 3), (R.GAL_STATUS_STATE 3, 1)] (pair.setCtx (ctxKey 2 4 9) Ctx.init)
    let u := fl [(R.TRM_MOVE_SRC_COL, 2), (R.TRM_MOVE_DST_COL, 3), (R.TRM_MOVE_GO, 1)] s
    let v := u.reg R.TRM_MOVE
    let b := fl [(R.GAL_STATUS_STATE 2, 2)] s
    let m := (s.withTst { s.tst with moveOn := some (2, 3) }).wrNat (galKey 2 0x100) 4 7
    lands s .bedrock R.TRM_MOVE v && getBits v 63 1 == 1 && isGallerySite 2 && isGallerySite 3 &&
      s.fld (R.GAL_STATUS_STATE 2) == 3 && s.siteQuiet 2 && s.fld (R.GAL_STATUS_STATE 3) == 1 && s.chamberOf 2 == some 3 &&
      s.chamberOf 3 == some 3 && s.tst.moveOn == none && lands b .bedrock R.TRM_MOVE v &&
      b.fld (R.GAL_STATUS_STATE 2) != 3 && m.tst.moveOn == some (2, 3) && SMap.wf resetOf m.csr && Memory.wf m.mem &&
      m.fld (R.FR_CHAMBER_STATE 3) == 1 && (m.fr.chs.get 3 ChSt.init).startAt == 0 : Bool) = true := by decide +kernel

/-! ### Chapters 20 and 21 -/

/-- The premises of `CareOfFirmware` hold together. The third restart; an echo of a sound record on a site that is free; a
chamber whose hold is over; a replay that has run its drips. -/
theorem witness_CareOfFirmware : (
    let s := live
    let v := (s.reg R.FR_CTRL) ||| 0x100
    let now := max s.now (s.fr.kickAt + 1000000 * s.fld R.FR_CTRL_FW_WDOG_MS)
    let w := s.withFr { s.fr with restarts := [s.now, s.now] }
    let r : List Byte := ([2 ^ 63 + 2 ^ 40 + 2 ^ 20, 0, 0, 0, 5, 6, 2 ^ 63 + 8 * 2 ^ 19] ++
      List.replicate 9 0).flatMap (leBytes 8)
    let img := leBytes 8 (9 + 256 + 2 ^ 16) ++ leBytes 8 (100 + 512 * 2 ^ 32) ++ List.replicate 48 0 ++ r ++
      List.replicate 320 0
    let e := fl [(R.GAL_STATUS_STATE 9, 1), (R.FR_ECHO_IMG_ADDR, 0x20000)] (rt5.svcWrite 0x20000 img)
    let u := fl [(R.FR_ECHO_SITE_COL, 9), (R.FR_ECHO_CHAMBER, 3), (R.FR_ECHO_GO, 1)] e
    let g := u.reg R.FR_ECHO
    let h := fl [(R.FR_CHAMBER_STATE 3, 1)] (s.withFr { s.fr with chs := [(3, { ChSt.init with held := some 7 })] })
    let d := fl [(R.DRIP_NUMBER_NUMBER, 7)] (s.withFr { s.fr with echo := some ⟨9, 3, true, 7, false, 0⟩ })
    lands s .flowstone R.FR_CTRL v && getBits v 8 1 == 1 && 10 ≤ getBits v 0 8 && s.svcUp && s.fr.restarts == [] &&
      (w.fr.restarts.filter (fun t => decide (now < t + 600000000000))).length == 2 && w.mode == .normal &&
      w.pwr.removal == 0 && w.mayAct 4 && w.boot.mcrs == [] && lands e .flowstone R.FR_ECHO g && getBits g 63 1 == 1 &&
      isGallerySite 9 && e.chamberOf 9 == none && e.fld (R.GAL_STATUS_STATE 9) == 1 && e.tst.moveOn == none &&
      decide (e.fr.echo = none) && u.echoRec.isSome && lands (fl [(R.GAL_STATUS_STATE 9, 3)] e) .flowstone R.FR_ECHO g &&
      (h.fr.chs.get 3 ChSt.init).held == some 7 && h.fld (R.FR_CHAMBER_STATE 3) == 1 && d.fr.echo.any (fun x => x.loaded &&
      !x.seen && decide (x.endDrip ≤ d.dripNo)) : Bool) = true := by decide +kernel

/-- The premises of `PowerCare` hold together. The average above 1,500 W; 100 degrees and 94; a trip to REFUGE; a
comparator; a trip and a leak that clear. -/
theorem witness_PowerCare : (
    let s := live.withPwr { live.pwr with acc := [160000000, 150000001] }
    let q := fl [(R.LNT_TRIP_VALID 12, 0)] live
    let i : Inputs := ⟨[33000, 1, 2500, 0, 2000, 3000, 100, 100, 100, 100, 100, 100, 100, 100, 100, 65535], 40, false⟩
    let t := fl [(R.LNT_TRIP_VALID 23, 1), (R.LNT_TRIP_SRC 23, 2), (R.LNT_TRIP_THRESH 23, 10), (R.LNT_TRIP_ACTION 23, 4),
      (R.LNT_CH_VALUE 2, 99)] live
    let c := fl [(R.LNT_STATUS_ACTIVE, 2 ^ 23)] (live.withPwr { live.pwr with safe := [(23, 51)] })
    let k (r : Nat) : State := fl [(R.LNT_STATUS_LEAK_LATCH,
      1)] (live.withPwr { live.pwr with hist := [(5, [r, r, 3000])] })
    150000000 < sumN s.pwr.acc / s.pwr.acc.length && decide (15 < 16 ∧ 100 ≤ 100 ∧ 94 < 95) && q.mode == .normal &&
      i.raw.length == 16 && (List.range 24).all (fun e => q.fld (R.LNT_TRIP_VALID e) != 1 ||
      !(q.sampleIn i).lampCounts.tripCond e) && t.fld (R.LNT_TRIP_VALID 23) == 1 && t.tripCond 23 &&
      decide (t.tripPersist 23 ≤ t.pwr.persist.get 23 0 + 1) && bitN (t.fld R.LNT_STATUS_ACTIVE) 23 == 0 &&
      t.fld (R.LNT_TRIP_ACTION 23) == 4 && t.mode == .normal && t.mayAct 2 && t.pwr.removal == 0 &&
      c.pwr.safe.get 23 0 == 50 + 1 && bitN (c.fld R.LNT_STATUS_ACTIVE) 23 == 1 && lands (k 2001) .bedrock R.LNT_CLR 1 &&
      getBits 1 0 1 == 1 && 2000 < median (((k 2001).rawHist 5).take 3) && lands (k 2000) .bedrock R.LNT_CLR 1 &&
      median (((k 2000).rawHist 5).take 3) ≤ 2000 : Bool) = true := by decide +kernel

/-- The premises of `WakeAndRemoval` hold together. A lease at its last drip and one before. -/
theorem witness_WakeAndRemoval : (
    let z := live.withMode .standby
    let v := (live.reg R.PWR_CTRL) ||| 1
    let q := live.withMode .quiesce
    let d := q.withPwr { q.pwr with removal := 3 }
    let l := fl [(R.FR_LEASE_STATE, 1), (R.FR_LEASE_EXPIRY, 5), (R.DRIP_NUMBER_NUMBER, 5)] task
    let m := fl [(R.FR_LEASE_EXPIRY, 6)] l
    let frame (m : Nat) : Bool := (List.range 64).any (fun i => (List.range 448).any (fun x => m == mstr (mstrSite x) i &&
      (blockAt (mstrSite x)).any (fun b => b == (.MSTR, mstrSite x))))
    z.mode == .standby && z.pwr.removal == 0 && !z.pwr.removeArmed && !z.tripActive && live.pwr.removal == 0 &&
      live.mode == .normal && lands live .bedrock R.PWR_CTRL v && getBits v 0 1 == 1 &&
      getBits v 16 11 == live.fld R.PWR_CTRL_CAP && q.mode == .quiesce && d.mode == .quiesce && d.pwr.removal == 3 &&
      l.fld R.FR_LEASE_STATE == 1 && l.fld R.FR_LEASE_EXPIRY == l.dripNo && l.mode == .normal && l.mayAct 3 &&
      l.masters.all frame && m.dripNo < m.fld R.FR_LEASE_EXPIRY : Bool) = true := by decide +kernel

/-! ### The whole machine -/

/-- `InvStep` speaks of a state from which a step is taken: a command that has an effect. -/
theorem witness_InvStep : (let s := task.pushFront (.mstrFreeze .bedrock (mstrSite 2) 49 0x10)
    SMap.wf resetOf s.csr && Memory.wf s.mem && s.pending.length == 1 && lands task .bedrock (R.MSTR_CTRL (mstrSite 2) 49) 0x10 :
    Bool) = true := by decide +kernel

/-- `StepAnswers`: the queue of the module after reset is empty. -/
theorem witness_StepAnswers : State.reset.pending = [] := rfl
end

section
/-! SUPPORT. Class X: the issue of an instruction, the registers and claims that it leaves, and the instructions of control
(R32, R151, R203 to R208). -/

namespace Sys2Proof.Machine

/-! ## Class X: where an issue goes, and what it leaves -/

section
variable {s : State} {site core c : Nat} {u : Use} {body : Nat → Nat → Nat → State → Ctx → Issue}

/-- A class X instruction of a context that may issue and can pay runs its effect. -/
theorem State.runVX_go {ill : Bool} {ch : Charge} {eff : State → State} (hr : CanIssue s (.gal site core c))
    (hill : ill = false) (hp : (s.hctx (.gal site core c)).pc % 8 = 0)
    (hb : body site core c s (s.hctx (.gal site core c)) = .go ch eff) (hc : Bears s (.gal site core c) ch) :
    s.runVX (.gal site core c) u true ill body = eff (s.issued (.gal site core c) u ch 8) := by
  rw [State.hctx_gal] at hp
  exact State.leriq_go (wide := true) hr (by simp [hill, hp]) hb hc

/-- One that has to wait for its own accesses is stalled, and issues nothing. -/
theorem State.runVX_wait {ill : Bool} (hr : CanIssue s (.gal site core c)) (hill : ill = false)
    (hp : (s.hctx (.gal site core c)).pc % 8 = 0)
    (hb : body site core c s (s.hctx (.gal site core c)) = .wait) :
    s.runVX (.gal site core c) u true ill body = (s.setGroup site core none).setCtx (ctxKey site core c)
      { s.hctx (.gal site core c) with st := .stalled .issue, waitsOn := 0 } := by
  obtain ⟨w, hf, hw⟩ := hr.fetch
  obtain ⟨h1, h2, -⟩ := hr
  rw [State.hctx_gal] at hp hb ⊢
  unfold State.runVX State.leriq
  simp only
  rw [if_neg (by simp [h1]), if_neg (by simp [h2]), hf]
  simp only [hill, hw, hp, hb, bne_self_eq_false, Bool.and_false, Bool.or_self, Bool.false_eq_true, if_false]

end

theorem IssueOnly.modHctx (s : State) (h : Hart) (f : Ctx → Ctx) : IssueOnly s (s.modHctx h f) := IssueOnly.setHctx _ _ _

/-- An instruction whose effect is a change of its own context alone. -/
theorem State.issued_modHctx_own (s : State) (h : Hart) (u : Use) (ch : Charge) (n : Nat) {f : Ctx → Ctx}
    (hf : (f ((s.hctx h).past h n)).st ≠ .free) :
    OwnContext s ((s.issued h u ch n).modHctx h f) h (f ((s.hctx h).past h n)) where
  ctx := by rw [State.modHctx, State.issued_hctx]; exact State.hctx_setHctx hf
  others g hg := by rw [State.modHctx, State.hctx_setHctx_ne hg, State.issued_hctx_ne _ _ _ _ hg]
  regs a ha := by rw [State.modHctx, State.setHctx_reg, State.issued_reg s u ch n ha]
  cores k := by rw [State.modHctx, State.setHctx_core]; exact State.issued_core s h u ch n k
  rest := (IssueOnly.issued _ _ _ _ _).trans (IssueOnly.modHctx _ _ _)

/-- An instruction without an effect beside its issue. -/
theorem State.issued_own (s : State) (h : Hart) (u : Use) (ch : Charge) (n : Nat) :
    OwnContext s (s.issued h u ch n) h ((s.hctx h).past h n) where
  ctx := State.issued_hctx s h u ch n
  others _ hg := State.issued_hctx_ne s u ch n hg
  regs _ ha := State.issued_reg s u ch n ha
  cores k := State.issued_core s h u ch n k
  rest := IssueOnly.issued _ _ _ _ _

/-- What an issue leaves of the fields that class X instructions read. -/
theorem IssueOnly.gms {s t : State} (h : IssueOnly s t) : t.gms = s.gms := by rw [show t = _ from h]
theorem IssueOnly.mem {s t : State} (h : IssueOnly s t) : t.mem = s.mem := by rw [show t = _ from h]
theorem IssueOnly.force {s t : State} (h : IssueOnly s t) : t.force = s.force := by rw [show t = _ from h]
theorem IssueOnly.curs {s t : State} (h : IssueOnly s t) : t.curs = s.curs := by rw [show t = _ from h]
theorem IssueOnly.gm {s t : State} (h : IssueOnly s t) (k : Nat) : t.gm k = s.gm k := by rw [State.gm, State.gm, h.gms]
theorem IssueOnly.bud {s t : State} (h : IssueOnly s t) (k : Nat) : t.bud k = s.bud k := by rw [State.bud, State.bud, h.force]

/-! ## The registers in which an issue is counted -/

section
variable {s : State} {site core c : Nat}

theorem getBits_lt (v : Word) (lo w : Nat) : getBits v lo w < 2 ^ w := Nat.mod_lt _ (Nat.two_pow_pos w)

theorem State.taskOf_lt (s : State) (k : Nat) : s.taskOf k < 64 := getBits_lt _ 0 6

theorem State.fld_lt (s : State) (f : Fld) : s.fld f < 2 ^ f.width := getBits_lt _ _ _

/-- They lie in the core's and the task's registers of the site. -/
theorem mem_issueRegs_gal {a : Nat} (hc : core < 32) (h : a ∈ issueRegs s (.gal site core c)) :
    ∃ o, a = siteFrame site + o ∧ (0x2020 ≤ o ∧ o < 0x2828 ∨ 0x4110 ≤ o ∧ o < 0x5100) := by
  have ht := State.taskOf_lt s (ctxKey site core c)
  simp only [issueRegs, State.masterOf, taskM, mstr, mstrSite, mUsedCycles, mUsedPassage, R.CORE_ISSUE_CNT_COUNT,
    R.CORE_ISSUE_CNT, R.CORE_DUAL_CNT_COUNT, R.CORE_DUAL_CNT, List.mem_cons, List.not_mem_nil, or_false] at h
  refine ⟨a - siteFrame site, ?_, ?_⟩ <;> simp only [siteFrame] at h ⊢ <;> omega

theorem low_not_mem_issueRegs {a : Nat} (hc : core < 32) (ha : a < 0x200010000000) :
    a ∉ issueRegs s (.gal site core c) := by
  intro h
  obtain ⟨o, rfl, -⟩ := mem_issueRegs_gal hc h
  simp only [siteFrame] at ha
  omega

theorem ctxblk_not_mem_issueRegs {b : Nat} (hc : core < 32) (hb : b < 512) :
    R.CTXBLK site b ∉ issueRegs s (.gal site core c) := by
  intro h
  obtain ⟨o, ho, h⟩ := mem_issueRegs_gal hc h
  simp only [siteFrame, R.CTXBLK] at ho
  omega

theorem sbEntry_not_mem_issueRegs {e : Nat} (hc : core < 32) : R.GM_SB_ENTRY site e ∉ issueRegs s (.gal site core c) := by
  intro h
  obtain ⟨o, ho, h⟩ := mem_issueRegs_gal hc h
  simp only [siteFrame, R.GM_SB_ENTRY] at ho
  omega

theorem siteOfKey_ctxKey (hc : core < 32) (hx : c < 128) : siteOfKey (ctxKey site core c) = site := by
  unfold siteOfKey ctxKey; omega

theorem State.issued_blkOf (u : Use) (ch : Charge) (n : Nat) (hc : core < 32) (hx : c < 128) :
    (s.issued (.gal site core c) u ch n).blkOf (ctxKey site core c) = s.blkOf (ctxKey site core c) := by
  unfold State.blkOf
  rw [siteOfKey_ctxKey hc hx]
  refine State.issued_reg s u ch n (ctxblk_not_mem_issueRegs hc ?_)
  unfold coreOfKey ctxOfKey ctxKey
  omega

/-- The issue leaves the owner of the context. -/
theorem State.issued_taskOf (u : Use) (ch : Charge) (n : Nat) (hc : core < 32) (hx : c < 128) :
    (s.issued (.gal site core c) u ch n).taskOf (ctxKey site core c) = s.taskOf (ctxKey site core c) := by
  rw [State.taskOf, State.issued_blkOf u ch n hc hx, State.taskOf]

theorem State.issued_fld_low (u : Use) (ch : Charge) (n : Nat) (hc : core < 32) {f : Fld} (hf : f.addr < 0x200010000000) :
    (s.issued (.gal site core c) u ch n).fld f = s.fld f := by
  rw [State.fld, State.fld, State.issued_reg s u ch n (low_not_mem_issueRegs hc hf)]

end

/-! ## The claims of a site -/

/-- A key that a test never picks may be set. -/
theorem SMap.filterMap_put {α β : Type} [DecidableEq α] {f : Nat × α → Option β} {k : Nat} (hk : ∀ v, f (k, v) = none)
    (m : SMap α) (v d : α) : (SMap.put m k v d).filterMap f = m.filterMap f := by
  unfold SMap.put
  split
  · induction m with
    | nil => rfl
    | cons p m ih =>
      obtain ⟨j, w⟩ := p
      by_cases hj : j = k
      · subst hj; simp [SMap.erase, hk, ih]
      · simp [SMap.erase, hj, List.filterMap_cons, ih]
  · induction m with
    | nil => simp [SMap.ins, hk]
    | cons p m ih =>
      obtain ⟨j, w⟩ := p
      unfold SMap.ins
      split
      · simp [List.filterMap_cons, hk]
      · split
        · next hj => subst hj; simp [hk]
        · simp [List.filterMap_cons, ih]

section
variable (s : State) (site : Nat)

theorem State.claimList_congr {s t : State} (h : t.csr = s.csr) : t.claimList site = s.claimList site := by
  rw [State.claimList, State.claimList, h]

theorem State.claimList_setReg {a : Nat} (w : Word) (ha : a < R.GM_SB_ENTRY site 0 ∨ R.GM_SB_ENTRY site 64 ≤ a) :
    (s.setReg a w).claimList site = s.claimList site := by
  unfold State.claimList State.setReg
  rw [State.withCsr_csr]
  refine SMap.filterMap_put (fun v => if_neg ?_) _ _ _
  rintro ⟨h1, h2, -⟩
  exact ha.elim (fun h => absurd h1 (Nat.not_le.2 h)) (fun h => absurd h2 (Nat.not_lt.2 h))

theorem State.claimList_addCharge {task : Nat} (c : Charge) (ht : task < 64) :
    (s.addCharge (taskM site task) c).claimList site = s.claimList site := by
  have ha : ∀ o, o < 0x100 → taskM site task + o < R.GM_SB_ENTRY site 0 := fun o ho => by
    simp only [taskM, mstr, mstrSite, siteFrame, R.GM_SB_ENTRY]; omega
  unfold State.addCharge State.addFld State.setFld
  rw [claimList_setReg, claimList_setReg, claimList_setReg, claimList_setReg] <;> exact Or.inl (ha _ (by decide))

/-- The issue leaves the claims. -/
theorem State.issued_claimList {core c : Nat} (u : Use) (ch : Charge) (n : Nat) (hc : core < 32) :
    (s.issued (.gal site core c) u ch n).claimList site = s.claimList site := by
  rw [State.issued_gal]
  have hcount : ∀ (t : State) (b : Bool), (t.countIssue site core b).claimList site = t.claimList site := fun t b => by
    cases b <;> refine State.claimList_setReg t site _ (Or.inl ?_) <;>
      simp only [R.CORE_ISSUE_CNT_COUNT, R.CORE_ISSUE_CNT, R.CORE_DUAL_CNT_COUNT, R.CORE_DUAL_CNT, R.GM_SB_ENTRY] <;> omega
  rw [hcount, State.claimList_congr site (s := s.addCharge (s.masterOf site core c) (s.charged site core c u ch)) (by
    simp only [State.stampIssue, State.setGroup, State.withFr_csr, State.setCore_csr, State.setCtx_csr])]
  exact State.claimList_addCharge s site _ (State.taskOf_lt s (ctxKey site core c))

end

section
variable {s : State} {site core c : Nat} {u : Use} {body : Nat → Nat → Nat → State → Ctx → Issue}

/-- What holds of the state that an instruction's effect leaves holds of the state that its command answers. -/
theorem State.runVX_next {ill : Bool} {ch : Charge} {eff : State → State} {P : State → Prop}
    (hr : CanIssue s (.gal site core c)) (hc : Bears s (.gal site core c) ch)
    (hp : (s.hctx (.gal site core c)).pc % 8 = 0) (hill : ill = false)
    (hb : body site core c s (s.hctx (.gal site core c)) = .go ch eff)
    (hP : P (eff (s.issued (.gal site core c) u ch 8))) :
    ∃ t, (Host.Outcome.next (s.runVX (.gal site core c) u true ill body) : OUT) = .next t ∧ P t :=
  ⟨_, congrArg _ (State.runVX_go hr hill hp hb hc), hP⟩

end

/-! ## What retiring a claim, and returning a record, leave -/

theorem SMap.find?_map {α : Type} (f : Nat × α → Nat × α) (hf : ∀ p, (f p).1 = p.1) (m : SMap α) (k : Nat) :
    SMap.find? (m.map f) k = (SMap.find? m k).map (fun v => (f (k, v)).2) := by
  induction m with
  | nil => rfl
  | cons p m ih =>
    obtain ⟨j, v⟩ := p
    have hj : (f (j, v)).1 = j := hf (j, v)
    by_cases h : j = k
    · subst h; simp [SMap.find?, hj]
    · simp [SMap.find?, hj, h, ih]

section
variable (s : State) (site : Nat)

/-- A context whose issue is not stalled does not see a claim retire. -/
theorem State.retire_ctx (e k : Nat) (err : Bool) (h : (s.ctx k).st ≠ .stalled .issue) :
    (s.retire site e err).ctx k = s.ctx k := by
  unfold State.retire State.ctx SMap.get at *
  rw [State.withCtxs_ctxs, SMap.find?_map _ (fun p => by split <;> rfl)]
  cases hk : SMap.find? s.ctxs k with
  | none => rfl
  | some v =>
    rw [hk] at h
    have hv : v.st ≠ .stalled .issue := h
    simp [hv]

theorem State.retire_reg (e : Nat) (err : Bool) : (s.retire site e err).reg (R.GM_SB_ENTRY site e) = 0 := by
  unfold State.retire; simp

theorem State.retire_mem (e : Nat) (err : Bool) : (s.retire site e err).mem = s.mem := by
  unfold State.retire State.setReg
  rw [State.withCtxs_mem, State.withCsr_mem]

/-- What the advance of a ring, and of a completion ring, touches: no context and no memory. -/
theorem State.cqAdvance_only (t : Nat) :
    (s.cqAdvance site t).ctxs = s.ctxs ∧ (s.cqAdvance site t).mem = s.mem := by
  unfold State.cqAdvance
  exact ⟨by simp, by simp⟩

theorem State.ringAdvance_only (r : Nat) :
    (s.ringAdvance site r).ctxs = s.ctxs ∧ (s.ringAdvance site r).mem = s.mem := by
  unfold State.ringAdvance State.cretSend
  generalize advRecs _ _ _ = p
  simp only
  split
  · exact ⟨by simp, by simp⟩
  · split <;> exact ⟨by simp, by simp⟩

/-- The return of a record leaves every context and memory. -/
theorem State.ringReturn_only (ring slot : Nat) :
    (s.ringReturn site ring slot).ctxs = s.ctxs ∧ (s.ringReturn site ring slot).mem = s.mem := by
  unfold State.ringReturn
  simp only
  split
  · obtain ⟨h1, h2⟩ := State.ringAdvance_only (s.setRing (site * 1024 + ring) { s.ring (site * 1024 + ring) with
      recs := (s.ring (site * 1024 + ring)).recs.map (fun y => if y.st = 2 ∧ y.slot = slot then { y with st := 3 } else y) })
      site ring
    exact ⟨h1.trans (State.setRing_ctxs s _ _), h2.trans (State.setRing_mem s _ _)⟩
  · split
    · exact ⟨rfl, rfl⟩
    · obtain ⟨h1, h2⟩ := State.cqAdvance_only (s.setCq (site * 64 + (ring - 1024)) ((s.cq (site * 64 + (ring - 1024))).map
        (fun y => if y.st = 2 ∧ y.slot = slot then { y with st := 3 } else y))) site (ring - 1024)
      exact ⟨h1.trans (State.setCq_ctxs s _ _), h2.trans (State.setCq_mem s _ _)⟩

end

/-! ## The instructions -/

section
variable {s : State} {site core c : Nat} {x : XOp}
  (hr : CanIssue s (.gal site core c)) (hb : Bears s (.gal site core c) Charge.issue)
  (hp : (s.hctx (.gal site core c)).pc % 8 = 0) (hcls : x.cls = 0) (hw1 : x.w1 = 0)
include hr hb hp hcls hw1

theorem curLoad_next {off : Nat} (hd : x.d = 0) (hxb : x.b = 0) (hper : x.per = 0)
    (hst : (s.hctx (.gal site core c)).stores = []) (hpriv : (s.hctx (.gal site core c)).priv ≠ 0)
    (ha : ((s.hctx (.gal site core c)).rs x.a).toNat % 512 = 0)
    (hoff : s.localAddr site core (s.hctx (.gal site core c)) ((s.hctx (.gal site core c)).rs x.a).toNat imageLen false =
      some off) :
    ∃ t, exec (.curLoad (.gal site core c) x) s = .next t ∧
      t.hctx (.gal site core c) = (s.hctx (.gal site core c)).past (.gal site core c) 8 ∧
      t.fld (R.CUR_STATUS_LOAD_PEND site) = 1 ∧
      t.fld (R.CUR_LOAD_OFS site) = off % 2 ^ (R.CUR_LOAD_OFS site).width ∧ t.mem = s.mem := by
  refine State.runVX_next hr hb hp (by simp [xplain, hcls, hw1, hd, hxb, hper]) (by
    simp only [Ctx.addrA, hpriv, hst, ha, hoff, if_false, if_true, ne_eq, not_true_eq_false, bounds, Issue.of]; rfl) ?_
  have hx := State.issued_hctx s (.gal site core c) Use.alone Charge.issue 8
  have hm := (IssueOnly.issued s (.gal site core c) Use.alone Charge.issue 8).mem
  generalize s.issued (.gal site core c) Use.alone Charge.issue 8 = u at hx hm ⊢
  rw [State.hctx_gal] at hx
  refine ⟨by simpa [State.hctx_gal] using hx, State.setFld_fld_same _ _ (Nat.le_of_ble_eq_true rfl), ?_, by simpa using hm⟩
  rw [State.setFld_fld_ne _ _ (Nat.le_of_ble_eq_true rfl) (Or.inl (by
    simp only [R.CUR_LOAD_OFS, R.CUR_STATUS_LOAD_PEND, R.CUR_LOAD, R.CUR_STATUS]; omega))]
  exact State.setFld_fld_same _ _ (Nat.le_of_ble_eq_true rfl)

theorem msgRet_next (hd : x.d = 0) (hxb : x.b = 0) (hper : x.per = 0) (ha : x.a = 0)
    (hst : (s.hctx (.gal site core c)).stores = []) (hh : s.isHandler (ctxKey site core c) = true) :
    ∃ t, exec (.msgRet (.gal site core c) x) s = .next t ∧
      t.hctx (.gal site core c) =
        { (s.hctx (.gal site core c)).past (.gal site core c) 8 with st := .parkedDispatch, inHand := none } ∧
      t.mem = s.mem := by
  refine State.runVX_next hr hb hp (by simp [xplain, hcls, hw1, hd, hxb, hper, ha]) (by
    simp only [hh, hst, Bool.not_true, Bool.false_eq_true, if_false, ne_eq, not_true_eq_false]; rfl) ?_
  have hx := State.issued_hctx s (.gal site core c) Use.alone Charge.issue 8
  have hm := (IssueOnly.issued s (.gal site core c) Use.alone Charge.issue 8).mem
  generalize s.issued (.gal site core c) Use.alone Charge.issue 8 = u at hx hm ⊢
  have hown : (u.modHctx (.gal site core c) (fun k => { k with st := .parkedDispatch, inHand := none })).hctx
      (.gal site core c) =
        { (s.hctx (.gal site core c)).past (.gal site core c) 8 with st := .parkedDispatch, inHand := none } := by
    rw [State.modHctx, hx]; exact State.hctx_setHctx (by simp)
  have hmem : (u.modHctx (.gal site core c) (fun k => { k with st := .parkedDispatch, inHand := none })).mem = s.mem := by
    rw [State.modHctx, State.setHctx_mem, hm]
  generalize u.modHctx _ _ = v at hown hmem ⊢
  cases (s.hctx (.gal site core c)).inHand with
  | none => exact ⟨hown, hmem⟩
  | some p =>
    obtain ⟨h1, h2⟩ := State.ringReturn_only v site p.1 p.2
    refine ⟨?_, h2.trans hmem⟩
    rw [State.hctx_gal, State.ctx] at hown ⊢
    exact (congrArg (fun m => SMap.get m (ctxKey site core c) Ctx.init) h1).trans hown

theorem dripWait_next (hxb : x.b = 0) (hper : x.per = 0) (hc : core < 32) :
    ∃ t, exec (.dripWait (.gal site core c) x) s = .next t ∧
      OwnContext s t (.gal site core c) { (s.hctx (.gal site core c)).past (.gal site core c) 8 with
        st := .parkedWait (max (s.fld R.DRIP_NUMBER_NUMBER + 1) ((s.hctx (.gal site core c)).rs x.a).toNat) x.d } := by
  refine State.runVX_next hr hb hp (by simp [xplain, hcls, hw1, hxb, hper]) rfl ?_
  have hn : (s.issued (.gal site core c) Use.alone Charge.issue 8).dripNo = s.fld R.DRIP_NUMBER_NUMBER :=
    State.issued_fld_low _ _ _ hc (by decide)
  simp only [hn, Ctx.addrA]
  exact State.issued_modHctx_own s _ _ _ _ (by simp)

theorem fenceWin_next (hd : x.d = 0) (hxb : x.b = 0) (ha : x.a = 0) (h84 : fldN x.per 8 4 = 0)
    (hwin : fldN x.per 3 3 = 0 ∨ fldN x.per 2 0 = 0)
    (hst : fldN x.per 3 3 = 1 → (s.hctx (.gal site core c)).stores = []) :
    ∃ t, exec (.fenceWin (.gal site core c) x) s = .next t ∧
      OwnContext s t (.gal site core c) ((s.hctx (.gal site core c)).past (.gal site core c) 8) := by
  have hn : ¬ (xbits x 3 3 = 1 ∧ (s.hctx (.gal site core c)).stores ≠ []) := fun h => h.2 (hst h.1)
  exact State.runVX_next hr hb hp (by rcases hwin with h | h <;> simp [xplain, xbits, hcls, hw1, hd, hxb, ha, h84, h]) (by
    simp only [if_neg hn]; rfl) (State.issued_own s _ _ _ _)

/-! ### SB.RETIRE -/

omit hb in
theorem sbRetire_wait (hd : x.d = 0) (hxb : x.b = 0) (hper : x.per = 0)
    (hst : (s.hctx (.gal site core c)).stores ≠ []) :
    exec (.sbRetire (.gal site core c) x) s = .next ((s.setGroup site core none).setCtx (ctxKey site core c)
      { s.hctx (.gal site core c) with st := .stalled .issue, waitsOn := 0 }) := by
  refine congrArg _ (State.runVX_wait hr (by simp [xplain, hcls, hw1, hd, hxb, hper]) hp ?_)
  exact if_pos hst

end

/-- What SB.RETIRE makes of a handle `a`, once issued by a context of `task` (R207). -/
def State.sbRetired (s : State) (site task a : Nat) : State :=
  let e := fldN a 5 0
  let w := s.reg (R.GM_SB_ENTRY site e)
  let same := decide (((s.gm site).claims.get e ⟨0, 0⟩).serial = fldN a 13 6)
  if getBits w 63 1 = 0 && same then s
  else if getBits w 63 1 = 1 && getBits w 60 1 = 1 && same && getBits w 54 6 = task then s.retire site e false
  else s.ceAt 5 site

section
variable {s : State} {site task a : Nat}

/-- The handle of a claim of the task that software owns. -/
theorem State.sbRetired_own (hv : getBits (s.reg (R.GM_SB_ENTRY site (fldN a 5 0))) 63 1 = 1)
    (hw : getBits (s.reg (R.GM_SB_ENTRY site (fldN a 5 0))) 60 1 = 1)
    (ht : getBits (s.reg (R.GM_SB_ENTRY site (fldN a 5 0))) 54 6 = task)
    (hs : ((s.gm site).claims.get (fldN a 5 0) ⟨0, 0⟩).serial = fldN a 13 6) :
    s.sbRetired site task a = s.retire site (fldN a 5 0) false := by
  simp [State.sbRetired, hv, hw, ht, hs]

/-- The handle of a claim that has retired. -/
theorem State.sbRetired_free (hv : getBits (s.reg (R.GM_SB_ENTRY site (fldN a 5 0))) 63 1 = 0)
    (hs : ((s.gm site).claims.get (fldN a 5 0) ⟨0, 0⟩).serial = fldN a 13 6) : s.sbRetired site task a = s := by
  simp [State.sbRetired, hv, hs]

/-- Any other handle. -/
theorem State.sbRetired_other
    (h : ¬ ((s.gm site).claims.get (fldN a 5 0) ⟨0, 0⟩).serial = fldN a 13 6 ∨
      getBits (s.reg (R.GM_SB_ENTRY site (fldN a 5 0))) 63 1 = 1 ∧
        (getBits (s.reg (R.GM_SB_ENTRY site (fldN a 5 0))) 60 1 = 0 ∨
          getBits (s.reg (R.GM_SB_ENTRY site (fldN a 5 0))) 54 6 ≠ task)) :
    s.sbRetired site task a = s.ceAt 5 site := by
  obtain hs | ⟨hv, hw | ht⟩ := h
  · simp [State.sbRetired, hs]
  · simp [State.sbRetired, hv, hw]
  · simp [State.sbRetired, hv, ht]

end

section
variable {s : State} {site core c : Nat} {x : XOp}
  (hr : CanIssue s (.gal site core c)) (hb : Bears s (.gal site core c) Charge.issue)
  (hp : (s.hctx (.gal site core c)).pc % 8 = 0) (hcls : x.cls = 0) (hw1 : x.w1 = 0)
include hr hb hp hcls hw1

theorem sbRetire_exec (hd : x.d = 0) (hxb : x.b = 0) (hper : x.per = 0) (hc : core < 32) (hk : c < 128)
    (hst : (s.hctx (.gal site core c)).stores = []) :
    exec (.sbRetire (.gal site core c) x) s = .next ((s.issued (.gal site core c) Use.alone Charge.issue 8).sbRetired site
      (s.taskOf (ctxKey site core c)) ((s.hctx (.gal site core c)).rs x.a).toNat) := by
  refine congrArg _ ((State.runVX_go hr (by simp [xplain, hcls, hw1, hd, hxb, hper]) hp (by
    simp only [hst, ne_eq, not_true_eq_false, if_false]; rfl) hb).trans ?_)
  simp only [State.sbRetired, Ctx.addrA, State.issued_taskOf _ _ _ hc hk]
  rfl

/-- Its four outcomes: a wait for the context's own stores, a claim retired, nothing, a record. -/
theorem sbRetire_next (hd : x.d = 0) (hxb : x.b = 0) (hper : x.per = 0) (hc : core < 32) (hk : c < 128)
    (hst : (s.hctx (.gal site core c)).stores = []) :
    let A := ((s.hctx (.gal site core c)).rs x.a).toNat
    let w := s.reg (R.GM_SB_ENTRY site (fldN A 5 0))
    let y := (s.hctx (.gal site core c)).past (.gal site core c) 8
    let same : Prop := ((s.gm site).claims.get (fldN A 5 0) ⟨0, 0⟩).serial = fldN A 13 6
    (getBits w 63 1 = 1 → getBits w 60 1 = 1 → getBits w 54 6 = s.taskOf (ctxKey site core c) → same →
      ∃ t, exec (.sbRetire (.gal site core c) x) s = .next t ∧ t.hctx (.gal site core c) = y ∧
        t.reg (R.GM_SB_ENTRY site (fldN A 5 0)) = 0 ∧ t.mem = s.mem) ∧
    (getBits w 63 1 = 0 → same →
      ∃ t, exec (.sbRetire (.gal site core c) x) s = .next t ∧ OwnContext s t (.gal site core c) y) ∧
    (¬ same ∨ getBits w 63 1 = 1 ∧ (getBits w 60 1 = 0 ∨ getBits w 54 6 ≠ s.taskOf (ctxKey site core c)) →
      ∃ u e, OwnContext s u (.gal site core c) y ∧ e.cls = CE ∧
        exec (.sbRetire (.gal site core c) x) s = .next (u.raise e)) := by
  intro A w y same
  have hown := State.issued_own s (.gal site core c) Use.alone Charge.issue 8
  have hm := (IssueOnly.issued s (.gal site core c) Use.alone Charge.issue 8).mem
  have hg := (IssueOnly.issued s (.gal site core c) Use.alone Charge.issue 8).gm site
  have he := hown.regs _ (sbEntry_not_mem_issueRegs (e := fldN A 5 0) hc)
  rw [sbRetire_exec hr hb hp hcls hw1 hd hxb hper hc hk hst]
  generalize s.issued (.gal site core c) Use.alone Charge.issue 8 = u at *
  refine ⟨fun hv hw ht hs => ⟨_, rfl, ?_⟩, fun hv hs => ⟨_, rfl, ?_⟩, fun h => ⟨u, u.recAt (u.mkRec CE 5 0) site, hown, rfl, ?_⟩⟩
  · rw [State.sbRetired_own (by rw [he]; exact hv) (by rw [he]; exact hw) (by rw [he]; exact ht) (by rw [hg]; exact hs)]
    refine ⟨?_, State.retire_reg _ _ _ _, (State.retire_mem _ _ _ _).trans hm⟩
    have hx := hown.ctx
    rw [State.hctx_gal] at hx ⊢
    rw [State.retire_ctx _ _ _ _ _ (by rw [hx]; simp), hx]
  · rw [State.sbRetired_free (by rw [he]; exact hv) (by rw [hg]; exact hs)]
    exact hown
  · rw [State.sbRetired_other (by rw [he, hg]; exact h)]
    exact rfl

end

/-! ### SB.CLAIM -/

/-- The fields of a claim's word (Table 4.14). -/
theorem claimWord_fields (write sw : Bool) (task len lo : Nat) :
    let w : Word := BitVec.ofNat 64 (2 ^ 63 + b2n write * 2 ^ 62 + b2n sw * 2 ^ 60 + task % 64 * 2 ^ 54 +
      len % 2 ^ 22 * 2 ^ 32 + lo % 2 ^ 22)
    getBits w 63 1 = 1 ∧ getBits w 62 1 = b2n write ∧ getBits w 60 1 = b2n sw ∧ getBits w 0 22 = lo % 2 ^ 22 := by
  have h1 : b2n write ≤ 1 := by cases write <;> decide
  have h2 : b2n sw ≤ 1 := by cases sw <;> decide
  intro w
  simp only [w, getBits, BitVec.toNat_ofNat, Nat.shiftRight_eq_div_pow]
  omega

/-- A claim takes the lowest free entry: its word, and the entry's serial (R206). -/
theorem State.claim_low {s : State} {site e : Nat} (h : s.lowEntry site = some e) (task op : Nat) (sw : Bool) (x : Want) :
    ∃ t, s.claim site task op sw x = (t, some e) ∧ t.fld (R.GM_SB_ENTRY_VALID site e) = 1 ∧
      t.fld (R.GM_SB_ENTRY_KIND site e) = b2n x.write ∧ t.fld (R.GM_SB_ENTRY_SW site e) = b2n sw ∧
      t.fld (R.GM_SB_ENTRY_BASE site e) = x.lo / 64 % 2 ^ 22 ∧
      ((t.gm site).claims.get e ⟨0, 0⟩).serial = (((s.gm site).claims.get e ⟨0, 0⟩).serial + 1) % 256 ∧
      (∀ k, t.ctx k = s.ctx k) ∧ t.mem = s.mem := by
  unfold State.claim
  rw [h]
  refine ⟨_, rfl, ?_⟩
  have hw := claimWord_fields x.write sw task ((x.lo + x.n + 63) / 64 - x.lo / 64) (x.lo / 64)
  simp only at hw
  have hne : R.GM_SB_ENTRY site e ≠ (R.GM_SB_STATUS_HIGH_WATER site).addr := by
    simp only [R.GM_SB_ENTRY, R.GM_SB_STATUS_HIGH_WATER, R.GM_SB_STATUS]; omega
  simp only [State.fld, R.GM_SB_ENTRY_VALID, R.GM_SB_ENTRY_KIND, R.GM_SB_ENTRY_SW, R.GM_SB_ENTRY_BASE,
    State.setFld_reg_ne _ _ hne, State.setReg_reg_same]
  refine ⟨hw.1, hw.2.1, hw.2.2.1, hw.2.2.2, by simp, by simp, by simp⟩

section
variable {s : State} {site core c : Nat} {x : XOp}

/-- The effect of SB.CLAIM where entry `e` is the lowest free one. -/
theorem sbClaim_next (hr : CanIssue s (.gal site core c)) (hb : Bears s (.gal site core c) Charge.issue)
    (hp : (s.hctx (.gal site core c)).pc % 8 = 0) (hcls : x.cls = 0) (hw1 : x.w1 = 0) (hper : fldN x.per 7 0 = 0)
    (hc : core < 32) {off e : Nat} (hn : ((s.hctx (.gal site core c)).rs x.b).toNat ≠ 0)
    (hoff : s.localAddr site core (s.hctx (.gal site core c)) ((s.hctx (.gal site core c)).rs x.a).toNat
      ((s.hctx (.gal site core c)).rs x.b).toNat (fldN x.per 8 8 == 1) = some off)
    (hbl : s.blockers site [⟨fldN x.per 8 8 == 1, off, ((s.hctx (.gal site core c)).rs x.b).toNat⟩] = 0)
    (hfree : 1 ≤ s.freeEntries site) (hlow : s.lowEntry site = some e) :
    ∃ t, exec (.sbClaim (.gal site core c) x) s = .next t ∧ t.fld (R.GM_SB_ENTRY_VALID site e) = 1 ∧
      t.fld (R.GM_SB_ENTRY_SW site e) = 1 ∧ t.fld (R.GM_SB_ENTRY_KIND site e) = b2n (fldN x.per 8 8 == 1) ∧
      t.fld (R.GM_SB_ENTRY_BASE site e) = off / 64 % 2 ^ 22 ∧
      t.hctx (.gal site core c) = ((s.hctx (.gal site core c)).past (.gal site core c) 8).ws x.d
        (BitVec.ofNat 64 (e + 64 * ((((s.gm site).claims.get e ⟨0, 0⟩).serial + 1) % 256))) ∧
      t.mem = s.mem := by
  have hroom : ¬ s.freeEntries site < 1 := Nat.not_lt.2 hfree
  refine State.runVX_next hr hb hp (by simp [xplain, xbits, hcls, hw1, hper]) (by
    simp only [Ctx.addrA, xbits, if_neg hn, hoff, bounds, Issue.of, State.claimRoom]
    have hne : (((s.hctx (.gal site core c)).rs x.b).toNat != 0) = true := by simpa using hn
    simp only [List.filter_cons, hne, if_true, List.filter_nil, hbl, ne_eq, not_true_eq_false, if_false,
      List.length_singleton, if_neg hroom]
    rfl) ?_
  have hx := State.issued_hctx s (.gal site core c) Use.alone Charge.issue 8
  have hm := (IssueOnly.issued s (.gal site core c) Use.alone Charge.issue 8).mem
  have hg := (IssueOnly.issued s (.gal site core c) Use.alone Charge.issue 8).gm site
  have hl : (s.issued (.gal site core c) Use.alone Charge.issue 8).lowEntry site = some e := by
    rw [State.lowEntry, State.issued_claimList s site _ _ _ hc]; exact hlow
  generalize s.issued (.gal site core c) Use.alone Charge.issue 8 = u at hx hm hg hl ⊢
  obtain ⟨t, ht, hvalid, hkind, hsw, hbase, hserial, hctx, hmem⟩ := State.claim_low hl (u.taskOf (ctxKey site core c)) 0 true
    ⟨fldN x.per 8 8 == 1, off, ((s.hctx (.gal site core c)).rs x.b).toNat⟩
  have hxt : t.hctx (.gal site core c) = u.hctx (.gal site core c) := hctx _
  simp only [ht]
  rw [hg] at hserial
  rw [hserial]
  refine ⟨?_, ?_, ?_, ?_, ?_, ?_⟩
  · rw [State.fld, State.modHctx, State.setHctx_reg]; exact hvalid
  · rw [State.fld, State.modHctx, State.setHctx_reg]; exact hsw
  · rw [State.fld, State.modHctx, State.setHctx_reg]; exact hkind
  · rw [State.fld, State.modHctx, State.setHctx_reg]; exact hbase
  · rw [State.modHctx, hxt, hx]; exact State.hctx_setHctx (by simp)
  · rw [State.modHctx, State.setHctx_mem, hmem, hm]

end

/-! ### DRIP.BUDGET: the arithmetic of a budget that is lowered -/

theorem bitN_eq_testBit (n i : Nat) : bitN n i = (n.testBit i).toNat := by
  rw [bitN, Nat.shiftRight_eq_div_pow, Nat.toNat_testBit]

theorem bitN_setBitN_self (n i : Nat) : bitN (setBitN n i) i = 1 := by
  simp [bitN_eq_testBit, setBitN, Nat.testBit_or, Nat.one_shiftLeft, Nat.testBit_two_pow_self]

theorem bitN_setBitN_ne (n : Nat) {i j : Nat} (h : i ≠ j) : bitN (setBitN n i) j = bitN n j := by
  simp [bitN_eq_testBit, setBitN, Nat.testBit_or, Nat.one_shiftLeft, Nat.testBit_two_pow_of_ne h]

theorem fldN_one (n i : Nat) : fldN n i i = bitN n i := by simp [fldN, bitN]

theorem govFactor_le (level : Nat) : govFactor level ≤ 16 := by
  unfold govFactor; split <;> decide

section
variable (s : State) (b : Budget)

/-- The governor never raises a component. -/
theorem State.inForce_le_comp (i : Nat) : s.inForce b i ≤ b.comp i := by
  have h := govFactor_le (s.fld R.PWR_STATUS_LEVEL)
  unfold State.inForce
  simp only
  split
  · exact Nat.le_refl _
  · exact Nat.div_le_of_le_mul (by rw [Nat.mul_comm]; exact Nat.mul_le_mul_right _ h)

theorem Budget.lower_lowered (i v : Nat) : (b.lower i v).lowered = setBitN b.lowered i := by
  unfold Budget.lower; split <;> rfl

theorem Budget.lower_valid (i v : Nat) : (b.lower i v).valid = b.valid := by
  unfold Budget.lower; split <;> rfl

theorem Budget.lower_comp_self (i v : Nat) : (b.lower i v).comp i = v := by
  match i with
  | 0 | 1 | 2 => rfl
  | i + 3 => rfl

/-- Another component keeps its value; all from 3 up are the Class A slots. -/
theorem Budget.lower_comp_ne {i j : Nat} (v : Nat) (h : min i 3 ≠ min j 3) : (b.lower i v).comp j = b.comp j := by
  match i, j with
  | 0, 0 | 1, 1 | 2, 2 => exact absurd rfl h
  | 0, 1 | 0, 2 | 1, 0 | 1, 2 | 2, 0 | 2, 1 => rfl
  | 0, j + 3 | 1, j + 3 | 2, j + 3 => rfl
  | i + 3, 0 | i + 3, 1 | i + 3, 2 => rfl
  | i + 3, j + 3 => exact absurd (by omega) h

theorem Budget.comp_class {j : Nat} (h : 3 ≤ j) : b.comp j = b.classA := by
  match j, h with
  | j + 3, _ => rfl

/-- A component that DRIP.BUDGET has lowered is in force as it stands. -/
theorem State.inForce_lower_self (i v : Nat) : s.inForce (b.lower i v) i = v := by
  unfold State.inForce
  simp only
  rw [if_pos (by simp [Budget.lower_lowered, bitN_setBitN_self]), Budget.lower_comp_self]

variable {s b} {i v : Nat}

theorem Budget.lower_comp_le (hv : v < s.inForce b i) (hi : i < 4) (j : Nat) : (b.lower i v).comp j ≤ b.comp j := by
  by_cases h : min i 3 = min j 3
  · have hle := Nat.le_of_lt (Nat.lt_of_lt_of_le hv (s.inForce_le_comp b i))
    by_cases hj : 3 ≤ j
    · obtain rfl : i = 3 := by omega
      rw [Budget.comp_class _ hj, Budget.comp_class _ hj, ← Budget.comp_class _ (Nat.le_refl 3), Budget.lower_comp_self]
      exact hle
    · obtain rfl : i = j := by omega
      rw [Budget.lower_comp_self]; exact hle
  · exact Nat.le_of_eq (b.lower_comp_ne v h)

/-- Lowering one component raises what is in force of none: the others are scaled as before, all of them with Class A slots
left alone. -/
theorem State.inForce_lower_le (hv : v < s.inForce b i) (hi : i < 4) (j : Nat) : s.inForce (b.lower i v) j ≤ s.inForce b j := by
  by_cases hij : i = j
  · subst hij; rw [State.inForce_lower_self]; exact Nat.le_of_lt hv
  by_cases hj : 3 ≤ j
  · have := Budget.lower_comp_le hv hi j
    simpa [State.inForce, hj] using this
  have hcomp : (b.lower i v).comp j = b.comp j := b.lower_comp_ne v (by omega)
  have hbit : bitN (b.lower i v).lowered j = bitN b.lowered j := by rw [Budget.lower_lowered, bitN_setBitN_ne _ hij]
  by_cases h3 : i = 3
  · subst h3
    have hA : b.classA ≠ 0 := by
      have := Nat.lt_of_lt_of_le hv (s.inForce_le_comp b 3)
      exact Nat.ne_of_gt (Nat.lt_of_le_of_lt (Nat.zero_le _) this)
    have hl : bitN (b.lower 3 v).lowered 3 = 1 := by rw [Budget.lower_lowered, bitN_setBitN_self]
    simp [State.inForce, hcomp, hA, hl]
  · have hA : (b.lower i v).classA = b.classA := b.lower_comp_ne (j := 3) v (by omega)
    have hb3 : bitN (b.lower i v).lowered 3 = bitN b.lowered 3 := by rw [Budget.lower_lowered, bitN_setBitN_ne _ h3]
    simp [State.inForce, hcomp, hbit, hA, hb3]

end

/-! ### Masters of a task -/

theorem siteOfM_taskM (site t : Nat) (ht : t < 64) : siteOfM (taskM site t) = some site := by
  unfold siteOfM siteAt taskM mstr mstrSite siteFrame
  rw [if_pos (by omega)]
  congr 1; omega

theorem idxOfM_taskM (site t : Nat) (ht : t < 64) : idxOfM (taskM site t) = t := by
  unfold idxOfM
  rw [siteOfM_taskM site t ht]
  simp only [taskM, mstr]
  omega

/-- CONT that DRIP.BUDGET asked for counts at the Close. -/
theorem State.contAt_of_contNow {s : State} {site t : Nat} (ht : t < 48) (h : (s.task (site * 64 + t)).contNow = true) :
    s.contAt (taskM site t) = true := by
  unfold State.contAt
  rw [siteOfM_taskM site t (by omega), idxOfM_taskM site t (by omega)]
  simp [ht, h]

/-- A count that stands above its component's budget leaves no room for any charge of it (R30). -/
theorem State.charge_exceeded {s : State} {m : Nat} {ch : Charge} (hv : (s.bud m).valid = true)
    (h : (s.bud m).cycles < s.fld (mUsedCycles m) ∧ 0 < ch.cycles ∨ 64 * (s.bud m).stack4k < s.fld (mUsedStack m) ∧ 0 < ch.stack ∨
      (s.bud m).passage < s.fld (mUsedPassage m) ∧ 0 < ch.passage ∨ (s.bud m).classA < s.fld (mUsedClassA m) ∧ 0 < ch.classA) :
    ∃ cause causes, s.charge m ch = .violation cause causes := by
  have h0 : s.fld (mUsedCycles m) < 2 ^ 32 := getBits_lt _ _ _
  have h1 : s.fld (mUsedStack m) < 2 ^ 32 := getBits_lt _ _ _
  have h2 : s.fld (mUsedPassage m) < 2 ^ 32 := getBits_lt _ _ _
  have key : s.overruns m (s.bud m) ch (s.bud m).comp + 8 * b2n (exceeds ch.classA (s.fld (mUsedClassA m)) (s.bud m).classA) ≠ 0 := by
    have hx : ∀ {c used limit : Nat}, limit < used → 0 < c → exceeds c used limit = true := by
      intro c used limit hl hc
      simp only [exceeds, Bool.and_eq_true, decide_eq_true_eq]
      omega
    unfold State.overruns
    simp only
    obtain ⟨hu, hp⟩ | ⟨hu, hp⟩ | ⟨hu, hp⟩ | ⟨hu, hp⟩ := h
    · have hpol : ((s.bud m).cycles != 0xFFFFFFFF) = true := bne_iff_ne.2 (by omega)
      rw [hpol, show exceeds ch.cycles (s.fld (mUsedCycles m)) ((s.bud m).comp 0) = true from hx hu hp]
      simp [b2n]
    · have hpol : ((s.bud m).stack4k != 0xFFFFFFFF) = true := bne_iff_ne.2 (by omega)
      rw [hpol, show exceeds ch.stack (s.fld (mUsedStack m)) ((s.bud m).comp 1 * 64) = true from
        hx (Nat.mul_comm 64 _ ▸ hu) hp]
      simp [b2n]
    · have hpol : ((s.bud m).passage != 0xFFFFFFFF) = true := bne_iff_ne.2 (by omega)
      rw [hpol, show exceeds ch.passage (s.fld (mUsedPassage m)) ((s.bud m).comp 2) = true from hx hu hp]
      simp [b2n]
    · rw [hx hu hp]; simp [b2n]
  unfold State.charge
  simp only [hv, Bool.not_true, Bool.false_eq_true, if_false]
  rw [if_pos key]
  exact ⟨_, _, rfl⟩

/-- The Open puts what an entry asks for in force, where the entry stays valid and its master is not frozen. -/
theorem State.openMaster_asked {u : State} {m : Nat} (hv : (u.bud m).valid = true) (hm : u.fld (mValid m) = 1)
    (hf : u.frozen m = false) : (u.openMaster m).bud m = u.asked m := by
  have hval : (u.asked m).valid = true := by simp [State.asked, hm]
  have hfz : ((((((u.setFld (mUsedCycles m) 0).setFld (mUsedStack m) 0).setFld (mUsedPassage m) 0).setFld (mUsedClassA m)
      0).setBud m (u.asked m))).frozen m = false := by
    unfold State.frozen at hf ⊢
    have hne : ∀ o, o < 0x28 → m + 0x28 ≠ m + o := fun o ho => by omega
    simp only [State.fld, State.setBud_reg, mFrozen, mUsedCycles, mUsedStack, mUsedPassage, mUsedClassA] at hf ⊢
    rw [State.setFld_reg_ne _ _ (hne 0x18 (by decide)), State.setFld_reg_ne _ _ (hne 0x18 (by decide)),
      State.setFld_reg_ne _ _ (hne 0x10 (by decide)), State.setFld_reg_ne _ _ (hne 0x10 (by decide))]
    exact hf
  unfold State.openMaster
  simp only [hv, hval, or_true, if_true, Bool.not_true, Bool.false_eq_true, and_false, if_false]
  cases siteOfM m <;> simp only [hfz, Bool.false_and, Bool.false_eq_true, if_false, State.setBud_bud_same]

/-! ### DRIP.BUDGET -/

theorem State.inForce_congr {s t : State} (h : t.fld R.PWR_STATUS_LEVEL = s.fld R.PWR_STATUS_LEVEL) (b : Budget) (i : Nat) :
    t.inForce b i = s.inForce b i := by
  unfold State.inForce; rw [h]

/-- The budget that DRIP.BUDGET leaves in force: with SET, the least of what was in force and `v` (R205). -/
def State.budgetSet (s : State) (b : Budget) (set : Bool) (i v : Nat) : Budget :=
  if set = true ∧ v < s.inForce b i then b.lower i v else b

section
variable {s : State} {b : Budget} {set : Bool} {i v : Nat}

theorem State.inForce_budgetSet (hs : set = true) : s.inForce (s.budgetSet b set i v) i = min (s.inForce b i) v := by
  unfold State.budgetSet
  split
  · next h => rw [State.inForce_lower_self]; omega
  · next h => exact (Nat.min_eq_left (Nat.not_lt.1 fun hv => h ⟨hs, hv⟩)).symm

theorem State.budgetSet_le (hi : i < 4) (j : Nat) :
    (s.budgetSet b set i v).comp j ≤ b.comp j ∧ s.inForce (s.budgetSet b set i v) j ≤ s.inForce b j := by
  unfold State.budgetSet
  split
  · next h => exact ⟨Budget.lower_comp_le h.2 hi j, State.inForce_lower_le h.2 hi j⟩
  · exact ⟨Nat.le_refl _, Nat.le_refl _⟩

theorem State.budgetSet_valid : (s.budgetSet b set i v).valid = b.valid := by
  unfold State.budgetSet
  split
  · exact Budget.lower_valid _ _ _
  · rfl

end

/-- The state after DRIP.BUDGET's SET and CONT: `set` and `cont` are the bits, `v` the value asked for. -/
def State.dripBudgeted (s : State) (site t i v : Nat) (set cont : Bool) : State :=
  let s := if set = true then s.lowerBud (taskM site t) i v else s
  if cont = true then s.setTask (site * 64 + t) { s.task (site * 64 + t) with contNow := true } else s

section
variable (s : State) (site t i v : Nat) (set cont : Bool)

/-- It changes the budget in force of the task's master and its mark for CONT. -/
theorem State.dripBudgeted_bud : (s.dripBudgeted site t i v set cont).bud (taskM site t) =
    s.budgetSet (s.bud (taskM site t)) set i v := by
  unfold State.dripBudgeted State.budgetSet State.lowerBud
  cases set
  · cases cont <;> simp
  · by_cases hv : v < s.inForce (s.bud (taskM site t)) i <;> cases cont <;> simp [hv]

theorem State.dripBudgeted_task : (s.dripBudgeted site t i v set true).task (site * 64 + t) =
    { s.task (site * 64 + t) with contNow := true } := by
  unfold State.dripBudgeted State.lowerBud
  cases set
  · simp
  · by_cases hv : v < s.inForce (s.bud (taskM site t)) i <;> simp [hv]

theorem State.dripBudgeted_only : (∀ a, (s.dripBudgeted site t i v set cont).reg a = s.reg a) ∧
    (∀ k, (s.dripBudgeted site t i v set cont).ctx k = s.ctx k) ∧ (s.dripBudgeted site t i v set cont).mem = s.mem := by
  unfold State.dripBudgeted State.lowerBud
  cases set
  · cases cont <;> simp
  · by_cases hv : v < s.inForce (s.bud (taskM site t)) i <;> cases cont <;> simp [hv]

end

section
variable {s : State} {site core c : Nat} {x : XOp}

theorem dripBudget_exec (hr : CanIssue s (.gal site core c)) (hb : Bears s (.gal site core c) Charge.issue)
    (hp : (s.hctx (.gal site core c)).pc % 8 = 0) (hcls : x.cls = 0) (hw1 : x.w1 = 0) (hxb : x.b = 0)
    (hper : x.per % 32 = 0) (hc : core < 32) (hk : c < 128) :
    exec (.dripBudget (.gal site core c) x) s = .next (
      let t := (s.issued (.gal site core c) Use.alone Charge.issue 8).dripBudgeted site (s.taskOf (ctxKey site core c))
        (fldN x.per 8 7) ((s.hctx (.gal site core c)).rs x.a).toNat (decide (bitN x.per 5 = 1)) (decide (bitN x.per 6 = 1))
      t.modHctx (.gal site core c) (fun y => y.ws x.d (BitVec.ofNat 64
        (t.inForce (t.bud (taskM site (s.taskOf (ctxKey site core c)))) (fldN x.per 8 7))))) := by
  refine congrArg _ ((State.runVX_go hr (by simp [xplain, xbits, fldN, hcls, hw1, hxb, hper]) hp rfl hb).trans ?_)
  simp only [State.dripBudgeted, Ctx.addrA, xbits, fldN_one, State.issued_taskOf _ _ _ hc hk, decide_eq_true_eq]

theorem dripBudget_next (hr : CanIssue s (.gal site core c)) (hb : Bears s (.gal site core c) Charge.issue)
    (hp : (s.hctx (.gal site core c)).pc % 8 = 0) (hcls : x.cls = 0) (hw1 : x.w1 = 0) (hxb : x.b = 0)
    (hper : x.per % 32 = 0) (hc : core < 32) (hk : c < 128) (ht : s.taskOf (ctxKey site core c) < 48) :
    let task := s.taskOf (ctxKey site core c)
    let m := taskM site task
    let i := fldN x.per 8 7
    let A := ((s.hctx (.gal site core c)).rs x.a).toNat
    let b := if bitN x.per 5 = 1 ∧ A < s.inForce (s.bud m) i then (s.bud m).lower i A else s.bud m
    ∃ t, exec (.dripBudget (.gal site core c) x) s = .next t ∧
      t.hctx (.gal site core c) =
        ((s.hctx (.gal site core c)).past (.gal site core c) 8).ws x.d (BitVec.ofNat 64 (s.inForce b i)) ∧ t.bud m = b ∧
      (bitN x.per 5 = 1 → s.inForce b i = min (s.inForce (s.bud m) i) A) ∧
      (∀ j, b.comp j ≤ (s.bud m).comp j ∧ s.inForce b j ≤ s.inForce (s.bud m) j) ∧
      (bitN x.per 6 = 1 → (t.task (site * 64 + task)).contNow = true ∧ t.contAt m = true) ∧
      (∀ a, a ∉ issueRegs s (.gal site core c) → t.reg a = s.reg a) ∧ t.mem = s.mem ∧
      (∀ ch : Charge, b.cycles < t.fld (mUsedCycles m) ∧ 0 < ch.cycles ∨ 64 * b.stack4k < t.fld (mUsedStack m) ∧ 0 < ch.stack ∨
          b.passage < t.fld (mUsedPassage m) ∧ 0 < ch.passage ∨ b.classA < t.fld (mUsedClassA m) ∧ 0 < ch.classA →
        ∃ cause causes, t.charge m ch = .violation cause causes) ∧
      ∀ u : State, (u.bud m).valid = true → u.fld (mValid m) = 1 → u.frozen m = false →
        ∀ j, ((u.openMaster m).bud m).comp j = (u.asked m).comp j := by
  intro task m i A b
  have hbset : b = s.budgetSet (s.bud m) (decide (bitN x.per 5 = 1)) i A := by
    simp only [b, State.budgetSet, decide_eq_true_eq]
  have hi : i < 4 := Nat.mod_lt _ (by decide)
  rw [dripBudget_exec hr hb hp hcls hw1 hxb hper hc hk]
  have hx := State.issued_hctx s (.gal site core c) Use.alone Charge.issue 8
  have hreg := fun a => State.issued_reg s (h := .gal site core c) Use.alone Charge.issue 8 (a := a)
  have hm := (IssueOnly.issued s (.gal site core c) Use.alone Charge.issue 8).mem
  have hbud := (IssueOnly.issued s (.gal site core c) Use.alone Charge.issue 8).bud m
  have hlev := State.issued_fld_low (s := s) (site := site) (c := c) Use.alone Charge.issue 8 hc
    (f := R.PWR_STATUS_LEVEL) (by decide)
  have hvalid : (s.bud m).valid = true := by
    obtain ⟨hsel, -⟩ := hr
    simp only [State.selectable, Bool.and_eq_true] at hsel
    exact hsel.1.1.2
  generalize s.issued (.gal site core c) Use.alone Charge.issue 8 = u at hx hreg hm hbud hlev ⊢
  obtain ⟨hvreg, hvctx, hvmem⟩ := u.dripBudgeted_only site task i A (decide (bitN x.per 5 = 1)) (decide (bitN x.per 6 = 1))
  have hvbud : (u.dripBudgeted site task i A (decide (bitN x.per 5 = 1)) (decide (bitN x.per 6 = 1))).bud m = b := by
    rw [hbset, u.dripBudgeted_bud, hbud, State.budgetSet, State.budgetSet, State.inForce_congr hlev]
  have hvtask : bitN x.per 6 = 1 → ((u.dripBudgeted site task i A (decide (bitN x.per 5 = 1))
      (decide (bitN x.per 6 = 1))).task (site * 64 + task)).contNow = true := fun h6 => by
    rw [decide_eq_true h6, u.dripBudgeted_task]
  change ∃ t, Host.Outcome.next (State.modHctx (u.dripBudgeted site task i A _ _) _ _) = .next t ∧ _
  generalize u.dripBudgeted site task i A _ _ = v at hvreg hvctx hvmem hvbud hvtask ⊢
  have hvfor : v.inForce b i = s.inForce b i := State.inForce_congr (by rw [State.fld, hvreg]; exact hlev) b i
  rw [show v.bud (taskM site task) = b from hvbud, show v.inForce b (fldN x.per 8 7) = s.inForce b i from hvfor]
  have hvx : v.hctx (.gal site core c) = (s.hctx (.gal site core c)).past (.gal site core c) 8 := (hvctx _).trans hx
  have htb : ∀ f, (v.modHctx (.gal site core c) f).bud m = b := fun f => (State.setCtx_bud_ v _ _ m).trans hvbud
  refine ⟨_, rfl, ?_, htb _, fun h5 => ?_, fun j => ?_, fun h6 => ⟨hvtask h6, ?_⟩, fun a ha => (hvreg a).trans (hreg a ha),
    hvmem.trans hm, fun ch hch => ?_, fun w hv hmv hf j => by rw [State.openMaster_asked hv hmv hf]⟩
  · rw [State.modHctx, hvx]
    exact State.hctx_setHctx (by simp)
  · rw [hbset]; exact State.inForce_budgetSet (by simp [h5])
  · rw [hbset]; exact State.budgetSet_le hi j
  · exact State.contAt_of_contNow ht (hvtask h6)
  · exact State.charge_exceeded (by rw [htb, hbset, State.budgetSet_valid, hvalid]) (by rw [htb]; exact hch)

end

/-! ### The Open of a drip that a context waits for -/

theorem Ctx.open_of_ready {x : Ctx} (h : x.st = .ready) (fz : Bool) (n : Nat) : x.open fz n = x := by
  simp [Ctx.open, h]

section
variable {s : State} {k w d : Nat}

/-- One context's turn at the Open. -/
def State.openCtx (s : State) (k : Nat) : State :=
  s.setCtx k ((s.ctx k).open (s.frozen (taskM (siteOfKey k) (s.taskOf k))) s.dripNo)

theorem State.openCtxs_eq (s : State) : s.openCtxs = s.ctxs.foldl (fun s p => s.openCtx p.1) s := rfl

theorem State.openCtx_reg (s : State) (k a : Nat) : (s.openCtx k).reg a = s.reg a := State.setCtx_reg s _ _ _

/-- The Opens of a list of contexts leave one alone that is not to wake, whatever they do to the others. -/
theorem State.foldl_openCtx_fixed {k : Nat} {x : Ctx} : ∀ (l : List (Nat × Ctx)) {s : State}, s.ctx k = x →
    x.open (s.frozen (taskM (siteOfKey k) (s.taskOf k))) s.dripNo = x → (l.foldl (fun s p => s.openCtx p.1) s).ctx k = x
  | [], _, h, _ => h
  | p :: l, s, h, hx => by
    refine State.foldl_openCtx_fixed l ?_ ?_
    · show (s.openCtx p.1).ctx k = x
      by_cases hk : k = p.1
      · subst hk; rw [State.openCtx, State.setCtx_ctx_same, h, hx]
      · rw [State.openCtx, State.setCtx_ctx_ne _ _ _ hk, h]
    · exact hx

/-- They wake one that is to wake, if it is in the list. -/
theorem State.foldl_openCtx_wakes {k : Nat} {x : Ctx} : ∀ (l : List (Nat × Ctx)) {s : State}, s.ctx k = x →
    k ∈ l.map (·.1) → (x.open (s.frozen (taskM (siteOfKey k) (s.taskOf k))) s.dripNo).st = .ready →
    (l.foldl (fun s p => s.openCtx p.1) s).ctx k = x.open (s.frozen (taskM (siteOfKey k) (s.taskOf k))) s.dripNo
  | [], _, _, hk, _ => by cases hk
  | p :: l, s, h, hk, hx => by
    by_cases hkp : k = p.1
    · refine State.foldl_openCtx_fixed l ?_ (Ctx.open_of_ready hx _ _)
      subst hkp
      show (s.openCtx p.1).ctx p.1 = _
      rw [State.openCtx, State.setCtx_ctx_same, h]
    · have hl : k ∈ l.map (·.1) := by
        simp only [List.map_cons, List.mem_cons] at hk
        exact hk.resolve_left hkp
      have := State.foldl_openCtx_wakes (s := s.openCtx p.1) l (x := x) (by
        rw [State.openCtx, State.setCtx_ctx_ne _ _ _ hkp, h]) hl hx
      exact this

theorem SMap.mem_keys_of_get_ne {α : Type} {m : SMap α} {k : Nat} {e : α} (h : SMap.get m k e ≠ e) : k ∈ m.map (·.1) := by
  induction m with
  | nil => exact absurd rfl h
  | cons p m ih =>
    obtain ⟨j, v⟩ := p
    by_cases hj : j = k
    · simp [hj]
    · refine List.mem_cons_of_mem _ (ih ?_)
      simpa [SMap.get, SMap.find?, hj] using h

/-- A context parked until drip `w` sleeps over every earlier Open and wakes at the first other one (R204). -/
theorem State.openCtxs_parked {u : State} (h : (u.ctx k).st = .parkedWait w d) :
    (u.ctx k).live = false ∧ (u.dripNo < w → u.openCtxs.ctx k = u.ctx k) ∧
    (w ≤ u.dripNo → u.frozen (taskM (siteOfKey k) (u.taskOf k)) = false →
      (u.openCtxs.ctx k).st = .ready ∧ (d ≠ 0 → (u.openCtxs.ctx k).rs d = BitVec.ofNat 64 u.dripNo)) := by
  refine ⟨by simp [Ctx.live, h], fun hn => ?_, fun hn hf => ?_⟩
  · rw [State.openCtxs_eq]
    exact State.foldl_openCtx_fixed _ rfl (by simp [Ctx.open, h, hn])
  · have hw : (u.ctx k).open (u.frozen (taskM (siteOfKey k) (u.taskOf k))) u.dripNo = (u.ctx k).wake d u.dripNo := by
      simp [Ctx.open, h, hf, Nat.not_lt.2 hn]
    have hmem : k ∈ u.ctxs.map (·.1) := SMap.mem_keys_of_get_ne (e := Ctx.init) (fun he => by
      have : (u.ctx k).st = Ctx.init.st := congrArg Ctx.st he
      rw [h] at this; cases this)
    have := State.foldl_openCtx_wakes u.ctxs rfl hmem (by rw [hw]; rfl)
    rw [State.openCtxs_eq, this, hw]
    exact ⟨rfl, fun hd => by simp [Ctx.wake, Ctx.rs, hd]⟩

end

end Sys2Proof.Machine
end

section
/-! SUPPORT. The statement of class X control. -/

open Sys2Proof Sys2Proof.Machine

/-- Settles O28: each instruction by the lemma that says what it leaves. -/
theorem extControl : Obligations.ExtControl := by
  unfold Obligations.ExtControl
  intro s site core c x _ hc hk h r y A task hr hb hp hcls hw1
  refine ⟨fun hd hxb hper hst => ?_, fun hd hxb hper hst => sbRetire_wait hr hp hcls hw1 hd hxb hper hst,
    fun hxb hper => dripWait_next hr hb hp hcls hw1 hxb hper hc, fun u k w d hpark => State.openCtxs_parked hpark,
    fun hxb hper ht => dripBudget_next hr hb hp hcls hw1 hxb hper hc hk ht,
    fun hper _ _ hn hoff hbl hfree hlow => sbClaim_next hr hb hp hcls hw1 hper hc hn hoff hbl hfree hlow,
    fun hd hxb ha h84 hwin hst => fenceWin_next hr hb hp hcls hw1 hd hxb ha h84 hwin hst⟩
  obtain ⟨hown, hfree, hother⟩ := sbRetire_next hr hb hp hcls hw1 hd hxb hper hc hk hst
  exact ⟨fun off hpriv ha hoff => curLoad_next hr hb hp hcls hw1 hd hxb hper hst hpriv ha hoff,
    fun ha hh => msgRet_next hr hb hp hcls hw1 hd hxb hper ha hst hh, hown, hfree, hother⟩

end

section
/-! SUPPORT. A write that lands on the registers of the DRIP block, and what the rules of the time source and of the schedule
leave (R19). -/

namespace Sys2Proof.Machine

/-! ## What a write of 8 bytes brings to its block's rules -/

section
variable {s : State} {src : Src} {a : Nat} {f : Found} {v : Word}

/-- A register without a bit for Bedrock alone may be written whole by whoever may write it (R477). -/
theorem State.covered_whole (hbed : f.row.bed = 0) (hch : f.row.reg ≠ .FR_CHAMBER) (hq : f.row.reg ≠ .HQ0) :
    s.covered src f = whole := by
  have h0 : s.restricted (s.who src) f = 0 := by
    unfold State.restricted
    cases s.who src with
    | runtime _ => simp [hbed, hch]
    | host => simp [hbed, hq]
    | _ => simp [hbed]
  rw [State.covered, h0]
  decide

theorem whole_bit {i : Nat} (hi : i < 64) : whole.getLsbD i = true := by
  rw [whole, BitVec.getLsbD_allOnes, decide_eq_true hi]

/-- A field of RW bits takes what is written to it. -/
theorem getBits_written {lo w : Nat} (hlo : lo + w ≤ 64)
    (hrw : ∀ i, i < w → (BitVec.ofNat 64 (s.rwBits f a)).getLsbD (lo + i) = true) (hw1c : f.row.w1c = 0) :
    getBits (written s a f whole v) lo w = getBits v lo w := by
  apply Nat.eq_of_testBit_eq
  intro i
  rw [getBits_testBit, getBits_testBit]
  by_cases hi : i < w
  · have h64 : lo + i < 64 := by omega
    simp only [written, BitVec.getLsbD_and, BitVec.getLsbD_or, BitVec.getLsbD_not, hrw i hi, whole_bit h64, hw1c]
    simp [h64]
  · simp [hi]

/-- A field without an RW bit keeps what it has. -/
theorem getBits_written_ro {lo w : Nat} (hlo : lo + w ≤ 64)
    (hrw : ∀ i, i < w → (BitVec.ofNat 64 (s.rwBits f a)).getLsbD (lo + i) = false) (hw1c : f.row.w1c = 0) :
    getBits (written s a f whole v) lo w = getBits (s.reg a) lo w := by
  apply Nat.eq_of_testBit_eq
  intro i
  rw [getBits_testBit, getBits_testBit]
  by_cases hi : i < w
  · have h64 : lo + i < 64 := by omega
    simp only [written, BitVec.getLsbD_and, BitVec.getLsbD_or, BitVec.getLsbD_not, hrw i hi, hw1c]
    simp [h64]
  · simp [hi]

/-- A bit that is written and covered reaches the rules. -/
theorem getBits_wo (wo : Word) {b : Nat} (hb : b < 64) (hwo : wo.getLsbD b = true) :
    getBits (v &&& wo &&& whole) b 1 = getBits v b 1 := by
  apply Nat.eq_of_testBit_eq
  intro i
  rw [getBits_testBit, getBits_testBit]
  by_cases hi : i < 1
  · obtain rfl : i = 0 := by omega
    simp only [BitVec.getLsbD_and, Nat.add_zero, hwo, whole_bit hb, Bool.and_true]
  · simp [hi]

end

/-! ## The registers of the DRIP block -/

/-- DRIP_CTRL, DRIP_PERIOD, DRIP_APPLY_AT and BRG_CTRL, as the register map has them. -/
def dripCtrlFound : Found := ⟨.DRIP, 0x200000000000, ⟨.DRIP_CTRL, 0x0, [], 0xf80f, 0x0, 0x10, 0x0, 0x0⟩⟩
def dripPeriodFound : Found := ⟨.DRIP, 0x200000000000, ⟨.DRIP_PERIOD, 0x8, [], 0xffff0000, 0x0, 0x0, 0x0, 0x3e803e8⟩⟩
def dripApplyAtFound : Found := ⟨.DRIP, 0x200000000000, ⟨.DRIP_APPLY_AT, 0x10, [], 0xffffffffffff, 0x0, 0x0, 0x0, 0x0⟩⟩
def brgCtrlFound : Found := ⟨.BRG, 0x200000100000, ⟨.BRG_CTRL, 0x0, [], 0x0, 0x0, 0x1, 0x0, 0x0⟩⟩

theorem regAt_DRIP_CTRL : regAt R.DRIP_CTRL = some dripCtrlFound := by decide
theorem regAt_DRIP_PERIOD : regAt R.DRIP_PERIOD = some dripPeriodFound := by decide
theorem regAt_DRIP_APPLY_AT : regAt R.DRIP_APPLY_AT = some dripApplyAtFound := by decide
theorem regAt_BRG_CTRL : regAt R.BRG_CTRL = some brgCtrlFound := by decide

section
variable {s : State} {src : Src} {f : Found} {v : Word}

/-- A write of DRIP_CTRL that lands and does not ask for the reserved source: ENABLE and SRC change by their own rules, and
RESYNC asks for a step where one is needed. -/
theorem State.regWrite_DRIP_CTRL (h : Lands s src R.DRIP_CTRL f whole v) (h3 : getBits v 1 2 ≠ 3) : ∃ w : Word,
    getBits w 0 1 = s.fld R.DRIP_CTRL_ENABLE ∧ getBits w 1 2 = s.fld R.DRIP_CTRL_SRC ∧
    s.regWrite src R.DRIP_CTRL 8 v.toNat =
      let s1 := s.setReg R.DRIP_CTRL w
      let s2 := if getBits v 1 2 ≠ s.fld R.DRIP_CTRL_SRC then s1.selectSource (getBits v 1 2) else s1
      let s3 := if getBits v 0 1 = s.fld R.DRIP_CTRL_ENABLE then s2
        else if getBits v 0 1 = 1 then s2.dripStart else s2.dripStop
      if getBits v 4 1 == 1 && s3.fld R.DRIP_STATUS_STEP_NEEDED == 1 then s3.withDrip { s3.drip with stepReq := true }
      else s3 := by
  obtain rfl : _ = f := Option.some.inj (regAt_DRIP_CTRL.symm.trans h.found)
  have hcov := State.covered_whole (s := s) (src := src) (f := dripCtrlFound) rfl (by decide) (by decide)
  have hon := getBits_written (s := s) (a := R.DRIP_CTRL) (v := v) (f := dripCtrlFound) (lo := 0) (w := 1) (by decide)
    (by show ∀ i, i < 1 → (0xf80f#64).getLsbD (0 + i) = true; decide) rfl
  have hsel := getBits_written (s := s) (a := R.DRIP_CTRL) (v := v) (f := dripCtrlFound) (lo := 1) (w := 2) (by decide)
    (by show ∀ i, i < 2 → (0xf80f#64).getLsbD (1 + i) = true; decide) rfl
  have hask := getBits_wo (v := v) (0x10#64) (b := 4) (by decide) (by decide)
  have hw := State.regWrite_lands h (by rw [hcov]; show whole &&& (0xf80f#64 ||| 0x0#64 ||| 0x10#64) ≠ 0; decide)
  rw [hcov] at hw
  generalize written s R.DRIP_CTRL _ whole v = n at hon hsel hw
  refine ⟨putBits (putBits n 1 2 (s.fld R.DRIP_CTRL_SRC)) 0 1 (s.fld R.DRIP_CTRL_ENABLE), ?_, ?_, hw.trans ?_⟩
  · rw [getBits_putBits_same _ (by decide)]; exact Nat.mod_eq_of_lt (getBits_lt _ _ _)
  · rw [getBits_putBits_ne _ (by decide) (by decide), getBits_putBits_same _ (by decide)]
    exact Nat.mod_eq_of_lt (getBits_lt _ _ _)
  · simp only [dripCtrlFound, State.wrBlock, State.wrDrip, CsrWr.get, CsrWr.was, CsrWr.asks, hon, hsel, hask, if_neg h3]
    rfl

/-- A write of DRIP_APPLY_AT that lands. -/
theorem State.regWrite_DRIP_APPLY_AT (h : Lands s src R.DRIP_APPLY_AT f whole v) :
    s.regWrite src R.DRIP_APPLY_AT 8 v.toNat = s.applyAt (getBits v 0 48) := by
  obtain rfl : _ = f := Option.some.inj (regAt_DRIP_APPLY_AT.symm.trans h.found)
  have hcov := State.covered_whole (s := s) (src := src) (f := dripApplyAtFound) rfl (by decide) (by decide)
  have hn := getBits_written (s := s) (a := R.DRIP_APPLY_AT) (v := v) (f := dripApplyAtFound) (lo := 0) (w := 48) (by decide)
    (by show ∀ i, i < 48 → (0xffffffffffff#64).getLsbD (0 + i) = true; decide) rfl
  have hw := State.regWrite_lands h (by rw [hcov]; show whole &&& (0xffffffffffff#64 ||| 0x0#64 ||| 0x0#64) ≠ 0; decide)
  rw [hcov] at hw
  generalize written s R.DRIP_APPLY_AT _ whole v = n at hn hw
  refine hw.trans ?_
  simp only [dripApplyAtFound, State.wrBlock, State.wrDrip, CsrWr.get, hn]
  rfl

/-- A write of DRIP_PERIOD that lands: `NEXT_US` of 50 or more is kept with the rest of the register, a smaller one is
refused. -/
theorem State.regWrite_DRIP_PERIOD (h : Lands s src R.DRIP_PERIOD f whole v) : ∃ w : Word,
    getBits w 16 16 = getBits v 16 16 ∧ getBits w 0 16 = s.fld R.DRIP_PERIOD_CUR_US ∧
    s.regWrite src R.DRIP_PERIOD 8 v.toNat =
      if getBits v 16 16 < 50 then s.refuse src 16 R.DRIP_PERIOD v.toNat else s.setReg R.DRIP_PERIOD w := by
  obtain rfl : _ = f := Option.some.inj (regAt_DRIP_PERIOD.symm.trans h.found)
  have hcov := State.covered_whole (s := s) (src := src) (f := dripPeriodFound) rfl (by decide) (by decide)
  have hn := getBits_written (s := s) (a := R.DRIP_PERIOD) (v := v) (f := dripPeriodFound) (lo := 16) (w := 16) (by decide)
    (by show ∀ i, i < 16 → (0xffff0000#64).getLsbD (16 + i) = true; decide) rfl
  have hcur := getBits_written_ro (s := s) (a := R.DRIP_PERIOD) (v := v) (f := dripPeriodFound) (lo := 0) (w := 16) (by decide)
    (by show ∀ i, i < 16 → (0xffff0000#64).getLsbD (0 + i) = false; decide) rfl
  have hw := State.regWrite_lands h (by rw [hcov]; show whole &&& (0xffff0000#64 ||| 0x0#64 ||| 0x0#64) ≠ 0; decide)
  rw [hcov] at hw
  generalize written s R.DRIP_PERIOD _ whole v = n at hn hcur hw
  refine ⟨n, hn, hcur, hw.trans ?_⟩
  simp only [dripPeriodFound, State.wrBlock, State.wrDrip, CsrWr.get, hn]
  split <;> rfl

/-- A write of BRG_CTRL that lands and asks for a module compute reset. -/
theorem State.regWrite_BRG_CTRL (h : Lands s src R.BRG_CTRL f whole v) (hv : getBits v 0 1 = 1) :
    s.regWrite src R.BRG_CTRL 8 v.toNat = s.mcrRequest := by
  obtain rfl : _ = f := Option.some.inj (regAt_BRG_CTRL.symm.trans h.found)
  have hcov := State.covered_whole (s := s) (src := src) (f := brgCtrlFound) rfl (by decide) (by decide)
  have hask := (getBits_wo (v := v) (0x1#64) (b := 0) (by decide) (by decide)).trans hv
  have hw := State.regWrite_lands h (by rw [hcov]; show whole &&& (0x0#64 ||| 0x0#64 ||| 0x1#64) ≠ 0; decide)
  rw [hcov] at hw
  refine hw.trans ?_
  simp only [brgCtrlFound, State.wrBlock, State.wrBrg, CsrWr.asks, hask]
  rfl

end

/-! ## How an update stays within a list of registers -/

section
variable {s t : State} {l : List Nat}

theorem Keeps.thenReg (h : Keeps s t l) {a : Nat} (w : Word) (ha : a ∈ l) : Keeps s (t.setReg a w) l :=
  (h.trans (Keeps.setReg t a w)).mono fun _ hb => (List.mem_append.1 hb).elim id fun hb => List.mem_singleton.1 hb ▸ ha

theorem Keeps.thenFld (h : Keeps s t l) {f : Fld} (n : Nat) (ha : f.addr ∈ l) : Keeps s (t.setFld f n) l := h.thenReg _ ha

theorem Keeps.thenDrip (h : Keeps s t l) (x : DripSt) : Keeps s (t.withDrip x) l := ⟨h.regs, h.bytes, h.ctxs, h.queue⟩

theorem Keeps.thenRaise (h : Keeps s t l) (r : ErrRec) : Keeps s (t.raise r) l :=
  (h.trans (Keeps.raise t r [])).mono fun _ hb => (List.mem_append.1 hb).elim id fun hb => absurd hb List.not_mem_nil

theorem Keeps.ite {u : State} {c : Prop} [Decidable c] (ht : Keeps s t l) (hu : Keeps s u l) :
    Keeps s (if c then t else u) l := by
  split
  · exact ht
  · exact hu

/-! ## The time source and the schedule of the drip (R19) -/

theorem Keeps.setOffset (h : Keeps s t l) (ns : Int) (hl : R.DRIP_STATUS ∈ l) : Keeps s (t.setOffset ns) l := by
  unfold State.setOffset
  extract_lets far near sat new c t1 t2
  have h1 : Keeps s t1 l := h.thenDrip _
  have h2 : Keeps s t2 l := ((h1.thenFld _ hl).thenFld _ hl).thenFld _ hl
  exact .ite (h2.thenRaise _) h2

theorem Keeps.sourceLost (h : Keeps s t l) (hl : R.DRIP_STATUS ∈ l) : Keeps s t.sourceLost l :=
  .ite h ((h.thenDrip _).thenFld _ hl)

theorem Keeps.selectSource (h : Keeps s t l) (n : Nat) (hc : R.DRIP_CTRL ∈ l) (hl : R.DRIP_STATUS ∈ l) :
    Keeps s (t.selectSource n) l := by
  unfold State.selectSource
  extract_lets c t1 t2
  have h1 : Keeps s t1 l := (h.thenFld _ hc).thenDrip _
  have h2 : Keeps s t2 l := ((h1.thenFld _ hl).thenFld _ hl).setOffset 0 hl
  exact .ite h2 ((h2.thenFld _ hl).sourceLost hl)

theorem Keeps.dripStart (h : Keeps s t l) (hc : R.DRIP_CTRL ∈ l) (hl : R.DRIP_STATUS ∈ l) : Keeps s t.dripStart l := by
  unfold State.dripStart
  have h1 : Keeps s (t.setFld R.DRIP_CTRL_ENABLE 1) l := h.thenFld _ hc
  refine .ite h1 ?_
  split
  · exact .ite ((h1.thenFld _ hl).thenDrip _) (.ite ((h1.thenDrip _).setOffset 0 hl) (h1.thenDrip _))
  · exact h1.thenDrip _

theorem Keeps.dripStop (h : Keeps s t l) (hc : R.DRIP_CTRL ∈ l) (hl : R.DRIP_STATUS ∈ l) : Keeps s t.dripStop l :=
  ((h.thenFld _ hc).thenFld _ hl).thenDrip _

theorem Keeps.applyAt (h : Keeps s t l) (n : Nat) (ha : R.DRIP_APPLY_AT ∈ l) (hl : R.DRIP_STATUS ∈ l) :
    Keeps s (t.applyAt n) l := by
  unfold State.applyAt
  extract_lets m t1 c late t2 c2
  have h1 : Keeps s t1 l := h.thenReg _ ha
  have h2 : Keeps s t2 l := .ite (h1.thenFld _ hl) h1
  exact .ite ((h1.thenDrip _).thenFld _ hl) ((h2.thenDrip _).thenFld _ hl)

end

section
variable (s : State)

/-- An offset of zero: in step, and no record. -/
theorem State.setOffset_zero : s.setOffset 0 =
    (((s.withDrip { s.drip with offsetNs := 0 }).setFld R.DRIP_STATUS_OFFSET_NS 0).setFld R.DRIP_STATUS_STEP_NEEDED 0).setFld
      R.DRIP_STATUS_SYNC (if s.drip.lostAt.isNone then 1 else s.fld R.DRIP_STATUS_SYNC) := by
  have hfar : (decide ((10000 : Int) < 0) || decide ((0 : Int) < -10000)) = false := by decide
  have hnear : (decide ((-250 : Int) ≤ 0) && decide ((0 : Int) ≤ 250)) = true := by decide
  simp only [State.setOffset, hfar, hnear, Bool.false_and, Bool.false_eq_true, if_false]
  rfl

theorem State.setOffset_zero_enable : (s.setOffset 0).fld R.DRIP_CTRL_ENABLE = s.fld R.DRIP_CTRL_ENABLE := by
  simp (disch := decide) only [State.setOffset_zero, State.setFld_fld_ne, State.withDrip_fld]

theorem State.setOffset_zero_src : (s.setOffset 0).fld R.DRIP_CTRL_SRC = s.fld R.DRIP_CTRL_SRC := by
  simp (disch := decide) only [State.setOffset_zero, State.setFld_fld_ne, State.withDrip_fld]

theorem State.setOffset_zero_drip : (s.setOffset 0).drip = { s.drip with offsetNs := 0 } := by
  simp only [State.setOffset_zero, State.setFld_drip, State.withDrip_drip]

/-- The free-running source is its own time base. -/
theorem State.selectSource_zero : let t := s.selectSource 0
    t.fld R.DRIP_CTRL_SRC = 0 ∧ t.fld R.DRIP_STATUS_HOLDOVER = 0 ∧ t.fld R.DRIP_STATUS_STEP_NEEDED = 0 ∧
      t.fld R.DRIP_STATUS_OFFSET_NS = 0 ∧ t.fld R.DRIP_STATUS_SYNC = 1 ∧ t.drip.lostAt = none := by
  simp (disch := decide) only [State.selectSource, if_true, State.setOffset_zero, State.setFld_fld_ne, State.setFld_fld_same,
    State.withDrip_fld, State.setFld_drip, State.withDrip_drip]
  exact ⟨rfl, rfl, rfl, rfl, rfl, trivial⟩

theorem State.setOffset_zero_now : (s.setOffset 0).now = s.now := by rw [State.setOffset_zero]; rfl

/-- What the choice of a source leaves: ENABLE and the schedule. -/
theorem State.sourceLost_enable : s.sourceLost.fld R.DRIP_CTRL_ENABLE = s.fld R.DRIP_CTRL_ENABLE := by
  unfold State.sourceLost
  split
  · rfl
  · simp (disch := decide) only [State.setFld_fld_ne, State.withDrip_fld]

theorem State.sourceLost_src : s.sourceLost.fld R.DRIP_CTRL_SRC = s.fld R.DRIP_CTRL_SRC := by
  unfold State.sourceLost
  split
  · rfl
  · simp (disch := decide) only [State.setFld_fld_ne, State.withDrip_fld]

theorem State.sourceLost_spec (hs : s.fld R.DRIP_CTRL_SRC ≠ 0) (hl : s.drip.lostAt = none) : let t := s.sourceLost
    t.fld R.DRIP_STATUS_HOLDOVER = 1 ∧ t.fld R.DRIP_STATUS_SYNC = s.fld R.DRIP_STATUS_SYNC ∧
      t.drip.lostAt = some s.now := by
  have hnot : ¬ (s.fld R.DRIP_CTRL_SRC = 0 ∨ s.drip.lostAt.isSome = true) := by
    rw [hl]
    exact fun hor => hor.elim hs (by decide)
  unfold State.sourceLost
  rw [if_neg hnot]
  refine ⟨?_, ?_, rfl⟩
  · simp (disch := decide) only [State.setFld_fld_same]
    rfl
  · simp (disch := decide) only [State.setFld_fld_ne, State.withDrip_fld]

theorem State.selectSource_enable (n : Nat) : (s.selectSource n).fld R.DRIP_CTRL_ENABLE = s.fld R.DRIP_CTRL_ENABLE := by
  unfold State.selectSource
  extract_lets c t1 t2
  have h2 : t2.fld R.DRIP_CTRL_ENABLE = s.fld R.DRIP_CTRL_ENABLE := by
    simp (disch := decide) only [t2, t1, State.setOffset_zero_enable, State.setFld_fld_ne, State.withDrip_fld]
  split
  · exact h2
  · rw [State.sourceLost_enable, State.setFld_fld_ne _ _ (by decide) (by decide), h2]

/-- Any other source is lost until it is measured. -/
theorem State.selectSource_measured {n : Nat} (h : n = 1 ∨ n = 2) : let t := s.selectSource n
    t.fld R.DRIP_CTRL_SRC = n ∧ t.fld R.DRIP_STATUS_HOLDOVER = 1 ∧ t.fld R.DRIP_STATUS_SYNC = 0 ∧
      t.drip.lostAt = some s.now := by
  have h0 : n ≠ 0 := by omega
  dsimp only
  unfold State.selectSource
  extract_lets c t1 t2
  have hsrc : t2.fld R.DRIP_CTRL_SRC = n := by
    simp (disch := decide) only [t2, t1, State.setOffset_zero_src, State.setFld_fld_ne, State.setFld_fld_same,
      State.withDrip_fld]
    exact Nat.mod_eq_of_lt (show n < 4 by omega)
  have hlost : t2.drip.lostAt = none := by rw [State.setOffset_zero_drip]; rfl
  have hnow : t2.now = s.now := by rw [State.setOffset_zero_now]; rfl
  clear_value t2
  rw [if_neg h0]
  have hsrc' : (t2.setFld R.DRIP_STATUS_SYNC 0).fld R.DRIP_CTRL_SRC = n :=
    (State.setFld_fld_ne t2 0 (by decide) (by decide)).trans hsrc
  obtain ⟨hhold, hsync, hat⟩ := State.sourceLost_spec (t2.setFld R.DRIP_STATUS_SYNC 0) (fun hz => h0 (hsrc'.symm.trans hz))
    ((congrArg DripSt.lostAt (State.setFld_drip t2 _ 0)).trans hlost)
  refine ⟨(State.sourceLost_src _).trans hsrc', hhold, ?_, hat.trans (congrArg some ((State.setFld_now t2 _ 0).trans hnow))⟩
  rw [hsync, State.setFld_fld_same _ _ (by decide)]
  rfl

/-- The source that is chosen. -/
theorem State.selectSource_src {n : Nat} (h : n < 3) : (s.selectSource n).fld R.DRIP_CTRL_SRC = n := by
  by_cases h0 : n = 0
  · subst h0; exact s.selectSource_zero.1
  · exact (s.selectSource_measured (by omega)).1

/-! ### Start, restart and stop -/

theorem State.dripStop_spec : let t := s.dripStop
    t.fld R.DRIP_CTRL_ENABLE = 0 ∧ t.fld R.DRIP_CTRL_SRC = s.fld R.DRIP_CTRL_SRC ∧ t.drip.running = false ∧
      t.fld R.DRIP_STATUS_PHASE_SEAL = 0 ∧ t.drip.epoch = s.drip.epoch := by
  unfold State.dripStop
  refine ⟨?_, ?_, rfl, ?_, rfl⟩
  · simp (disch := decide) only [State.withDrip_fld, State.setFld_fld_ne, State.setFld_fld_same]
    rfl
  · simp (disch := decide) only [State.withDrip_fld, State.setFld_fld_ne]
  · simp (disch := decide) only [State.withDrip_fld, State.setFld_fld_same]
    rfl

theorem State.dripResume_fld (e : Int) (f : Fld) : (s.dripResume e).fld f = s.fld f := State.withDrip_fld ..

theorem State.dripStart_running (hr : s.drip.running = true) : s.dripStart = s.setFld R.DRIP_CTRL_ENABLE 1 := by
  unfold State.dripStart
  dsimp only
  rw [State.setFld_drip, if_pos hr]

/-- A schedule that starts again: its epoch is the one that it had. -/
theorem State.dripStart_again (hr : s.drip.running = false) {e : Int} (he : s.drip.epoch = some e) :
    s.dripStart = (s.setFld R.DRIP_CTRL_ENABLE 1).dripResume e := by
  unfold State.dripStart
  dsimp only
  rw [State.setFld_drip, hr, he]
  rfl

/-- The first start: at now, or where the measured source has its epoch. -/
theorem State.dripStart_first (hr : s.drip.running = false) (he : s.drip.epoch = none) :
    s.dripStart =
      let t := s.setFld R.DRIP_CTRL_ENABLE 1
      if s.fld R.DRIP_CTRL_SRC = 0 then (t.setFld R.DRIP_STATUS_SYNC 1).dripResume s.now
      else if s.drip.located then (t.dripResume s.drip.offsetNs).setOffset 0 else t.dripResume s.now := by
  have hsrc : (s.setFld R.DRIP_CTRL_ENABLE 1).fld R.DRIP_CTRL_SRC = s.fld R.DRIP_CTRL_SRC :=
    State.setFld_fld_ne s 1 (by decide) (by decide)
  unfold State.dripStart
  dsimp only
  rw [State.setFld_drip, hr, he, hsrc, State.setFld_now]
  rfl

theorem State.dripStart_ctrl : s.dripStart.fld R.DRIP_CTRL_ENABLE = 1 ∧
    s.dripStart.fld R.DRIP_CTRL_SRC = s.fld R.DRIP_CTRL_SRC := by
  have hen : (s.setFld R.DRIP_CTRL_ENABLE 1).fld R.DRIP_CTRL_ENABLE = 1 := State.setFld_fld_same s 1 (by decide)
  have hsrc : (s.setFld R.DRIP_CTRL_ENABLE 1).fld R.DRIP_CTRL_SRC = s.fld R.DRIP_CTRL_SRC :=
    State.setFld_fld_ne s 1 (by decide) (by decide)
  cases hr : s.drip.running with
  | true => rw [State.dripStart_running s hr]; exact ⟨hen, hsrc⟩
  | false =>
    cases he : s.drip.epoch with
    | some e => rw [State.dripStart_again s hr he, State.dripResume_fld, State.dripResume_fld]; exact ⟨hen, hsrc⟩
    | none =>
      rw [State.dripStart_first s hr he]
      dsimp only
      split
      · rw [State.dripResume_fld, State.dripResume_fld]
        exact ⟨(State.setFld_fld_ne _ 1 (by decide) (by decide)).trans hen,
          (State.setFld_fld_ne _ 1 (by decide) (by decide)).trans hsrc⟩
      · split
        · rw [State.setOffset_zero_enable, State.setOffset_zero_src, State.dripResume_fld, State.dripResume_fld]
          exact ⟨hen, hsrc⟩
        · rw [State.dripResume_fld, State.dripResume_fld]; exact ⟨hen, hsrc⟩

/-- The first Close of a schedule with epoch `e`: not before now, and after the last Open. -/
def State.firstClose (s : State) (e : Int) : Nat :=
  onSchedule e s.periodNs (max s.now (if s.drip.opened then s.drip.openAt + 1 else 0))

theorem State.dripResume_schedule (e : Int) :
    (s.dripResume e).drip.epoch = some e ∧ (s.dripResume e).drip.closeAt = s.firstClose e := ⟨rfl, rfl⟩

theorem State.firstClose_congr {s t : State} (hd : t.drip = s.drip) (hn : t.now = s.now)
    (hp : t.fld R.DRIP_PERIOD_CUR_US = s.fld R.DRIP_PERIOD_CUR_US) (e : Int) : t.firstClose e = s.firstClose e := by
  simp only [State.firstClose, State.periodNs, hd, hn, hp]

theorem State.dripStart_spec (hr : s.drip.running = false) :
    let e := s.drip.epoch.getD
      (if s.fld R.DRIP_CTRL_SRC ≠ 0 ∧ s.drip.located = true then s.drip.offsetNs else (s.now : Int))
    s.dripStart.drip.epoch = some e ∧ s.dripStart.drip.closeAt = s.firstClose e ∧
      (s.drip.epoch = none → s.fld R.DRIP_CTRL_SRC = 0 → s.dripStart.fld R.DRIP_STATUS_SYNC = 1) := by
  have hper : ∀ (f : Fld) n, f.addr ≠ R.DRIP_PERIOD → ∀ u : State,
      (u.setFld f n).fld R.DRIP_PERIOD_CUR_US = u.fld R.DRIP_PERIOD_CUR_US :=
    fun f n hf u => State.setFld_fld_ne u n (by decide) (.inl hf.symm)
  have hclose : ∀ e, (s.setFld R.DRIP_CTRL_ENABLE 1).firstClose e = s.firstClose e := fun e =>
    State.firstClose_congr (State.setFld_drip ..) (State.setFld_now ..) (hper _ _ (by decide) s) e
  cases he : s.drip.epoch with
  | some e =>
    rw [State.dripStart_again s hr he]
    obtain ⟨h1, h2⟩ := (s.setFld R.DRIP_CTRL_ENABLE 1).dripResume_schedule e
    exact ⟨h1, h2.trans (hclose e), nofun⟩
  | none =>
    rw [State.dripStart_first s hr he]
    dsimp only [Option.getD_none]
    by_cases h0 : s.fld R.DRIP_CTRL_SRC = 0
    · obtain ⟨h1, h2⟩ := ((s.setFld R.DRIP_CTRL_ENABLE 1).setFld R.DRIP_STATUS_SYNC 1).dripResume_schedule s.now
      rw [if_pos h0, if_neg (fun h => h.1 h0)]
      refine ⟨h1, h2.trans ?_, fun _ _ => ?_⟩
      · exact (State.firstClose_congr (State.setFld_drip ..) (State.setFld_now ..) (hper _ _ (by decide) _) _).trans (hclose _)
      · rw [State.dripResume_fld, State.setFld_fld_same _ _ (by decide)]
        rfl
    · rw [if_neg h0]
      by_cases hl : s.drip.located = true
      · obtain ⟨h1, h2⟩ := (s.setFld R.DRIP_CTRL_ENABLE 1).dripResume_schedule s.drip.offsetNs
        rw [if_pos hl, if_pos ⟨h0, hl⟩, State.setOffset_zero_drip]
        exact ⟨h1, h2.trans (hclose _), fun _ h => absurd h h0⟩
      · obtain ⟨h1, h2⟩ := (s.setFld R.DRIP_CTRL_ENABLE 1).dripResume_schedule s.now
        rw [if_neg hl, if_neg (fun h => hl h.2)]
        exact ⟨h1, h2.trans (hclose _), fun _ h => absurd h h0⟩

/-! ### A change of the period is armed -/

theorem getBits_ofNat {n : Nat} (hn : n < 2 ^ 48) : getBits (BitVec.ofNat 64 n) 0 48 = n := by
  simp only [getBits, BitVec.toNat_ofNat, Nat.shiftRight_zero]
  omega

/-- A write where the next period is the one in force cancels the change. -/
theorem State.applyAt_cancel {n : Nat} (hn : n < 2 ^ 48) (h : s.fld R.DRIP_PERIOD_NEXT_US = s.fld R.DRIP_PERIOD_CUR_US) :
    let t := s.applyAt n
    t.fld R.DRIP_APPLY_AT_DRIP_NO = n ∧ t.drip.armed = none ∧
      (s.drip.committed = none → t.fld R.DRIP_STATUS_APPLY_PEND = 0) := by
  have hc : (s.setReg R.DRIP_APPLY_AT (BitVec.ofNat 64 n)).fld R.DRIP_PERIOD_NEXT_US =
      (s.setReg R.DRIP_APPLY_AT (BitVec.ofNat 64 n)).fld R.DRIP_PERIOD_CUR_US := by
    rw [State.setReg_fld_ne _ _ (by decide), State.setReg_fld_ne _ _ (by decide), h]
  dsimp only
  unfold State.applyAt
  dsimp only
  rw [Nat.mod_eq_of_lt hn, if_pos hc]
  refine ⟨?_, rfl, fun hcom => ?_⟩
  · simp (disch := decide) only [State.setFld_fld_ne, State.withDrip_fld]
    exact (State.setReg_fld_same s R.DRIP_APPLY_AT_DRIP_NO _).trans (getBits_ofNat hn)
  · rw [State.setReg_drip, hcom, State.setFld_fld_same _ _ (by decide)]
    rfl

/-- A write where it is another one arms the change, two drips ahead at the least. -/
theorem State.applyAt_arm {n : Nat} (hn : n < 2 ^ 48) (h : s.fld R.DRIP_PERIOD_NEXT_US ≠ s.fld R.DRIP_PERIOD_CUR_US) :
    let t := s.applyAt n
    t.fld R.DRIP_APPLY_AT_DRIP_NO = n ∧ t.fld R.DRIP_STATUS_APPLY_PEND = 1 ∧
      (s.dripNo + 2 ≤ n → t.drip.armed = some n ∧ t.fld R.DRIP_STATUS_APPLY_LATE = s.fld R.DRIP_STATUS_APPLY_LATE) ∧
      (n < s.dripNo + 2 → t.drip.armed = some (s.dripNo + 2) ∧ t.fld R.DRIP_STATUS_APPLY_LATE = 1) := by
  have hc : ¬ (s.setReg R.DRIP_APPLY_AT (BitVec.ofNat 64 n)).fld R.DRIP_PERIOD_NEXT_US =
      (s.setReg R.DRIP_APPLY_AT (BitVec.ofNat 64 n)).fld R.DRIP_PERIOD_CUR_US := by
    rw [State.setReg_fld_ne _ _ (by decide), State.setReg_fld_ne _ _ (by decide)]
    exact h
  have hno : (s.setReg R.DRIP_APPLY_AT (BitVec.ofNat 64 n)).dripNo = s.dripNo := State.setReg_fld_ne _ _ (by decide)
  have hat : (s.setReg R.DRIP_APPLY_AT (BitVec.ofNat 64 n)).fld R.DRIP_APPLY_AT_DRIP_NO = n :=
    (State.setReg_fld_same s R.DRIP_APPLY_AT_DRIP_NO _).trans (getBits_ofNat hn)
  dsimp only
  unfold State.applyAt
  dsimp only
  rw [Nat.mod_eq_of_lt hn, if_neg hc, hno]
  by_cases hl : n < s.dripNo + 2
  · have hno' : ((s.setReg R.DRIP_APPLY_AT (BitVec.ofNat 64 n)).setFld R.DRIP_STATUS_APPLY_LATE 1).dripNo = s.dripNo :=
      (State.setFld_fld_ne _ 1 (by decide) (by decide)).trans hno
    simp only [decide_eq_true hl, if_true, hno']
    refine ⟨?_, ?_, fun hge => absurd hl (Nat.not_lt.2 hge), fun _ => ⟨rfl, ?_⟩⟩
    · simp (disch := decide) only [State.setFld_fld_ne, State.withDrip_fld]
      exact hat
    · simp (disch := decide) only [State.setFld_fld_same]
      rfl
    · simp (disch := decide) only [State.setFld_fld_ne, State.setFld_fld_same, State.withDrip_fld]
      rfl
  · simp only [decide_eq_false hl, if_false, Bool.false_eq_true]
    refine ⟨?_, ?_, fun _ => ⟨rfl, ?_⟩, fun hlt => absurd hlt hl⟩
    · simp (disch := decide) only [State.setFld_fld_ne, State.withDrip_fld]
      exact hat
    · simp (disch := decide) only [State.setFld_fld_same]
      rfl
    · simp (disch := decide) only [State.setFld_fld_ne, State.withDrip_fld, State.setReg_fld_ne]

end

end Sys2Proof.Machine
end

section
/-! SUPPORT. What a bring-up and a module compute reset leave of the registers that set the drip's schedule. -/

namespace Sys2Proof.Machine

/-! ## What a module reset leaves of the spine

The end of tasks, of site resets and of the runtimes (chapters 3, 6, 7, 11 and 12), the drop of jobs and the loss of the
compute die change nothing of the registers and of the state that set the drip's schedule, nor the step of bring-up. -/

/-- What those actions have to leave alone: three registers of the DRIP block, the step of bring-up, the state of the module,
whether the schedule runs, and a removal under way. -/
structure Spine where
  ctrl : Word
  period : Word
  number : Word
  step : Nat
  mode : ModState
  running : Bool
  removal : Nat

/-- The spine of a state. -/
def State.spine (s : State) : Spine :=
  ⟨s.reg R.DRIP_CTRL, s.reg R.DRIP_PERIOD, s.reg R.DRIP_NUMBER, s.fld R.BRG_STATUS_STEP, s.mode, s.drip.running,
    s.pwr.removal⟩

/-- The registers of the spine. -/
def spineRegs : List Nat := [R.DRIP_CTRL, R.DRIP_PERIOD, R.DRIP_NUMBER, R.BRG_STATUS]

/-- A state has this spine. -/
def Spine.Of (p : Spine) (s : State) : Prop := s.spine = p

namespace Spine.Of

variable {p : Spine} {s t : State}

/-- What a spine says of its state. -/
theorem ctrl_eq (h : p.Of s) : s.reg R.DRIP_CTRL = p.ctrl := congrArg Spine.ctrl (show s.spine = p from h)
theorem period_eq (h : p.Of s) : s.reg R.DRIP_PERIOD = p.period := congrArg Spine.period (show s.spine = p from h)
theorem number_eq (h : p.Of s) : s.reg R.DRIP_NUMBER = p.number := congrArg Spine.number (show s.spine = p from h)
theorem step_eq (h : p.Of s) : s.fld R.BRG_STATUS_STEP = p.step := congrArg Spine.step (show s.spine = p from h)
theorem mode_eq (h : p.Of s) : s.mode = p.mode := congrArg Spine.mode (show s.spine = p from h)
theorem running_eq (h : p.Of s) : s.drip.running = p.running := congrArg Spine.running (show s.spine = p from h)
theorem removal_eq (h : p.Of s) : s.pwr.removal = p.removal := congrArg Spine.removal (show s.spine = p from h)

/-- A state with the same registers in the spine has the same one. -/
theorem regs (h : p.Of s) (hr : ∀ a, a ∈ spineRegs → t.reg a = s.reg a) (hm : t.mode = s.mode)
    (hd : t.drip.running = s.drip.running) (hp : t.pwr = s.pwr) : p.Of t := by
  have hs : t.fld R.BRG_STATUS_STEP = s.fld R.BRG_STATUS_STEP := by
    rw [State.fld, State.fld, hr R.BRG_STATUS_STEP.addr (by decide)]
  rw [Spine.Of, State.spine, hr _ (by decide), hr _ (by decide), hr _ (by decide), hs, hm, hd, hp]
  exact h

/-- An update of another part of the state. -/
theorem part (h : p.Of s) (hc : t.csr = s.csr) (hm : t.mode = s.mode)
    (hd : t.drip.running = s.drip.running) (hp : t.pwr = s.pwr) : p.Of t :=
  h.regs (fun _ _ => by rw [State.reg, State.reg, hc]) hm hd hp

theorem setReg_at (h : p.Of s) {a : Nat} (w : Word) (ha : a ∉ spineRegs) : p.Of (s.setReg a w) :=
  h.regs (fun _ hb => State.setReg_reg_ne s w (fun e => ha (e ▸ hb))) rfl rfl rfl

theorem setFld_at (h : p.Of s) {f : Fld} (n : Nat) (hf : f.addr ∉ spineRegs) : p.Of (s.setFld f n) :=
  h.setReg_at _ hf

/-- The registers of the sites, and most others, lie above those of the spine. -/
theorem above {a : Nat} (ha : 0x200000100008 < a) : a ∉ spineRegs := by
  intro hm
  have hle : ∀ b, b ∈ spineRegs → b ≤ 0x200000100008 := by decide
  exact absurd (hle a hm) (Nat.not_le.2 ha)

/-- The registers of a map with one or more indices: above the spine with their base. -/
theorem above2 {b c d : Nat} (h : Nat.ble 0x200000100009 b = true) : 0x200000100008 < b + c + d :=
  Nat.lt_add_right _ (Nat.lt_add_right _ (Nat.le_of_ble_eq_true h))
theorem above3 {b c d e : Nat} (h : Nat.ble 0x200000100009 b = true) : 0x200000100008 < b + c + d + e :=
  Nat.lt_add_right _ (above2 h)
theorem above4 {b c d e f : Nat} (h : Nat.ble 0x200000100009 b = true) : 0x200000100008 < b + c + d + e + f :=
  Nat.lt_add_right _ (above3 h)
theorem above5 {b c d e f g : Nat} (h : Nat.ble 0x200000100009 b = true) : 0x200000100008 < b + c + d + e + f + g :=
  Nat.lt_add_right _ (above4 h)

section above

theorem setReg (h : p.Of s) {a : Nat} (w : Word) (ha : 0x200000100008 < a) :
    p.Of (s.setReg a w) := h.setReg_at w (above ha)

variable {f : Fld}

theorem setFld (h : p.Of s) (n : Nat) (hf : 0x200000100008 < f.addr) :
    p.Of (s.setFld f n) := h.setReg _ hf

theorem addFld (h : p.Of s) (n : Nat) (hf : 0x200000100008 < f.addr) :
    p.Of (s.addFld f n) := h.setReg _ hf

theorem bumpFld (h : p.Of s) (n : Nat) (hf : 0x200000100008 < f.addr) :
    p.Of (s.bumpFld f n) := h.setReg _ hf

theorem clearRange (h : p.Of s) {lo : Nat} (hi : Nat)
    (ha : 0x200000100008 < lo) : p.Of (s.clearRange lo hi) := by
  refine h.regs (fun a hm => State.clearRange_reg s (.inl ?_)) rfl rfl rfl
  have hle : ∀ b, b ∈ spineRegs → b ≤ 0x200000100008 := by decide
  exact Nat.lt_of_le_of_lt (hle a hm) ha

theorem clearRegs : ∀ (l : List Nat) {s : State}, p.Of s → (∀ a, a ∈ l → 0x200000100008 < a) → p.Of (s.clearRegs l)
  | [], _, h, _ => h
  | a :: l, _, h, ha => clearRegs l (h.setReg _ (ha a (List.mem_cons_self ..))) fun b hb => ha b (List.mem_cons_of_mem _ hb)

end above

theorem raise (h : p.Of s) (r : ErrRec) : p.Of (s.raise r) := by
  have hr := RecOnly.raise s r
  have hm : ∀ a, a ∈ spineRegs → a ∉ recordRegs := by decide
  refine h.regs (fun a ha => hr.regs a (hm a ha)) hr.mode (by rw [hr.drip]) ?_
  rw [hr.rest]

theorem ite {c : Prop} [Decidable c] (hs : p.Of s) (ht : p.Of t) : p.Of (if c then s else t) := by
  split
  · exact hs
  · exact ht

theorem foldl_mem {α : Type} {f : State → α → State} : ∀ (l : List α) {s : State},
    (∀ u x, x ∈ l → p.Of u → p.Of (f u x)) → p.Of s → p.Of (l.foldl f s)
  | [], _, _, h => h
  | x :: l, _, hf, h => foldl_mem l (fun u y hy => hf u y (List.mem_cons_of_mem _ hy)) (hf _ x (List.mem_cons_self ..) h)

theorem foldl {α : Type} {f : State → α → State} (l : List α) (hf : ∀ u x, p.Of u → p.Of (f u x)) (h : p.Of s) :
    p.Of (l.foldl f s) := foldl_mem l (fun u x _ => hf u x) h

/-! ### Updates of other parts of the state -/

theorem withFr (h : p.Of s) (x : FrSt) : p.Of (s.withFr x) := h.part rfl rfl rfl rfl
theorem withBoot (h : p.Of s) (x : BootSt) : p.Of (s.withBoot x) := h.part rfl rfl rfl rfl
theorem withSec (h : p.Of s) (x : SecSt) : p.Of (s.withSec x) := h.part rfl rfl rfl rfl
theorem withHost (h : p.Of s) (x : HostSt) : p.Of (s.withHost x) := h.part rfl rfl rfl rfl
theorem withSv (h : p.Of s) (x : SvSt) : p.Of (s.withSv x) := h.part rfl rfl rfl rfl
theorem withTst (h : p.Of s) (x : TstSt) : p.Of (s.withTst x) := h.part rfl rfl rfl rfl
theorem withPorts (h : p.Of s) (x : SMap PortSt) : p.Of (s.withPorts x) := h.part rfl rfl rfl rfl
theorem withCtxs (h : p.Of s) (x : SMap Ctx) : p.Of (s.withCtxs x) := h.part rfl rfl rfl rfl
theorem withForce (h : p.Of s) (x : SMap Budget) : p.Of (s.withForce x) := h.part rfl rfl rfl rfl
theorem withGpoison (h : p.Of s) (x : SMap Nat) : p.Of (s.withGpoison x) := h.part rfl rfl rfl rfl
theorem withPoison (h : p.Of s) (x : SMap Nat) : p.Of (s.withPoison x) := h.part rfl rfl rfl rfl
theorem withNet (h : p.Of s) (x : List Rec) : p.Of (s.withNet x) := h.part rfl rfl rfl rfl
theorem withUnans (h : p.Of s) (x : SMap (List Unans)) : p.Of (s.withUnans x) := h.part rfl rfl rfl rfl
theorem withMem (h : p.Of s) (x : List Host.Cell) : p.Of (s.withMem x) := h.part rfl rfl rfl rfl
theorem setRt (h : p.Of s) (k : Nat) (x : RtSt) : p.Of (s.setRt k x) := h.part rfl rfl rfl rfl
theorem setDir (h : p.Of s) (k : Nat) (x : DirSt) : p.Of (s.setDir k x) := h.part rfl rfl rfl rfl
theorem setCtx (h : p.Of s) (k : Nat) (x : Ctx) : p.Of (s.setCtx k x) := h.part rfl rfl rfl rfl
theorem setCore (h : p.Of s) (k : Nat) (x : CoreSt) : p.Of (s.setCore k x) := h.part rfl rfl rfl rfl
theorem setTask (h : p.Of s) (k : Nat) (x : TaskSt) : p.Of (s.setTask k x) := h.part rfl rfl rfl rfl
theorem setBud (h : p.Of s) (k : Nat) (x : Budget) : p.Of (s.setBud k x) := h.part rfl rfl rfl rfl
theorem setGm (h : p.Of s) (k : Nat) (x : GmSt) : p.Of (s.setGm k x) := h.part rfl rfl rfl rfl
theorem setMxe (h : p.Of s) (k : Nat) (x : MxeSt) : p.Of (s.setMxe k x) := h.part rfl rfl rfl rfl
theorem setCur (h : p.Of s) (k : Nat) (x : CurSt) : p.Of (s.setCur k x) := h.part rfl rfl rfl rfl
theorem setTfe (h : p.Of s) (k : Nat) (x : TfeSt) : p.Of (s.setTfe k x) := h.part rfl rfl rfl rfl
theorem setUna (h : p.Of s) (k : Nat) (x : List Unans) : p.Of (s.setUna k x) := h.part rfl rfl rfl rfl
theorem setCq (h : p.Of s) (k : Nat) (x : List CqRec) : p.Of (s.setCq k x) := h.part rfl rfl rfl rfl
theorem setRing (h : p.Of s) (k : Nat) (x : RingSt) : p.Of (s.setRing k x) := h.part rfl rfl rfl rfl
theorem setRtr (h : p.Of s) (k : Nat) (x : RtrSt) : p.Of (s.setRtr k x) := h.part rfl rfl rfl rfl
theorem setGr (h : p.Of s) (k : Nat) (x : GReset) : p.Of (s.setGr k x) := h.part rfl rfl rfl rfl

/-! ### Output, records and vectors -/

theorem emit (h : p.Of s) (o : Out) : p.Of (s.emit o) := h.part rfl rfl rfl rfl

theorem wrBytes (bs : List Byte) : ∀ {s : State} (k : Nat), p.Of s → p.Of (s.wrBytes k bs) := by
  induction bs with
  | nil => exact fun _ h => h
  | cons b bs ih => exact fun k h => ih (k + 1) (h.withMem _)

theorem fireVector (h : p.Of s) (v coal : Nat) : p.Of (s.fireVector v coal) := by
  unfold State.fireVector
  exact .ite (.ite (h.emit _) (h.withHost _)) (.ite (h.withHost _) h)

theorem ce (h : p.Of s) (src : Nat) : p.Of (s.ce src) := h.raise _
theorem ceAt (h : p.Of s) (src site : Nat) : p.Of (s.ceAt src site) := h.raise _
theorem ce6 (h : p.Of s) (site code : Nat) (bs : List Byte) : p.Of (s.ce6 site code bs) := h.raise _
theorem engRec (h : p.Of s) (cls site e code : Nat) : p.Of (s.engRec cls site e code) := h.raise _
theorem reject (h : p.Of s) : p.Of s.reject := h.ce 15

/-! ### The completion of commands -/

theorem HQ3_ne (q : Nat) : R.HQ3 q ∉ spineRegs := by
  simp only [spineRegs, R.HQ3, R.DRIP_CTRL, R.DRIP_PERIOD, R.DRIP_NUMBER, R.BRG_STATUS, List.mem_cons, List.not_mem_nil,
    or_false]
  omega

theorem hqEnd (h : p.Of s) (c : Cmd) (status detail : Nat) : p.Of (s.hqEnd c status detail) := by
  unfold State.hqEnd
  have h1 := h.setFld_at (f := R.HQ3_INFLIGHT c.queue) (s.fld (R.HQ3_INFLIGHT c.queue) - 1) (HQ3_ne _)
  refine .ite h1 (fireVector ?_ _ _)
  exact (h1.wrBytes _ _).setFld_at _ (HQ3_ne _)

theorem cmdEnd (h : p.Of s) (c : Cmd) (status detail : Nat) : p.Of (s.cmdEnd c status detail) := by
  unfold State.cmdEnd
  refine .ite (h.withHost _) (.ite (.ite (h.setFld_at _ (HQ3_ne _)) (h.hqEnd ..)) (.ite h ?_))
  split
  · exact h.emit _
  · exact h

theorem flushQuiet (h : p.Of s) : p.Of s.flushQuiet := .foldl _ (fun _ _ hu => hu.cmdEnd ..) (h.withHost _)

/-! ### Runtimes -/

theorem movesOff (h : p.Of s) (lg : Nat) : p.Of (s.movesOff lg) := by
  unfold State.movesOff
  split
  · exact h.setTfe ..
  · exact h

theorem rtAbort (h : p.Of s) (lg status : Nat) : p.Of (s.rtAbort lg status) :=
  .foldl _ (fun _ _ hu => hu.cmdEnd ..) ((h.movesOff lg).setRt ..)

theorem rtReset (h : p.Of s) (lg : Nat) : p.Of (s.rtReset lg) :=
  setDir (setRt (foldl _ (fun _ _ hu => hu.cmdEnd ..) (((h.rtAbort lg 10).withSv _).withTst _)) ..) ..

theorem rtLost (h : p.Of s) (site : Nat) : p.Of (s.rtLost site) := by
  unfold State.rtLost
  split
  · exact h.rtAbort ..
  · exact h

theorem rtResets (h : p.Of s) : p.Of s.rtResets := .foldl _ (fun _ _ hu => hu.rtReset _) h

/-! ### Claims and engines -/

theorem retire (h : p.Of s) (site e : Nat) (err : Bool) : p.Of (s.retire site e err) := (h.setReg _ (above3 rfl)).withCtxs _

theorem retireIf (h : p.Of s) (site : Nat) (err : Bool) (f : Nat → Word → Bool) : p.Of (s.retireIf site err f) :=
  .foldl _ (fun _ _ hu => hu.retire ..) h

theorem retireOp (h : p.Of s) (site op : Nat) (err : Bool) : p.Of (s.retireOp site op err) := h.retireIf ..

theorem curDrop (h : p.Of s) (site op : Nat) (cut : Bool) : p.Of (s.curDrop site op cut) :=
  setCur (ite (h.addFld (f := R.CUR_ITEM_CNT_EPILOGUES site) 1 (above2 rfl)) h) ..

theorem mxeDrop (h : p.Of s) (site j op : Nat) : p.Of (s.mxeDrop site j op) := h.setMxe ..

theorem lastTile (h : p.Of s) (site j status task : Nat) : p.Of (s.lastTile site j status task) :=
  (h.setFld _ (above3 rfl)).setFld _ (above3 rfl)

theorem tileErr (h : p.Of s) (site j : Nat) (x : Tile) (status : Nat) : p.Of (s.tileErr site j x status) := by
  unfold State.tileErr
  have h1 : p.Of (if status = 7 then s else s.engRec UETASK site j status) := .ite h (h.engRec ..)
  exact (((((ite (h1.setFld _ (above3 rfl)) h1).mxeDrop ..).curDrop ..).retireOp ..).lastTile ..).addFld _ (above3 rfl)

theorem tilesKill (h : p.Of s) (site j task : Nat) : p.Of (s.tilesKill site j task) :=
  .foldl _ (fun _ _ hu => hu.tileErr ..) h

theorem giveFlags (h : p.Of s) (site c gen fl : Nat) : p.Of (s.giveFlags site c gen fl) := .ite h (h.setCtx ..)

/-! ### Messages -/

theorem cqRelease (h : p.Of s) (site task : Nat) : p.Of (s.cqRelease site task) := h.setFld _ (above3 rfl)

theorem cplDrop (h : p.Of s) (site task op thread : Nat) : p.Of (s.cplDrop site task op thread) := by
  unfold State.cplDrop
  refine .ite (h.cqRelease ..) ?_
  split
  · exact h
  · exact h.setUna ..

theorem cqAdvance (h : p.Of s) (site task : Nat) : p.Of (s.cqAdvance site task) := (h.setCq ..).bumpFld _ (above3 rfl)

theorem mxeSees (h : p.Of s) (site j lo n : Nat) : p.Of (s.mxeSees site j lo n) := by
  unfold State.mxeSees
  have h1 : ∀ (c : Bool) x, p.Of (if c then s.setMxe (2 * site + j) x else s) := fun _ _ => .ite (h.setMxe ..) h
  dsimp only
  generalize (s.mxe (2 * site + j)).actBuf = buf
  split
  · cases buf with
    | none => exact .ite (h.setFld _ (above2 rfl)) h
    | some b => exact .ite ((h1 ..).setFld _ (above2 rfl)) (h1 ..)
  · cases buf with
    | none => exact h
    | some b => exact h1 ..

theorem wrGal (h : p.Of s) (site off : Nat) (bs : List Byte) : p.Of (s.wrGal site off bs) :=
  (wrBytes bs _ ((h.mxeSees ..).mxeSees ..)).withGpoison _

theorem nack (h : p.Of s) (site : Nat) (g : Gate) : p.Of (s.nack site g) := by
  cases g with
  | closed => exact h.addFld _ (above2 rfl)
  | scrubbing => exact h.addFld _ (above2 rfl)
  | _ => exact h

theorem cqWrite (h : p.Of s) (site task : Nat) (reserved : Bool) (r : Rec) : p.Of (s.cqWrite site task reserved r) := by
  unfold State.cqWrite
  refine .ite (h.ce6 ..) ?_
  have h1 : p.Of ((if reserved then s.cqRelease site task else s).bumpFld (R.MU_CQ1_WR site task) 1) :=
    (ite (h.cqRelease ..) h).bumpFld _ (above3 rfl)
  have put : ∀ {u : State} (x : CqRec), p.Of u →
      p.Of ((u.setCq (site * 64 + task) (u.cq (site * 64 + task) ++ [x])).cqAdvance site task) :=
    fun x hu => (hu.setCq ..).cqAdvance ..
  dsimp only
  split
  · exact (put _ h1).ce6 ..
  · split
    · exact put _ ((h1.wrGal ..).addFld _ (above2 rfl))
    · exact (put _ (h1.nack ..)).ce6 ..

theorem descEnd (h : p.Of s) (site op status : Nat) : p.Of (s.descEnd site op status) := h.setTfe ..

theorem unaEnd (h : p.Of s) (site l : Nat) (u : Unans) (status : Nat) : p.Of (s.unaEnd site l u status) := by
  unfold State.unaEnd
  refine .ite h ?_
  split
  · exact h.descEnd ..
  · exact .ite h (.ite (h.cqWrite ..) (.ite (h.cqRelease ..) (h.cqWrite ..)))

theorem lineStuck (h : p.Of s) (site l status : Nat) : p.Of (s.lineStuck site l status) :=
  .foldl _ (fun _ _ hu => hu.unaEnd ..) (((h.setUna ..).setFld _ (above3 rfl)).ce6 ..)

theorem lineAnswer (h : p.Of s) (site l seq status : Nat) : p.Of (s.lineAnswer site l seq status) := by
  unfold State.lineAnswer
  dsimp only
  split
  · exact h
  · next u _ =>
    have h1 := (h.setUna (site * 1024 + l) ((s.una (site * 1024 + l)).erase u)).unaEnd site l u status
    exact .ite ((h1.setFld _ (above3 rfl)).bumpFld _ (above3 rfl)) (.ite (h1.lineStuck ..) h1)

theorem RTR_DROP_CNT_ne (node : Nat) : R.RTR_DROP_CNT (rtrBase node) ∉ spineRegs := by
  have hb : ∀ b, b % 0x10 = 0 ∧ 0x200000000000 ≤ b → b + 0x10 ∉ spineRegs := by
    intro b h0
    simp only [spineRegs, R.DRIP_CTRL, R.DRIP_PERIOD, R.DRIP_NUMBER, R.BRG_STATUS, List.mem_cons, List.not_mem_nil, or_false]
    omega
  refine hb _ ?_
  unfold rtrBase siteFrame
  split <;> omega

theorem linePush (h : p.Of s) (site l : Nat) (r : Rec) (u : Unans) : p.Of (s.linePush site l r u) := by
  unfold State.linePush
  extract_lets seq wr ggen dsite r' s1 s2 s3 s4
  have h1 : p.Of s1 := (h.bumpFld _ (above3 rfl)).bumpFld _ (above3 rfl)
  have h3 : p.Of s3 := (h1.setUna ..).addFld _ (above2 rfl)
  refine .ite (((h3.withFr _).lineAnswer ..).bumpFld _ (above3 rfl)) ?_
  clear_value dsite
  split
  · exact (h3.setFld_at _ (RTR_DROP_CNT_ne _)).lineAnswer ..
  · exact (h3.setRtr ..).withNet _

theorem lineSend (h : p.Of s) (site l n : Nat) (r : Rec) (u : Unans) : p.Of (s.lineSend site l n r u).1 :=
  linePush (ite h (h.linePush ..)) ..

theorem cplSend (h : p.Of s) (site task op c cls thread tag status info : Nat) (bs : List Byte) :
    p.Of (s.cplSend site task op c cls thread tag status info bs) := by
  unfold State.cplSend
  refine .ite (h.cqWrite ..) ?_
  split
  · exact h
  · dsimp only
    split
    · exact h
    · exact .ite (h.setUna ..) (lineSend (h.setUna ..) ..)

/-! ### The end of a task -/

theorem runEnd (h : p.Of s) (site : Nat) (r : CRun) (status rows flags : Nat) (cut : Bool) :
    p.Of (s.runEnd site r status rows flags cut) := by
  have h1 := giveFlags (((h.curDrop site r.op cut).retireOp site r.op (status != 0)).addFld
    (f := R.CUR_ITEM_CNT_RUNS site) 1 (above2 rfl)) site r.ctx r.coreGen flags
  unfold State.runEnd
  dsimp only
  split
  · exact h1
  · exact .ite (h1.cplDrop ..) (h1.cplSend ..)

theorem tfeDrop (h : p.Of s) (site op : Nat) : p.Of (s.tfeDrop site op) := h.setTfe ..

theorem combineEnd (h : p.Of s) (site : Nat) (c : Combine) (status flags : Nat) (cut : Bool) :
    p.Of (s.combineEnd site c status flags cut) := by
  have h1 := giveFlags (((h.tfeDrop site c.op).curDrop site c.op cut).retireOp site c.op (decide (5 ≤ status)))
    site c.ctx c.coreGen flags
  unfold State.combineEnd
  dsimp only
  split
  · exact h1
  · exact .ite (h1.cplDrop ..) (h1.cplSend ..)

theorem descKill (h : p.Of s) (site : Nat) (d : Desc) : p.Of (s.descKill site d) := by
  have h1 := ((((h.tfeDrop site d.op).retireOp site d.op true).addFld (f := R.TFE_ERR_CNT_COUNT site) 1 (above2 rfl)).setFld
    (f := R.TFE_STATUS_LAST_STATUS site) 13 (above2 rfl)).setFld (f := R.TFE_STATUS_LAST_TASK site) d.task (above2 rfl)
  exact .ite (h1.cplDrop ..) h1

theorem killOps (h : p.Of s) (site task : Nat) : p.Of (s.killOps site task) :=
  foldl _ (fun _ _ hu => hu.descKill ..) (foldl _ (fun _ _ hu => hu.combineEnd ..) (foldl _ (fun _ _ hu => hu.runEnd ..)
    ((h.tilesKill ..).tilesKill ..)))

theorem dropHand (h : p.Of s) (site r : Nat) : p.Of (s.dropHand site r) := h.withCtxs _

theorem ringInvalid (h : p.Of s) (site r : Nat) : p.Of (s.ringInvalid site r) :=
  .ite h ((((h.dropHand ..).setFld _ (above3 rfl)).bumpFld _ (above3 rfl)).setRing ..)

theorem putLost (h : p.Of s) (site op : Nat) : p.Of (s.putLost site op) := (h.descEnd site op 7).setTfe ..

theorem lineInvalid (h : p.Of s) (site l : Nat) : p.Of (s.lineInvalid site l) := by
  unfold State.lineInvalid
  refine .ite h (ce6 (bumpFld (setFld (setFld (setUna (foldl _ ?_ h) ..) _ (above3 rfl)) _ (above3 rfl)) _ (above3 rfl)) ..)
  intro v u hv
  split
  · exact .ite hv ((hv.putLost ..).cqRelease ..)
  · exact .ite (hv.cqRelease ..) hv

theorem cqInvalid (h : p.Of s) (site task : Nat) : p.Of (s.cqInvalid site task) :=
  ((h.dropHand ..).setFld _ (above3 rfl)).setCq ..

theorem muEndTask (h : p.Of s) (site task : Nat) : p.Of (s.muEndTask site task) :=
  cqInvalid (foldl _ (fun _ _ hu => hu.lineInvalid ..) (foldl _ (fun _ _ hu => hu.ringInvalid ..) h)) ..

theorem freeCtx (h : p.Of s) (k : Nat) : p.Of (s.freeCtx k) := h.setCtx ..

theorem clearSlot (h : p.Of s) (site core slot : Nat) : p.Of (s.clearSlot site core slot) := h.clearRange _ (above5 rfl)

theorem clearEntry (h : p.Of s) (site task : Nat) : p.Of (s.clearEntry (taskM site task)) :=
  ((h.clearRange _ (above4 rfl)).withForce _).setFld _ (above5 rfl)

theorem endTask (h : p.Of s) (site task : Nat) : p.Of (s.endTask site task) := by
  have h1 : p.Of (if task = 0 then s.rtLost site else s) := .ite (h.rtLost _) h
  have h2 := ((h1.killOps site task).retireIf site true (fun _ w => getBits w 54 6 == task)).muEndTask site task
  have h3 := foldl (s.ctxsOf site task) (fun _ k hu => freeCtx hu k) h2
  have h4 := foldl (s.slotsOf site task) (fun _ q hu => clearSlot hu site q.1 q.2) h3
  have h5 := foldl (s.blocksOf site task) (fun _ b hu => setReg (a := R.CTXBLK site b) hu 0 (above3 rfl)) h4
  exact clearEntry (h5.setTask ..) ..

end Spine.Of

namespace Spine.Of

variable {p : Spine} {s t : State}

/-! ### The reset of a site (chapter 3) -/

theorem bootUnitClear (h : p.Of s) (site : Nat) : p.Of (s.bootUnitClear site) := by
  unfold State.bootUnitClear
  split
  · exact (h.withBoot _).setFld _ (above2 rfl)
  · exact h

theorem portKill (h : p.Of s) (f : Wr → Bool) : p.Of (s.portKill f) := h.withPorts _

theorem galStart (h : p.Of s) (site : Nat) (rec : Bool) : p.Of (s.galStart site rec) := by
  unfold State.galStart
  have h1 := h.setFld (f := R.GAL_STATUS_STATE site) 1 (above2 rfl)
  refine setGr (ite (ceAt (foldl _ (fun _ _ hu => hu.endTask ..) ?_) ..) (foldl _ (fun _ _ hu => hu.endTask ..) ?_)) ..
  all_goals
    split
    · exact ((ite (h1.bootUnitClear _) h1).portKill _).rtReset _
    · exact (ite (h1.bootUnitClear _) h1).portKill _

theorem freeCore (h : p.Of s) (site core : Nat) : p.Of (s.freeCore site core) :=
  .foldl _ (fun _ _ hu => .ite hu (hu.freeCtx _)) h

theorem coreDone (h : p.Of s) (site core : Nat) : p.Of (s.coreDone site core) := by
  refine setFld (bumpFld (clearRegs _ (h.freeCore ..) ?_) _ (above3 rfl)) _ (above3 rfl)
  simp only [List.forall_mem_cons, List.not_mem_nil, false_imp_iff, implies_true, and_true]
  exact ⟨above3 rfl, above3 rfl, above3 rfl⟩

theorem coresClear (h : p.Of s) (site : Nat) : p.Of (s.coresClear site) :=
  .foldl _ (fun _ _ hu => (hu.setCore ..).coreDone ..) h

theorem resetMaster (h : p.Of s) (site i gen : Nat) : p.Of (s.resetMaster (taskM site i) gen) := by
  unfold State.resetMaster
  have h1 := h.setBud (taskM site i) { s.bud (taskM site i) with frozeNow := false, govHold := false }
  exact ((((((((h1.setFld _ (above5 rfl)).setFld _ (above5 rfl)).setFld _ (above5 rfl)).setFld _ (above5 rfl)).setFld _
    (above5 rfl)).setFld _ (above5 rfl)).setFld _ (above5 rfl)).setFld _ (above5 rfl)).setFld _ (above5 rfl)

theorem boardClear (h : p.Of s) (site : Nat) : p.Of (s.boardClear site) :=
  (((h.clearRange _ (above3 rfl)).setGm ..).clearRange _ (above5 rfl)).clearRange _ (above3 rfl)

theorem arbReset (h : p.Of s) (site j : Nat) : p.Of (s.arbReset site j) := by
  unfold State.arbReset
  split
  · exact (((h.withTst _).setFld _ (above2 rfl)).setFld _ (above2 rfl)).setFld _ (above3 rfl)
  · exact h

theorem mxeClear (h : p.Of s) (site j : Nat) : p.Of (s.mxeClear site j) := by
  refine clearRegs _ ((h.arbReset ..).setMxe ..) ?_
  simp only [List.forall_mem_cons, List.not_mem_nil, false_imp_iff, implies_true, and_true]
  exact ⟨above3 rfl, above3 rfl, above3 rfl, above3 rfl, above3 rfl, above3 rfl⟩

theorem curClear (h : p.Of s) (site : Nat) : p.Of (s.curClear site) := by
  refine setFld (clearRegs _ (h.setCur ..) ?_) _ (above2 rfl)
  simp only [List.forall_mem_cons, List.not_mem_nil, false_imp_iff, implies_true, and_true]
  exact ⟨above2 rfl, above2 rfl, above2 rfl, above2 rfl, above2 rfl, above2 rfl⟩

theorem muReset (h : p.Of s) (site : Nat) : p.Of (s.muReset site) := by
  have h1 := foldl (s.validWords (R.MU_RING0 site 0) 16 1024 (fun _ => true)) (fun _ r hu => ringInvalid hu site r) h
  refine clearRegs _ (foldl _ (fun _ _ hu => hu.cqInvalid ..) (foldl _ (fun _ _ hu => hu.lineInvalid ..) h1)) ?_
  simp only [List.forall_mem_cons, List.not_mem_nil, false_imp_iff, implies_true, and_true]
  exact ⟨above2 rfl, above2 rfl, above2 rfl⟩

theorem galDrained (h : p.Of s) (site : Nat) : p.Of (s.galDrained site) := by
  unfold State.galDrained
  have h1 := (h.coresClear site).bumpFld (f := R.GAL_STATUS_GEN site) 1 (above2 rfl)
  refine withUnans (clearRegs _ (setTfe (muReset (mxeClear (mxeClear (curClear (boardClear
    (foldl _ (fun _ _ hu => hu.resetMaster ..) h1) _) _) ..) ..) _) ..) ?_) _
  simp only [List.forall_mem_cons, List.not_mem_nil, false_imp_iff, implies_true, and_true]
  exact ⟨above2 rfl, above2 rfl, above2 rfl, above2 rfl, above2 rfl, above2 rfl, above2 rfl⟩

theorem mcrGals (h : p.Of s) : p.Of s.mcrGals :=
  .foldl _ (fun _ _ hu => setFld (setFld (setGr (galDrained (ite hu (hu.galStart ..)) _) ..) _ (above2 rfl)) _ (above2 rfl)) h

theorem handOver (h : p.Of s) (site : Nat) : p.Of (s.handOver site) := by
  have h1 := (h.setFld (f := R.GM_SCRUB_VERIFY_FAIL site) 0 (above2 rfl)).setFld (f := R.GM_SCRUB_STATE site) 1 (above2 rfl)
  exact .ite ((h1.setFld _ (above2 rfl)).setFld _ (above2 rfl)) h1

/-! ### Jobs, chamber resets and the compute die -/

theorem echoEnd (h : p.Of s) (result : Nat) : p.Of (s.echoEnd result) := by
  unfold State.echoEnd
  split
  · exact h
  · next e _ =>
    have h1 := (((h.withFr { s.fr with echo := none }).setFld_at (f := R.FR_ECHO_STATUS_STATE) 3 (by decide)).setFld_at
      (f := R.FR_ECHO_STATUS_RESULT) result (by decide)).setFld_at (f := R.FR_ECHO_STATUS_DRIP)
    exact ((((((h1 _ (by decide)).raise _).galStart e.site false).galDrained e.site).setGr ..).handOver _)

theorem dropJobs (h : p.Of s) : p.Of s.dropJobs :=
  withTst (ite ((h.echoEnd 3).setFld_at _ (by decide)) (h.echoEnd 3)) _

theorem syncCond (h : p.Of s) : p.Of s.syncCond := .ite h ((h.setFld_at _ (by decide)).raise _)

theorem FR_CHAMBER_ne {c : Nat} (hc : c < 16) : R.FR_CHAMBER c ∉ spineRegs := by
  simp only [spineRegs, R.FR_CHAMBER, R.DRIP_CTRL, R.DRIP_PERIOD, R.DRIP_NUMBER, R.BRG_STATUS, List.mem_cons,
    List.not_mem_nil, or_false]
  omega

theorem dropChResets (h : p.Of s) : p.Of s.dropChResets := by
  refine syncCond (setFld_at (setFld_at (withFr (foldl_mem _ ?_ h) _) _ (by decide)) _ (by decide))
  intro u c hc hu
  have hne := FR_CHAMBER_ne (List.mem_range.1 hc)
  exact .ite (((hu.setFld_at _ hne).setFld_at _ hne).setFld_at _ hne) hu

theorem enter (h : p.Of s) (m : ModState) : Spine.Of { p with mode := m } (s.enter m) := by
  unfold State.enter
  split
  · next hm => rw [Spine.Of, ← hm, ← show s.spine = p from h]; rfl
  · have h1 : Spine.Of { p with mode := m } (s.withMode m) := by rw [Spine.Of, ← show s.spine = p from h]; rfl
    exact (((h1.setFld_at _ (by decide)).setFld_at _ (by decide)).raise _).syncCond

theorem noPlans (h : p.Of s) : p.Of s.noPlans := .ite (h.withFr _).reject (h.withFr _)

end Spine.Of

/-- A filter of a map that keeps every entry of a key leaves what the key reads. -/
theorem SMap.find?_filter {α : Type} {q : Nat × α → Bool} {k : Nat} (hk : ∀ v, q (k, v) = true) :
    ∀ m : SMap α, SMap.find? (m.filter q) k = SMap.find? m k
  | [] => Eq.trans rfl rfl
  | (i, v) :: m => by
    by_cases hi : i = k
    · subst hi; simp [hk, SMap.find?]
    · by_cases hq : q (i, v) = true
      · simp [hq, SMap.find?, hi, SMap.find?_filter hk m]
      · simp [hq, SMap.find?, hi, SMap.find?_filter hk m]

theorem not_spineReg_of_onComputeDie {a : Nat} (h : onComputeDie a = true) : a ∉ spineRegs := by
  intro hm
  have hno : ∀ b, b ∈ spineRegs → onComputeDie b = false := by decide
  rw [hno a hm] at h
  exact Bool.noConfusion h

namespace Spine.Of

variable {p : Spine} {s t : State}

/-! ### The loss of the compute die -/

theorem withCsr_filter (h : p.Of s) {q : Nat × Word → Bool} (hq : ∀ a, a ∈ spineRegs → ∀ w, q (a, w) = true) :
    p.Of (s.withCsr (s.csr.filter q)) :=
  h.regs (fun a ha => congrArg (·.getD (resetOf a)) (SMap.find?_filter (hq a ha) s.csr)) rfl rfl rfl

theorem putRegs (h : p.Of s) {m : SMap Word} (hm : ∀ x, x ∈ m → x.1 ∉ spineRegs) : p.Of (s.putRegs m) :=
  .foldl_mem _ (fun _ x hx hu => hu.setReg_at x.2 (hm x hx)) h

theorem softRemap (h : p.Of s) (e : LogEnt) : p.Of (s.softRemap e) :=
  .ite (h.setReg _ (above3 rfl)) (.ite (h.setReg _ (above3 rfl)) h)

theorem fuseRemaps (h : p.Of s) : p.Of s.fuseRemaps := .foldl _ (fun _ _ hu => hu.softRemap _) h

theorem MS_STATUS_ne {k : Nat} (hk : k < 32) : R.MS_STATUS k ∉ spineRegs := by
  simp only [spineRegs, R.MS_STATUS, R.DRIP_CTRL, R.DRIP_PERIOD, R.DRIP_NUMBER, R.BRG_STATUS, List.mem_cons,
    List.not_mem_nil, or_false]
  omega

theorem computeOff (h : p.Of s) : p.Of s.computeOff := by
  have h1 := h.rtResets.dropJobs.dropChResets.portKill (fun _ => true)
  have h2 := h1.withCsr_filter (q := fun x => !onComputeDie x.1)
    (fun a ha _ => by rw [Bool.not_eq_true']; exact Bool.eq_false_iff.2 fun hc => not_spineReg_of_onComputeDie hc ha)
  have h3 := h2.putRegs (m := ((s.rtResets.dropJobs.dropChResets.portKill (fun _ => true)).flashCsr.filter
    (fun x => onComputeDie x.1))) (fun x hx => not_spineReg_of_onComputeDie (List.mem_filter.1 hx).2)
  unfold State.computeOff
  refine fuseRemaps (setFld_at (setFld_at (setFld_at (foldl_mem _ ?_ ?_) _ (by decide)) _ (by decide)) _ (by decide))
  · exact fun u k hk hu => .ite (hu.setFld_at _ (MS_STATUS_ne (List.mem_range.1 hk))) hu
  · refine part h3 ?_ ?_ ?_ ?_ <;> simp

/-! ### Bring-up that fails: REFUGE, where no removal is under way -/

theorem enterRefuge (h : p.Of s) (hp : p.removal = 0) : Spine.Of { p with mode := .refuge } s.enterRefuge := by
  have h1 := (h.computeOff.noPlans.enter .refuge).flushQuiet
  unfold State.enterRefuge
  rw [if_pos (h1.removal_eq.trans hp)]
  exact h1

theorem actOn (h : p.Of s) (n : Nat) : p.Of (s.actOn n) := h.part rfl rfl rfl rfl

/-- A field of BRG_STATUS that shares no bit with the step. -/
theorem setStatus (h : p.Of s) {lo w : Nat} (n : Nat) (hd : 44 ≤ lo ∨ lo + w ≤ 40) :
    p.Of (s.setFld ⟨R.BRG_STATUS, lo, w⟩ n) := by
  have hs := State.setFld_fld_ne s (f := ⟨R.BRG_STATUS, lo, w⟩) (g := R.BRG_STATUS_STEP) n (by decide) (.inr hd)
  rw [Spine.Of, ← show s.spine = p from h, State.spine, hs,
    State.setFld_reg_ne s n (show R.DRIP_CTRL ≠ R.BRG_STATUS by decide),
    State.setFld_reg_ne s n (show R.DRIP_PERIOD ≠ R.BRG_STATUS by decide),
    State.setFld_reg_ne s n (show R.DRIP_NUMBER ≠ R.BRG_STATUS by decide), State.spine,
    State.setFld_mode, State.setFld_drip, State.setFld_pwr]

/-- The step of bring-up itself. -/
theorem setStep (h : p.Of s) {n : Nat} (hn : n < 16) : Spine.Of { p with step := n } (s.setFld R.BRG_STATUS_STEP n) := by
  have hs := (State.setFld_fld_same s (f := R.BRG_STATUS_STEP) n (by decide)).trans (Nat.mod_eq_of_lt hn)
  have hr : ∀ a, a ≠ R.BRG_STATUS → (s.setFld R.BRG_STATUS_STEP n).reg a = s.reg a := fun a ha =>
    State.setFld_reg_ne s n ha
  rw [Spine.Of, ← show s.spine = p from h, State.spine, hs, hr _ (by decide), hr _ (by decide), hr _ (by decide)]
  rfl

theorem bootFail (h : p.Of s) (hp : p.removal = 0) (code : Nat) : Spine.Of { p with mode := .refuge } (s.bootFail code) :=
  enterRefuge (((setStatus (setStatus h _ (by decide)) _ (by decide)).raise _).actOn 4) hp

/-! ### The choice of a profile, and what it brings -/

theorem selectProfile (h : p.Of s) (cold : Bool) : p.Of (s.selectProfile cold).1 := by
  unfold State.selectProfile
  extract_lets want s1 s2
  have h1 : p.Of s1 := (h.setFld_at _ (by decide)).setFld_at _ (by decide)
  have h2 : p.Of s2 := (h1.setFld_at _ (by decide)).ce 14
  split
  · exact h1.setFld_at (f := R.PROF_STATUS_FALLBACK) _ (by decide)
  · split
    · exact h2
    · exact h2

theorem adopt (h : p.Of s) (prof : Nat) : p.Of (s.adopt prof) := by
  unfold State.adopt
  extract_lets r c f s2 s3 s4 s5 s6 s7
  have h2 : p.Of s2 := (h.withSec _).withFr _
  have h3 : p.Of s3 := ((h2.setFld_at _ (by decide)).setFld_at _ (by decide)).setFld_at _ (by decide)
  have h4 : p.Of s4 := h3.setFld_at _ (by decide)
  have h5 : p.Of s5 := (h4.setStatus _ (by decide)).setFld_at _ (by decide)
  have h6 : p.Of s6 := h5.setFld_at _ (by decide)
  have h7 : p.Of s7 := (h6.setFld_at _ (by decide)).setFld_at _ (by decide)
  exact foldl_mem _ (fun u c hc hu => hu.setFld_at _ (FR_CHAMBER_ne (List.mem_range.1 hc))) h7

theorem MSMAP_REGION_ne {n : Nat} (hn : n < 512) : R.MSMAP_REGION n ∉ spineRegs := by
  simp only [spineRegs, R.MSMAP_REGION, R.DRIP_CTRL, R.DRIP_PERIOD, R.DRIP_NUMBER, R.BRG_STATUS, List.mem_cons,
    List.not_mem_nil, or_false]
  omega

theorem loadRegions (h : p.Of s) : p.Of s.loadRegions :=
  .foldl_mem _ (fun _ _ hn hu => hu.setReg_at _ (MSMAP_REGION_ne (List.mem_range.1 hn))) h

theorem zeroRegion (h : p.Of s) (v : Nat) : p.Of (s.zeroRegion v) :=
  .foldl _ (fun _ _ hu => .ite ((hu.withMem _).withPoison _) hu) h

theorem zeroChanged (h : p.Of s) (old : SMap Word) : p.Of (s.zeroChanged old) :=
  .foldl _ (fun _ _ hu => .ite (hu.zeroRegion _) hu) h

end Spine.Of

end Sys2Proof.Machine
end

section
/-! SUPPORT. The period at a boot, and the writes that the statement of the drip's registers speaks of (R19). -/

namespace Sys2Proof.Machine

/-! ## The period at a boot (R19) -/

theorem prPeriod_lt (r : List Byte) : prPeriod r < 2 ^ 16 := by
  have hlen : ((r.drop 0x10).take 2).length ≤ 2 := by
    rw [List.length_take]
    exact Nat.min_le_left ..
  exact Nat.lt_of_lt_of_le (leNat_lt _) (Nat.pow_le_pow_right (by decide) hlen)

section
variable {p : Spine} {s u : State}

/-- What a bring-up that starts again makes of the period: a profile with another one arms a change to it. -/
theorem State.bootPeriod_spec (s : State) : let t := s.bootPeriod
    t.mode = s.mode ∧ t.drip.running = s.drip.running ∧ t.fld R.DRIP_PERIOD_CUR_US = s.fld R.DRIP_PERIOD_CUR_US ∧
      (prPeriod t.sec.profile ≠ s.fld R.DRIP_PERIOD_CUR_US →
        t.fld R.DRIP_PERIOD_NEXT_US = prPeriod t.sec.profile ∧
        t.fld R.DRIP_APPLY_AT_DRIP_NO = (s.fld R.DRIP_NUMBER_NUMBER + 2) % 2 ^ 48 ∧
        t.drip.armed = some (s.fld R.DRIP_NUMBER_NUMBER + 2) ∧ t.fld R.DRIP_STATUS_APPLY_PEND = 1) := by
  dsimp only
  unfold State.bootPeriod
  extract_lets q n s1
  by_cases hq : s.fld R.DRIP_PERIOD_CUR_US = q
  · rw [if_pos hq]
    exact ⟨rfl, rfl, rfl, fun hne => absurd hq.symm hne⟩
  · rw [if_neg hq]
    have hq16 : q % 2 ^ 16 = q := Nat.mod_eq_of_lt (prPeriod_lt _)
    have hno : getBits (BitVec.ofNat 64 (n % 2 ^ 48)) 0 48 = n % 2 ^ 48 := getBits_ofNat (Nat.mod_lt _ (by decide))
    refine ⟨rfl, rfl, ?_, fun _ => ⟨?_, ?_, rfl, ?_⟩⟩
    · simp (disch := decide) only [s1, State.withDrip_fld, State.setFld_fld_ne, State.setReg_fld_ne]
    · simp (disch := decide) only [s1, State.withDrip_fld, State.setFld_fld_ne, State.setReg_fld_ne, State.setFld_fld_same]
      exact hq16
    · simp (disch := decide) only [s1, State.withDrip_fld, State.setFld_fld_ne]
      exact (State.setReg_fld_same _ R.DRIP_APPLY_AT_DRIP_NO _).trans hno
    · simp (disch := decide) only [s1, State.withDrip_fld, State.setFld_fld_same]
      rfl

/-- The bring-up of a module compute reset: it ends in the change of the period, or in REFUGE. -/
theorem State.mcrStart_spine (h : p.Of s) (hr : p.removal = 0) :
    (∃ u, Spine.Of { p with mode := .boot, step := 8 } u ∧ s.mcrStart = u.bootPeriod) ∨ s.mcrStart.mode = .refuge := by
  unfold State.mcrStart
  extract_lets s1 old s2 s3 s4 s5 c f s6 b s7 s8
  have h2 : Spine.Of { p with mode := .boot } s2 := (h.enter .boot).rtResets.dropJobs.mcrGals.dropChResets
  have h3 : Spine.Of { p with mode := .boot } s3 := h2.setFld_at _ (by decide)
  have h4 : Spine.Of { p with mode := .boot, step := 8 } s4 :=
    (Spine.Of.setStep (h3.setStatus _ (by decide)) (by decide)).setStatus _ (by decide)
  have h5 : Spine.Of { p with mode := .boot, step := 8 } s5 := (h4.setStatus _ (by decide)).setStatus _ (by decide)
  have h6 : Spine.Of { p with mode := .boot, step := 8 } s6 := (h5.withSec _).withFr _
  have h8 : Spine.Of { p with mode := .boot, step := 8 } s8 := Spine.Of.flushQuiet (s := s7) (h6.withBoot _)
  have h9 := h8.selectProfile false
  split
  · next v hv =>
    rw [hv] at h9
    exact .inr (h9.bootFail hr 1).mode_eq
  · next v q hv =>
    rw [hv] at h9
    exact .inl ⟨_, (h9.adopt q).loadRegions.zeroChanged old, rfl⟩

/-- The measurement of the boot images is kept in the state of security alone. -/
theorem State.bootImages_only : ∀ (cs : List Nat) {s u : State}, s.bootImages cs = some u →
    u.csr = s.csr ∧ u.sec.profile = s.sec.profile
  | [], _, _, h => by cases h; exact ⟨rfl, rfl⟩
  | c :: cs, s, u, h => by
    unfold State.bootImages at h
    split at h
    · obtain ⟨h1, h2⟩ := State.bootImages_only cs h
      exact ⟨h1, h2⟩
    · cases h

/-- Step 4 of a bring-up that fails stays at step 4. -/
theorem State.bootFail_step (hs : s.fld R.BRG_STATUS_STEP = 4) (hr : s.pwr.removal = 0) (code : Nat) :
    (s.bootFail code).fld R.BRG_STATUS_STEP ≠ 5 := by
  have h : s.spine.Of s := rfl
  rw [(h.bootFail hr code).step_eq, show s.spine.step = 4 from hs]
  decide

theorem State.extend_reg (s : State) (i d a : Nat) : (s.extend i d).reg a = s.reg a := State.withSec_reg ..
theorem State.extend_profile (s : State) (i d : Nat) : (s.extend i d).sec.profile = s.sec.profile := by
  rw [State.extend, State.withSec_sec]

/-- Both periods, as a cold bring-up sets them. -/
theorem State.setPeriods (s : State) {n : Nat} (h : n < 2 ^ 16) :
    let t := (s.setFld R.DRIP_PERIOD_CUR_US n).setFld R.DRIP_PERIOD_NEXT_US n
    t.fld R.DRIP_PERIOD_CUR_US = n ∧ t.fld R.DRIP_PERIOD_NEXT_US = n ∧
      t.fld R.BRG_STATUS_STEP = s.fld R.BRG_STATUS_STEP ∧ t.fld R.DRIP_CTRL_ENABLE = s.fld R.DRIP_CTRL_ENABLE ∧
      t.sec = s.sec ∧ t.pwr = s.pwr := by
  have hn : n % 2 ^ 16 = n := Nat.mod_eq_of_lt h
  dsimp only
  refine ⟨?_, ?_, ?_, ?_, rfl, rfl⟩
  · simp (disch := decide) only [State.setFld_fld_ne, State.setFld_fld_same]
    exact hn
  · simp (disch := decide) only [State.setFld_fld_same]
    exact hn
  · simp (disch := decide) only [State.setFld_fld_ne]
  · simp (disch := decide) only [State.setFld_fld_ne]

/-- The end of step 4 changes only the step, and the measurements of security. -/
theorem State.bootStep4_end {s t : State} (hs : t.csr = s.csr) (hp : t.sec.profile = s.sec.profile) (i d j e : Nat) :
    let u := ((t.extend i d).extend j e).setFld R.BRG_STATUS_STEP 5
    u.sec.profile = s.sec.profile ∧ ∀ f : Fld, f.addr ≠ R.BRG_STATUS → u.fld f = s.fld f := by
  refine ⟨?_, fun f hf => ?_⟩
  · rw [State.setFld_sec, State.extend_profile, State.extend_profile, hp]
  · rw [State.fld, State.setFld_reg_ne _ _ hf, State.extend_reg, State.extend_reg, State.reg, hs]
    rfl

/-- Step 4 of a cold bring-up that ends in step 5 has both periods from the profile. -/
theorem State.bootStep4_period (s : State) (ok : Bool) (hs : s.fld R.BRG_STATUS_STEP = 4) (hr : s.pwr.removal = 0)
    (h5 : (s.bootStep4 ok).fld R.BRG_STATUS_STEP = 5) :
    (s.bootStep4 ok).fld R.DRIP_PERIOD_CUR_US = prPeriod (s.bootStep4 ok).sec.profile ∧
      (s.bootStep4 ok).fld R.DRIP_PERIOD_NEXT_US = prPeriod (s.bootStep4 ok).sec.profile ∧
      (s.bootStep4 ok).fld R.DRIP_CTRL_ENABLE = s.fld R.DRIP_CTRL_ENABLE := by
  have h0 : s.spine.Of s := rfl
  revert h5
  unfold State.bootStep4
  split
  · exact fun h5 => absurd h5 (State.bootFail_step hs hr 1)
  have h1 := h0.selectProfile true
  split
  · next v hv =>
    rw [hv] at h1
    exact fun h5 => absurd h5 (State.bootFail_step (h1.step_eq.trans hs) (h1.removal_eq.trans hr) 1)
  next v q hv =>
  rw [hv] at h1
  have h2 := h1.adopt q
  generalize v.adopt q = u at h2
  dsimp only
  obtain ⟨hcur, hnext, hstep, hon, hsec, hpwr⟩ := State.setPeriods u (prPeriod_lt u.sec.profile)
  have hon' : u.fld R.DRIP_CTRL_ENABLE = s.fld R.DRIP_CTRL_ENABLE := congrArg (getBits · 0 1) h2.ctrl_eq
  generalize (u.setFld R.DRIP_PERIOD_CUR_US (prPeriod u.sec.profile)).setFld R.DRIP_PERIOD_NEXT_US (prPeriod u.sec.profile) = w
    at hcur hnext hstep hon hsec hpwr ⊢
  generalize hx : w.bootImages [2, 3, 4] = o
  cases o with
  | none =>
    have hr' : w.pwr.removal = 0 := hpwr ▸ h2.removal_eq.trans hr
    exact fun h5 => absurd h5 (State.bootFail_step (hstep.trans (h2.step_eq.trans hs)) hr' 1)
  | some x =>
  intro _
  obtain ⟨hcsr, hprof⟩ := State.bootImages_only [2, 3, 4] hx
  obtain ⟨hp, hf⟩ := State.bootStep4_end hcsr hprof 5 (Config.sha384 x.sec.profile) 6 (Config.sha384 x.lifeBytes)
  rw [hp, hsec, hf _ (by decide), hf _ (by decide), hf _ (by decide)]
  exact ⟨hcur, hnext, hon.trans hon'⟩

end

/-! ## The writes that statement O15 speaks of -/

section
variable {s : State} {src : Src} {f : Found} {v : Word}

/-- The registers that a write of DRIP_CTRL may change. -/
def dripCtrlRegs : List Nat := [R.DRIP_CTRL, R.DRIP_STATUS]

/-- A request for a step: taken where one is needed. -/
def State.askStep (s : State) (asks : Bool) : State :=
  if asks && s.fld R.DRIP_STATUS_STEP_NEEDED == 1 then s.withDrip { s.drip with stepReq := true } else s

theorem State.askStep_fld (s : State) (b : Bool) (g : Fld) : (s.askStep b).fld g = s.fld g := by
  unfold State.askStep
  split
  · exact State.withDrip_fld ..
  · rfl

theorem State.askStep_drip (s : State) (b : Bool) : (s.askStep b).drip =
    { s.drip with stepReq := s.drip.stepReq || (b && s.fld R.DRIP_STATUS_STEP_NEEDED == 1) } := by
  unfold State.askStep
  split
  · next h => rw [h, Bool.or_true]; rfl
  · next h => rw [Bool.not_eq_true] at h; rw [h, Bool.or_false]

theorem Keeps.askStep {t : State} {l : List Nat} (h : Keeps s t l) (b : Bool) : Keeps s (t.askStep b) l :=
  .ite (h.thenDrip _) h

/-- What a write of DRIP_CTRL does, step by step: the state with the fields that are plain, the source, ENABLE, RESYNC. -/
theorem State.regWrite_DRIP_CTRL_steps (h : Lands s src R.DRIP_CTRL f whole v) (h3 : getBits v 1 2 ≠ 3) :
    ∃ s1 s2 s3 : State,
    (s1.fld R.DRIP_CTRL_ENABLE = s.fld R.DRIP_CTRL_ENABLE ∧ s1.fld R.DRIP_CTRL_SRC = s.fld R.DRIP_CTRL_SRC ∧
      s1.fld R.DRIP_STATUS_STEP_NEEDED = s.fld R.DRIP_STATUS_STEP_NEEDED ∧ s1.drip = s.drip ∧ s1.now = s.now ∧
      s1.fld R.DRIP_PERIOD_CUR_US = s.fld R.DRIP_PERIOD_CUR_US ∧ Keeps s s1 [R.DRIP_CTRL]) ∧
    s2 = (if getBits v 1 2 ≠ s.fld R.DRIP_CTRL_SRC then s1.selectSource (getBits v 1 2) else s1) ∧
    s3 = (if getBits v 0 1 = s.fld R.DRIP_CTRL_ENABLE then s2 else if getBits v 0 1 = 1 then s2.dripStart else s2.dripStop) ∧
    s.regWrite src R.DRIP_CTRL 8 v.toNat = s3.askStep (getBits v 4 1 == 1) := by
  obtain ⟨w, hen, hsrc, hw⟩ := State.regWrite_DRIP_CTRL h h3
  exact ⟨s.setReg R.DRIP_CTRL w, _, _, ⟨(State.setReg_fld_same s R.DRIP_CTRL_ENABLE w).trans hen,
    (State.setReg_fld_same s R.DRIP_CTRL_SRC w).trans hsrc, State.setReg_fld_ne _ _ (by decide), State.setReg_drip ..,
    State.setReg_now .., State.setReg_fld_ne _ _ (by decide), Keeps.setReg ..⟩, rfl, rfl, hw⟩

/-- ENABLE and SRC read as they were written. -/
theorem dripCtrl_written (h : Lands s src R.DRIP_CTRL f whole v) (h3 : getBits v 1 2 ≠ 3) :
    let t := s.regWrite src R.DRIP_CTRL 8 v.toNat
    t.fld R.DRIP_CTRL_ENABLE = getBits v 0 1 ∧ t.fld R.DRIP_CTRL_SRC = getBits v 1 2 ∧ Keeps s t dripCtrlRegs := by
  obtain ⟨s1, s2, s3, ⟨hen1, hsrc1, -, -, -, -, hk⟩, h2, h3', hw⟩ := State.regWrite_DRIP_CTRL_steps h h3
  have hk1 : Keeps s s1 dripCtrlRegs := hk.mono (by decide)
  have hsel : getBits v 1 2 < 3 := by have := getBits_lt v 1 2; omega
  have hon : getBits v 0 1 < 2 := getBits_lt v 0 1
  have h2s : s2.fld R.DRIP_CTRL_ENABLE = s.fld R.DRIP_CTRL_ENABLE ∧ s2.fld R.DRIP_CTRL_SRC = getBits v 1 2 ∧
      Keeps s s2 dripCtrlRegs := by
    subst h2
    split
    · exact ⟨(State.selectSource_enable ..).trans hen1, State.selectSource_src _ hsel,
        hk1.selectSource _ (by decide) (by decide)⟩
    · next hne => exact ⟨hen1, hsrc1.trans (Decidable.not_not.1 hne).symm, hk1⟩
  obtain ⟨hen2, hsrc2, hk2⟩ := h2s
  have h3s : s3.fld R.DRIP_CTRL_ENABLE = getBits v 0 1 ∧ s3.fld R.DRIP_CTRL_SRC = getBits v 1 2 ∧
      Keeps s s3 dripCtrlRegs := by
    subst h3'
    split
    · next heq => exact ⟨hen2.trans heq.symm, hsrc2, hk2⟩
    · split
      · next h1 =>
        obtain ⟨he, hs⟩ := s2.dripStart_ctrl
        exact ⟨he.trans h1.symm, hs.trans hsrc2, hk2.dripStart (by decide) (by decide)⟩
      · next h1 =>
        obtain ⟨he, hs, -⟩ := s2.dripStop_spec
        exact ⟨he.trans (by omega), hs.trans hsrc2, hk2.dripStop (by decide) (by decide)⟩
  obtain ⟨hen3, hsrc3, hk3⟩ := h3s
  dsimp only
  rw [hw, State.askStep_fld, State.askStep_fld]
  exact ⟨hen3, hsrc3, hk3.askStep _⟩

/-- ENABLE that becomes 1 starts the schedule, or starts it again. -/
theorem dripEnable_starts (h : Lands s src R.DRIP_CTRL f whole v) (hsel : getBits v 1 2 = s.fld R.DRIP_CTRL_SRC)
    (h3 : getBits v 1 2 ≠ 3) (hon : getBits v 0 1 = 1) (hoff : s.fld R.DRIP_CTRL_ENABLE = 0) (hr : s.drip.running = false) :
    let t := s.regWrite src R.DRIP_CTRL 8 v.toNat
    let e := s.drip.epoch.getD (if getBits v 1 2 ≠ 0 ∧ s.drip.located = true then s.drip.offsetNs else (s.now : Int))
    t.drip.epoch = some e ∧ t.drip.closeAt = s.firstClose e ∧
      (s.drip.epoch = none → getBits v 1 2 = 0 → t.fld R.DRIP_STATUS_SYNC = 1) := by
  obtain ⟨s1, s2, s3, ⟨-, hsrc1, -, hd, hn, hp, -⟩, h2, h3', hw⟩ := State.regWrite_DRIP_CTRL_steps h h3
  obtain rfl : s2 = s1 := h2.trans (if_neg (fun hne => hne hsel))
  obtain rfl : s3 = s2.dripStart := h3'.trans ((if_neg (by omega)).trans (if_pos hon))
  have hspec := s2.dripStart_spec (hd ▸ hr)
  dsimp only at hspec
  rw [hsrc1, ← hsel, hd, hn, State.firstClose_congr hd hn hp] at hspec
  dsimp only
  rw [hw, State.askStep_fld, State.askStep_drip]
  exact hspec

/-- ENABLE that becomes 0 stops the drip. -/
theorem dripEnable_stops (h : Lands s src R.DRIP_CTRL f whole v) (hsel : getBits v 1 2 = s.fld R.DRIP_CTRL_SRC)
    (h3 : getBits v 1 2 ≠ 3) (hon : getBits v 0 1 = 0) (hoff : s.fld R.DRIP_CTRL_ENABLE = 1) :
    let t := s.regWrite src R.DRIP_CTRL 8 v.toNat
    t.drip.running = false ∧ t.fld R.DRIP_STATUS_PHASE_SEAL = 0 ∧ t.drip.epoch = s.drip.epoch := by
  obtain ⟨s1, s2, s3, ⟨-, -, -, hd, -⟩, h2, h3', hw⟩ := State.regWrite_DRIP_CTRL_steps h h3
  obtain rfl : s2 = s1 := h2.trans (if_neg (fun hne => hne hsel))
  obtain rfl : s3 = s2.dripStop := h3'.trans ((if_neg (by omega)).trans (if_neg (by omega)))
  obtain ⟨-, -, hrun, hseal, hep⟩ := s2.dripStop_spec
  dsimp only
  rw [hw, State.askStep_fld, State.askStep_drip]
  exact ⟨hrun, hseal, hep.trans (congrArg DripSt.epoch hd)⟩

/-- RESYNC alone asks for a step where one is needed. -/
theorem resync_asks (h : Lands s src R.DRIP_CTRL f whole v) (hsel : getBits v 1 2 = s.fld R.DRIP_CTRL_SRC)
    (h3 : getBits v 1 2 ≠ 3) (hon : getBits v 0 1 = s.fld R.DRIP_CTRL_ENABLE) (hask : getBits v 4 1 = 1) :
    let t := s.regWrite src R.DRIP_CTRL 8 v.toNat
    Keeps s t [R.DRIP_CTRL] ∧
      t.drip = { s.drip with stepReq := s.drip.stepReq || s.fld R.DRIP_STATUS_STEP_NEEDED == 1 } := by
  obtain ⟨s1, s2, s3, ⟨-, -, hneed, hd, -, -, hk⟩, h2, h3', hw⟩ := State.regWrite_DRIP_CTRL_steps h h3
  obtain rfl : s2 = s1 := h2.trans (if_neg (fun hne => hne hsel))
  obtain rfl : s3 = s2 := h3'.trans (if_pos hon)
  dsimp only
  rw [hw, State.askStep_drip, hd, hneed, hask]
  exact ⟨hk.askStep _, rfl⟩

/-- A write of SRC alone selects the source. -/
theorem dripSrc_selects (h : Lands s src R.DRIP_CTRL f whole v) (hon : getBits v 0 1 = s.fld R.DRIP_CTRL_ENABLE)
    (hask : getBits v 4 1 = 0) (hsel : getBits v 1 2 ≠ s.fld R.DRIP_CTRL_SRC) (h3 : getBits v 1 2 ≠ 3) :
    ∃ s1 : State, s1.now = s.now ∧ s.regWrite src R.DRIP_CTRL 8 v.toNat = s1.selectSource (getBits v 1 2) := by
  obtain ⟨s1, s2, s3, ⟨-, -, -, -, hn, -⟩, h2, h3', hw⟩ := State.regWrite_DRIP_CTRL_steps h h3
  refine ⟨s1, hn, hw.trans ?_⟩
  rw [hask, h3', if_pos hon, h2, if_pos hsel]
  rfl

/-- A next period of 50 or more is kept, and arms nothing. -/
theorem dripPeriod_kept (h : Lands s src R.DRIP_PERIOD f whole v) (hn : 50 ≤ getBits v 16 16) :
    let t := s.regWrite src R.DRIP_PERIOD 8 v.toNat
    t.fld R.DRIP_PERIOD_NEXT_US = getBits v 16 16 ∧ t.fld R.DRIP_PERIOD_CUR_US = s.fld R.DRIP_PERIOD_CUR_US ∧
      t.drip = s.drip ∧ Keeps s t [R.DRIP_PERIOD] := by
  obtain ⟨w, hnext, hcur, hw⟩ := State.regWrite_DRIP_PERIOD h
  dsimp only
  rw [hw, if_neg (Nat.not_lt.2 hn)]
  exact ⟨(State.setReg_fld_same s R.DRIP_PERIOD_NEXT_US w).trans hnext,
    (State.setReg_fld_same s R.DRIP_PERIOD_CUR_US w).trans hcur, State.setReg_drip .., Keeps.setReg ..⟩

/-- A smaller one is discarded with a record of class CE. -/
theorem State.refuse_raises (s : State) (src : Src) (code a n : Nat) :
    ∃ r : ErrRec, r.cls = CE ∧ s.refuse src code a n = s.raise r := by
  unfold State.refuse
  refine ⟨_, ?_, rfl⟩
  have site : ∀ (r : ErrRec) {c : Prop} [Decidable c] k, r.cls = CE → (if c then s.recAt r k else r).cls = CE := by
    intro r c _ k hr
    split
    · exact hr
    · exact hr
  refine site _ _ ?_
  cases src with
  | _ => rfl

/-- A module compute reset that comes to bring-up keeps the schedule, and arms the change to the profile's period. -/
theorem mcr_period (h : Lands s src R.BRG_CTRL f whole v) (hv : getBits v 0 1 = 1)
    (hm : s.mode = .normal ∨ s.mode = .quiesce) (hr : s.pwr.removal = 0) (hf : s.mcrFull = false) (ha : s.mayAct 5 = true)
    (hb : (s.regWrite src R.BRG_CTRL 8 v.toNat).mode = .boot) :
    let t := s.regWrite src R.BRG_CTRL 8 v.toNat
    t.drip.running = s.drip.running ∧ t.fld R.DRIP_PERIOD_CUR_US = s.fld R.DRIP_PERIOD_CUR_US ∧
      (prPeriod t.sec.profile ≠ s.fld R.DRIP_PERIOD_CUR_US →
        t.fld R.DRIP_PERIOD_NEXT_US = prPeriod t.sec.profile ∧
        t.fld R.DRIP_APPLY_AT_DRIP_NO = (s.fld R.DRIP_NUMBER_NUMBER + 2) % 2 ^ 48 ∧
        t.drip.armed = some (s.fld R.DRIP_NUMBER_NUMBER + 2) ∧ t.fld R.DRIP_STATUS_APPLY_PEND = 1) := by
  have hgo : (s.mode = .normal ∨ s.mode = .quiesce) ∧ (!s.mcrFull) = true := ⟨hm, by rw [hf]; rfl⟩
  have ht : s.regWrite src R.BRG_CTRL 8 v.toNat = (s.actOn 5).mcrStart := by
    rw [State.regWrite_BRG_CTRL h hv, State.mcrRequest, if_pos hgo, State.event, if_pos ha]
  rw [ht] at hb ⊢
  have hs : s.spine.Of (s.actOn 5) := Spine.Of.actOn (s := s) rfl 5
  obtain ⟨u, hu, he⟩ | hbad := State.mcrStart_spine hs hr
  · have hcur : u.fld R.DRIP_PERIOD_CUR_US = s.fld R.DRIP_PERIOD_CUR_US := congrArg (getBits · 0 16) hu.period_eq
    have hnum : u.fld R.DRIP_NUMBER_NUMBER = s.fld R.DRIP_NUMBER_NUMBER := congrArg (getBits · 0 48) hu.number_eq
    obtain ⟨-, hrun, hc, hchange⟩ := u.bootPeriod_spec
    rw [hcur] at hc hchange
    rw [hnum] at hchange
    rw [he]
    exact ⟨hrun.trans hu.running_eq, hc, hchange⟩
  · rw [hbad] at hb
    exact ModState.noConfusion hb

/-- The step of bring-up that ends is the fourth. -/
theorem exec_bringupStepComplete_four (r : StepRes) (hm : s.mode = .boot) (h4 : s.fld R.BRG_STATUS_STEP = 4) :
    exec (.bringupStepComplete r) s = .next (s.bootStep4 r.verifyOk) := by
  show execBringupStepComplete r s = _
  unfold execBringupStepComplete
  rw [h4, if_neg (fun hne => hne hm)]
  rfl

end

end Sys2Proof.Machine
end

section
/-! SUPPORT. The statement of the drip's registers. -/

open Sys2Proof Sys2Proof.Machine

/-- Settles O15: a write that lands is the effect of the DRIP block's rules, taken one step after another (the source, ENABLE,
RESYNC); a boot and a module compute reset leave the drip's registers alone but for the period that they bring. -/
theorem dripRegisters : Obligations.DripRegisters := by
  unfold Obligations.DripRegisters
  refine ⟨?ctrl, ?apply, ⟨by decide, fun s => Nat.mul_comm ..⟩, ?period, ?boot, ?mcr⟩
  case ctrl =>
    intro s src v f h
    refine ⟨fun h3 => ?_, fun hsel h3 => ⟨fun hon hoff hr => ?_, fun hon hoff => ?_, fun hon hask => ?_⟩,
      fun hon hask hsel => ⟨fun h0 => ?_, fun h12 => ?_⟩⟩
    · obtain ⟨hen, hsrc, hk⟩ := dripCtrl_written h h3
      refine ⟨_, fun c hc => ?_, hen, hsrc, hk⟩
      obtain rfl | rfl | rfl : c = _ ∨ c = _ ∨ c = _ := by simpa using hc
      all_goals rfl
    · obtain ⟨hen, -, hk⟩ := dripCtrl_written h h3
      obtain ⟨hep, hclose, hsync⟩ := dripEnable_starts h hsel h3 hon hoff hr
      exact ⟨_, rfl, hen.trans hon, hep, hclose, hsync, hk⟩
    · obtain ⟨hen, -, hk⟩ := dripCtrl_written h h3
      obtain ⟨hrun, hseal, hep⟩ := dripEnable_stops h hsel h3 hon hoff
      exact ⟨_, rfl, hen.trans hon, hrun, hseal, hep, hk⟩
    · exact ⟨_, rfl, resync_asks h hsel h3 hon hask⟩
    · have h3 : getBits v 1 2 ≠ 3 := by omega
      obtain ⟨-, -, hk⟩ := dripCtrl_written h h3
      obtain ⟨u, -, ht⟩ := dripSrc_selects h hon hask hsel h3
      obtain ⟨hsrc, hhold, hneed, hoff, hsync, hlost⟩ := u.selectSource_zero
      rw [ht, h0] at hk
      refine ⟨_, congrArg Host.Outcome.next (ht.trans (by rw [h0])), hsrc, hhold, hneed, hoff, hsync, hlost, hk⟩
    · have h3 : getBits v 1 2 ≠ 3 := by omega
      obtain ⟨-, -, hk⟩ := dripCtrl_written h h3
      obtain ⟨u, hnow, ht⟩ := dripSrc_selects h hon hask hsel h3
      obtain ⟨hsrc, hhold, hsync, hlost⟩ := u.selectSource_measured h12
      rw [ht] at hk
      exact ⟨_, congrArg Host.Outcome.next ht, hsrc, hhold, hsync, hlost.trans (congrArg some hnow), hk⟩
  case apply =>
    intro s src v f h
    have hn : getBits v 0 48 < 2 ^ 48 := getBits_lt v 0 48
    have ht := State.regWrite_DRIP_APPLY_AT h
    have hk : Keeps s (s.applyAt (getBits v 0 48)) [R.DRIP_APPLY_AT, R.DRIP_STATUS] :=
      (Keeps.refl s _).applyAt _ (by decide) (by decide)
    refine ⟨_, congrArg Host.Outcome.next ht, ?_, hk, fun heq => (s.applyAt_cancel hn heq).2,
      fun hne => (s.applyAt_arm hn hne).2⟩
    by_cases heq : s.fld R.DRIP_PERIOD_NEXT_US = s.fld R.DRIP_PERIOD_CUR_US
    · exact (s.applyAt_cancel hn heq).1
    · exact (s.applyAt_arm hn heq).1
  case period =>
    intro s src v f h
    refine ⟨fun hn => ⟨_, rfl, dripPeriod_kept h hn⟩, fun hn => ?_⟩
    obtain ⟨w, -, -, hw⟩ := State.regWrite_DRIP_PERIOD h
    obtain ⟨r, hr, hraise⟩ := s.refuse_raises src 16 R.DRIP_PERIOD v.toNat
    exact ⟨r, hr, congrArg Host.Outcome.next (hw.trans ((if_pos hn).trans hraise))⟩
  case boot =>
    intro s r hm hr h4
    exact ⟨_, exec_bringupStepComplete_four r hm h4, s.bootStep4_period r.verifyOk h4 hr⟩
  case mcr =>
    intro s src v f h hv hm hr hf ha
    exact ⟨_, rfl, mcr_period h hv hm hr hf ha⟩

end

section
/-! SUPPORT. A claim under a key that no register has: what a move of claims makes of it (R68). -/

namespace Sys2Proof.Machine

/-- GM_SB_MOVE1 as the register map has it, at site 0. -/
def gmSbMove1Found : Found :=
  ⟨.GM, 0x200010020000, ⟨.GM_SB_MOVE1, 0x78, [], 0x7f0000000007ffff, 0x0, 0x8000000000000000, 0x0, 0x0⟩⟩

/-- A software-owned claim of task 7 on the first 64 B unit. -/
def strayClaim : Word := putBits (putBits (putBits (putBits 0 63 1 1) 60 1 1) 54 6 7) 32 22 1

/-- GO = 1, OP = 0, TASK = 7: the claims of task 7 in the range are suspended. -/
def suspendGo : Word := putBits (putBits 0 63 1 1) 56 6 7

/-- Task 7 of site 0 is FROZEN, the range of GM_SB_MOVE0 is the first 512 bytes, and the register file holds a claim one
byte above the address of scoreboard entry 63. -/
def strayState : State :=
  ((((State.reset.setFld R.BRG_CLK_DIE 0xFFFF).setFld (R.GAL_STATUS_STATE 0) 1).setFld (mFrozen (taskM 0 7)) 1).setFld
    (R.GM_SB_MOVE0_LEN 0) 1).setReg (R.GM_SB_ENTRY 0 63 + 1) strayClaim

theorem strayState_canonical : Canonical strayState := by
  unfold Canonical; decide +kernel

theorem strayState_lands : Lands strayState .bedrock (R.GM_SB_MOVE1 0) gmSbMove1Found whole suspendGo where
  found := by decide
  aligned := by decide
  link h := by cases h
  free := by decide +kernel
  answers := by decide +kernel
  may := rfl
  own := by decide +kernel

theorem strayState_frozen : strayState.frozen (taskM 0 7) = true := by decide +kernel

/-- Every scoreboard entry of the site is zero. -/
theorem strayState_entry : ∀ e, e < 64 → strayState.reg (R.GM_SB_ENTRY 0 e) = 0 := by decide +kernel

/-- So no entry holds a claim, of task 7 or of another. -/
theorem strayState_valid {e : Nat} (he : e < 64) : strayState.fld (R.GM_SB_ENTRY_VALID 0 e) ≠ 1 := by
  have hreg : strayState.reg (R.GM_SB_ENTRY_VALID 0 e).addr = 0 := strayState_entry e he
  rw [State.fld, hreg]
  exact (by decide : getBits 0 63 1 ≠ 1)

/-- The suspension finds the stray claim, numbers it 63 by the eight bytes that its key lies in, and writes it there. -/
theorem strayState_suspended : (strayState.regWrite .bedrock (R.GM_SB_MOVE1 0) 8 suspendGo.toNat).reg (R.GM_SB_ENTRY 0 63) =
    putBits strayClaim 22 1 1 := by decide +kernel

end Sys2Proof.Machine
end

section
/-! SUPPORT. The statement of gallery memory. -/

open Sys2Proof Sys2Proof.Machine

/-- Refutes O11: where the register file holds a word between two scoreboard entries, a move of claims takes it for a claim of
the lower entry and writes that entry, though no entry is valid. `Canonical` asks that the keys of the register file rise and
that no entry equal its reset value, not that each key be the address of a register; that clause needs such a premise. -/
theorem not_galleryMemory : ¬ Obligations.GalleryMemory := by
  unfold Obligations.GalleryMemory
  rintro ⟨-, hgroups⟩
  obtain ⟨-, -, -, hmove⟩ := hgroups strayState .bedrock 0 suspendGo gmSbMove1Found
  obtain ⟨hsuspend, -⟩ := hmove strayState_canonical strayState_lands (by decide) strayState_frozen
    (fun e he hmine => absurd hmine.1 (strayState_valid he))
  obtain ⟨new, ⟨t, ht, hentry, -⟩, hnew⟩ := hsuspend (by decide)
  have hsame : new 63 = strayState.reg (R.GM_SB_ENTRY 0 63) :=
    (hnew 63 (by decide)).2 (fun hit => strayState_valid (by decide) hit.1.1)
  have hzero : t.reg (R.GM_SB_ENTRY 0 63) = 0 :=
    (hentry 63 (by decide)).trans (hsame.trans (strayState_entry 63 (by decide)))
  have hwritten : t.reg (R.GM_SB_ENTRY 0 63) = putBits strayClaim 22 1 1 := Host.Outcome.next.inj ht ▸ strayState_suspended
  exact absurd (hwritten.symm.trans hzero) (by decide)

end

section
/-! SUPPORT. The banks of the survey memory: the fields that hold their states, what the rules of SV_CTRL and of the flip
leave, and a write of SV_CTRL that lands (R277, R279, R280, R282). -/

namespace Sys2Proof.Machine

/-! ## The states of the banks -/

/-- The field shares no bit with the states of the banks, which are SV_STATUS [11:8]. -/
abbrev Fld.OffBanks (f : Fld) : Prop := f.addr ≠ R.SV_STATUS ∨ f.lo + f.width ≤ 8 ∨ 12 ≤ f.lo

theorem bankFld_addr (b : Nat) : (bankFld b).addr = R.SV_STATUS := by
  unfold bankFld
  split <;> rfl

theorem bankFld_width (b : Nat) : (bankFld b).width = 2 := by
  unfold bankFld
  split <;> rfl

theorem bankFld_lo (b : Nat) : (bankFld b).lo = if b = 0 then 8 else 10 := by
  unfold bankFld
  split <;> rfl

theorem bankFld_fits (b : Nat) : (bankFld b).lo + (bankFld b).width ≤ 64 := by
  rw [bankFld_lo, bankFld_width]
  split <;> decide

/-- No field off the banks meets the field of a bank. -/
theorem Fld.OffBanks.apart {f : Fld} (h : f.OffBanks) (b : Nat) :
    f.addr ≠ (bankFld b).addr ∨ f.lo + f.width ≤ (bankFld b).lo ∨ (bankFld b).lo + (bankFld b).width ≤ f.lo := by
  rw [bankFld_addr, bankFld_width, bankFld_lo]
  refine h.imp id (Or.imp (fun hlow => ?_) fun hhigh => ?_) <;> split <;> omega

section
variable (s : State) {f : Fld} (n b : Nat)

theorem State.setFld_bank_ne (h : f.OffBanks) : (s.setFld f n).bank b = s.bank b := by
  refine State.setFld_fld_ne s n (bankFld_fits b) ?_
  exact (h.apart b).imp Ne.symm Or.symm

theorem State.setBank_fld_ne (hf : f.lo + f.width ≤ 64) (h : f.OffBanks) : (s.setFld (bankFld b) n).fld f = s.fld f :=
  State.setFld_fld_ne s n hf (h.apart b)

theorem State.setBank_bank_same {n : Nat} (hn : n < 4) : (s.setFld (bankFld b) n).bank b = n := by
  rw [State.bank, State.setFld_fld_same s n (bankFld_fits b), bankFld_width]
  exact Nat.mod_eq_of_lt hn

/-- The two banks have fields of their own. -/
theorem State.setBank_bank_other {c : Nat} (h : c = 0 ↔ b ≠ 0) : (s.setFld (bankFld b) n).bank c = s.bank c := by
  refine State.setFld_fld_ne s n (bankFld_fits c) (.inr ?_)
  simp only [bankFld_lo, bankFld_width]
  split <;> split <;> omega

@[simp] theorem State.withSv_bank (x : SvSt) : (s.withSv x).bank b = s.bank b := State.withSv_fld ..

theorem State.setReg_bank_ne {a : Nat} (w : Word) (ha : R.SV_STATUS ≠ a) : (s.setReg a w).bank b = s.bank b :=
  State.setReg_fld_ne s w (by rwa [bankFld_addr])

theorem State.setReg_otherBank_ne {a : Nat} (w : Word) (ha : R.SV_STATUS ≠ a) : (s.setReg a w).otherBank = s.otherBank :=
  congrArg (1 - ·) (State.setReg_fld_ne s w ha)

theorem State.epoch_lt : s.epoch < 2 := State.fld_lt s R.SV_STATUS_EPOCH

theorem RecOnly.bank {s t : State} (h : RecOnly s t) (b : Nat) : t.bank b = s.bank b :=
  h.fld (by rw [bankFld_addr]; decide)

end

/-! ## CLASSA_COND.SURVEY_STABLE -/

section
variable (s : State) {f : Fld}

/-- CLASSA_COND.ALL follows the conditions; nothing else of a register changes but those of a record. -/
theorem State.syncCond_fld (hf : f.lo + f.width ≤ 64) (hr : f.addr ∉ recordRegs)
    (h : f.addr ≠ R.CLASSA_COND ∨ f.lo + f.width ≤ 5) : s.syncCond.fld f = s.fld f := by
  unfold State.syncCond
  dsimp only
  split
  · rfl
  · exact ((RecOnly.raise _ _).fld hr).trans (State.setFld_fld_ne s _ hf (h.imp id Or.inl))

theorem State.stable_fld (on : Bool) (hf : f.lo + f.width ≤ 64) (hr : f.addr ∉ recordRegs) (h : f.addr ≠ R.CLASSA_COND) :
    (s.stable on).fld f = s.fld f :=
  (State.syncCond_fld _ hf hr (.inl h)).trans (State.setFld_fld_ne s _ hf (.inl h))

theorem State.stable_bank (on : Bool) (b : Nat) : (s.stable on).bank b = s.bank b := by
  refine State.stable_fld s on (bankFld_fits b) ?_ ?_ <;> rw [bankFld_addr] <;> decide

theorem State.stable_surveyStable (on : Bool) : (s.stable on).fld R.CLASSA_COND_SURVEY_STABLE = b2n on := by
  refine (State.syncCond_fld _ (by decide) (by decide) (.inr (by decide))).trans ?_
  rw [State.setFld_fld_same s _ (by decide)]
  cases on <;> rfl

end

section
variable {s t : State} {l : List Nat}

theorem Keeps.thenSv (h : Keeps s t l) (x : SvSt) : Keeps s (t.withSv x) l := ⟨h.regs, h.bytes, h.ctxs, h.queue⟩

theorem Keeps.thenNow (h : Keeps s t l) (n : Nat) : Keeps s (t.withNow n) l := ⟨h.regs, h.bytes, h.ctxs, h.queue⟩

theorem Keeps.thenBank (h : Keeps s t l) (b n : Nat) (hl : R.SV_STATUS ∈ l) : Keeps s (t.setFld (bankFld b) n) l :=
  h.thenFld n (by rwa [bankFld_addr])

theorem Keeps.stable (h : Keeps s t l) (on : Bool) (hl : R.CLASSA_COND ∈ l) : Keeps s (t.stable on) l :=
  .ite (h.thenFld _ hl) (((h.thenFld _ hl).thenFld _ hl).thenRaise _)

theorem Keeps.svFree (h : Keeps s t l) (b : Nat) (hst : R.SV_STATUS ∈ l) (hin : R.SV_INFLIGHT ∈ l)
    (hc : R.CLASSA_COND ∈ l) : Keeps s (t.svFree b) l :=
  (((h.thenBank b 0 hst).thenSv _).thenFld 0 hin).stable true hc

end

/-! ## What the rules of the survey leave -/

section
variable (s : State)

/-- A bank that is freed. -/
theorem State.svFree_spec (b : Nat) : (s.svFree b).bank b = 0 ∧ (s.svFree b).fld R.SV_INFLIGHT_OLD = 0 ∧
    (s.svFree b).fld R.CLASSA_COND_SURVEY_STABLE = 1 := by
  unfold State.svFree
  refine ⟨?_, ?_, State.stable_surveyStable _ true⟩
  · rw [State.stable_bank, State.setFld_bank_ne _ _ _ (by decide), State.withSv_bank,
      State.setBank_bank_same _ _ (by decide)]
  · rw [State.stable_fld _ _ (by decide) (by decide) (by decide), State.setFld_fld_same _ _ (by decide)]
    rfl

/-- A load that starts. -/
theorem State.svLoad_spec (hb : s.bank s.otherBank = 0) (hl : s.fld R.SV_STATUS_LOADING = 0) :
    s.svLoad.fld R.SV_STATUS_LOADING = 1 ∧ s.svLoad.sv.loadAt = some s.now ∧ Keeps s s.svLoad [R.SV_STATUS] := by
  have hgo : ¬ (s.bank s.otherBank ≠ 0 ∨ s.fld R.SV_STATUS_LOADING = 1) := by omega
  unfold State.svLoad
  rw [if_neg hgo]
  refine ⟨?_, rfl, (Keeps.setFld s R.SV_STATUS_LOADING 1).thenSv _⟩
  rw [State.withSv_fld, State.setFld_fld_same _ _ (by decide)]
  rfl

/-- A flip that is armed. -/
theorem State.svFlip_armed (hb : s.bank s.otherBank = 1) : ∃ t, s.svFlip = some t ∧ t.fld R.SV_STATUS_FLIP_PEND = 1 ∧
    t.bank s.otherBank = 1 ∧ t.fld R.SV_STATUS_FLIP_LATE =
      (if s.fld R.SV_FLIP_AT_DRIP_NO ≤ s.fld R.DRIP_NUMBER_NUMBER then 1 else s.fld R.SV_STATUS_FLIP_LATE) ∧
    Keeps s t [R.SV_STATUS] := by
  have hpend : (s.setFld R.SV_STATUS_FLIP_PEND 1).fld R.SV_STATUS_FLIP_PEND = 1 := State.setFld_fld_same s 1 (by decide)
  have hbank : (s.setFld R.SV_STATUS_FLIP_PEND 1).bank s.otherBank = 1 :=
    (State.setFld_bank_ne s 1 _ (by decide)).trans hb
  have hkeep := Keeps.setFld s R.SV_STATUS_FLIP_PEND 1
  unfold State.svFlip State.dripNo
  rw [if_neg (fun hne => hne hb)]
  refine ⟨_, rfl, ?_⟩
  split
  · refine ⟨?_, (State.setFld_bank_ne _ 1 _ (by decide)).trans hbank, State.setFld_fld_same _ 1 (by decide),
      hkeep.thenFld 1 (by decide)⟩
    exact (State.setFld_fld_ne _ 1 (by decide) (by decide)).trans hpend
  · exact ⟨hpend, hbank, State.setFld_fld_ne s 1 (by decide) (by decide), hkeep⟩

/-- A flip that is discarded. -/
theorem State.svFlip_discarded (hb : s.bank s.otherBank ≠ 1) : s.svFlip = none := if_pos hb

/-- A bank that is forced free is freed, whatever the packets and records under way leave. -/
theorem State.svForce_frees (hb : s.bank s.otherBank = 3) : ∃ u : State, s.svForce = u.svFree s.otherBank := by
  unfold State.svForce
  dsimp only
  rw [if_neg (fun hne => hne hb)]
  exact ⟨_, rfl⟩

/-- An Open before the drip of the flip. -/
theorem State.svOpen_early (h : s.fld R.DRIP_NUMBER_NUMBER < s.fld R.SV_FLIP_AT_DRIP_NO) : s.svOpen = s := by
  have hwait : ¬ s.fld R.SV_FLIP_AT_DRIP_NO ≤ s.dripNo := Nat.not_le.2 h
  unfold State.svOpen
  rw [if_neg (by simp [hwait])]

/-- The Open of the flip's drip, or a later one: the banks change their parts. -/
theorem State.svOpen_flips (hp : s.fld R.SV_STATUS_FLIP_PEND = 1) (hb : s.bank s.otherBank = 1)
    (hd : s.fld R.SV_FLIP_AT_DRIP_NO ≤ s.fld R.DRIP_NUMBER_NUMBER) :
    s.svOpen.epoch = s.otherBank ∧ s.svOpen.bank s.otherBank = 2 ∧ s.svOpen.bank s.epoch = 3 ∧
      s.svOpen.fld R.SV_STATUS_FLIP_PEND = 0 := by
  have hdue : s.fld R.SV_FLIP_AT_DRIP_NO ≤ s.dripNo := hd
  have hlt := s.epoch_lt
  have hother : s.otherBank = 1 - s.epoch := rfl
  have hapart : s.otherBank = 0 ↔ s.epoch ≠ 0 := by omega
  unfold State.svOpen
  rw [if_pos (by simp [hp, hdue, hb])]
  dsimp only
  rw [← hother]
  refine ⟨?_, ?_, ?_, ?_⟩
  · rw [State.epoch]
    simp (disch := decide) only [State.stable_fld, State.withSv_fld, State.setFld_fld_ne, State.setFld_fld_same]
    exact Nat.mod_eq_of_lt (show s.otherBank < 2 by omega)
  · simp (disch := decide) only [State.stable_bank, State.withSv_bank, State.setFld_bank_ne]
    rw [State.setBank_bank_other _ _ _ hapart, State.setBank_bank_same _ _ (by decide)]
  · simp (disch := decide) only [State.stable_bank, State.withSv_bank, State.setFld_bank_ne, State.setBank_bank_same]
  · simp (disch := decide) only [State.stable_fld, State.withSv_fld, State.setFld_fld_ne, State.setFld_fld_same]
    rfl

theorem State.svRec_recOnly (code : Nat) : RecOnly s (s.svRec code) := RecOnly.raise _ _

/-! ### The end of a load -/

theorem ite_lt_of_lt {c : Prop} [Decidable c] {x y n : Nat} (hx : x < n) (hy : y < n) : (if c then x else y) < n := by
  split
  · exact hx
  · exact hy

theorem State.loadErr_lt (b : Nat) : s.loadErr b < 8 := by
  unfold State.loadErr
  extract_lets ps pathErr ls all exceed
  iterate 7 refine ite_lt_of_lt (by decide) ?_
  decide

/-- The state with the outcome of the load check: no load in progress, and its code shown. -/
def State.loadChecked (s : State) : State :=
  ((s.setFld R.SV_STATUS_LOADING 0).withSv { s.sv with loadAt := none }).setFld R.SV_STATUS_LOAD_ERR (s.loadErr s.otherBank)

theorem exec_surveyLoadComplete (hl : s.fld R.SV_STATUS_LOADING = 1) : exec .surveyLoadComplete s = .next (
    if s.loadErr s.otherBank = 0 then s.loadChecked.setFld (bankFld s.otherBank) 1
    else (s.loadChecked.setFld R.SV_STATUS_LOAD_REJ 1).svRec (s.loadErr s.otherBank)) :=
  congrArg Host.Outcome.next (if_neg (by omega))

theorem State.loadChecked_spec : s.loadChecked.fld R.SV_STATUS_LOADING = 0 ∧
    s.loadChecked.fld R.SV_STATUS_LOAD_ERR = s.loadErr s.otherBank ∧
    (∀ b, s.loadChecked.bank b = s.bank b) ∧ Keeps s s.loadChecked [R.SV_STATUS] := by
  unfold State.loadChecked
  refine ⟨?_, ?_, fun b => ?_, ((Keeps.setFld s R.SV_STATUS_LOADING 0).thenSv _).thenFld _ (by decide)⟩
  · simp (disch := decide) only [State.setFld_fld_ne, State.withSv_fld, State.setFld_fld_same]
    rfl
  · rw [State.setFld_fld_same _ _ (by decide)]
    exact Nat.mod_eq_of_lt (Nat.lt_trans (s.loadErr_lt _) (by decide))
  · simp (disch := decide) only [State.setFld_bank_ne, State.withSv_bank]

/-- A load that ends: the bank is LOADED where the check found nothing, and the load is rejected where it did. -/
theorem surveyLoadComplete_next (hl : s.fld R.SV_STATUS_LOADING = 1) :
    ∃ t, exec .surveyLoadComplete s = .next t ∧ t.fld R.SV_STATUS_LOADING = 0 ∧
      t.fld R.SV_STATUS_LOAD_ERR = s.loadErr s.otherBank ∧ (s.loadErr s.otherBank = 0 → t.bank s.otherBank = 1) ∧
      (s.loadErr s.otherBank ≠ 0 → t.fld R.SV_STATUS_LOAD_REJ = 1 ∧ t.bank s.otherBank = s.bank s.otherBank) ∧
      Keeps s t [R.SV_STATUS] := by
  obtain ⟨hloading, herr, hbank, hkeep⟩ := s.loadChecked_spec
  rw [exec_surveyLoadComplete s hl]
  generalize s.loadChecked = u at hloading herr hbank hkeep
  refine ⟨_, rfl, ?_⟩
  split
  · next h0 =>
    refine ⟨?_, ?_, fun _ => State.setBank_bank_same u _ (by decide), fun hne => absurd h0 hne,
      hkeep.thenBank _ 1 (by decide)⟩
    · exact (State.setBank_fld_ne u 1 _ (by decide) (by decide)).trans hloading
    · exact (State.setBank_fld_ne u 1 _ (by decide) (by decide)).trans herr
  · next h0 =>
    have hrec := (u.setFld R.SV_STATUS_LOAD_REJ 1).svRec_recOnly (s.loadErr s.otherBank)
    refine ⟨?_, ?_, fun h => absurd h h0, fun _ => ⟨?_, ?_⟩, (hkeep.thenFld 1 (by decide)).thenRaise _⟩
    · exact (hrec.fld (by decide)).trans ((State.setFld_fld_ne u 1 (by decide) (by decide)).trans hloading)
    · exact (hrec.fld (by decide)).trans ((State.setFld_fld_ne u 1 (by decide) (by decide)).trans herr)
    · exact (hrec.fld (by decide)).trans (State.setFld_fld_same u 1 (by decide))
    · exact (hrec.bank _).trans ((State.setFld_bank_ne u 1 _ (by decide)).trans (hbank _))

/-! ### A drain -/

section
variable (hb : s.bank s.otherBank = 3)
include hb

theorem inflightCountReport_next : ∃ t, exec .inflightCountReport s = .next t ∧
    t.fld R.SV_INFLIGHT_OLD = s.oldLeft s.otherBank % 2 ^ 48 ∧ Keeps s t [R.SV_INFLIGHT] :=
  ⟨_, congrArg Host.Outcome.next (if_pos hb), State.setFld_fld_same s _ (by decide), Keeps.setFld s _ _⟩

theorem surveyDrainComplete_next (h0 : s.fld R.SV_INFLIGHT_OLD = 0) : ∃ t, exec .surveyDrainComplete s = .next t ∧
    t.bank s.otherBank = 0 ∧ t.fld R.CLASSA_COND_SURVEY_STABLE = 1 ∧
    Keeps s t [R.SV_STATUS, R.SV_INFLIGHT, R.CLASSA_COND] := by
  obtain ⟨hbank, -, hstable⟩ := s.svFree_spec s.otherBank
  exact ⟨_, congrArg Host.Outcome.next (if_pos (by simp [hb, h0])), hbank, hstable,
    (Keeps.refl s _).svFree _ (by decide) (by decide) (by decide)⟩

theorem exec_surveyDrainLate {d : Nat} (hd : s.sv.drainAt = some d) (hl : s.sv.lateRec = false) :
    exec .surveyDrainLate s = .next (
      ((((s.withNow (max s.now (d + 1000 * s.fld R.SV_CTRL_DRAIN_LIMIT_US))).setFld R.SV_STATUS_DRAIN_LATE 1).svRec 0)).withSv
        { s.sv with lateRec := true }) := by
  have hcond : (decide (s.bank s.otherBank = 3) && !s.sv.lateRec) = true := by simp [hb, hl]
  refine congrArg Host.Outcome.next ?_
  rw [hd]
  exact if_pos hcond

theorem surveyDrainLate_next {d : Nat} (hd : s.sv.drainAt = some d) (hl : s.sv.lateRec = false) :
    ∃ t, exec .surveyDrainLate s = .next t ∧ t.fld R.SV_STATUS_DRAIN_LATE = 1 ∧
      t.now = max s.now (d + 1000 * s.fld R.SV_CTRL_DRAIN_LIMIT_US) ∧ Keeps s t [R.SV_STATUS] := by
  rw [exec_surveyDrainLate s hb hd hl]
  generalize max s.now (d + 1000 * s.fld R.SV_CTRL_DRAIN_LIMIT_US) = n
  have hrec := ((s.withNow n).setFld R.SV_STATUS_DRAIN_LATE 1).svRec_recOnly 0
  refine ⟨_, rfl, ?_, ?_, ((((Keeps.refl s _).thenNow n).thenFld 1 (by decide)).thenRaise _).thenSv _⟩
  · rw [State.withSv_fld]
    exact (hrec.fld (by decide)).trans (State.setFld_fld_same _ 1 (by decide))
  · rw [State.withSv_now]
    exact hrec.now

end

end

/-! ## A write of SV_CTRL -/

/-- SV_CTRL, as the register map has it. -/
def svCtrlFound : Found := ⟨.SV, 0x200000400000, ⟨.SV_CTRL, 0x0, [], 0xffff0000, 0x0, 0xe, 0x0, 0xc80000⟩⟩

theorem regAt_SV_CTRL : regAt R.SV_CTRL = some svCtrlFound := by decide

/-- The bits of a field of three. -/
theorem getBits_three (v : Word) (lo : Nat) : getBits v lo 1 = getBits v lo 3 % 2 ∧
    getBits v (lo + 1) 1 = getBits v lo 3 / 2 % 2 ∧ getBits v (lo + 2) 1 = getBits v lo 3 / 4 % 2 := by
  simp only [getBits, Nat.shiftRight_eq_div_pow, Nat.pow_add, ← Nat.div_div_eq_div_mul]
  omega

section
variable {s : State} {src : Src} {f : Found} {v : Word}

/-- A write of SV_CTRL that lands: LOAD_DONE, FLIP and FORCE_FREE in turn; a flip that is discarded discards the write. -/
theorem State.regWrite_SV_CTRL (h : Lands s src R.SV_CTRL f whole v) : ∃ w : Word,
    s.regWrite src R.SV_CTRL 8 v.toNat =
      let s1 := s.setReg R.SV_CTRL w
      let s2 := if getBits v 1 3 % 2 == 1 then s1.svLoad else s1
      let s3 := if getBits v 1 3 / 2 % 2 == 1 then s2.svFlip else some s2
      (s3.map (fun u => if getBits v 1 3 / 4 % 2 == 1 then u.svForce else u)).getD (s.refuse src 16 R.SV_CTRL v.toNat) := by
  obtain rfl : _ = f := Option.some.inj (regAt_SV_CTRL.symm.trans h.found)
  have hcov := State.covered_whole (s := s) (src := src) (f := svCtrlFound) rfl (by decide) (by decide)
  obtain ⟨h1, h2, h3⟩ := getBits_three v 1
  have hload := (getBits_wo (v := v) (0xe#64) (b := 1) (by decide) (by decide)).trans h1
  have hflip := (getBits_wo (v := v) (0xe#64) (b := 2) (by decide) (by decide)).trans h2
  have hforce := (getBits_wo (v := v) (0xe#64) (b := 3) (by decide) (by decide)).trans h3
  have hw := State.regWrite_lands h (by rw [hcov]; show whole &&& (0xffff0000#64 ||| 0x0#64 ||| 0xe#64) ≠ 0; decide)
  rw [hcov] at hw
  generalize written s R.SV_CTRL _ whole v = n at hw
  refine ⟨n, hw.trans ?_⟩
  simp only [svCtrlFound, State.wrBlock, State.wrSv, CsrWr.asks, hload, hflip, hforce]
  rfl

/-- A write that asks for LOAD_DONE alone. -/
theorem State.regWrite_loadDone (h : Lands s src R.SV_CTRL f whole v) (hv : getBits v 1 3 = 1) :
    ∃ w : Word, s.regWrite src R.SV_CTRL 8 v.toNat = (s.setReg R.SV_CTRL w).svLoad := by
  obtain ⟨w, hw⟩ := State.regWrite_SV_CTRL h
  exact ⟨w, by simpa [hv] using hw⟩

/-- A write that asks for FLIP alone. -/
theorem State.regWrite_flip (h : Lands s src R.SV_CTRL f whole v) (hv : getBits v 1 3 = 2) :
    ∃ w : Word, s.regWrite src R.SV_CTRL 8 v.toNat =
      (s.setReg R.SV_CTRL w).svFlip.getD (s.refuse src 16 R.SV_CTRL v.toNat) := by
  obtain ⟨w, hw⟩ := State.regWrite_SV_CTRL h
  exact ⟨w, by simpa [hv] using hw⟩

/-- A write that asks for FORCE_FREE alone. -/
theorem State.regWrite_forceFree (h : Lands s src R.SV_CTRL f whole v) (hv : getBits v 1 3 = 4) :
    ∃ w : Word, s.regWrite src R.SV_CTRL 8 v.toNat = (s.setReg R.SV_CTRL w).svForce := by
  obtain ⟨w, hw⟩ := State.regWrite_SV_CTRL h
  exact ⟨w, by simpa [hv] using hw⟩

/-- The value of SV_CTRL plays no part in which bank is the other one, or in its state. -/
theorem State.setSvCtrl_bank (s : State) (w : Word) : (s.setReg R.SV_CTRL w).otherBank = s.otherBank ∧
    ∀ b, (s.setReg R.SV_CTRL w).bank b = s.bank b :=
  ⟨State.setReg_otherBank_ne s w (by decide), fun b => State.setReg_bank_ne s b w (by decide)⟩

theorem loadDone_next (h : Lands s src R.SV_CTRL f whole v) (hv : getBits v 1 3 = 1) (hb : s.bank s.otherBank = 0)
    (hl : s.fld R.SV_STATUS_LOADING = 0) :
    ∃ t, exec (.loadDone src v) s = .next t ∧ t.fld R.SV_STATUS_LOADING = 1 ∧ t.sv.loadAt = some s.now ∧
      Keeps s t [R.SV_CTRL, R.SV_STATUS] := by
  obtain ⟨w, hw⟩ := State.regWrite_loadDone h hv
  obtain ⟨hother, hbank⟩ := State.setSvCtrl_bank s w
  obtain ⟨hload, hat, hkeep⟩ := (s.setReg R.SV_CTRL w).svLoad_spec (by rw [hother, hbank, hb])
    ((State.setReg_fld_ne s w (by decide)).trans hl)
  exact ⟨_, congrArg Host.Outcome.next hw, hload, hat, (Keeps.setReg s R.SV_CTRL w).trans hkeep⟩

theorem flip_next (h : Lands s src R.SV_CTRL f whole v) (hv : getBits v 1 3 = 2) (hb : s.bank s.otherBank = 1) :
    ∃ t, exec (.flip src v) s = .next t ∧ t.fld R.SV_STATUS_FLIP_PEND = 1 ∧ t.bank s.otherBank = 1 ∧
      t.fld R.SV_STATUS_FLIP_LATE =
        (if s.fld R.SV_FLIP_AT_DRIP_NO ≤ s.fld R.DRIP_NUMBER_NUMBER then 1 else s.fld R.SV_STATUS_FLIP_LATE) ∧
      Keeps s t [R.SV_CTRL, R.SV_STATUS] := by
  obtain ⟨w, hw⟩ := State.regWrite_flip h hv
  obtain ⟨hother, hbank⟩ := State.setSvCtrl_bank s w
  obtain ⟨t, ht, hpend, hloaded, hlate, hkeep⟩ := (s.setReg R.SV_CTRL w).svFlip_armed (by rw [hother, hbank, hb])
  rw [hother] at hloaded
  simp (disch := decide) only [State.setReg_fld_ne] at hlate
  rw [ht, Option.getD_some] at hw
  exact ⟨t, congrArg Host.Outcome.next hw, hpend, hloaded, hlate, (Keeps.setReg s R.SV_CTRL w).trans hkeep⟩

theorem flip_discarded (h : Lands s src R.SV_CTRL f whole v) (hv : getBits v 1 3 = 2) (hb : s.bank s.otherBank ≠ 1) :
    ∃ r, r.cls = CE ∧ exec (.flip src v) s = .next (s.raise r) := by
  obtain ⟨w, hw⟩ := State.regWrite_flip h hv
  obtain ⟨hother, hbank⟩ := State.setSvCtrl_bank s w
  rw [State.svFlip_discarded _ (by rwa [hother, hbank]), Option.getD_none] at hw
  obtain ⟨r, hr, hraise⟩ := s.refuse_raises src 16 R.SV_CTRL v.toNat
  exact ⟨r, hr, congrArg Host.Outcome.next (hw.trans hraise)⟩

theorem forceFree_next (h : Lands s src R.SV_CTRL f whole v) (hv : getBits v 1 3 = 4) (hb : s.bank s.otherBank = 3) :
    ∃ t, exec (.forceFree src v) s = .next t ∧ t.bank s.otherBank = 0 ∧ t.fld R.SV_INFLIGHT_OLD = 0 ∧
      t.fld R.CLASSA_COND_SURVEY_STABLE = 1 := by
  obtain ⟨w, hw⟩ := State.regWrite_forceFree h hv
  obtain ⟨hother, hbank⟩ := State.setSvCtrl_bank s w
  obtain ⟨u, hu⟩ := (s.setReg R.SV_CTRL w).svForce_frees (by rw [hother, hbank, hb])
  rw [hother] at hu
  exact ⟨_, congrArg Host.Outcome.next (hw.trans hu), u.svFree_spec _⟩

end

end Sys2Proof.Machine
end

section
/-! SUPPORT. The statement of the survey's banks. -/

open Sys2Proof Sys2Proof.Machine

/-- Settles O33: a write of SV_CTRL that lands is LOAD_DONE, FLIP or FORCE_FREE by itself, none of which the value kept of the
register concerns; at the Open the two banks change their parts, each in a field of its own. -/
theorem surveyBanks : Obligations.SurveyBanks := by
  unfold Obligations.SurveyBanks
  intro s b
  refine ⟨fun src v f h => ⟨loadDone_next h, flip_next h, flip_discarded h, forceFree_next h⟩,
    fun hp hb => ⟨s.svOpen_early, s.svOpen_flips hp hb⟩, surveyLoadComplete_next s, fun hb => ?drain⟩
  case drain =>
    exact ⟨inflightCountReport_next s hb, surveyDrainComplete_next s hb, fun _ => surveyDrainLate_next s hb⟩

end
